-- ==== Sys2Proof/Word.lean ====
section
/-!
DEFINITION. Word.lean: the machine's words and its one container.
A byte, the words the manual numbers as bits, and `Tab`, a sparse table: a list of (index, value) pairs read with a
default, which is how State holds every indexed bank (registers, channels, rings, counters) as plain data.
-/
namespace Sys2Proof

/-- A byte (R3). -/
abbrev Byte := BitVec 8
/-- A 16-bit word. -/
abbrev W16 := BitVec 16
/-- A 32-bit register or mailbox word (R423). -/
abbrev W32 := BitVec 32
/-- A 64-bit quantity: module time, addresses, parameter values. -/
abbrev W64 := BitVec 64

/-- A sparse bank: an index that is not listed reads as the bank's default. -/
abbrev Tab (α : Type) := List (Nat × α)

/-- The entry at index `j`, or `d` where none is listed. -/
def Tab.get {α : Type} : Tab α → Nat → α → α
  | [], _, d => d
  | (i, x) :: t, j, d => if i = j then x else Tab.get t j d

/-- The bank with entry `j` set to `v`, in rising order of index. -/
def Tab.set {α : Type} : Tab α → Nat → α → Tab α
  | [], j, v => [(j, v)]
  | (i, x) :: t, j, v =>
    if j < i then (j, v) :: (i, x) :: t
    else if j = i then (j, v) :: t
    else (i, x) :: Tab.set t j v

/-- The bank without entry `j`. -/
def Tab.del {α : Type} : Tab α → Nat → Tab α
  | [], _ => []
  | (i, x) :: t, j => if i = j then Tab.del t j else (i, x) :: Tab.del t j

/-- The entry at index `j`, if one is listed. -/
def Tab.find {α : Type} : Tab α → Nat → Option α
  | [], _ => none
  | (i, x) :: t, j => if i = j then some x else Tab.find t j

/-- The bank with `f` applied to every listed entry. -/
def Tab.mapv {α : Type} (f : Nat → α → α) : Tab α → Tab α
  | [] => []
  | (i, x) :: t => (i, f i x) :: Tab.mapv f t

/-- Ticks of 2.5 ns in one microsecond (R4, R5). -/
abbrev usTicks : Nat := 400
/-- Ticks of 2.5 ns in one millisecond. -/
abbrev msTicks : Nat := 400000
/-- Ticks of 2.5 ns in one second. -/
abbrev sTicks : Nat := 400000000

end Sys2Proof
end

