-- ==== Sys2Proof/Syntax.lean ====
section
/-!
DEFINITION. Syntax.lean: the commands of the block, one constructor for each row of spec/opcode_table.json, with the
operands the row's rule gives it: a descriptor (R295), a register access, or what the module's own hardware saw when
the event fell. Physical quantities carry the encodings of R4 (0.01 Nm, 0.01 rpm, mA, mV, 0.01 degC, 2.5 ns ticks).
-/
namespace Sys2Proof

/-- The two traction bridges (R5). -/
inductive Bridge where
  | brA | brB
  deriving DecidableEq, Repr

/-- The path a descriptor came on: a ring (R292) or the CAN fallback path (R377). -/
inductive Path where
  | ring (n : Fin 64)
  | can
  deriving DecidableEq, Repr

/-- A descriptor in the layout of R295 less its opcode, which the command names. `payload` holds bytes 16-63, byte 16
in its low bits. `dma` is what the module's DMA reads at the host address the payload names, and `sigOk` the verdict of
the signature engine on it (R309, R345); both are inputs from outside the module. -/
structure Desc where
  path : Path
  session : W16 := 0
  tag : W32 := 0
  flags : Byte := 0
  cinch : Byte := 0
  len : W16 := 0
  rsvd : W32 := 0
  payload : BitVec 384 := 0
  dma : List Byte := []
  sigOk : Bool := false
  deriving DecidableEq, Repr

/-- The frame formats of a CAN channel (R369). -/
inductive CanFmt where
  | cc | fd | fdBrs | xl
  deriving DecidableEq, Repr

/-- A CAN frame (R367-R369): frame word (identifier bits 28:0, IDE bit 29), format, XL header fields, data. -/
structure CanFrame where
  word : W32
  fmt : CanFmt
  sdt : Byte := 0
  vcid : Byte := 0
  af : W32 := 0
  data : List Byte := []
  deriving DecidableEq, Repr

/-- One converter sample (R56, R58, R61): the core that took it, its raw code, its instant in module time, and the high sides
of the six legs commanded on at that instant shifted by the accumulator's alignment delay, UA in bit 0 to WB in bit 5. -/
structure Sample where
  core : Fin 32
  code : Int
  instant : W64
  highs : BitVec 6 := 0
  deriving DecidableEq, Repr

/-- What a general pair does at the instant of an urgent request, other urgent requests aside (R64): nothing, a scheduled
resolver slot, or housekeeping for an accumulator. -/
inductive PairUse where
  | idle
  | slot
  | housekeeping (acc : Fin 128)
  deriving DecidableEq, Repr

/-- One leg of a 100 us window of gain tracking (R71), in corrected codes: the sum and number of samples while its high side
was on, and the number of all its samples. -/
structure LegWindow where
  sum : Int
  gated : Nat
  all : Nat
  deriving DecidableEq, Repr

/-- One window of gain tracking (R71): the six legs UA-WB with their HS gates, and IDC ungated. -/
structure GainWindow where
  legs : List LegWindow
  idc : Int
  count : Nat
  deriving DecidableEq, Repr

/-- The six full-service images in the order of R26. -/
inductive ImageKind where
  | safe | trac | conv | actu | sens | app
  deriving DecidableEq, Repr

/-- What the hash and signature engine finds in an image it has read (R336, R337). -/
structure ImageInfo where
  magicOk : Bool
  format : Byte
  kind : Byte
  stateFormat : W16
  version : W32
  totalLen : Nat
  keyHash : BitVec 256
  sigOk : Bool
  bodyOk : Bool
  deriving DecidableEq, Repr

/-- What a bridge's tile sees at a control boundary beside its records and sensors (R104, R106, R132): the flux observer's
electrical angle and its speed; the sizes of its back-EMF prediction residual and of the back-EMF in mV; its d-axis flux
residual in 0.1 uVs; and the period-true voltage applied in the control period that ended, in mV along phase U and 90 degrees
ahead of it. -/
structure BoundaryInput where
  obsAngle : W32
  obsSpeed : Int
  residual : Nat
  emf : Nat
  fluxResidual : Int
  vAlpha : Int
  vBeta : Int
  deriving DecidableEq, Repr

/-- A resolver's slots at one peak of the carrier (R89): the instant of the peak in module time, and the BURSTs of SIN, COS and
the excitation feedback in raw codes, none where an urgent request took the slot. -/
structure PeakSlots where
  instant : W64
  sin : Option (List Int)
  cos : Option (List Int)
  exc : Option (List Int)
  deriving DecidableEq, Repr

/-- A pulse of IDENT_STANDSTILL on one axis (R134): the current before and after it in mA, and the flux increment integrated
from voltage less Rs x i, in 0.1 uVs. -/
structure IdentPulse where
  from' : Int
  to' : Int
  flux : Int
  deriving DecidableEq, Repr

/-- What a requested identification measured (R134-R136): period-true voltage in mV and current in mA at the two d-axis levels,
the pulses of either axis, and the electrical offset that INITIAL_ANGLE found. `i1` is also the current of DISCHARGE_TEST (R287). -/
structure IdentData where
  v1 : Int := 0
  i1 : Int := 0
  v2 : Int := 0
  i2 : Int := 0
  dPulses : List IdentPulse := []
  qPulses : List IdentPulse := []
  offset : W32 := 0
  deriving DecidableEq, Repr

/-- A pair frame (R390), as its check found it. -/
structure PairFrame where
  crcOk : Bool
  second : Bool
  mode : Byte
  stateA : Byte
  stateB : Byte
  okDriven : Bool
  debugSplit : Bool
  precharge : Bool
  discharge : Bool
  share : Byte
  shareTime : W64
  loopA : W32
  loopB : W32
  periodStart : W64
  seq : W32
  deriving DecidableEq, Repr

/-- One edge of a leg as the tile timed it in the last period, in steps of 78.125 ps (R154, R155, R162): leg of the bridge, direction
of hand-over, the node's transition after the period start, t_off, from the command to the start of the voltage transition, and
t_10-90 of the transition. -/
structure EdgeMeas where
  leg : Fin 3
  rising : Bool
  at' : Nat
  tOff : Nat
  start : Nat
  rise : Nat
  deriving DecidableEq, Repr

/-- What drains under R50. -/
inductive DrainFn where
  | ring (n : Fin 64) | bridge (b : Bridge) | charge | lv | act
  deriving DecidableEq, Repr

/-- Owners of memories (R14, R351 counter 0x040 on). -/
inductive MemOwner where
  | app (core : Fin 4)
  | negoac (core : Fin 3)
  | tile (b : Bridge)
  | conversion
  | actuator
  | sensing
  | ringEngine
  deriving DecidableEq, Repr

/-- Lost clock domains of R29: CK2, CK6, or a PLL's lock. -/
inductive ClockLoss where
  | ck2 | ck6 | pll (n : Fin 14)
  deriving DecidableEq, Repr

/-- What a test of a safety output measured (R267). -/
inductive SoFinding where
  /-- An output that is on: whether the coil voltage collapsed while one of its switches was off for 300 us. -/
  | gap (collapsed : Bool)
  /-- An output that is on: the current in its low-side switch in mA for `held` ticks. -/
  | current (ma : Int) (held : Nat)
  /-- An output that is off: its voltage in mV with both switches off before the test, and with 1 mA driven into the coil. -/
  | off (before during : Int)
  deriving DecidableEq, Repr

/-- The HVIL loop current in microamperes (R282). -/
abbrev HvilCurrent := Int

/-- Negoac vote outcomes (R260). -/
inductive VoteFinding where
  | one (core : Fin 3) | noMajority
  deriving DecidableEq, Repr

/-- Failures that OFFSTATE_DIAG finds (R167). -/
inductive OffstateFinding where
  | switchShorted (pos : Fin 12) | gateLoop (pos : Fin 12) | switchOpen (pos : Fin 12) | phaseOpen (leg : Fin 6)
  deriving DecidableEq, Repr

/-- Sensors of R191 that report a converter temperature. -/
inductive LvSensor where
  | phase (n : Fin 8) | cellHeatsink | stageHeatsink
  deriving DecidableEq, Repr

/-- DC boost ending events of R225 that are not reported by another row. -/
inductive DcbEvent where
  | sourceLow | ratio | pilotOrPlug | bridgeArrest (b : Bridge) | partnerLeftOpen
  /-- Current that is not zero-sequence and that of the star point in mA, and the torque estimate of a bridge in 0.01 Nm, all for `held`
  ticks. -/
  | torque (b : Bridge) (stray star torque : Int) (held : Nat)
  deriving DecidableEq, Repr

/-- What speaks for a missing or a shorted battery (R227), in mV and mA. -/
inductive BattFault where
  /-- The battery voltage within 100 ms, from and to, and the charge current. -/
  | rise (low high amps : Int)
  /-- The battery voltage. -/
  | over (volts : Int)
  /-- CH56 of an LV target, while CH14 is in regulation. -/
  | lvOpen (ch56 : Int)
  /-- The battery voltage and charge current for `held` ticks. -/
  | low (volts amps : Int) (held : Nat)
  /-- The battery voltage within 1 s, from and to, and the charge current, from and to. -/
  | drop (high low a0 a1 : Int)
  deriving DecidableEq, Repr

/-- The plug classes of R209. -/
inductive PpClass where
  | noPlug | plug (limitA : Nat) | invalid
  deriving DecidableEq, Repr

/-- The pilot states of R210. -/
inductive CpState where
  | cpA | cpB | cpC | cpD | cpE | cpF
  deriving DecidableEq, Repr

/-- The sources a supply of DoIP messages can have; only the length matters to R383. -/
abbrev DoipLength := Nat

/-- Why PTP synchronisation is lost (R382): no Sync for some ticks, with the sync interval in ticks, or peer-delay measurements
that failed in succession. -/
inductive PtpLoss where
  | noSync (interval elapsed : Nat) | peerDelay (failures : Nat)
  deriving DecidableEq, Repr

/-- What a CAN controller met on the bus (R372, ISO 11898-1): lost arbitration, an error while it sent, an error while it received,
and a dominant bit right after the error flag of its reception. -/
inductive CanError where
  | arbitration | transmit | receive | receiveDominant
  deriving DecidableEq, Repr

/-- How a requested test ended (R51, R93, R134-R137, R199): accepted, rejected, or stopped by a hardware fault. -/
inductive TestOutcome where
  | pass | reject | fail
  deriving DecidableEq, Repr

/-- The phases of a debugger attachment command's transfer; a register address in the core. -/
abbrev DebugAddr := W32

/-- The commands, one for each row of spec/opcode_table.json, in its order. -/
inductive Instr where
  /-- MODE_REQUEST, opcode 0x0201 (R35-R38). -/
  | modeRequest (d : Desc)
  /-- TEST_REQUEST, opcode 0x0202 (R51, R52, R438). -/
  | testRequest (d : Desc)
  /-- ACC_SET, opcode 0x0301 (R59-R61). -/
  | accSet (d : Desc)
  /-- MON_SET, opcode 0x0302 (R76-R79). -/
  | monSet (d : Desc)
  /-- MON_CLEAR, opcode 0x0303 (R79). -/
  | monClear (d : Desc)
  /-- CAL_REFERENCE, opcode 0x0304 (R74). -/
  | calReference (d : Desc)
  /-- POS_INDEX_ARM, opcode 0x0401 (R97). -/
  | posIndexArm (d : Desc)
  /-- POS_HARM_LOAD, opcode 0x0402 (R94). -/
  | posHarmLoad (d : Desc)
  /-- TORQUE_SET, opcode 0x0501 (R116-R118). -/
  | torqueSet (d : Desc)
  /-- SPEED_SET, opcode 0x0502 (R116, R119). -/
  | speedSet (d : Desc)
  /-- TORQUE_PAIR, opcode 0x0503 (R120). -/
  | torquePair (d : Desc)
  /-- MOTOR_MAP_LOAD, opcode 0x0504 (R121-R123). -/
  | motorMapLoad (d : Desc)
  /-- LV_CONTROL FORWARD, opcode 0x0701 (R181, R182). -/
  | lvControlForward (d : Desc)
  /-- LV_CONTROL PRECHARGE (R19, R195). -/
  | lvControlPrecharge (d : Desc)
  /-- LV_CONTROL STOP (R181, R50). -/
  | lvControlStop (d : Desc)
  /-- CHARGE_SETUP, opcode 0x0801 (R204). -/
  | chargeSetup (d : Desc)
  /-- CHARGE_PROFILE, opcode 0x0802 (R206). -/
  | chargeProfile (d : Desc)
  /-- CHARGE_CONTROL START, opcode 0x0803 (R207). -/
  | chargeControlStart (d : Desc)
  /-- CHARGE_CONTROL STOP (R207, R233). -/
  | chargeControlStop (d : Desc)
  /-- CHARGE_CONTROL PAUSE (R207). -/
  | chargeControlPause (d : Desc)
  /-- CHARGE_CONTROL RESUME (R207). -/
  | chargeControlResume (d : Desc)
  /-- CHARGE_CONTROL SET_LIMITS (R207). -/
  | chargeControlSetLimits (d : Desc)
  /-- CHARGE_CONTROL INLET_MATCH (R220). -/
  | chargeControlInletMatch (d : Desc)
  /-- CHARGE_CONTROL RESTART_PHASE (R230). -/
  | chargeControlRestartPhase (d : Desc)
  /-- CHG_BATT_STATUS, opcode 0x0804 (R208). -/
  | chgBattStatus (d : Desc)
  /-- ACT_MOVE, opcode 0x0901 (R248, R249). -/
  | actMove (d : Desc)
  /-- GEAR_SHIFT, opcode 0x0902 (R251). -/
  | gearShift (d : Desc)
  /-- SAFETY_CHECK_READ, opcode 0x0A01 (R270, R442). -/
  | safetyCheckRead (d : Desc)
  /-- SAFETY_CONFIRM, opcode 0x0A02 (R270, R442). -/
  | safetyConfirm (d : Desc)
  /-- DISCHARGE, opcode 0x0A03 (R279). -/
  | discharge (d : Desc)
  /-- RING_CREATE, opcode 0x0B01 (R293). -/
  | ringCreate (d : Desc)
  /-- RING_DISABLE, opcode 0x0B02 (R294, R445). -/
  | ringDisable (d : Desc)
  /-- RING_RESET, opcode 0x0B03 (R294, R445). -/
  | ringReset (d : Desc)
  /-- SESSION_OPEN, opcode 0x0B04 (R308-R310). -/
  | sessionOpen (d : Desc)
  /-- SESSION_CLOSE, opcode 0x0B05 (R313). -/
  | sessionClose (d : Desc)
  /-- SESSION_CHALLENGE, opcode 0x0B06 (R309). -/
  | sessionChallenge (d : Desc)
  /-- CINCH_OPEN, opcode 0x0C01 (R324). -/
  | cinchOpen (d : Desc)
  /-- A descriptor with CINCH_MEMBER set, of opcode `op` (R325, R326). -/
  | cinchMemberStage (op : W16) (d : Desc)
  /-- CINCH_COMMIT, opcode 0x0C02 (R328). -/
  | cinchCommit (d : Desc)
  /-- CINCH_ABORT, opcode 0x0C03 (R331). -/
  | cinchAbort (d : Desc)
  /-- PARAM_WRITE, opcode 0x0C04 (R321, R322, R441). -/
  | paramWrite (d : Desc)
  /-- PARAM_READ, opcode 0x0C05 (R323). -/
  | paramRead (d : Desc)
  /-- IMAGE_DIRECTORY, opcode 0x0C06 (R335). -/
  | imageDirectory (d : Desc)
  /-- IMAGE_SWAP, opcode 0x0C07 (R338); `img` is what the engine found in the image it loaded. -/
  | imageSwap (d : Desc) (img : ImageInfo)
  /-- OTP_PROGRAM, opcode 0x0C08 (R345). -/
  | otpProgram (d : Desc)
  /-- OTP_REVOKE, opcode 0x0C09 (R346). -/
  | otpRevoke (d : Desc)
  /-- OVERLAY_LOAD, opcode 0x0C0A (R347). -/
  | overlayLoad (d : Desc)
  /-- TLM_SUBSCRIBE, opcode 0x0D01 (R357). -/
  | tlmSubscribe (d : Desc)
  /-- TLM_UNSUBSCRIBE, opcode 0x0D02 (R357). -/
  | tlmUnsubscribe (d : Desc)
  /-- SNAPSHOT, opcode 0x0D03 (R353-R355). -/
  | snapshot (d : Desc)
  /-- FAULT_ACK, opcode 0x0D04 (R360, R440). -/
  | faultAck (d : Desc)
  /-- FAULT_CLEAR, opcode 0x0D05 (R360). -/
  | faultClear (d : Desc)
  /-- FAULT_HISTORY_READ, opcode 0x0D06 (R362). -/
  | faultHistoryRead (d : Desc)
  /-- CAN_SESSION_OPEN, opcode 0x0E01 (R379). -/
  | canSessionOpen (d : Desc)
  /-- CAN_TX, opcode 0x0E02 (R371). -/
  | canTx (d : Desc)
  /-- CAN_FILTER_SET, opcode 0x0E03 (R367). -/
  | canFilterSet (d : Desc)
  /-- CAN_TT_LOAD, opcode 0x0E04 (R374). -/
  | canTtLoad (d : Desc)
  /-- CAN_BUSOFF_RESTART, opcode 0x0E05 (R372). -/
  | canBusoffRestart (d : Desc)
  /-- A fallback request frame at its end of frame on a channel (R377). -/
  | canFallbackRequest (ch : Fin 4) (f : CanFrame)
  /-- A write to BAR2 of the given width in bits (R299, R436). -/
  | doorbellWrite (offset : BitVec 14) (width : Nat) (value : W32)
  /-- The ring engine takes the next descriptor of a ring; `raw` is its 64 bytes, byte 0 lowest (R301, R302). -/
  | descriptorFetch (ring : Fin 64) (raw : BitVec 512) (dma : List Byte) (sigOk : Bool)
  /-- A waiting completion or record is posted once an entry frees (R300, R305). -/
  | bufferedEntryPost (ring : Fin 64)
  /-- A CQ without a free entry for CQ_STALL_LIMIT (R300). -/
  | cqStall (ring : Fin 64)
  /-- The coalesce time of a ring's oldest unsignalled entry expires (R303). -/
  | coalesceTimeout (ring : Fin 64)
  /-- The host clears a vector's mask bit (R303, R431). -/
  | msixUnmask (vector : Fin 65)
  /-- A non-resident context is paged in for the descriptor held on a ring; `macOk` is the CMAC's verdict (R311, R312). -/
  | contextPageIn (ring : Fin 64) (macOk : Bool)
  /-- A write with ENABLE 1, RESET 0 to RING0_CTRL (R428). -/
  | ring0CtrlEnable (value : W32)
  /-- A write with ENABLE 0, RESET 0 to RING0_CTRL (R428). -/
  | ring0CtrlDisable (value : W32)
  /-- A write with RESET 1 to RING0_CTRL (R428). -/
  | ring0CtrlReset (value : W32)
  /-- A write with ENABLE 1 to SESSION_TABLE_LO (R430). -/
  | sessionTableEnable (value : W32)
  /-- A write with ENABLE 0 to SESSION_TABLE_LO (R430). -/
  | sessionTableDisable (value : W32)
  /-- A read of MODULE_TIME_LO (R426). -/
  | moduleTimeLoRead
  /-- A write to a BAR0 register without behaviour of its own (R423, R427, R431); width 32 or 64. -/
  | registerWrite (offset : W16) (width : Nat) (value : W64)
  /-- A read of MB_LOCK by an agent (R316, R433). -/
  | mbLockRead (mb : Fin 16) (agent : Fin 12)
  /-- A write of 0 to MB_LOCK by an agent (R316, R433). -/
  | mbLockRelease (mb : Fin 16) (agent : Fin 12)
  /-- A write of MB_DATA by an agent (R316, R433). -/
  | mbDataWrite (mb : Fin 16) (agent : Fin 12) (word : W32)
  /-- An agent's write of a return code to the acknowledge register (R316). -/
  | mbAcknowledge (mb : Fin 16) (agent : Fin 12) (code : Byte)
  /-- A write of 1 to TIMEOUT in MB_STATUS (R433). -/
  | mbTimeoutClear (mb : Fin 16)
  /-- The receiver has not read a word within 10 ms (R316). -/
  | mbTimeout (mb : Fin 16)
  /-- A lock held 1 s without a write, or its owner reset (R316). -/
  | mbLockExpiry (mb : Fin 16) (ownerReset : Bool)
  /-- The safety controller answers the word 0x0000_0001 in mailbox 1 (R317). -/
  | ping
  /-- The safety controller takes the word 0x0000_0002 in mailbox 1 (R317). -/
  | sleep
  /-- The safety controller takes the word 0x0000_0003 in mailbox 1 (R317). -/
  | ring0Reset
  /-- The APP image answers a word in mailbox 2 or 3 with a return code (R446). -/
  | appMailboxWord (third : Bool) (code : Byte)
  /-- An enabled wake source fires (R40, R42); `falling`: the edge of WAKE_IN0 or WAKE_IN1 was a falling one; `level`: the
  input of a wake monitor as it stands, as a code of its full scale (R57, R81). -/
  | wakeEvent (source : Fin 14) (falling : Bool) (level : Int)
  /-- WAKE_TIMER expires in P0 (R40). -/
  | wakeTimerExpiry
  /-- A CAN CC frame decoded by a transceiver in selective-wake mode (R373). -/
  | canWakeFrame (ch : Fin 4) (f : CanFrame)
  /-- More than 32 decoding errors before a valid wake frame (R373). -/
  | canWakeErrorCount (ch : Fin 4) (errors : Nat)
  /-- Once P0 alone is powered, the latched wake event wakes the module (R42). -/
  | latchedWake
  /-- VSUP rises above 3.8 V from the unpowered state (R43). -/
  | powerOn (vsup : Int)
  /-- VSUP has stayed below 3.8 V for 1 ms (R24, R43). -/
  | vsupLost (below : Nat)
  /-- The DC link crosses 120 V or 1050 V (R24). -/
  | p11SupplyChange (vdc : Int)
  /-- Bring-up reaches reduced service (R46). -/
  | reducedService
  /-- An image request has gone unanswered for another 100 ms (R47). -/
  | imageRequestRetry
  /-- One second has passed since the first unanswered image request (R47). -/
  | hostAbsent
  /-- An image has been fetched and put through the authentication steps (R337); target names the tile for TRAC. -/
  | imageLoaded (kind : ImageKind) (target : Bridge) (img : ImageInfo)
  /-- The partner asks for one of the running images over E1 (R400). -/
  | partnerImageRequest (kind : ImageKind)
  /-- The control boundary at which a granted transition takes effect (R36). -/
  | modeEdge
  /-- A drain bound passes (R50). -/
  | drainForced (fn : DrainFn)
  /-- BASE_CAMP_IDLE has passed (R48); `wakeActive` says whether a wake source is still active. -/
  | baseCampIdleTimeout (wakeActive : Bool)
  /-- TOPUP_WAIT has passed after a WM0 wake (R44). -/
  | topupNoPermit
  /-- BELAY_TIME has passed since entry (R276). -/
  | belayTimeExpiry
  /-- The application cluster's signal of a 10 ms sub-cycle (R9). -/
  | appSignal
  /-- A sub-cycle passes without the signal (R9). -/
  | appSignalLost
  /-- The thermal budget manager shares out the loss budget (R22), all in W of loss: the budget, and what the control
  electronics, the converter up to the present LV load, the bridges, the charging path and the converter above the LV load
  ask for. -/
  | thermalAllowance (budget electronics lvLoad bridges charging lvAbove : Nat)
  /-- 100 ms have passed without an allowance (R23). -/
  | allowanceTimeout
  /-- A bridge's control boundary (R113). -/
  | controlBoundary (b : Bridge) (m : BoundaryInput)
  /-- A bridge's PWM period start (R152, R153): the edges of the period that ended, in their order (R154). -/
  | pwmPeriodStart (b : Bridge) (edges : List EdgeMeas)
  /-- The leg interlock finds both switches of a leg commanded on; the leg is a source byte of R358. -/
  | legCrossCommand (leg : Fin 64)
  /-- A window monitor's comparators change (R76-R79): `level` is its input as a code of the full scale, and `pwmCount` the PWM
  counter of its time base. -/
  | monitorCrossing (mon : Fin 52) (level : Int) (pwmCount : Nat)
  /-- An accumulator's window closes over these samples of its input (R60-R62). -/
  | accWindowClose (acc : Fin 128) (samples : List Sample)
  /-- An urgent request (R64) for an input now, and what the general pairs 12-15 are doing. -/
  | urgentRequest (input : Fin 96) (p12 p13 p14 p15 : PairUse)
  /-- A background trim run of a pair (R67): required offset trim in LSB and gain trim in 0.001 %. -/
  | interleaveMatch (pair : Fin 16) (offsetTrim gainTrim : Int)
  /-- OFFSET_TRACK_INTERVAL has passed for a bridge (R70). -/
  | offsetTrackStart (b : Bridge)
  /-- A run of a bridge has read its four channels in its windows (R70): the codes with TRIM applied of the three phases and of
  the shunt, each of these with whether the other bridge was in a null vector at that instant. -/
  | offsetTrackDone (b : Bridge) (u v w : List Int) (idc : List (Int × Bool))
  /-- The windows of a second of gain tracking (R71). -/
  | gainTrackFit (windows : List GainWindow)
  /-- A monitor's background test (R80): the spare and the original agreed for a period of the time base, and the original
  toggled in the sweep of its thresholds. Wake monitors are 48-51 (R81). -/
  | monitorComparatorTest (mon : Fin 52) (agreed toggled : Bool)
  /-- REFERENCE_CHECK of CH93 and CH94 against TRIM (R82). -/
  | referenceCheck (pass : Bool)
  /-- An accumulation of system calibration is done (R74): the mean codes of CH0-CH7 with TRIM applied, and the means of the
  first phase of the bridge and of CH6 under vector gate 100, all in 1/16 code. -/
  | calAccumulationDone (means : List Int) (gatedPhase gatedShunt : Int)
  /-- Ten minutes without a reading for the present point (R74). -/
  | calReferenceTimeout
  /-- End of an excitation period: the slots at the positive and at the negative peak (R89). -/
  | resolverPeriod (r : Fin 2) (pos neg : PeakSlots)
  /-- A or B changes its level (R95, R96): the new levels, and for how many ticks they have been stable. -/
  | encEdge (e : Fin 2) (a b : Bool) (stable : Nat)
  /-- Z rises with the given A and B levels (R97) and has been stable for so many ticks. -/
  | encIndex (e : Fin 2) (a b : Bool) (stable : Nat)
  /-- An encoder speed window ends (R99). -/
  | encSpeedWindow (e : Fin 2)
  /-- A Hall set's state changes (R100) and has persisted for so many ticks. -/
  | hallChange (h : Fin 3) (st : Fin 8) (stable : Nat)
  /-- A SENT fast-channel frame (R101, R102): synchronisation length in 1/64 ticks of nominal, nibble lengths in ticks,
  the status and data nibbles and the received CRC nibble, and the pause pulse in ticks where one follows. -/
  | sentFrame (ch : Fin 4) (sync : Nat) (lengths : List Nat) (nibbles : List Nat) (crc : Nat) (pause : Option Nat)
  /-- SENT_TIMEOUT has passed without an accepted frame (R102). -/
  | sentTimeout (ch : Fin 4)
  /-- SETPOINT_TIMEOUT has passed without renewal (R117). -/
  | setpointTimeout (b : Bridge)
  /-- The restart conditions of a bridge in a safe pattern are looked at (R118, R138). -/
  | syncStart (b : Bridge)
  /-- SYNC step 2 ends with these measured values (R138, R139): electrical angle, speed, and the back-EMF in mV peak where the
  bridge is OPEN. -/
  | syncMeasureDone (b : Bridge) (angle : W32) (speed emf : Int)
  /-- The safety controller's millisecond comparison (R146). -/
  | torquePlausibility (b : Bridge)
  /-- VDC has stayed above DC_CEIL for 1 ms (R143). -/
  | trqDcCeiling
  /-- The observer's agreement with the short-circuit current is looked at (R145). -/
  | reacquireLock (b : Bridge)
  /-- REACQ_TIMEOUT has passed (R145). -/
  | trqReacquireFail (b : Bridge)
  /-- A driver reports desaturation (R164, R165); position as in R358. -/
  | desatReport (pos : Fin 12)
  /-- A gate rail reaches a threshold of its UVLO comparator (R161): the -4 V rail or the +18 V rail, and its voltage in mV. -/
  | gateUvloReport (pos : Fin 12) (neg : Bool) (mv : Int)
  /-- A gate rail reaches the threshold of its overvoltage comparator (R161): the rail and its voltage in mV. -/
  | gateRailOvReport (pos : Fin 12) (neg : Bool) (mv : Int)
  /-- A driver's 1 ms report of its eight dies in 0.01 degC, none where the diode reads open or shorted (R166). -/
  | dieTempReport (pos : Fin 12) (t0 t1 t2 t3 t4 t5 t6 t7 : Option Int)
  /-- A bootstrap in mV falls to 10.5 V or rises from it (R169); the leg is a source byte of R358. -/
  | bootLowReport (leg : Fin 64) (mv : Int)
  /-- A bootstrap in mV falls to 8.5 V, or is above 9.5 V again (R170). -/
  | bootUvloReport (leg : Fin 64) (mv : Int)
  /-- A bridge's OFFSTATE_DIAG, started by the module at entry to READY, ends (R167). -/
  | offstateDiag (b : Bridge) (findings : List OffstateFinding)
  /-- The STO path test of a channel by the safety controller (R265): for each gate rail, CH58 to CH61, the ticks until it fell below
  3 V and those until it had recovered. -/
  | stoPath (chB : Bool) (rails : List (Nat × Nat))
  /-- A zero-current or null-vector window in which a waiting gap-class test runs (R51); `psiM` and `elecOffset` are what the
  back-EMF of a window of IDENT_MAGNET gave (R136). -/
  | gapWindow (testId : W16) (inst : Byte) (outcome : TestOutcome) (psiM : Nat) (elecOffset : W32)
  /-- A gap-class test's deadline passes (R51). -/
  | testDeadline (testId : W16) (inst : Byte)
  /-- A requested test or identification finishes with what it measured (R51, R93, R134-R137). -/
  | testComplete (testId : W16) (inst : Byte) (outcome : TestOutcome) (data : IdentData)
  /-- No ASC_ARM write for 1 ms (R175). -/
  | ascArmTimeout (b : Bridge)
  /-- The input of an STO channel at this voltage in mV for `held` ticks (R174, R262). -/
  | stoOpen (chB : Bool) (mv : Int) (held : Nat)
  /-- The input of an STO channel at this voltage in mV with this current in uA (R262, R263). -/
  | stoClose (chB : Bool) (mv ua : Int)
  /-- STO_DISCREPANCY_TIME has passed with one channel still closed (R263). -/
  | stoDiscrepancy
  /-- A tile's checker differs from its primary (R13). -/
  | checkerMismatch (b : Bridge)
  /-- A tile's injected difference (R261): its field, the fields the comparator flagged, and after how many cycles. -/
  | checkerInject (b : Bridge) (field : Nat) (flagged : List Nat) (cycles : Nat)
  /-- A memory error (R14). -/
  | memoryError (owner : MemOwner) (correctable : Bool)
  /-- A voter sees the cores disagree (R260). -/
  | negoacMismatch (f : VoteFinding)
  /-- The cores have restarted from the boot ROM after no majority (R260). -/
  | negoacRestart
  /-- Each voter in turn is forced to see one core differ (R287): whether it masked it. -/
  | voterTest (masked : List Bool)
  /-- The window watchdog of FAULT_OUT channel B, so many ticks after its previous service (R268). -/
  | faultOutWatchdogExpiry (since : Nat)
  /-- Loss of CK2 or CK6 or of a PLL's lock (R29), or the end of that loss (R439). -/
  | clockLoss (c : ClockLoss) (lost : Bool)
  /-- The CK0 crystal fails (R29). -/
  | ck0Fallback
  /-- P4 leaves its window, or CK5 fails (R21), or the end of that (R439). -/
  | senseSupplyLost (lost : Bool)
  /-- A periodic test of a safety output (R267). -/
  | soTest (second : Bool) (finding : SoFinding)
  /-- Active discharge's start is looked at (R25, R279). -/
  | dischargeStart
  /-- 200 ms of discharge have passed with the DC link at `vdc` (R280). -/
  | dischargeHeld (vdc : Int)
  /-- Ten seconds have passed since a held discharge (R280). -/
  | dischargeRetry
  /-- The discharge current on CH6 in mA, looked at after the discharge switch has closed (R280). -/
  | dischargeFail (ma : Int)
  /-- The DC link reaches the given voltage during discharge (R279). -/
  | dischargeDone (vdc : Int)
  /-- The loop current has stayed at this value for `held` ticks (R282). -/
  | hvilLoopChange (microamps : HvilCurrent) (held : Nat)
  /-- The debugger answers the challenge (R283); `sigOk` is the verdict on its signature. -/
  | debugAuthenticate (sigOk : Bool)
  /-- A debugger read (R283). -/
  | debugRead (addr : DebugAddr)
  /-- A debugger halt request (R283). -/
  | debugHalt
  /-- A debugger step of the halted cores (R283). -/
  | debugStep
  /-- A debugger write (R283). -/
  | debugWrite (addr : DebugAddr) (value : W32)
  /-- The debugger attaches (R284). -/
  | debugAttach
  /-- The debugger detaches (R284). -/
  | debugDetach
  /-- The PCIe link has been down for HOST_LINK_GRACE (R314). -/
  | hostLinkLost (down : Nat)
  /-- A hot reset, Function Level Reset or PERST_N (R314). -/
  | hotReset
  /-- The PCIe link is up with the data link layer active (R314). -/
  | hostLinkUp
  /-- A PCIe error on a transfer a ring caused (R315); `sessionTable` marks a session-table transfer. -/
  | hostDmaError (ring : Fin 64) (sessionTable : Bool)
  /-- A commit's members have all staged (R328). -/
  | cinchAccept (slot : Fin 33)
  /-- A committed cinch's instant (R329). -/
  | cinchInstant (slot : Fin 33)
  /-- CINCH_LIFETIME has passed since the open (R331). -/
  | cinchExpired (slot : Fin 33)
  /-- The new SAFE image's check value matches (R340). -/
  | safeSwapRelease
  /-- 50 ms pass without a match (R340). -/
  | safeSwapFail
  /-- One application core has started the new image or failed to (R339). -/
  | appCoreSwap (core : Fin 4) (ok : Bool)
  /-- Programming of an OTP slot has ended: read back, or stopped by VSUP (R345). -/
  | otpProgramDone (ok : Bool)
  /-- A waiting step of module time is looked at (R32). -/
  | timeStep
  /-- An 802.1AS Sync: the received time less module time, in ticks (R32, R382). -/
  | ptpSync (offset : Int)
  /-- Three sync intervals without Sync, or three failed peer-delay runs (R382). -/
  | ptpSyncLost (why : PtpLoss)
  /-- The snapshot instant (R353). -/
  | snapshotInstant
  /-- A subscription's posting time (R356). -/
  | tlmPosting (sub : Fin 64)
  /-- A CAN frame is received (R367). -/
  | canFrameReceived (ch : Fin 4) (f : CanFrame)
  /-- The application cluster posts a Q1 entry (R369). -/
  | canRxRecordPost (ch : Fin 4)
  /-- A read of word 0 of a queue's read window (R370); `q1` selects Q1. -/
  | canQueueLock (ch : Fin 4) (q1 : Bool)
  /-- A read of word 21 (R370). -/
  | canQueueRelease (ch : Fin 4) (q1 : Bool)
  /-- A queue lock held over 100 us (R370). -/
  | canQueueLockTimeout (ch : Fin 4) (q1 : Bool)
  /-- The oldest event-triggered frame of a channel reaches its end of frame; module time of its start of frame (R371). -/
  | canTxSent (ch : Fin 4) (sof : W64)
  /-- The oldest event-triggered frame of a channel has not been sent within 100 ms (R371). -/
  | canTxTimeout (ch : Fin 4)
  /-- 128 occurrences of 11 recessive bits in bus-off (R372). -/
  | canBusoffRecovery (ch : Fin 4) (sequences : Nat)
  /-- A time-triggered reference message (R376): its cycle count and whether this module sent it as master. -/
  | canTtReference (ch : Fin 4) (cycle global : Nat) (ownMaster : Bool)
  /-- A schedule cell's window opens (R375); `seen` is the frame received in it, if any. -/
  | canTtWindow (ch : Fin 4) (column : Fin 64) (seen : Option CanFrame)
  /-- No reference message within the priority delay (R376). -/
  | canTtMasterChange (ch : Fin 4)
  /-- Two basic cycles without a reference message (R376). -/
  | canTtRefLost (ch : Fin 4)
  /-- A DoIP diagnostic message of the given length (R383). -/
  | doipDiagnosticMessage (target : BitVec 16) (length : DoipLength)
  /-- A port in use has had no link for 100 ms (R387). -/
  | ethLinkDown (e1 : Bool) (held : Nat)
  /-- Role exchange at bring-up: whether the partner prefers LEAD, and its serial number, none without a partner (R389);
  `joinedLater`: this module joins a partner that already runs. -/
  | pairRoleExchange (partner : Option (Bool × Nat)) (joinedLater : Bool)
  /-- A pair frame is due (R390). -/
  | pairFrameSend
  /-- A pair frame from the partner (R390). -/
  | pairFrameReceived (f : PairFrame)
  /-- The partner's PARTNER_OK input has opened, filtered (R391, R394). -/
  | partnerOkOpen
  /-- No valid pair frame for 500 us, or for 1 ms (R394, R395). -/
  | pairFrameTimeout
  /-- PARTNER_OK open while frames report torque service for 1 ms (R395). -/
  | pairOkMismatch
  /-- The proximity resistance in ohms, which has stayed in its class for `held` ticks (R209). -/
  | ppClassChange (ohms held : Nat)
  /-- The pilot: positive and negative plateau in mV, PWM frequency in 0.1 Hz (none without PWM), duty in 0.1 %, and the ticks for
  which it has been so (R210). -/
  | cpStateChange (posMv negMv : Int) (freq : Option Nat) (duty held : Nat)
  /-- 20 ms of hand-over have passed (R231, R232). -/
  | handOverEnd
  /-- Mains has been valid for the hold-off (R217, R232). -/
  | outageHoldoffExpiry
  /-- A mains half-cycle: rms voltages of the AC input phases in mV, frequency in 10 mHz, current in mA; or a millisecond of DC boost:
  `v1` the inlet voltage, `amps` the inlet current (R215). A split-phase input has its one voltage in `v1`. -/
  | mainsHalfCycle (v1 v2 v3 : Int) (freq : Nat) (amps : Int)
  /-- Ten seconds since START without an AC source (R207). -/
  | chgNoSource
  /-- Residual current and PE-to-N voltage of a mains cycle (R216): CH37 ac rms, dc in mA, CH38 in mV. -/
  | chgResidual (acMa dcMa peMv : Int)
  /-- EXPORT_TRIP_TIME outside a grid window, or a half-cycle without mains (R217). -/
  | chgGridTrip
  /-- Island load beyond rating for its time (R218). -/
  | chgIslandOverload
  /-- Phase voltages of an islanded output in mV, which have stood so for `held` ticks (R218). -/
  | chgBackfeed (v1 v2 v3 : Int) (held : Nat)
  /-- A look at the exit condition of the charge phase (R226), with the charge current of the module's own channel in mA (R208). -/
  | chargePhaseChange (amps : Int)
  /-- The time since the last look passes at this current; the safety timer may expire (R229, R230). -/
  | chgTimer (amps : Int)
  /-- What speaks for a missing or shorted battery (R227). -/
  | chgBattFault (f : BattFault)
  /-- A look at the battery temperature (R228), with that of the TEMP input named in CHG_LV_TEMP_INPUT, 0.01 degC. -/
  | chgTempWindow (probe : Option Int)
  /-- The OBC heatsink temperature, CH81 (R219). -/
  | obcOvertemp (temp : Int)
  /-- Ten milliseconds of test boost have passed: the six tracker spans in mA and the duty in 0.1 % (R222). -/
  | dcbInductanceCheck (spans : List Int) (duty : Nat)
  /-- An event that ends DC boost (R225). -/
  | dcbEndEvent (e : DcbEvent)
  /-- 100 ms since the stop with the inlet at `ch33` mV (R224). -/
  | dcbContactorWeld (ch33 : Int)
  /-- The soft-start ramp ends in regulation (R182). -/
  | lvSoftStartDone
  /-- A short is declared during soft start (R183). -/
  | lvShort
  /-- The 200 ms wait after a failed attempt ends (R184). -/
  | lvRestartTimer
  /-- The intermediate bus has stayed outside its window for 50 us (R180). -/
  | lvBusFault
  /-- A cell's current has differed from the mean by over 15 % for 1 s (R180). -/
  | lvCellFail (cell : Fin 4)
  /-- The load current in mA has stayed low for 2 ms, or a shed moves on (R186). -/
  | lvPhaseShed (load : Int)
  /-- Monitor 24 crosses (R187): LV_OUT (CH14) in mV. -/
  | lvLoadStep (mv : Int)
  /-- Monitor 25 or 26 crosses (R193): `onCh14` marks monitor 26; the voltage in mV. -/
  | lvOvervoltage (onCh14 : Bool) (mv : Int)
  /-- Both outputs have been below threshold less hysteresis for 1 ms (R193), or CH13 below 1 V for 1 ms. -/
  | lvOvResume
  /-- Current from LV_OUT into the stage has stood at so many mA for 20 us (R194). -/
  | lvoutReverse (amps : Int)
  /-- A converter temperature report in 0.01 degC (R191). -/
  | lvOvertemp (sensor : LvSensor) (temp : Int)
  /-- The DC link voltage during pre-charge (R19). -/
  | prechargeDone (vdc : Int)
  /-- The pre-charge bound passes (R19, R196). -/
  | prechargeTimeout
  /-- 20 ms after the current starts, the DC link voltage (R196). -/
  | lvPrechargeFault (vdc : Int)
  /-- LV_PRECHG_HOLD ends (R197). -/
  | prechargeHoldExpiry
  /-- A drive's output position (0-65535) has stayed in its window for 20 ms (R238). -/
  | actPositionConfirmed (drive : Fin 3) (position : Nat)
  /-- No commutation within ACT_LOCK_TIME while carrying current (R245). -/
  | actLocked (drive : Fin 3)
  /-- CH43 at this voltage (R237). -/
  | actVsOutOfRange (mv : Int)
  /-- Four consecutive periods with a missed vector (R241). -/
  | actSenseLost (drive : Fin 3)
  /-- A commutation event of a drive's motor: the observer's angles at the last three, newest first, and the motor speed it gives in
  0.01 rpm (R242). -/
  | actHallObserver (drive : Fin 3) (a1 a2 a3 : W32) (speed : Int)
  /-- 20 ms of braking without a commutation event (R243). -/
  | actRappelEnd (drive : Fin 3)
  /-- The millisecond re-evaluation of PARK engagement (R249). -/
  | parkSpeedCheck
  /-- Two seconds on a tooth (R249). -/
  | parkToothTimeout
  /-- The PARK position left its window for 20 ms, or is invalid (R250). -/
  | parkConfirmLost
  /-- A shift step was not reached within its bound (R252). -/
  | shiftTimeout
  /-- A switching period of the conversion tile (R185): internal output (CH13) and LV_OUT (CH14) in mV, stage current (CH15) in mA,
  bus (CH12) in mV, the current the regulator demands in mA, and the phases whose driver saw +0.5 A in the period that ended (R189). -/
  | lvSwitchingPeriod (inner vout load bus demand : Int) (fell : BitVec 8)
  /-- A PWM period of a drive starts (R239, R240): the two BURST means in mA of the period that ended, none where missed or late; the
  on-times in ticks that the current control asks of the high sides of legs U, V, W in the period that begins; and the
  observer's electrical angle (R242). -/
  | actPwmPeriod (drive : Fin 3) (m1 m2 : Option Int) (onU onV onW : Nat) (obs : W32)
  /-- The DC link falls below 245 V or rises above 255 V (R180). -/
  | dcLinkLow (vdc : Int)
  /-- VSUP above 3.8 V again while P11 holds ARREST (R415). -/
  | vsupReturn (vsup : Int)
  /-- 2.0 s of discharge for a BIVOUAC request have passed (R54). -/
  | dcLinkLive
  /-- Ten seconds since READY without a take-over of a BASE_CAMP charge (R234). -/
  | baseCampChargeHoldExpiry
  /-- The background test of a duplicated UVLO comparator copy (R168); `neg` names the -4 V rail. -/
  | uvloComparator (pos : Fin 12) (neg : Bool) (pass : Bool)
  /-- The transceiver reports a fault (R387). -/
  | canTxvrFault (ch : Fin 4) (active : Bool)
  /-- An error (or lost arbitration) during a transmission (R372). -/
  | canBusError (ch : Fin 4) (e : CanError)
  /-- A port regains its link (R387). -/
  | ethLinkUp (e1 : Bool)
  /-- The partner's PARTNER_OK input closes, filtered (R395). -/
  | partnerOkClose
  deriving DecidableEq, Repr

end Sys2Proof
end

