-- ==== Sys2Proof/WellFormed.lean ====
section
/-!
DEFINITION. WellFormed.lean: which commands the spec gives the block. A descriptor's fields have their widths in the type;
what remains are the operands whose type is wider than what they stand for.
-/
namespace Sys2Proof

/-- Widths of an access to BAR0 or BAR2 in bits (R423, R436). -/
def widthOk (w : Nat) : Bool := w == 8 || w == 16 || w == 32 || w == 64

/-- Data lengths a frame of each format can have (R365, R369). -/
def dataOk (f : CanFmt) (n : Nat) : Bool :=
  match f with
  | .cc => n ≤ 8
  | .fd => n ≤ 8 || [12, 16, 20, 24, 32, 48, 64].contains n
  | .fdBrs => n ≤ 8 || [12, 16, 20, 24, 32, 48, 64].contains n
  | .xl => 1 ≤ n && n ≤ 2048

/-- A CAN frame: a frame word of 30 bits (R367), and a data length of its format. -/
def frameOk (f : CanFrame) : Bool := f.word.toNat < 2 ^ 30 && dataOk f.fmt f.data.length

/-- A source byte of a leg (R358): traction, converter stage, actuator or isolated cell. -/
def legOk (n : Nat) : Bool := n ≤ 5 || (0x10 ≤ n && n ≤ 0x1F) || (0x20 ≤ n && n ≤ 0x28) || (0x30 ≤ n && n ≤ 0x3F)

/-- A BURST has four samples (R64, R89). -/
def PeakSlots.ok (x : PeakSlots) : Bool := [x.sin, x.cos, x.exc].all (fun c => c.all (fun l => l.length == 4))

/-- A command whose operands are what the spec gives them. -/
def Instr.wf (i : Instr) : Bool :=
  match i with
  | .modeRequest _ => true
  | .testRequest _ => true
  | .accSet _ => true
  | .monSet _ => true
  | .monClear _ => true
  | .calReference _ => true
  | .posIndexArm _ => true
  | .posHarmLoad _ => true
  | .torqueSet _ => true
  | .speedSet _ => true
  | .torquePair _ => true
  | .motorMapLoad _ => true
  | .lvControlForward _ => true
  | .lvControlPrecharge _ => true
  | .lvControlStop _ => true
  | .chargeSetup _ => true
  | .chargeProfile _ => true
  | .chargeControlStart _ => true
  | .chargeControlStop _ => true
  | .chargeControlPause _ => true
  | .chargeControlResume _ => true
  | .chargeControlSetLimits _ => true
  | .chargeControlInletMatch _ => true
  | .chargeControlRestartPhase _ => true
  | .chgBattStatus _ => true
  | .actMove _ => true
  | .gearShift _ => true
  | .safetyCheckRead _ => true
  | .safetyConfirm _ => true
  | .discharge _ => true
  | .ringCreate _ => true
  | .ringDisable _ => true
  | .ringReset _ => true
  | .sessionOpen _ => true
  | .sessionClose _ => true
  | .sessionChallenge _ => true
  | .cinchOpen _ => true
  | .cinchMemberStage _ _ => true
  | .cinchCommit _ => true
  | .cinchAbort _ => true
  | .paramWrite _ => true
  | .paramRead _ => true
  | .imageDirectory _ => true
  | .imageSwap _ _ => true
  | .otpProgram _ => true
  | .otpRevoke _ => true
  | .overlayLoad _ => true
  | .tlmSubscribe _ => true
  | .tlmUnsubscribe _ => true
  | .snapshot _ => true
  | .faultAck _ => true
  | .faultClear _ => true
  | .faultHistoryRead _ => true
  | .canSessionOpen _ => true
  | .canTx _ => true
  | .canFilterSet _ => true
  | .canTtLoad _ => true
  | .canBusoffRestart _ => true
  | .canFallbackRequest _ f => frameOk f
  | .doorbellWrite _ width _ => widthOk width
  | .descriptorFetch _ _ _ _ => true
  | .bufferedEntryPost _ => true
  | .cqStall _ => true
  | .coalesceTimeout _ => true
  | .msixUnmask _ => true
  | .contextPageIn _ _ => true
  | .ring0CtrlEnable _ => true
  | .ring0CtrlDisable _ => true
  | .ring0CtrlReset _ => true
  | .sessionTableEnable _ => true
  | .sessionTableDisable _ => true
  | .moduleTimeLoRead => true
  | .registerWrite _ width _ => widthOk width
  | .mbLockRead _ agent => 1 ≤ agent.val
  | .mbLockRelease _ agent => 1 ≤ agent.val
  | .mbDataWrite _ agent _ => 1 ≤ agent.val
  | .mbAcknowledge _ agent _ => 1 ≤ agent.val
  | .mbTimeoutClear _ => true
  | .mbTimeout _ => true
  | .mbLockExpiry _ _ => true
  | .ping => true
  | .sleep => true
  | .ring0Reset => true
  | .appMailboxWord _ _ => true
  | .wakeEvent _ _ _ => true
  | .wakeTimerExpiry => true
  | .canWakeFrame _ f => frameOk f
  | .canWakeErrorCount _ _ => true
  | .latchedWake => true
  | .powerOn _ => true
  | .vsupLost _ => true
  | .p11SupplyChange _ => true
  | .reducedService => true
  | .imageRequestRetry => true
  | .hostAbsent => true
  | .imageLoaded _ _ _ => true
  | .partnerImageRequest _ => true
  | .modeEdge => true
  | .drainForced _ => true
  | .baseCampIdleTimeout _ => true
  | .topupNoPermit => true
  | .belayTimeExpiry => true
  | .appSignal => true
  | .appSignalLost => true
  | .thermalAllowance _ _ _ _ _ _ => true
  | .allowanceTimeout => true
  | .controlBoundary _ _ => true
  | .pwmPeriodStart _ _ => true
  | .legCrossCommand leg => legOk leg.val
  | .monitorCrossing _ _ _ => true
  | .accWindowClose _ _ => true
  | .urgentRequest _ _ _ _ _ => true
  | .interleaveMatch _ _ _ => true
  | .offsetTrackStart _ => true
  | .offsetTrackDone _ _ _ _ _ => true
  | .gainTrackFit _ => true
  | .monitorComparatorTest _ _ _ => true
  | .referenceCheck _ => true
  | .calAccumulationDone means _ _ => means.length == 8
  | .calReferenceTimeout => true
  | .resolverPeriod _ pos neg => pos.ok && neg.ok
  | .encEdge _ _ _ _ => true
  | .encIndex _ _ _ _ => true
  | .encSpeedWindow _ => true
  | .hallChange _ _ _ => true
  | .sentFrame _ _ lengths nibbles crc _ => lengths.length == nibbles.length && nibbles.all (fun n => n ≤ 15) && crc ≤ 15
  | .sentTimeout _ => true
  | .setpointTimeout _ => true
  | .syncStart _ => true
  | .syncMeasureDone _ _ _ _ => true
  | .torquePlausibility _ => true
  | .trqDcCeiling => true
  | .reacquireLock _ => true
  | .trqReacquireFail _ => true
  | .desatReport _ => true
  | .gateUvloReport _ _ _ => true
  | .gateRailOvReport _ _ _ => true
  | .dieTempReport _ _ _ _ _ _ _ _ _ => true
  | .bootLowReport leg _ => legOk leg.val
  | .bootUvloReport leg _ => legOk leg.val
  | .offstateDiag _ _ => true
  | .stoPath _ _ => true
  | .gapWindow _ _ _ _ _ => true
  | .testDeadline _ _ => true
  | .testComplete _ _ _ _ => true
  | .ascArmTimeout _ => true
  | .stoOpen _ _ _ => true
  | .stoClose _ _ _ => true
  | .stoDiscrepancy => true
  | .checkerMismatch _ => true
  | .checkerInject _ _ _ _ => true
  | .memoryError _ _ => true
  | .negoacMismatch _ => true
  | .negoacRestart => true
  | .voterTest _ => true
  | .faultOutWatchdogExpiry _ => true
  | .clockLoss _ _ => true
  | .ck0Fallback => true
  | .senseSupplyLost _ => true
  | .soTest _ _ => true
  | .dischargeStart => true
  | .dischargeHeld _ => true
  | .dischargeRetry => true
  | .dischargeFail _ => true
  | .dischargeDone _ => true
  | .hvilLoopChange _ _ => true
  | .debugAuthenticate _ => true
  | .debugRead _ => true
  | .debugHalt => true
  | .debugStep => true
  | .debugWrite _ _ => true
  | .debugAttach => true
  | .debugDetach => true
  | .hostLinkLost _ => true
  | .hotReset => true
  | .hostLinkUp => true
  | .hostDmaError _ _ => true
  | .cinchAccept _ => true
  | .cinchInstant _ => true
  | .cinchExpired _ => true
  | .safeSwapRelease => true
  | .safeSwapFail => true
  | .appCoreSwap _ _ => true
  | .otpProgramDone _ => true
  | .timeStep => true
  | .ptpSync _ => true
  | .ptpSyncLost _ => true
  | .snapshotInstant => true
  | .tlmPosting _ => true
  | .canFrameReceived _ f => frameOk f
  | .canRxRecordPost _ => true
  | .canQueueLock _ _ => true
  | .canQueueRelease _ _ => true
  | .canQueueLockTimeout _ _ => true
  | .canTxSent _ _ => true
  | .canTxTimeout _ => true
  | .canBusoffRecovery _ _ => true
  | .canTtReference _ cycle _ _ => cycle ≤ 63
  | .canTtWindow _ _ seen => seen.all frameOk
  | .canTtMasterChange _ => true
  | .canTtRefLost _ => true
  | .doipDiagnosticMessage _ _ => true
  | .ethLinkDown _ _ => true
  | .pairRoleExchange _ _ => true
  | .pairFrameSend => true
  | .pairFrameReceived _ => true
  | .partnerOkOpen => true
  | .pairFrameTimeout => true
  | .pairOkMismatch => true
  | .ppClassChange _ _ => true
  | .cpStateChange _ _ _ duty _ => duty ≤ 1000
  | .handOverEnd => true
  | .outageHoldoffExpiry => true
  | .mainsHalfCycle _ _ _ _ _ => true
  | .chgNoSource => true
  | .chgResidual _ _ _ => true
  | .chgGridTrip => true
  | .chgIslandOverload => true
  | .chgBackfeed _ _ _ _ => true
  | .chargePhaseChange _ => true
  | .chgTimer _ => true
  | .chgBattFault _ => true
  | .chgTempWindow _ => true
  | .obcOvertemp _ => true
  | .dcbInductanceCheck spans duty => spans.length == 6 && duty ≤ 1000
  | .dcbEndEvent _ => true
  | .dcbContactorWeld _ => true
  | .lvSoftStartDone => true
  | .lvShort => true
  | .lvRestartTimer => true
  | .lvBusFault => true
  | .lvCellFail _ => true
  | .lvPhaseShed _ => true
  | .lvLoadStep _ => true
  | .lvOvervoltage _ _ => true
  | .lvOvResume => true
  | .lvoutReverse _ => true
  | .lvOvertemp _ _ => true
  | .prechargeDone _ => true
  | .prechargeTimeout => true
  | .lvPrechargeFault _ => true
  | .prechargeHoldExpiry => true
  | .actPositionConfirmed _ position => position ≤ 65535
  | .actLocked _ => true
  | .actVsOutOfRange _ => true
  | .actSenseLost _ => true
  | .actHallObserver _ _ _ _ _ => true
  | .actRappelEnd _ => true
  | .parkSpeedCheck => true
  | .parkToothTimeout => true
  | .parkConfirmLost => true
  | .shiftTimeout => true
  | .lvSwitchingPeriod _ _ _ _ _ _ => true
  | .actPwmPeriod _ _ _ _ _ _ _ => true
  | .dcLinkLow _ => true
  | .vsupReturn _ => true
  | .dcLinkLive => true
  | .baseCampChargeHoldExpiry => true
  | .uvloComparator _ _ _ => true
  | .canTxvrFault _ _ => true
  | .canBusError _ _ => true
  | .ethLinkUp _ => true
  | .partnerOkClose => true

end Sys2Proof
end

