-- ==== Sys2Proof/Decode.lean ====
section
/-!
DEFINITION. Decode.lean: the command that a table word spells. No row of spec/opcode_table.json gives bits: the block is
commanded by register accesses, descriptors and events, and a descriptor's 64 bytes are read by DESCRIPTOR_FETCH
(Machine/Fetch.lean). So no word spells a command.
-/
namespace Sys2Proof

/-- The command that a word of `nbits` bits spells by the table: none, whatever the word. -/
def decodeTableWord (_nbits _w : Nat) : Option Instr := none

end Sys2Proof
end

