-- ==== Sys2Proof/Config.lean ====
section
/-!
DEFINITION. Config.lean: what an implementation fixes, and the free values.
The free values are constants without a body: no proof can see them, so every claim holds whatever they are. Each is
applied to the operands it depends on, or to the counter `Hw.free` for a fresh value each time.
-/
namespace Sys2Proof

/-- The 32-bit binding value drawn for a session (R308, R272), one for each draw. -/
opaque Config.binding : Nat → W32

/-- A fresh 32-byte challenge (R283, R309), one for each draw. -/
opaque Config.challenge : Nat → BitVec 256

/-- A draw of the 16-bit sequence behind random PWM (R160). -/
opaque Config.lfsr : Nat → W16

/-- What an unauthenticated debugger reads (R283): the manual gives no IDCODE. -/
opaque Config.idcode : W32

/-- What an authenticated debugger reads at an address of the primary core (R283), which the manual does not lay out. -/
opaque Config.debugWord : W32 → Nat → W32

/-- The module-own bytes 16-239 of a session-table entry and its CMAC (R311); the manual leaves them to the module. -/
opaque Config.contextBytes : Nat → List Byte

/-- The resolver's arc tangent (R89): angle of (S, C), 2^32 to the turn; the tile's rounding is not stated. -/
opaque Config.atan2 : Int → Int → W32

/-- The thermal model of the magnets below 1000 rpm (R132): estimate, winding temperature, copper loss. -/
opaque Config.magnetModel : Int → Int → Int → Int

/-- The speed loop's law (R119, R140): only its bandwidth and inertia are stated. Speed error in 0.01 rpm, bandwidth in
Hz, inertia in 10^-6 kg m^2; torque in 0.01 Nm. -/
opaque Config.speedLaw : Int → Nat → Nat → Int

/-- Inductances in nH of a bridge without an active FLUX map (R114, R148): none is stated. -/
opaque Config.creepInductance : Int × Int

/-- Switching losses of a bridge in mW (R142), from the current in mA peak and VDC in mV: no law is stated. -/
opaque Config.switchLoss : Int → Int → Nat

/-- A back-EMF in uV is large enough to be measured (R138): no level is stated. -/
opaque Config.emfMeasurable : Int → Bool

/-- The voltage loop of R124: by how much, in 0.1 %, it lowers the flux limit at a control boundary; only its time constant
and its bound of 10 % are stated. -/
opaque Config.fluxLoop : Nat → Nat

/-- The net power in W that both bridges may return above DC_CEIL - 20 V (R142): VDC and DC_CEIL in mV. Only its purpose is
stated. -/
opaque Config.returnable : Int → Int → Nat

/-- The estimate of a bridge without an active FLUX map, 0.01 Nm (R133, R148): nothing is specified. Currents in mA. -/
opaque Config.creepEstimate : Int → Int → Int

/-- Sine of an angle of 2^32 to the turn, times 2^15, in the tile's arithmetic (R93): its rounding is not stated. -/
opaque Config.sine : W32 → Int

/-- How much of a phase's share the tile shifts at a time, 0.01 % (R188): bounded by 1 %, its law is not stated. -/
opaque Config.balance : Nat → Nat

/-- How the conversion tile trims the duty of a leg in DC boost, by draw and leg (R221): its law is not stated. -/
opaque Config.boostTrim : Nat → Nat → Int

/-- Pole pairs of the motors of the actuator drives: no rule gives them. -/
opaque Config.actPoles : Nat → Nat

/-- Back-EMF in mV of a drive's motor at a speed in 0.01 rpm, with which R244 preloads the current regulator: its law is not
stated. -/
opaque Config.actEmf : Nat → Int → Int

/-- Current that a drive's motion asks for, mA, by draw: the motion's own control law is not stated. -/
opaque Config.actDemand : Nat → Int

/-- Negative d-axis current in mA by which a braking drive burns energy, by draw (R243): its size is not stated. -/
opaque Config.actBurn : Nat → Nat

/-- The output speed of a reconnect, 0.00001 rpm at the output (R251): its source is not stated. -/
opaque Config.outputSpeed : Nat → Int

/-- Supply energy of an actuator drive in a period, mW x ticks (0x02C-0x02E): the model's commands carry only the two shunt
means. -/
opaque Config.actWork : Nat → Nat

/-- By how much the output stage's own dead time exceeds 40 ns, in steps of 78.125 ps, by draw: up to 46 ns (R156). -/
opaque Config.stageDelay : Nat → Nat

/-- By how much a resolver's slot delay moves, in ticks (R90): scalar product of the quadrature and the in-phase amplitudes, and
the square of these; only its purpose is stated. -/
opaque Config.slotShift : Int → Int → Int

/-- The skew trim a calibration finds for a pair, 10 ps steps (R69, R74), by draw and pair: a measured value. -/
opaque Config.skewTrim : Nat → Nat → Int

/-- The bytes of an OTP slot whose programming stopped (R345), by draw: the manual does not say how far it came. -/
opaque Config.otpPartial : Nat → List Byte

/-- What a SECOND takes from its LEAD for a parameter at the edge into DRIVE (R396), by draw and ID: no rule says how the
value comes over. -/
opaque Config.leadValue : Nat → Nat → Nat

/-- The target in mV of a pre-charge that the partner passed on (R398), by draw: the pair frame carries none. -/
opaque Config.partnerTarget : Nat → Nat

/-- The vendor's correction of a sample under the TRIM record (R58, R343): core, input and raw code. No rule lays the record
out. -/
opaque Config.trim : Nat → Nat → Int → Int

/-- Which of its two neighbours a corrected code takes that falls between them (R58): numerator and denominator. -/
opaque Config.codeUp : Int → Int → Bool

/-- The fit of R71 where the windows leave it open, 0.001 %, by draw and leg. -/
opaque Config.gainOpen : Nat → Nat → Int

/-- Temperature of a thermistor channel (R56) in 0.01 degC: kind of the channel and corrected code. -/
opaque Config.thermistor : Nat → Int → Int

/-- n_x,safe of a bridge whose PSI_M is unset (R125): no value is stated. -/
opaque Config.crossoverUnset : Int

/-- The magnet temperature that R125 takes while the estimate is not valid: no value is stated. -/
opaque Config.magUnknown : Int

/-- The current limit in mA rms that the fast plane makes of a bridge's loss allowance in W (R22): its law is not stated. -/
opaque Config.lossCurrent : Nat → Nat

/-- The power limit in W that the fast plane makes of the converter's or the OBC's loss allowance in W (R22). -/
opaque Config.lossPower : Nat → Nat

/-- The DC boost current in mA that the fast plane makes of the charging path's loss allowance in W (R22). -/
opaque Config.lossBoost : Nat → Nat

/-- A phase of a charge profile as CONFIG holds it (R206), from CONFIG's entries, target and phase: voltage, current and
timer. No rule gives the profile's entries an ID or a layout. -/
opaque Config.profileEntry : Tab Nat → Nat → Nat → Option (Int × Int × Nat)

end Sys2Proof
end

