-- ==== Sys2Proof/Machine/State.lean ====
section
/-!
DEFINITION. Machine/State.lean: the state of the block as plain data, one structure for each part of the module, the
queue of waiting commands, and the state right after reset. Quantities carry the encodings of R4; times named `...At`
or `...By` are values of `Time.clock`, elapsed 2.5 ns ticks, unless they say module time.
-/
namespace Sys2Proof.Machine

/-- Reasons for which a step stops. The spec calls no command's behaviour undefined, so no command of this model
faults: every command has an effect, if only that of being ignored. -/
inductive Fault where
  /-- Raised by no command; it stands here because the interface asks for a type of faults. Safe: it never occurs. -/
  | none
  deriving DecidableEq, Repr

/-- Reasons for which a command is refused. -/
inductive Refusal where
  /-- Raised by an arm of `exec` whose command has no meaning in this model, by the command's mnemonic. Safe: the
  machine stops there. -/
  | notModelled (mnemonic : String)
  deriving DecidableEq, Repr

/-! ## Time and modes -/

/-- Module time and elapsed time (R31, R32). -/
structure Time where
  /-- Module time, a 64-bit count of 2.5 ns ticks (R31). -/
  now : W64 := 0
  /-- MODULE_TIME_HI as latched by a read of the low half (R426). -/
  hiLatch : W32 := 0
  /-- Module time is synchronised within 50 ns (R32). -/
  synced : Bool := false
  /-- A synchronisation has been seen in this wake (R32). -/
  firstSync : Bool := false
  /-- The step of this wake has been made, or ruled out (R32). -/
  stepDone : Bool := false
  /-- Ticks of a step that waits for snapshots and AT_TIME cinches (R32). -/
  stepWait : Option Nat := none
  /-- PTP_TIME_BEHIND: module time runs on CK2 for the rest of the wake (R32). -/
  behind : Bool := false
  /-- Offset still to be slewed away, in ticks (R32). -/
  slew : Int := 0
  /-- Ticks since a tick was added or withheld (R32). -/
  sinceSlew : Nat := 0
  /-- Fraction of a tick accumulated by P0 in BIVOUAC, in 1/32 tick (R31). -/
  p0frac : Nat := 0
  /-- CK0 runs on its RC fallback (R29). -/
  ck0Rc : Bool := false
  /-- Elapsed ticks since reset, never stepped or slewed (model's own). -/
  clock : Nat := 0
  /-- `clock` at the last millisecond edge of the wake (0x000, R351). -/
  msAt : Nat := 0
  deriving DecidableEq, Repr

/-- Where the module is between no supply and full operation (R40-R46). -/
inductive Phase where
  /-- No supply: P0 off, everything lost (R43). -/
  | unpowered
  /-- P0 alone powered (R49). -/
  | asleep
  /-- From the wake event to reduced service, steps 1-5 of R46. -/
  | bringUp
  /-- Reduced or full service. -/
  | up
  deriving DecidableEq, Repr

/-- The eight modes (R34). -/
inductive Mode where
  | bivouac | baseCamp | ready | drive | charge | belay | arrest | workshop
  deriving DecidableEq, Repr

/-- What a completion needs of its descriptor: the path, the tag, the flags (R297) and the session (R274). -/
structure Req where
  path : Path
  tag : W32
  flags : Byte
  session : Nat
  deriving DecidableEq, Repr

/-- A transition granted and waiting for its mode edge (R36). -/
structure Grant where
  target : Mode
  /-- The MODE_REQUEST that completes at the edge, if a descriptor asked. -/
  req : Option Req
  /-- The cause byte of the MODE event (R306). -/
  cause : Byte
  /-- The cinch slot whose MODE_REQUEST member asked (R328), 0 for none. -/
  cinch : Nat
  /-- `clock` at the grant. -/
  at' : Nat
  deriving DecidableEq, Repr

/-- The mode machine of the Negoac safety controller (R34-R48). -/
structure ModeSt where
  phase : Phase := .unpowered
  mode : Mode := .bivouac
  granted : Option Grant := none
  /-- Wake-reason code of this wake (R40). -/
  wakeReason : W16 := 0
  /-- A wake event latched while the module enters BIVOUAC (R42). -/
  latched : Option W16 := none
  /-- WM0 may wake the module (R44). -/
  wm0Armed : Bool := true
  /-- `clock` at the wake event. -/
  wakeAt : Nat := 0
  /-- TOPUP_WAIT runs after a WM0 wake; it has passed and the return to BIVOUAC is still to be granted (R44). -/
  topupWait : Bool := false
  topupBack : Bool := false
  /-- `clock` of the last valid command (R48). -/
  lastCommand : Nat := 0
  /-- The mode BELAY was entered from (R38). -/
  belayFrom : Mode := .drive
  /-- `clock` at entry to BELAY (R276). -/
  belayAt : Nat := 0
  /-- Code and source of the fault that caused BELAY (R277). -/
  belayCode : W16 := 0
  belaySource : Byte := 0
  /-- `clock` at the last mode edge. -/
  since : Nat := 0
  /-- A BASE_CAMP charge runs on through READY until this `clock` (R234). -/
  chargeHoldBy : Option Nat := none
  /-- APP sub-cycles missed in a row (R9). -/
  appMissed : Nat := 0
  deriving DecidableEq, Repr

/-- Supplies and pins of the module (R16 connectors, R21-R25, R49). -/
structure Power where
  /-- VSUP, CH55, mV. -/
  vsup : Int := 0
  /-- DC link voltage, mV. -/
  vdc : Int := 0
  /-- P11 runs (R24). -/
  p11 : Bool := false
  /-- VSUP is lost and P11 holds ARREST (R24). -/
  onP11 : Bool := false
  /-- P4 or CK5 is lost (R21). -/
  senseLost : Bool := false
  /-- The clocks and PLL locks that are lost, for which the hardware path stands in (R29). -/
  clocksLost : List ClockLoss := []
  /-- STO_A and STO_B closed (R262). -/
  stoA : Bool := true
  stoB : Bool := true
  /-- `clock` at which each channel last opened or closed (R263). -/
  stoAAt : Nat := 0
  /-- `clock` of the last open pulse on a channel, 0 A and 1 B, that was short enough not to open it (R262). -/
  stoPulse : Tab Nat := []
  stoBAt : Nat := 0
  /-- Board temperature, CH86, and coolant inlet, 0.01 degC. -/
  board : Int := 2500
  coolant : Int := 2500
  /-- LVB_SENSE, CH14, mV. -/
  lvb : Int := 0
  deriving DecidableEq, Repr

/-! ## Requested tests -/

/-- A test accepted by TEST_REQUEST, or run by the module itself (R51). -/
structure TestRun where
  id : W16
  inst : Byte
  cls : Nat
  req : Option Req
  /-- `clock` at which a gap-class test gives up. -/
  deadline : Nat
  /-- It runs, rather than waits for a window. -/
  running : Bool
  /-- The instance whose turn it is, or steps done. -/
  count : Nat
  /-- Flux at MAG_TREF in 0.1 uVs and electrical offset of the accepted windows so far (R136). -/
  windows : List (Nat × W32) := []
  deriving DecidableEq, Repr

/-! ## Traction bridges -/

/-- Bridge states, coded as byte 14 of R147. -/
inductive BState where
  | openAll | ascLow | ascHigh | sync | runTorque | runSpeed | shiftSync
  /-- Driven by an identification (R134, R135), which the byte has no code for. -/
  | ident
  deriving DecidableEq, Repr

/-- A setpoint of a bridge (R116, R119). -/
structure Setpoint where
  /-- A SPEED_SET rather than a TORQUE_SET. -/
  speed : Bool
  /-- Torque in 0.01 Nm or speed in 0.01 rpm. -/
  value : Int
  /-- 0.01 Nm/ms, 0 selects TORQUE_RAMP; for SPEED_SET the acceleration limit. -/
  ramp : Nat
  /-- Forward and reverse speed limits, 0 selects the parameter; for SPEED_SET motoring and generating limits. -/
  fwd : Int
  rev : Int
  /-- The session that sent it (R313). -/
  session : Nat
  /-- TORQUE_PAIR policy and the other bridge's torque (R120). -/
  pair : Option (Nat × Int)
  /-- It came over CAN and is capped under R380. -/
  viaCan : Bool
  deriving DecidableEq, Repr

/-- A setpoint with the descriptor that waits for it, none inside a cinch. -/
structure SetReq where
  sp : Setpoint
  req : Option Req
  deriving DecidableEq, Repr

/-- A motor table as loaded (R121): header limits, and entries row-major as raw 16-bit pairs. -/
structure MotorTable where
  flux : Bool
  lim1 : Int
  lim2 : Int
  lim3 : Int
  mapTemp : Int
  entries : List Int
  deriving DecidableEq, Repr

/-- The 32-byte status record (R147). -/
structure StatusRec where
  est : Int
  speed : Int
  id : Int
  iq : Int
  magTemp : Option Int
  state : BState
  source : Nat
  limits : W16
  applied : Int
  time : W64
  deriving DecidableEq, Repr

/-- What a bridge's tile holds for torque and speed control (R113-R147). -/
structure Ctl where
  state : BState := .openAll
  /-- A safe-pattern order stands: the bridge may leave only through synchronised start (R11, R118). -/
  ordered : Bool := true
  /-- A fault of this bridge ordered the pattern (R13, R161, R165 and the like). -/
  faulted : Bool := false
  /-- SENSE or the checker ordered the pattern (R118). -/
  ackNeeded : Bool := false
  /-- Setpoint stored while a safe pattern holds (R11). -/
  stored : Option SetReq := none
  /-- Setpoint that becomes the target at the next control boundary (R116). -/
  pending : Option SetReq := none
  /-- Setpoint held through a transition or a shift (R37, R140). -/
  held : Option SetReq := none
  /-- The present target. -/
  target : Option Setpoint := none
  /-- Ramped setpoint before the limits and torque applied after them, 0.01 Nm. -/
  ramped : Int := 0
  applied : Int := 0
  /-- What the ramp owes below its unit, in units per ms x ticks (model's own). -/
  rampRem : Nat := 0
  /-- Speed reference after the acceleration limit, 0.01 rpm. -/
  speedRef : Int := 0
  /-- Output of the speed loop that this bridge runs, none where it runs none (R390, R393). -/
  loopOut : Option Int := none
  /-- `clock` of the last renewal (R117). -/
  renewedAt : Nat := 0
  /-- The setpoint timed out and no fresh one has come (R117). -/
  stale : Bool := false
  /-- Torque ramps to zero at DRAIN_RAMP (R50, R117, R313). -/
  draining : Bool := false
  drainAt : Nat := 0
  /-- Measured and estimated quantities at the last boundary. -/
  speed : Int := 0
  /-- `clock` since when the speed has been below 1 rpm (R74). -/
  stillAt : Option Nat := none
  idCur : Int := 0
  iqCur : Int := 0
  iRms : Int := 0
  est : Int := 0
  /-- Angle of the current vector against phase U and its rotation, 0.01 rpm mechanical; `clock` since when it has agreed with
  the model of the short circuit (R145). -/
  vecAngle : W32 := 0
  vecSpeed : Int := 0
  agreeAt : Option Nat := none
  /-- Current references in mA peak, and the regulator's integrators and voltage command in uV (R114). -/
  refD : Int := 0
  refQ : Int := 0
  intD : Int := 0
  intQ : Int := 0
  vD : Int := 0
  vQ : Int := 0
  /-- The voltage vector is limited (R114). -/
  vLimited : Bool := false
  /-- `clock` since when the phase current has exceeded 100 A rms (R166). -/
  loadedAt : Option Nat := none
  /-- Voltages of the three legs in uV: in effect, and from the next control boundary on (R113). -/
  legs : List Int := [0, 0, 0]
  legsNext : List Int := [0, 0, 0]
  magTemp : Option Int := none
  /-- The estimate started at wake by the first method of R132; what its filter owes, in 0.01 K x ticks (model's own). -/
  magCold : Bool := false
  magRem : Int := 0
  /-- `clock` of the last observer update of the magnet estimate (R132). -/
  magAt : Nat := 0
  limits : W16 := 0
  /-- Overload account in A^2 s x 4x10^8 per tick units: mA^2 x ticks drawn from full (R127). -/
  overload : Nat := 0
  /-- Current allowance of R22 in mA rms, none for the default of R129. -/
  allowance : Option Int := none
  /-- Expected torque of R146 in 0.01 Nm x 2^16, the `clock` it holds for, and consecutive comparisons beyond it. -/
  expected : Int := 0
  expectedAt : Nat := 0
  implausible : Nat := 0
  /-- `clock` since when the setpoint has been below 1 % of peak (R136). -/
  lowAt : Option Nat := none
  /-- `clock` since the current error was too big (R151 TRQ_REGULATION) and since overspeed (TRQ_OVERSPEED). -/
  curErrAt : Option Nat := none
  overAt : Option Nat := none
  /-- IN_WINDOW dwell: since when the speed is in the window, and reported (R140). -/
  winAt : Option Nat := none
  inWindow : Bool := false
  /-- Speed reference of the shift, taken over the fast-plane link (R140). -/
  shiftRef : Option Int := none
  /-- Speeds with their `clock`, newest first, of the 50 ms before now, at most one per millisecond (R251). -/
  trail : List (Nat × Int) := []
  /-- Observer re-acquisition in progress since this `clock` (R145). -/
  reacqAt : Option Nat := none
  /-- SYNC has agreed with the position source, or needs no measurement: step 3 follows (R138, R139). -/
  syncReady : Bool := false
  /-- SYNC began from an active short circuit; control periods that step 3 has taken; the back-EMF measured, uV (R138). -/
  syncAsc : Bool := false
  syncStep : Nat := 0
  syncEmf : Option Int := none
  /-- The ramp of a re-entry runs (R126 rank 8, R145). -/
  reentry : Bool := false
  /-- Control periods in a row in which the voltage was limited, and what the voltage loop takes off, 0.1 % (R124). -/
  voltBad : Nat := 0
  fluxCut : Nat := 0
  /-- Motor tables in force and waiting for the next control boundary (R123). -/
  mtpa : Option MotorTable := none
  flux : Option MotorTable := none
  mtpaNext : Option MotorTable := none
  fluxNext : Option MotorTable := none
  mtpaVersion : Nat := 0
  fluxVersion : Nat := 0
  /-- Descriptors waiting for their table to take effect. -/
  mapReqs : List Req := []
  status : Option StatusRec := none
  /-- Module time of the last control boundary and its `clock`; start and length of the present PWM period. -/
  boundary : Option W64 := none
  boundaryAt : Nat := 0
  periodStart : W64 := 0
  periodLen : Nat := 25000
  /-- Commanded torque cap of BELAY at entry, from which it ramps (R275). -/
  capFrom : Int := 0
  deriving DecidableEq, Repr

/-- Adapted dead time and drive strength of one edge kind (R155, R162). -/
structure EdgeKind where
  /-- Dead time in steps of 78.125 ps. -/
  dead : Nat := 1280
  /-- S2-S5 strength in A. -/
  strength : Nat := 4
  /-- Consecutive edges whose t_off + DT_MARGIN exceeded 400 ns (R155), and out of the slope band at an end (R163). -/
  long : Nat := 0
  off : Nat := 0
  /-- Dead time and S2-S5 strength that the last edge had, and its voltage transition: start after the command, and length. -/
  usedDead : Nat := 0
  usedStrength : Nat := 0
  start : Nat := 0
  width : Nat := 0
  deriving DecidableEq, Repr

/-- A bootstrap that has reported BOOT_LOW (R169): whether it still does, the leg's periods since the last refresh, and `clock` at
which that refresh began. -/
structure Boot where
  low : Bool := false
  since : Nat := 16
  refreshAt : Option Nat := none
  deriving DecidableEq, Repr

/-- What a bridge's MODULATE and DRIVE stages hold (R152-R175). -/
structure Gate where
  /-- Positions of the bridge, 2 x leg + side: diagnosed shorted, suspect after a desaturation, open (R171). -/
  shorted : BitVec 6 := 0
  suspect : BitVec 6 := 0
  opened : BitVec 6 := 0
  /-- Positions whose +18 V and whose -4 V rail is under voltage, and over voltage (R161). -/
  uvloPos : BitVec 6 := 0
  uvloNeg : BitVec 6 := 0
  ovPos : BitVec 6 := 0
  ovNeg : BitVec 6 := 0
  /-- Desaturations in this wake by position (R165). -/
  desat : Tab Nat := []
  /-- Soft turn-offs (R164), by position: level in mV and `clock` until which the gate is held there. -/
  soft : Tab (Int × Nat) := []
  /-- `clock` of the last cross-commands (R158), newest first; by leg the `clock` of the end of the half-period for which both
  switches are forced off (R157). -/
  xcmdAt : List Nat := []
  forced : Tab Nat := []
  /-- LEG_XCMD in the bridge status (R157). -/
  legXcmd : Bool := false
  ascArm : Bool := true
  ascArmAt : Nat := 0
  ascInhibit : Bool := false
  /-- Die temperatures by 8 x position + die (R166), none while excluded. -/
  dies : Tab (Option Int) := []
  /-- Adapted edges by leg x 16 + direction x 8 + bin (R155). -/
  edges : Tab EdgeKind := []
  /-- Volt-seconds of the three legs in uV x ticks (R154): what the last period fell short of its command by, and what is commanded
  of the present period so far, with that added. -/
  vs : List Int := [0, 0, 0]
  vsCommand : List Int := [0, 0, 0]
  /-- Current bins of the three legs for the edges of the present period (R155). -/
  bins : List Nat := [0, 0, 0]
  /-- Die places 8 x position + die that DIE_SENSOR and DIE_SPREAD stand for (R166), and comparators found failed: source byte and
  comparator (R168). -/
  badSensor : List Nat := []
  badSpread : List Nat := []
  compFail : List (Byte × W32) := []
  /-- OFFSTATE_DIAG passed in this wake, runs, or waits in READY for its conditions (R167). -/
  offPassed : Bool := false
  offRunning : Bool := false
  offWait : Bool := false
  /-- A stretched period waits: module time from which, and its length (R332). -/
  stretch : Option (W64 × Nat) := none
  /-- Lengths of the periods to come, drawn when a CONTROL_AB boundary was fixed (R444). -/
  plan : List Nat := []
  deriving DecidableEq, Repr

/-- What the two bridges share (R120, R130, R332). -/
structure Shared where
  /-- TORQUE_PAIR waiting for its CONTROL_AB boundary. -/
  pair : Option (Setpoint × Setpoint × Option Req) := none
  /-- The fixed CONTROL_AB boundary (R444), module time. -/
  fixedAB : Option W64 := none
  /-- DC overload account drawn from full, mA^2 x ticks (R130), and the current it was last drawn at. -/
  dcDrawn : Nat := 0
  /-- The rank-3 interval is closed to motoring only (R143); `clock` since when VDC has been above DC_CEIL. -/
  dcCeil : Bool := false
  ceilAt : Option Nat := none
  /-- A TORQUE_PAIR held through a transition or a shift (R37, R140). -/
  held : Option (Setpoint × Setpoint × Option Req) := none
  deriving DecidableEq, Repr

/-! ## Host interface -/

/-- Ring states (R294), coded as in R429. -/
inductive RingState where
  | absent | enabled | draining | idle | error
  deriving DecidableEq, Repr

/-- An entry that waits for a free place in a queue (R300, R305): a completion, or a record with its sequence number. -/
inductive Waiting where
  | completion (tag : W32) (status : Byte) (time : W64)
  | record (type : W16) (seq : Nat) (time : W64) (body : List Byte) (lost : Bool)
  deriving DecidableEq, Repr

/-- One ring (R292-R303). -/
structure Ring where
  state : RingState := .absent
  /-- Type code of R292. -/
  type : Nat := 0
  size : Nat := 0
  prio : Nat := 0
  /-- MSI-X vector, none for no interrupt. -/
  vector : Option Nat := none
  count : Nat := 1
  /-- Coalesce time, us. -/
  time : Nat := 0
  sqBase : W64 := 0
  cqBase : W64 := 0
  sqHead : Nat := 0
  sqTail : Nat := 0
  /-- CQ or record-queue head as the host wrote it, index of the next entry to post, its phase, entries not freed. -/
  cqHead : Nat := 0
  cqTail : Nat := 0
  phase : Bool := true
  posted : Nat := 0
  /-- Entries that wait, oldest first, at most 64. -/
  buffer : List Waiting := []
  /-- RING_DROPPED and the next sequence number of a TLM ring (R304, R305). -/
  dropped : Nat := 0
  seq : Nat := 0
  /-- Records were dropped since the last entry posted. -/
  lost : Bool := false
  cause : Nat := 0
  /-- Descriptors started and not completed: their tags and sessions (R302, R313). -/
  outstanding : List (W32 × Nat) := []
  /-- `clock` of the doorbell that published each SQ index (R273). -/
  published : Tab Nat := []
  /-- A fenced descriptor runs (R302). -/
  fenced : Bool := false
  /-- A descriptor held for a context miss, with what its DMA reads and its verdict (R311). -/
  missed : Option (BitVec 512 × List Byte × Bool) := none
  /-- The descriptor held for a context miss runs now. -/
  resuming : Bool := false
  /-- The descriptor at the SQ head was looked at and waits: at a fence (R302) or for a SAFE swap (R338). -/
  held : Bool := false
  /-- Posted entries not yet signalled, and `clock` of the oldest (R303). -/
  unsignalled : Nat := 0
  oldestAt : Nat := 0
  /-- `clock` since when the CQ has had no free entry (R300). -/
  fullAt : Option Nat := none
  /-- `clock` of the doorbell that published the descriptors (R273). -/
  doorbellAt : Nat := 0
  /-- RING_DISABLE waiting for IDLE (R445), and `clock` at which the drain began. -/
  disable : Option Req := none
  drainAt : Nat := 0
  deriving DecidableEq, Repr

/-- Authority classes (R307), coded as in SESSION_OPEN. -/
inductive Auth where
  | observe | operate | motion | workshop
  deriving DecidableEq, Repr

/-- One session (R307-R313). -/
structure Session where
  auth : Auth
  pinned : Bool
  /-- Its context is in the module (R310). -/
  resident : Bool
  /-- Context use, for the least recently used rule (R311). -/
  usedAt : Nat
  source : W32
  binding : W32
  openedAt : W64
  /-- Last accepted trailer sequence number (R273). -/
  lastSeq : Option W16
  /-- `clock` of the last trailer failures (R274), newest first. -/
  fails : List Nat
  /-- Every descriptor but SESSION_CLOSE completes AUTH_DENIED (R274). -/
  blocked : Bool
  /-- It came on the CAN path (R379). -/
  viaCan : Bool
  /-- SESSION_CLOSE waiting for the session's descriptors (R313). -/
  closing : Option Req
  deriving DecidableEq, Repr

/-- One mailbox (R316, R433). -/
structure Mailbox where
  data : W32 := 0
  full : Bool := false
  timeout : Bool := false
  /-- Agent number of the owner of the last word. -/
  sender : Nat := 0
  ack : Byte := 0
  valid : Bool := false
  /-- Owner's agent number, 0 while free. -/
  lock : Nat := 0
  /-- `clock` at which the lock was taken, and the word written. -/
  lockAt : Nat := 0
  writtenAt : Nat := 0
  deriving DecidableEq, Repr

/-- An MSI-X table entry (R431): the four words of PCI Express, mask bit in bit 0 of the last. -/
structure MsixEntry where
  addrLo : W32 := 0
  addrHi : W32 := 0
  data : W32 := 0
  ctrl : W32 := 1
  deriving DecidableEq, Repr

/-- The host interface (R290-R320, R423-R436). -/
structure HostSt where
  rings : Tab Ring := []
  /-- The ring served last at each priority (R293). -/
  turn : Tab Nat := []
  sessions : Tab Session := []
  /-- Challenges issued and not used, each with `clock` of its issue (R309). -/
  challenges : List (BitVec 256 × Nat) := []
  ring0Sq : W64 := 0
  ring0Cq : W64 := 0
  /-- SIZE, COALESCE_COUNT and COALESCE_TIME as RING0_CTRL holds them. -/
  ring0Ctrl : W32 := 0
  tableLo : W32 := 0
  tableHi : W32 := 0
  msix : Tab MsixEntry := []
  msixPending : BitVec 65 := 0
  /-- MSI-X capability control of PCI Express: enabled, function masked. -/
  msixOn : Bool := true
  msixMasked : Bool := false
  mailbox : Tab Mailbox := []
  /-- The PCIe link is up; HOST_LINK_LOST has been acted on. -/
  linkUp : Bool := true
  lost : Bool := false
  /-- Events that wait for an EVT ring (R305), the next event sequence number, dropped since the last one kept. -/
  events : List Waiting := []
  evtSeq : Nat := 0
  evtLost : Bool := false
  deriving DecidableEq, Repr

/-! ## Cinches, parameters, images, OTP -/

/-- Cinch slot states (R324). -/
inductive SlotState where
  | free | opened | poisoned | committed
  deriving DecidableEq, Repr

/-- A versioned item (R323). -/
inductive Item where
  | param (id : Nat)
  | map (b : Bridge) (flux : Bool)
  | harm (res : Nat)
  | image (kind : ImageKind) (target : Bridge)
  deriving DecidableEq, Repr

/-- A staged member (R326). -/
structure Member where
  op : W16
  desc : Desc
  /-- Each versioned item it touches with its version at staging. -/
  versions : List (Item × Nat)
  /-- What the engine found in the image an IMAGE_SWAP loaded. -/
  image : Option ImageInfo
  /-- It needed a safety trailer (R328). -/
  trailer : Bool
  deriving DecidableEq, Repr

/-- One cinch slot (R324-R331). -/
structure Slot where
  state : SlotState := .free
  cls : Nat := 0
  time : W64 := 0
  session : Nat := 0
  path : Path := .can
  members : List Member := []
  openedAt : Nat := 0
  /-- CINCH_COMMIT waiting for its instant, `clock` of its publication and acceptance, trailer age in ticks. -/
  commit : Option Req := none
  publishedAt : Nat := 0
  acceptedAt : Option Nat := none
  age : Nat := 0
  /-- Module time of the earliest instant: acceptance plus the lead (R327). -/
  leadEnd : W64 := 0
  deriving DecidableEq, Repr

/-- A parameter write waiting for its boundary (R322). -/
structure PendWrite where
  id : Nat
  value : Nat
  req : Option Req
  deriving DecidableEq, Repr

/-- Parameters (R321-R323): values and versions by ID; an unlisted value is the reset value. -/
structure Params where
  vals : Tab Nat := []
  versions : Tab Nat := []
  /-- Values staged for a mode edge (R322). -/
  staged : Tab Nat := []
  /-- Writes waiting for a control or period boundary. -/
  waiting : List PendWrite := []
  deriving DecidableEq, Repr

/-- A directory entry (R335). -/
structure DirEntry where
  kind : Nat
  length : Nat
  addr : W64
  deriving DecidableEq, Repr

/-- An image that runs or is to run: its version and state format (R336). -/
structure ImgVer where
  version : W32
  format : W16
  deriving DecidableEq, Repr

/-- An APP swap in progress (R339): cores changed, `clock` at which the change of the next core began, whether it reverses, the
image and the commit that waits. -/
structure AppSwap where
  slot : Nat
  done : Nat
  coreAt : Nat := 0
  reversing : Bool
  image : ImgVer
  commit : Option Req
  deriving DecidableEq, Repr

/-- A CONV, ACTU, SENS or TRAC change that waits for its tile's next start (R339). -/
structure SwapWait where
  kind : Nat
  target : Bridge
  image : ImgVer
  deriving DecidableEq, Repr

/-- A SAFE swap while the hold supervisor holds the voters (R340). -/
structure SafeHold where
  since : Nat
  image : ImgVer
  deriving DecidableEq, Repr

/-- Images (R26, R335-R340). -/
structure Images where
  /-- Images running, by kind 1-6, with version and state format; TRAC also per tile in `tracB`. -/
  running : Tab ImgVer := []
  tracB : Option ImgVer := none
  versions : Tab Nat := []
  /-- What each agent's spare bank holds, by the keys of `versions` (R338). -/
  spare : Tab ImgVer := []
  directory : List DirEntry := []
  /-- Kind requested and not answered, `clock` of the first and the last request (R47). -/
  requested : Option Nat := none
  requestAt : Nat := 0
  firstRequestAt : Nat := 0
  safeHold : Option SafeHold := none
  appSwap : Option AppSwap := none
  waiting : List SwapWait := []
  deriving DecidableEq, Repr

/-- What OTP programming is doing (R345, R346). -/
structure OtpJob where
  type : Nat
  offset : Nat
  bytes : List Byte
  revoke : Bool
  /-- A SAFETY generation under R442 rather than OTP_PROGRAM. -/
  safety : Bool
  req : Req
  deriving DecidableEq, Repr

/-- Identity from the IDENTITY record, whose body R343 names without a layout. -/
structure Identity where
  serial : W64 := 0
  /-- CW-8840-48 rather than CW-8840-12 (R1). -/
  is48 : Bool := false
  issue : Byte := 1
  romVersion : W32 := 0x01000000
  deriving DecidableEq, Repr

/-- OTP and what was resolved from it at wake (R341-R347). -/
structure Otp where
  /-- The 16 KiB as cells in canonical form: addresses rising, no zero byte listed (an unlisted byte reads 0). -/
  bytes : List Host.Cell := []
  /-- Slots consumed by programming that stopped (R345), by type and generation. -/
  consumed : List (Nat × Nat) := []
  /-- Active generation of each record type, by type. -/
  active : Tab Nat := []
  /-- CONFIG entries of the active generation, replaced by a CONFIG overlay at the edge to READY. -/
  config : Tab Nat := []
  configNext : Option (List (Nat × Nat)) := none
  configOn : Bool := false
  /-- SAFETY entries of the active generation as resolved at wake. -/
  keyHash : BitVec 256 := 0
  serviceHash : BitVec 256 := 0
  syscal : Option (List Byte) := none
  syscalNext : Option (List Byte × Option Req) := none
  job : Option OtpJob := none
  ident : Identity := {}
  deriving DecidableEq, Repr

/-! ## Counters, snapshots, subscriptions, faults -/

/-- A snapshot in progress (R353-R355). -/
structure Snap where
  ring : Nat
  epoch : W32
  at' : W64
  req : Option Req
  /-- The shadow bank once copied, and whether module time was not synchronised then. -/
  bank : Option (Tab Nat × Bool) := none
  /-- Records posted or waiting so far, of 147. -/
  next : Nat := 0
  deriving DecidableEq, Repr

/-- A telemetry subscription (R356, R357). -/
structure Sub where
  ring : Nat
  kind : Nat
  source : Nat
  /-- us. -/
  interval : Nat
  session : Nat
  req : Option Req
  /-- Module time of the source's record last posted, or the counters last posted. -/
  last : Option W64
  lastVals : List Nat
  deriving DecidableEq, Repr

/-- Counters, snapshots and subscriptions (R351-R357). -/
structure Counters where
  vals : Tab Nat := []
  snap : Option Snap := none
  subs : Tab Sub := []
  /-- Reversals not yet closed by die 0-95, newest first, 0.01 degC (R352). -/
  rain : Tab (List Int) := []
  /-- Fractions of a joule of the energy counters, in mW x ticks (model's own). -/
  frac : Tab Nat := []
  deriving DecidableEq, Repr

/-- Fault classes (R359). -/
inductive FClass where
  | info | warn | belay | arrest | latch
  deriving DecidableEq, Repr

/-- One history entry (R361). -/
structure Entry where
  code : W16
  cls : FClass
  active : Bool
  acked : Bool
  cleared : Bool
  source : Byte
  mode : Byte
  count : Nat
  first : W64
  last : W64
  arg : W32
  seq : W32
  deriving DecidableEq, Repr

/-- Fault history (R361, R440). -/
structure Faults where
  /-- Oldest first, at most 256. -/
  hist : List Entry := []
  /-- Active raises that found no entry (R361). -/
  extra : List Entry := []
  /-- The unacknowledged-loss flag (R440). -/
  loss : Bool := false
  /-- Fault transitions since wake. -/
  seq : W32 := 0
  deriving DecidableEq, Repr

/-! ## Safety -/

/-- The safety controller and its outputs (R257-R289). -/
structure Safety where
  /-- The pending safety set of this WORKSHOP (R269): values by ID and those written. -/
  pending : Option (Tab Nat) := none
  written : List Nat := []
  confirmed : Bool := false
  /-- A confirmed set has become active in this wake: the volatile overlay of R271. -/
  overlay : Bool := false
  mismatches : Nat := 0
  /-- Resynchronisations of each core (`clock`, newest first), cores left out of the vote, no majority (R260). -/
  resync : Tab (List Nat) := []
  coresOut : BitVec 3 := 0
  noMajority : Bool := false
  /-- The series STO input of R174 is open. -/
  seriesOpen : Bool := false
  /-- READY is refused until both channels were seen open together and closed in time (R263). -/
  stoBlock : Bool := false
  bothOpenSeen : Bool := false
  /-- The channel that opened while the other stayed closed, 0 A or 1 B, and the `clock` of it (R263). -/
  stoWatch : Option (Nat × Nat) := none
  /-- SO_1 and SO_2 on; fault of each. -/
  so1 : Bool := false
  so2 : Bool := false
  /-- The switch of each output that its next test turns off is the low one (R267). -/
  so1Low : Bool := false
  so2Low : Bool := false
  /-- The window watchdog of FAULT_OUT channel B has expired (R268). -/
  wdExpired : Bool := false
  /-- Active discharge (R279, R280): switch closed since, waiting request, retry time. -/
  dischargeOn : Bool := false
  dischargeAt : Nat := 0
  dischargeFrom : Int := 0
  dischargeReqs : List Req := []
  dischargeAuto : Bool := false
  retryAt : Option Nat := none
  /-- `clock` at which a bridge last took OPEN (R279). -/
  openSince : Nat := 0
  /-- HVIL loop: 0 closed, 1 open, 2 shorted (R282); current in uA. -/
  hvil : Nat := 0
  hvilCurrent : Int := 10000
  /-- Debugger attached, authenticated, challenge, cores halted (R283). -/
  dbgAttached : Bool := false
  dbgAuth : Bool := false
  dbgHalted : Bool := false
  dbgChallenge : BitVec 256 := 0
  dbgMem : Tab W32 := []
  /-- READY limit of R284 until DEBUG_SPLIT is cleared and acknowledged. -/
  splitLimit : Bool := false
  /-- Thermal allowances: `clock` of the last one, in force (R22, R23). -/
  allowAt : Nat := 0
  allowOn : Bool := false
  deriving DecidableEq, Repr

/-! ## What leaves the module -/

/-- What the outside sees, in order (R301). -/
inductive Output where
  /-- A completion entry written to a CQ (R297). -/
  | completion (ring index : Nat) (tag : W32) (status : Byte) (phase : Bool) (sqHead : Nat) (time : W64)
  /-- A record entry written to a record queue (R304). -/
  | record (ring index : Nat) (type : W16) (phase lost : Bool) (seq : Nat) (time : W64) (body : List Byte)
  /-- A DMA write to host memory. -/
  | dma (addr : W64) (bytes : List Byte)
  /-- An MSI-X message. -/
  | msix (vector : Nat)
  /-- A value returned to a read access, with its register. -/
  | read (offset : Nat) (value : W32)
  /-- The read window of a CAN queue as its reader finds it (R370): channel, Q1, the words of R368. -/
  | canWindow (ch : Nat) (q1 : Bool) (words : List W32)
  /-- A CAN frame sent on a channel. -/
  | can (ch : Nat) (frame : CanFrame)
  /-- An Ethernet answer to a DoIP message: its return code. -/
  | doip (code : Byte)
  /-- A pair frame sent to the partner. -/
  | pair (frame : PairFrame)
  /-- An image sent to or asked from the partner (R400). -/
  | image (kind : Nat) (request : Bool)
  /-- An answer to the debugger: ok, and a word. -/
  | debug (ok : Bool) (word : W32)
  deriving DecidableEq, Repr

/-! ## Sensing -/

/-- An accumulator's configuration (R61). -/
structure AccCfg where
  input : Nat
  closure : Nat
  base : Nat
  gate : Nat
  gateArg : Byte
  paired : Bool
  length : Nat
  delay : Int
  run : Bool
  deriving DecidableEq, Repr

/-- One closed window's record (R62), with the tracker's minimum and maximum. -/
structure AccRecord where
  acc : Nat
  input : Nat
  sum : Int
  squares : Nat
  count : Nat
  flags : Byte
  min : Int
  max : Int
  aborts : Nat
  close : W64
  deriving DecidableEq, Repr

/-- One accumulator with its tracker (R59-R62). -/
structure Acc where
  cfg : Option AccCfg := none
  /-- A configuration waiting for the close of the window (R61), none inside to stop. -/
  next : Option AccCfg := none
  last : Option AccRecord := none
  /-- Module time at which the open window began: the close of the one before it (R62). -/
  openAt : W64 := 0
  /-- An urgent request for its input has been served and its BURST is to close the window (R60, R64). -/
  burst : Bool := false
  /-- Conversions aborted in the open window (R65). -/
  aborts : Nat := 0
  /-- The last window was saturated (R85 SENSE_SATURATION). -/
  saturated : Bool := false
  /-- One-shot done. -/
  done : Bool := false
  deriving DecidableEq, Repr

/-- A window monitor's configuration (R76) and state (R78-R80). -/
structure Monitor where
  input : Nat := 0
  mode : Nat := 0
  inside : Bool := false
  low : Nat := 0
  high : Nat := 0
  hyst : Nat := 0
  filter : Nat := 0
  routes : BitVec 4 := 0
  period : Bool := false
  base : Nat := 0
  target : Nat := 0
  /-- The crossing flag (R79); the crossing is still present. -/
  flag : Bool := false
  present : Bool := false
  /-- An interrupt to the owning tile by the IRQ route (R78). -/
  irq : Bool := false
  /-- Capture register: module time and PWM counter (R78). -/
  capTime : W64 := 0
  capPwm : Nat := 0
  /-- It runs on a spare, its own comparator retired; retired with no spare left (R80). -/
  retired : Bool := false
  dead : Bool := false
  deriving DecidableEq, Repr

/-- A system calibration in progress (R74): parameters are 0 ZERO, 1 DC link, 2-7 current points. -/
structure Cal where
  bridge : Bridge
  both : Bool
  point : Nat
  /-- The point waits for its reading; `clock` since. -/
  waiting : Bool
  since : Nat
  /-- `clock` since when the DC link has met the point's condition: at or below 60 V at ZERO, at or above 750 V at point 2. -/
  linkAt : Option Nat
  /-- Current the bridge drives into the point's phase, mA. -/
  drive : Int
  /-- Offsets of CH0-CH7 found at ZERO, 1/16 code; means found at each point; readings entered. -/
  zero : List Int
  means : List (Nat × List Int)
  readings : List (Nat × Int)
  /-- Means of the first phase and of the shunt under vector gate 100 at a point. -/
  gated : List (Nat × Int × Int)
  deriving DecidableEq, Repr

/-- The sensing subsystem (R55-R85). -/
structure Sense where
  accs : Tab Acc := []
  mons : Tab Monitor := []
  /-- Spares left in the traction, conversion and general blocks (R80). -/
  spares : List Nat := [2, 1, 1]
  /-- Trims of the odd core of each pair (R67), skew in 10 ps (R69), failed cores (R68). -/
  trimOff : Tab Int := []
  trimGain : Tab Int := []
  skew : Tab Int := []
  halfRate : BitVec 16 := 0
  /-- Sparse pairs that a WAKE route has powered up and that have not served since (R66, R78). -/
  raised : BitVec 16 := 0
  /-- Offset corrections of CH0-CH7 against SYSCAL, 1/16 code (R70), and those waiting for a PWM boundary. -/
  offset : Tab Int := []
  offsetNext : Tab Int := []
  /-- Gain corrections of the six legs against SYSCAL, 0.001 % (R71), waiting ones, legs held at the limit (R72). -/
  gain : Tab Int := []
  gainNext : Tab Int := []
  gainHeld : BitVec 6 := 0
  /-- Offset run in progress of each bridge (R70), the last start by the interval, and the bridge whose turn is next. -/
  offRun : BitVec 2 := 0
  offStartAt : Nat := 0
  offNext : Bridge := .brA
  /-- `clock` of the last fit of gain tracking, and its last window's accumulators (R71). -/
  fitAt : Nat := 0
  gainLast : Option GainWindow := none
  /-- `clock` until which each general pair serves an urgent request (R64). -/
  urgentBy : Tab Nat := []
  /-- Wake monitors tested in this wake (R81). -/
  wakeTested : BitVec 4 := 0
  /-- Start in module time and length of the present period of time bases 2-5 (R60). -/
  starts : Tab (W64 × Nat) := []
  /-- The reference check failed once (R85). -/
  refFailed : Bool := false
  cal : Option Cal := none
  /-- Latest general readings in the channel's own unit: 0.01 degC, mV, mA. -/
  reading : Tab Int := []
  /-- `clock` since when an analogue position input CH44-CH46 has read outside 0.20-4.80 V (R238). -/
  analogBad : Tab Nat := []
  deriving DecidableEq, Repr

/-! ## Position -/

/-- A harmonic table (R93, R94): coefficients of harmonics 1-16 as raw 16-bit pairs. -/
structure HarmTable where
  low : Option (BitVec 256) := none
  high : Option (BitVec 256) := none
  deriving DecidableEq, Repr

/-- HARMONIC_LEARN in progress on a resolver (R93). -/
structure Learn where
  /-- Module time at which the present revolution began, none before the first passage through 0; the angles built in it:
  way since then, 2^32 to the turn, and ticks. -/
  start : Option W64 := none
  points : List (Int × Int) := []
  /-- Duration of the revolution before, in ticks. -/
  before : Option Nat := none
  /-- Qualifying revolutions fitted, at most 64; sums of their 32 coefficients in 0.01 arcmin x 2^15; angle and deviation of the
  points of the last 16. -/
  count : Nat := 0
  sums : List Int := []
  kept : List (List (W32 × Int)) := []
  deriving DecidableEq, Repr

/-- One resolver (R88-R94). -/
structure Resolver where
  /-- Demodulated SIN, COS and excitation amplitudes of the last period, in 1/8 of a corrected code. -/
  s : Int := 0
  c : Int := 0
  exc : Int := 0
  angle : W32 := 0
  /-- The resolver's own turn within the mechanical turn, below RES_POLE_PAIRS. -/
  lap : Nat := 0
  /-- Module time the angle refers to, and speed in 0.01 rpm mechanical. -/
  angleAt : W64 := 0
  speed : Int := 0
  valid : Bool := false
  /-- Consecutive periods: excitation outside +-10 %, amplitude outside its window, no angle built. -/
  excBad : Nat := 0
  amplBad : Nat := 0
  missing : Nat := 0
  excFault : Bool := false
  signal : Bool := false
  overspeed : Bool := false
  /-- Excitation periods since the carrier tracking (R90), slot delay in ticks. -/
  periods : Nat := 0
  delay : Int := 0
  /-- Table in force, halves loaded and waiting, and the version (R94, R323). -/
  table : HarmTable := {}
  next : HarmTable := {}
  version : Nat := 0
  reqs : List Req := []
  learn : Option Learn := none
  deriving DecidableEq, Repr

/-- One encoder (R95-R99). -/
structure Encoder where
  a : Bool := false
  b : Bool := false
  count : Int := 0
  /-- Last direction, +1 or -1. -/
  dir : Int := 0
  /-- Counts at recent illegal transitions, newest first (R96), and illegal or mismatched for good. -/
  illegalAt : List Int := []
  illegal : Bool := false
  mismatches : Nat := 0
  mismatch : Bool := false
  armed : Bool := false
  referenced : Bool := false
  /-- The open speed window: edges, reversals, first and last edge times, count at its start (R99). -/
  edges : Nat := 0
  reversals : Nat := 0
  first : W64 := 0
  last : W64 := 0
  startCount : Int := 0
  windowAt : W64 := 0
  dirIrq : Bool := false
  /-- The last window's record: speed in 0.01 rpm, count change, edges, reversals with DIR_CHANGE, times of the first and last
  edges; STILL, windows without an edge. -/
  speed : Int := 0
  lastChange : Int := 0
  lastEdges : Nat := 0
  lastFirst : W64 := 0
  lastLast : W64 := 0
  dirChange : Bool := false
  lastReversals : Nat := 0
  still : Bool := false
  empty : Nat := 0
  deriving DecidableEq, Repr

/-- One Hall set (R100). -/
structure HallSet where
  /-- Sequence position, 0 before the first valid state. -/
  st : Nat := 0
  invalid : Bool := false
  /-- Module times of the last seven commutation events, newest first: six span one electrical period. -/
  events : List W64 := []
  forward : Bool := true
  /-- Speed in 0.01 rpm electrical from that span, 0 before six changes. -/
  speed : Int := 0
  /-- Hall angles at the last three commutation events, newest first (R242). -/
  angles : List W32 := []
  deriving DecidableEq, Repr

/-- One SENT channel (R101, R102). -/
structure SentCh where
  /-- Last synchronisation length, 1/64 tick of nominal. -/
  sync : Option Nat := none
  status : Nat := 0
  value : Nat := 0
  at' : W64 := 0
  /-- `clock` of the last accepted frame. -/
  acceptedAt : Nat := 0
  valid : Bool := false
  /-- Bits 3 and 2 of the status nibbles of the serial message in progress, oldest first, and the data of the messages
  received, by message ID (R101). -/
  serial : List (Bool × Bool) := []
  messages : Tab Nat := []
  deriving DecidableEq, Repr

/-- One encoder emulation (R103). -/
structure EncOut where
  /-- Quadrature edges emitted and demanded, as counts; the measured speed in counts per 6000 s, by which edges are spaced
  between control boundaries. -/
  out : Int := 0
  demand : Int := 0
  rate : Int := 0
  overrun : Bool := false
  held : Bool := false
  lastAt : Nat := 0
  deriving DecidableEq, Repr

/-- A bridge's fused position (R104-R108). -/
structure Fusion where
  /-- Sources in use: sensor and observer lost (R107). -/
  sensorLost : Bool := false
  observerLost : Bool := false
  /-- No source: the sensor stays excluded (R108). -/
  noSource : Bool := false
  /-- On the observer alone the speed fell below OBS_MIN_SPEED: the bridge waits for the sensor (R144). -/
  waitSensor : Bool := false
  /-- Control periods with the residual below 5 % (R104). -/
  lockCount : Nat := 0
  /-- Consecutive control periods with the deviation above 8 degrees (R107); the last three control periods in which each
  source was inconsistent, as bits. -/
  devCount : Nat := 0
  sensorBad : Nat := 0
  observerBad : Nat := 0
  /-- `clock` since when the two speeds differ (R107), and since when each lost source has been consistent (R108). -/
  diffAt : Option Nat := none
  sensorOkAt : Option Nat := none
  observerOkAt : Option Nat := none
  angle : W32 := 0
  speed : Int := 0
  /-- Byte 15 of R147. -/
  source : Nat := 3
  /-- Judgements that found both consistent (R107). -/
  agreed : Nat := 0
  /-- The sensor's angle of this boundary, mechanical, 2^32 to the turn. -/
  mech : W32 := 0
  /-- Electrical way since the last fit of gain tracking, 2^32 to the turn (R71). -/
  travel : Int := 0
  deriving DecidableEq, Repr

/-- Position interfaces (R86-R112). -/
structure Pos where
  res0 : Resolver := {}
  res1 : Resolver := {}
  enc0 : Encoder := {}
  enc1 : Encoder := {}
  halls : Tab HallSet := []
  sent : Tab SentCh := []
  out : Tab EncOut := []
  fusA : Fusion := {}
  fusB : Fusion := {}
  deriving DecidableEq, Repr

/-! ## HV-to-LV conversion -/

/-- Converter states, coded as in the LV_STATE event (R306). -/
inductive LvState where
  | stopped | starting | running | precharge | hold | waiting | latchedOff
  deriving DecidableEq, Repr

/-- The HV-to-LV converter (R179-R201). -/
structure Lv where
  state : LvState := .stopped
  /-- The output isolation switch is closed; the stage current is being ramped below 5 A to open it (R194). -/
  closed : Bool := false
  opening : Bool := false
  /-- The stage is held stopped on an overvoltage with the switch closed; the hardware clamp is latched; `clock` since when the
  condition of its end has held (R193). -/
  ovStop : Bool := false
  clamp : Bool := false
  ovLowAt : Option Nat := none
  /-- The cells run; the bus (CH12) in mV, whether it has come up, and `clock` since when it has left 40-60 V (R180). -/
  cellsUp : Bool := false
  bus : Int := 0
  busOk : Bool := false
  busBadAt : Option Nat := none
  /-- Internal output (CH13) in mV. LV_ISOSW_CHECK in progress: 0 upper position, 1 lower, 2 passed, `clock` since when the output has
  stood there; `clock` since when it has been within 200 mV of LV_OUT (R182). -/
  ch13 : Int := 0
  check : Nat := 0
  checkAt : Option Nat := none
  biasAt : Option Nat := none
  /-- Phases in service, and for each of LV0-LV7 its share in mA and the start of its period in ticks after that of the first (R186,
  R188); phases whose synchronous switch was off to the end of the last period (R189). -/
  phaseSet : BitVec 8 := 0
  currents : List Int := []
  offsets : List Nat := []
  syncOff : BitVec 8 := 0
  /-- Periods of the shed in progress (0 none, 1-3) and its phase, `clock` since when the load has allowed one, and until which none
  may start (R186, R187). -/
  shedding : Nat := 0
  shedPhase : Nat := 0
  lowAt : Option Nat := none
  noShedBy : Nat := 0
  /-- Cells in service and cells taken out; by cell the `clock` since when its current has differed (R180). -/
  cellSet : BitVec 4 := 0
  cellsFailed : BitVec 4 := 0
  cellBadAt : Tab Nat := []
  /-- Soft start (R183): the output has risen above the short threshold since the reference passed it; `clock` since when it has not,
  and since when the limit has held with the output below half of LV_VSET. -/
  rose : Bool := false
  shortAt : Option Nat := none
  foldAt : Option Nat := none
  /-- Failed attempts, ISOSW checks failed in succession (R184). -/
  attempts : Nat := 0
  isoFails : Nat := 0
  /-- Soft start: `clock` at the ramp's start, voltage it starts from; `clock` since which regulation holds. -/
  rampAt : Nat := 0
  rampFrom : Int := 0
  regSince : Option Nat := none
  waitAt : Nat := 0
  /-- The wait is that of a pre-charge. -/
  waitPre : Bool := false
  /-- FORWARD waiting for regulation, FORWARD waiting for a new target, STOP waiting for the drain. -/
  req : Option Req := none
  slewReqs : List Req := []
  stopReqs : List Req := []
  /-- The drain of R50 runs; `clock` since; what it ends in: STOP, shutdown by temperature. -/
  draining : Bool := false
  drainAt : Nat := 0
  /-- Output voltage, load current, the regulator's demanded current, reference, that of the output terminal (R200), limit of R185 and
  available power of R180. -/
  vout : Int := 0
  load : Int := 0
  demand : Int := 0
  ref : Int := 0
  termRef : Int := 0
  limit : Int := 0
  avail : Int := 0
  /-- Share factors of the phases off even, 0.01 % (R188), their temperatures, `clock` of the last shift. -/
  share : Tab Int := []
  temp : Tab Int := []
  shareAt : Nat := 0
  /-- Temperature limits in 0.1 % of current and power, sensors that shut the converter down, sensors warned (R191),
  by 0-7 phase, 8 cell heatsink, 9 stage heatsink; `clock` since all resume conditions hold. -/
  limCur : Nat := 1000
  limPow : Nat := 1000
  shut : BitVec 10 := 0
  warned : BitVec 10 := 0
  coolSince : Option Nat := none
  /-- Power allowance of R22 in W, none for the default of R192. -/
  allowance : Option Int := none
  /-- Pre-charge (R19, R195-R197): target, request, `clock` at the start of the current, time of reduced draw, hold end;
  a FORWARD that waits for 255 V in the hold. -/
  target : Int := 0
  preReq : Option Req := none
  preAt : Option Nat := none
  reduced : Nat := 0
  /-- Bound on the draw from LV_OUT in W, and the current into the DC link in mA (R19, R196). -/
  drawLimit : Int := 2200
  preAmps : Int := 0
  /-- The DC link has reached 255 V and no start has answered it yet (R198). -/
  autoDue : Bool := false
  holdBy : Nat := 0
  fwdInHold : Option Req := none
  /-- Diode emulation runs (R189). -/
  diode : Bool := false
  /-- Length of the ramp in progress (R182), `clock` of the last switching period, since when one cell fewer would do (R180),
  and a shutdown by temperature from which the converter restarts (R191). -/
  rampLen : Nat := 0
  periodAt : Nat := 0
  /-- What LV_SLEW owes below its unit, in units per ms x ticks (model's own). -/
  slewRem : Nat := 0
  cellLowAt : Option Nat := none
  resume : Bool := false
  /-- `clock` of the last cross-commands on converter legs (R158); legs under BOOT_LOW with their periods since the last
  refresh (R169). -/
  xcmdAt : List Nat := []
  boot : Tab Boot := []
  /-- Output-stage legs 0x10-0x1F whose high side is locked off (R170), with `clock` since when a released one's bootstrap has been
  above 9.5 V (R190); by leg the `clock` at which its forced-off half-period ends (R157). -/
  locked : BitVec 16 := 0
  bootOkAt : Tab Nat := []
  forced : Tab Nat := []
  deriving DecidableEq, Repr

/-! ## Charging -/

/-- Charge functions (CHARGE_SETUP byte 16). -/
inductive ChgFn where
  | none | ac | grid | island | boost | topup
  deriving DecidableEq, Repr

/-- Charge states, coded as in CHG_STATE (R213, R306). -/
inductive ChgState where
  | unplugged | plugWait | armed | flow | handOver | suspended
  deriving DecidableEq, Repr

/-- CHARGE_SETUP as staged (R204). -/
structure ChgSetup where
  fn : ChgFn
  permit : Bool
  hlc : Bool
  stateD : Bool
  auto : Bool
  current : Int
  power : Nat
  deriving DecidableEq, Repr

/-- One phase of a profile (R206): voltage, current, timer in s. -/
structure ProfPhase where
  volts : Int
  amps : Int
  timer : Nat
  deriving DecidableEq, Repr

/-- BMS measurements of a target (R208), with `clock` of receipt. -/
structure BattStatus where
  volts : Option Int
  amps : Option Int
  temp : Option Int
  at' : Nat
  deriving DecidableEq, Repr

/-- The charge phase in progress and what its record gathers (R226-R233). -/
structure ChgPhase where
  target : Nat
  phase : Nat
  /-- Charge-equivalent time in ms x 1000, and elapsed, input-regulation and reduction time in ms. -/
  equiv : Nat
  elapsed : Nat
  vreg : Nat
  thermal : Nat
  /-- Charge in mA ms and energy in mW ms. -/
  charge : Nat
  energy : Nat
  start : W64
  /-- Values in force since the entry to the phase. -/
  prof : ProfPhase
  restarted : Bool
  fromBms : Bool
  /-- `clock` up to which its time has been counted; since when its exit condition holds (R226, R229). -/
  countedAt : Nat
  exitAt : Option Nat := none
  deriving DecidableEq, Repr

/-- Where DC boost stands (R220-R224). -/
inductive DcbStep where
  | off | matching | inletClosed | testing | running | ending | checking
  deriving DecidableEq, Repr

/-- Charging (R202-R236). -/
structure Chg where
  state : ChgState := .unplugged
  setup : Option ChgSetup := none
  /-- The setup is confirmed (R213); the session follows a new setup rather than an outage. -/
  confirmed : Bool := false
  fresh : Bool := true
  /-- Profile phases by 8 x target + phase; an unlisted one reads CONFIG (R206). -/
  prof : Tab ProfPhase := []
  /-- SET_LIMITS values: source current, power, station voltage. -/
  limCur : Option Int := none
  limPow : Option Nat := none
  station : Int := 0
  battHv : Option BattStatus := none
  battLv : Option BattStatus := none
  /-- PP class and cable limit in mA (R209), CP state (R210) and offered current in mA (R211), pilot invalid. -/
  pp : PpClass := .noPlug
  cp : CpState := .cpA
  offer : Int := 0
  digital : Bool := false
  pwm : Bool := false
  s2 : Bool := false
  /-- A RESUME is allowed: ARMED was reached by PAUSE (R207). -/
  paused : Bool := false
  phase : Option ChgPhase := none
  /-- The phase left last, which an outage, a pause or a suspension resumes (R226, R232). -/
  left : Option ChgPhase := none
  /-- PP has left its PLUG class in this wake and not returned (R216). -/
  leftPlug : Bool := false
  /-- Phase that expired in this plug cycle, by 8 x target + phase (R230); restart used. -/
  expired : List Nat := []
  suspendedBy : W16 := 0
  /-- START or RESUME waiting for current, PAUSE for zero, STOP for the drain; `clock` of START. -/
  startReq : Option Req := none
  pauseReq : Option Req := none
  stopReqs : List Req := []
  startAt : Nat := 0
  draining : Bool := false
  drainAt : Nat := 0
  /-- Session drains because a session completed, a mode change or an HVIL reaction asked. -/
  current : Int := 0
  limit : Int := 0
  /-- `clock` at which `limit` was last moved along its ramp (R212, R220). -/
  limitAt : Nat := 0
  /-- Limit of the OBC's output current in mA (R214, R226). -/
  outLimit : Int := 0
  /-- What that ramp owes below 1 mA, in mA x ticks (model's own). -/
  limitRem : Nat := 0
  /-- V_ref of R214 in mV for each phase in use, none while not measured; input regulation in 0.1 %; since when below floor, above
  start. -/
  vref : List Int := []
  refCycles : Nat := 0
  /-- For each phase in use the sum of the squares of the half-cycles measured for V_ref, mV^2. -/
  refSum : List Nat := []
  vreg : Nat := 1000
  lowAt : Option Nat := none
  goodAt : Option Nat := none
  /-- Mains valid since this `clock` (R232), and the cause of PLUG_WAIT is an outage; export resumes by it. -/
  mainsAt : Option Nat := none
  /-- `clock` of the last half-cycle at or above 30 V (R205). -/
  acHighAt : Option Nat := none
  outage : Bool := false
  handAt : Nat := 0
  handUnplugged : Bool := false
  /-- Power cap on the converter in W in a hand-over, and until when (R231). -/
  capPower : Option Nat := none
  capBy : Nat := 0
  /-- OBC temperature limit in 0.1 % and shutdown (R219), allowance in W. -/
  obcLimit : Nat := 1000
  obcShut : Bool := false
  obcWarned : Bool := false
  obcCoolAt : Option Nat := none
  allowance : Option Int := none
  dcbAllowance : Option Int := none
  /-- Temperature band: 0 none, 1 reduce, 2 outside (R228), return since; battery fault reduction (R227). -/
  band : Nat := 0
  bandAt : Option Nat := none
  missing : Bool := false
  shorted : Bool := false
  /-- Exporting: outside a window since (R217); islanded: above rated current, and above 110 % of it, since (R218). -/
  gridAt : Option Nat := none
  overAt : Option Nat := none
  peakAt : Option Nat := none
  /-- DC residual current, and PE-to-N voltage, beyond its limit since (R216). -/
  dcResAt : Option Nat := none
  peAt : Option Nat := none
  /-- Temperature of the LV battery from its TEMP input, with its `clock` (R208). -/
  probe : Option (Int × Nat) := none
  /-- DC boost: low-side duty in 0.1 %, trims of the six legs, the limit at which the ending began, inlet below half its reference
  since (R221, R224, R225). -/
  duty : Nat := 0
  legTrim : Tab Int := []
  endFrom : Int := 0
  halfAt : Option Nat := none
  /-- DC boost: step, INLET_MATCH request, tries, inductance in nH, star-point switches, `clock` of the last step. -/
  dcb : DcbStep := .off
  matchReq : Option Req := none
  spA : Bool := false
  spB : Bool := false
  dcbAt : Nat := 0
  inlet : Int := 0
  /-- Current at entry to BELAY, which bounds the charge there (R234). -/
  belayCap : Option Int := none
  /-- AC charge runs at reduced service in BASE_CAMP (R234). -/
  reduced : Bool := false
  deriving DecidableEq, Repr

/-! ## Actuators -/

/-- What a drive does (R237-R250). -/
inductive DriveState where
  | hold | moving | braking | returning | tooth | off | lowSides
  deriving DecidableEq, Repr

/-- An active vector of a drive's PWM period (R239, R240). -/
structure ActVector where
  /-- High sides of the vector: U is bit 2, V bit 1, W bit 0. -/
  code : Nat
  /-- Its start edge in the first half-period, ticks from the period's start, and its length there and in the second half. -/
  start : Int
  first : Int
  second : Int
  /-- The urgent request that measures it, and the end of the request's BURST (R239). -/
  request : Int
  burstEnd : Int
  deriving DecidableEq, Repr

/-- One actuator drive (R237-R247). -/
structure Drive where
  state : DriveState := .hold
  /-- Output position and whether it is valid (R238). -/
  position : Nat := 0
  posValid : Bool := false
  /-- Target of the motion or hold, and its target code. -/
  target : Nat := 0
  code : Nat := 0
  /-- The target is confirmed (R238). -/
  confirmed : Bool := false
  req : Option Req := none
  limit : Int := 0
  /-- Braking ends in HW_FAULT, or starts the motion against which the motor turned (R244). -/
  failing : Bool := false
  /-- Missed vectors in a row, last means by vector, reconstructed phase currents (R239, R241). -/
  missed : Nat := 0
  means : Tab Int := []
  /-- Edges of the high sides of legs U, V, W in the present PWM period, ticks from its start: on and off; and its two active
  vectors (R239, R240). -/
  edges : List (Int × Int) := []
  vectors : List ActVector := []
  /-- Electrical angle of the motor in the period, and current reference in mA toward the target (R242, R246). -/
  angle : W32 := 0
  ref : Int := 0
  iU : Int := 0
  iV : Int := 0
  iW : Int := 0
  /-- Halls distrusted (R242); `clock` since when they have been consistent in movement. -/
  hallBad : Bool := false
  hallOkAt : Option Nat := none
  onObserver : Bool := false
  /-- `clock` of the last BOOT_UVLO (R246). -/
  uvloAt : Option Nat := none
  /-- ACT_VS before braking, and all low sides on at the ceiling (R243). -/
  vsBefore : Int := 0
  lowOn : Bool := false
  /-- d-axis current that burns what braking cannot return, mA (R243); back-EMF preloaded at the start of a motion, mV (R244). -/
  burn : Int := 0
  preload : Int := 0
  /-- `clock` until which all low sides recharge the bootstraps (R246). -/
  lowUntil : Nat := 0
  /-- Target code in whose window the position stands, and the `clock` since when that is so (R238, R250). -/
  place : Option Nat := none
  placeAt : Nat := 0
  /-- Tooth-on-tooth hold since (R249). -/
  toothAt : Nat := 0
  startAt : Nat := 0
  deriving DecidableEq, Repr

/-- Steps of a gear shift, disconnect or reconnect (R251): numbers of its table, and the returns of R252. -/
inductive ShiftStep where
  | none | unload | toNeutral | sync | engage | retry | back | ramp
  deriving DecidableEq, Repr

/-- A shift in progress (R251, R252). -/
structure Shift where
  step : ShiftStep := .none
  /-- 1 gear 1, 2 gear 2, 3 disconnect, 4 reconnect. -/
  target : Nat := 0
  /-- Gear before the shift. -/
  old : Nat := 0
  req : Option Req := none
  /-- `clock` at the start of the step, synchronisation time reported, in us. -/
  at' : Nat := 0
  syncTime : Nat := 0
  /-- Synchronisation target, 0.01 rpm. -/
  speed : Int := 0
  /-- Torque ramped out, in 0.01 Nm. -/
  from' : Int := 0
  /-- Engagement has begun (R252); it returns to the old gear; a drain asked for it. -/
  begun : Bool := false
  reverting : Bool := false
  /-- The one retry has been used; output speed at disengagement, 0.00001 rpm. -/
  retried : Bool := false
  out : Int := 0
  draining : Bool := false
  /-- `clock` of the disengagement, and by how much the output speed had changed over how many ticks before it (R251). -/
  outAt : Nat := 0
  slope : Int × Nat := (0, 1)
  /-- Offset of the synchronisation target in the retry, 0.01 rpm; the bridge has left torque service after engagement began
  (R252). -/
  offset : Int := 0
  lost : Bool := false
  deriving DecidableEq, Repr

/-- The actuator tile (R237-R256). -/
structure Act where
  shift : Drive := {}
  park : Drive := {}
  disc : Drive := {}
  gear : Shift := {}
  /-- ACT_VS, mV (CH43). -/
  vs : Int := 13500
  vsHigh : Bool := false
  vsLow : Bool := false
  /-- PARK confirmed engaged (R250). -/
  parkOn : Bool := false
  /-- PARK engaging enable of the safety controller (R249). -/
  parkEnable : Bool := false
  /-- `clock` of the last cross-commands on each drive's legs (R158), by drive; legs under BOOT_LOW as in the converter. -/
  xcmdAt : Tab (List Nat) := []
  boot : Tab Boot := []
  /-- Legs 0x20-0x28 whose high side is locked off (R170), and by leg the `clock` at which its forced-off half-period ends. -/
  locked : BitVec 9 := 0
  forced : Tab Nat := []
  drainAt : Option Nat := none
  deriving DecidableEq, Repr

/-! ## Networks and pair -/

/-- A receive filter pair (R367): action 0 disabled, 1 accept into Q1, 2 reject. -/
structure CanFilter where
  action : Nat := 0
  formats : BitVec 3 := 0
  match' : W32 := 0
  mask : W32 := 0
  deriving DecidableEq, Repr

/-- A queue entry (R368). -/
structure CanEntry where
  frame : CanFrame
  time : W64
  deriving DecidableEq, Repr

/-- A frame to send, or what a transmit buffer holds with the CAN_TX that waits for its first sending (R371). -/
structure CanTx where
  frame : CanFrame
  req : Option Req
  since : Nat
  deriving DecidableEq, Repr

/-- Error states of a channel (R372). -/
inductive CanErr where
  | active | passive | busOff
  deriving DecidableEq, Repr

/-- A time-triggered schedule (R374). -/
structure TtSchedule where
  cycles : Nat
  columns : Nat
  length : Nat
  ref : W32
  starts : List Nat
  /-- Cells row by row: kind, buffer, frame word. -/
  cells : List (Nat × Nat × Nat)
  deriving DecidableEq, Repr

/-- A CAN channel (R365-R376). -/
structure CanCh where
  filters : Tab CanFilter := []
  q0 : List CanEntry := []
  q1 : List CanEntry := []
  /-- Read windows of the queues are locked since this `clock` (R370). -/
  lock0 : Option Nat := none
  lock1 : Option Nat := none
  /-- XL frames of more than 64 data bytes that wait to be posted (R369). -/
  big : List CanEntry := []
  /-- A run of drops at each queue is in progress (R368). -/
  drop0 : Bool := false
  drop1 : Bool := false
  tec : Nat := 0
  rec' : Nat := 0
  err : CanErr := .active
  /-- `clock` of the last bus-offs, newest first, at most three; the third fell within 1 s of the first; a CAN_BUSOFF_RESTART
  waits for the delay (R372). -/
  offAt : List Nat := []
  slow : Bool := false
  restart : Bool := false
  /-- Event-triggered frames waiting, oldest first, and what each transmit buffer holds. -/
  tx : List CanTx := []
  buffers : Tab CanTx := []
  tt : Option TtSchedule := none
  ttNext : Option (TtSchedule × Req) := none
  /-- A CAN_TT_LOAD of length 0 ends time-triggered operation with the present matrix cycle (R374). -/
  ttLeave : Bool := false
  /-- The basic cycle as the last reference message gave it, the window that is open, reference lost (R376), this module is
  master. -/
  cycle : Nat := 0
  column : Option Nat := none
  refLost : Bool := false
  master : Bool := false
  refAt : W64 := 0
  global : Nat := 0
  /-- The local NTU as ticks over units: 1 us, corrected to the master's while the module is a slave (R376). -/
  ntu : Nat × Nat := (400, 1)
  /-- Exclusive receive cells without a frame (R375): cycle, column and count of the last. -/
  missed : Nat := 0
  missedCycle : Nat := 0
  missedColumn : Nat := 0
  txvrFault : Bool := false
  deriving DecidableEq, Repr

/-- Networks (R365-R387). -/
structure Net where
  can0 : CanCh := {}
  can1 : CanCh := {}
  can2 : CanCh := {}
  can3 : CanCh := {}
  /-- The CAN_TT_LOAD of length 0 that waits (R374). -/
  ttLeaveReq : Option Req := none
  /-- A setpoint over CAN has been accepted in this wake or since the host was lost (CAN_FALLBACK_ACTIVE). -/
  fallback : Bool := false
  ptpLost : Bool := false
  e0Up : Bool := true
  e1Up : Bool := true
  deriving DecidableEq, Repr

/-- A channel by number. -/
def Net.ch (n : Net) : Nat → CanCh
  | 0 => n.can0 | 1 => n.can1 | 2 => n.can2 | _ => n.can3

/-- A channel changed by `f`. -/
def Net.modCh (n : Net) (i : Nat) (f : CanCh → CanCh) : Net :=
  match i with
  | 0 => { n with can0 := f n.can0 }
  | 1 => { n with can1 := f n.can1 }
  | 2 => { n with can2 := f n.can2 }
  | _ => { n with can3 := f n.can3 }

/-- A channel is in bus-off (R372). -/
def Net.busOff (n : Net) (ch : Nat) : Bool := (n.ch ch).err == .busOff

/-- Rope-team operation (R388-R406). -/
structure Pair where
  /-- A partner is on the pair link; this module is LEAD; it is the holder (R389). -/
  partner : Bool := false
  lead : Bool := true
  holder : Bool := true
  exchanged : Bool := false
  /-- The partner's PARTNER_OK input is closed, and it has opened since it last closed (R391, R394). -/
  okIn : Bool := false
  opened : Bool := false
  /-- Module time of the last valid frame, and what it said; the failover timing is in module time (R33). -/
  frameAt : Nat := 0
  last : Option PairFrame := none
  /-- The partner's bridges count as out of torque service: shares are 100 % (R394). -/
  takenA : Bool := false
  takenB : Bool := false
  lost : Bool := false
  /-- PARTNER_OK open while frames report torque service, since (R395). -/
  mismatchAt : Option Nat := none
  linkLost : Bool := false
  /-- Share in %, and a share waiting for its time (R392). -/
  share : Nat := 50
  shareNext : Option (Nat × W64) := none
  seq : W32 := 0
  /-- Module time of the last loop torque received for each bridge (R393). -/
  loopAtA : Option Nat := none
  loopAtB : Option Nat := none
  /-- By how much bridge A's periods are late against the interleave, in ticks, and since when beyond 1 us (R396). -/
  ilv : Int := 0
  ilvAt : Option Nat := none
  deriving DecidableEq, Repr

/-! ## The module -/

/-- Everything but the queue. -/
structure Hw where
  time : Time := {}
  mode : ModeSt := {}
  pwr : Power := {}
  tests : List TestRun := []
  sen : Sense := {}
  pos : Pos := {}
  ctlA : Ctl := {}
  ctlB : Ctl := {}
  gateA : Gate := {}
  gateB : Gate := {}
  sh : Shared := {}
  lv : Lv := {}
  chg : Chg := {}
  act : Act := {}
  saf : Safety := {}
  host : HostSt := {}
  slots : Tab Slot := []
  prm : Params := {}
  img : Images := {}
  otp : Otp := {}
  cnt : Counters := {}
  flt : Faults := {}
  net : Net := {}
  pair : Pair := {}
  /-- What has left the module, newest first. -/
  out : List Output := []
  /-- Draws made of the free values of Config (model's own). -/
  free : Nat := 0
  deriving DecidableEq, Repr

/-- The state of the block: the commands waiting, first in first out, and the module. -/
structure State where
  pending : List Instr
  hw : Hw
  deriving DecidableEq, Repr

/-- The unpowered module with no command waiting (R43): nothing is kept but OTP, which is blank. -/
def State.reset : State := { pending := [], hw := {} }

end Sys2Proof.Machine
end

