-- ==== Sys2Proof/Machine/FaultTable.lean ====
section
/-!
DEFINITION. Machine/FaultTable.lean: the fault codes of R363, each with the class its chapter's table gives it. Where a
table gives two classes, the row holds the first and the rule that raises it chooses.
-/
namespace Sys2Proof.Machine

/-- A fault code and its listed class. -/
structure FaultId where
  code : W16
  cls : FClass
  deriving DecidableEq, Repr

/-- DC_LINK_LIVE (R54). -/
abbrev fltDcLinkLive : FaultId := ⟨0x0201, .warn⟩
/-- HOST_ABSENT (R54). -/
abbrev fltHostAbsent : FaultId := ⟨0x0202, .warn⟩
/-- TOPUP_NO_PERMIT (R54). -/
abbrev fltTopupNoPermit : FaultId := ⟨0x0203, .info⟩
/-- BELAY_EXPIRED (R54). -/
abbrev fltBelayExpired : FaultId := ⟨0x0204, .arrest⟩
/-- DRAIN_FORCED (R54). -/
abbrev fltDrainForced : FaultId := ⟨0x0205, .warn⟩
/-- WAKE_DURING_SLEEP (R54). -/
abbrev fltWakeDuringSleep : FaultId := ⟨0x0206, .info⟩
/-- SENSE_GAIN_DRIFT (R85). -/
abbrev fltSenseGainDrift : FaultId := ⟨0x0301, .warn⟩
/-- SENSE_CORE_FAIL (R85). -/
abbrev fltSenseCoreFail : FaultId := ⟨0x0302, .belay⟩
/-- SENSE_CORE_DEGRADED (R85). -/
abbrev fltSenseCoreDegraded : FaultId := ⟨0x0303, .warn⟩
/-- SENSE_URGENT_MISS (R85). -/
abbrev fltSenseUrgentMiss : FaultId := ⟨0x0304, .info⟩
/-- SENSE_URGENT_LATE (R85). -/
abbrev fltSenseUrgentLate : FaultId := ⟨0x0305, .info⟩
/-- SENSE_SATURATION (R85). -/
abbrev fltSenseSaturation : FaultId := ⟨0x0306, .warn⟩
/-- CAL_REJECTED (R85). -/
abbrev fltCalRejected : FaultId := ⟨0x0307, .info⟩
/-- SENSE_MON_SAFE (R85). -/
abbrev fltSenseMonSafe : FaultId := ⟨0x0308, .belay⟩
/-- SENSE_MON_FAIL (R85). -/
abbrev fltSenseMonFail : FaultId := ⟨0x0309, .belay⟩
/-- SENSE_REFERENCE (R85). -/
abbrev fltSenseReference : FaultId := ⟨0x030A, .arrest⟩
/-- POS_OBSERVER_LOST (R112). -/
abbrev fltPosObserverLost : FaultId := ⟨0x0401, .belay⟩
/-- POS_SENSOR_LOST (R112). -/
abbrev fltPosSensorLost : FaultId := ⟨0x0402, .belay⟩
/-- POS_NO_SOURCE (R112). -/
abbrev fltPosNoSource : FaultId := ⟨0x0403, .belay⟩
/-- RES_EXC_FAULT (R112). -/
abbrev fltResExcFault : FaultId := ⟨0x0404, .warn⟩
/-- RES_SIGNAL (R112). -/
abbrev fltResSignal : FaultId := ⟨0x0405, .warn⟩
/-- RES_OVERSPEED (R112). -/
abbrev fltResOverspeed : FaultId := ⟨0x0406, .warn⟩
/-- ENC_ILLEGAL (R112). -/
abbrev fltEncIllegal : FaultId := ⟨0x0407, .warn⟩
/-- ENC_INDEX_MISMATCH (R112). -/
abbrev fltEncIndexMismatch : FaultId := ⟨0x0408, .warn⟩
/-- HALL_INVALID (R112). -/
abbrev fltHallInvalid : FaultId := ⟨0x0409, .warn⟩
/-- SENT_FRAME_ERROR (R112). -/
abbrev fltSentFrameError : FaultId := ⟨0x040A, .info⟩
/-- SENT_TIMEOUT (R112). -/
abbrev fltSentTimeout : FaultId := ⟨0x040B, .warn⟩
/-- ENCOUT_OVERRUN (R112). -/
abbrev fltEncoutOverrun : FaultId := ⟨0x040C, .info⟩
/-- RES_SLOT_LOST (R112). -/
abbrev fltResSlotLost : FaultId := ⟨0x040D, .info⟩
/-- TRQ_SYNC_MISMATCH (R151). -/
abbrev fltTrqSyncMismatch : FaultId := ⟨0x0501, .belay⟩
/-- TRQ_SETPOINT_STALE (R151). -/
abbrev fltTrqSetpointStale : FaultId := ⟨0x0502, .warn⟩
/-- TRQ_MOTOR_DATA (R151). -/
abbrev fltTrqMotorData : FaultId := ⟨0x0503, .warn⟩
/-- TRQ_IDENT_REJECTED (R151). -/
abbrev fltTrqIdentRejected : FaultId := ⟨0x0504, .info⟩
/-- TRQ_MAGNET_HOT (R151). -/
abbrev fltTrqMagnetHot : FaultId := ⟨0x0505, .warn⟩
/-- TRQ_COOLANT_HOT (R151). -/
abbrev fltTrqCoolantHot : FaultId := ⟨0x0506, .warn⟩
/-- TRQ_DC_CEILING (R151). -/
abbrev fltTrqDcCeiling : FaultId := ⟨0x0507, .warn⟩
/-- TRQ_REACQUIRE_FAIL (R151). -/
abbrev fltTrqReacquireFail : FaultId := ⟨0x0508, .warn⟩
/-- TRQ_UNINTENDED (R151). -/
abbrev fltTrqUnintended : FaultId := ⟨0x0509, .belay⟩
/-- TRQ_REGULATION (R151). -/
abbrev fltTrqRegulation : FaultId := ⟨0x050A, .belay⟩
/-- TRQ_OVERSPEED (R151). -/
abbrev fltTrqOverspeed : FaultId := ⟨0x050B, .warn⟩
/-- MOD_LEG_XCMD (R178). -/
abbrev fltModLegXcmd : FaultId := ⟨0x0601, .info⟩
/-- MOD_LEG_XCMD_REPEAT (R178). -/
abbrev fltModLegXcmdRepeat : FaultId := ⟨0x0602, .belay⟩
/-- GATE_DESAT (R178). -/
abbrev fltGateDesat : FaultId := ⟨0x0603, .belay⟩
/-- GATE_DESAT_REPEAT (R178). -/
abbrev fltGateDesatRepeat : FaultId := ⟨0x0604, .latch⟩
/-- GATE_UVLO (R178). -/
abbrev fltGateUvlo : FaultId := ⟨0x0605, .belay⟩
/-- GATE_RAIL_OV (R178). -/
abbrev fltGateRailOv : FaultId := ⟨0x0606, .warn⟩
/-- DIE_OVERTEMP (R178). -/
abbrev fltDieOvertemp : FaultId := ⟨0x0607, .belay⟩
/-- DIE_SPREAD (R178). -/
abbrev fltDieSpread : FaultId := ⟨0x0608, .warn⟩
/-- DIE_SENSOR (R178). -/
abbrev fltDieSensor : FaultId := ⟨0x0609, .warn⟩
/-- SWITCH_SHORTED (R178). -/
abbrev fltSwitchShorted : FaultId := ⟨0x060A, .latch⟩
/-- SWITCH_OPEN (R178). -/
abbrev fltSwitchOpen : FaultId := ⟨0x060B, .latch⟩
/-- PHASE_OPEN (R178). -/
abbrev fltPhaseOpen : FaultId := ⟨0x060C, .latch⟩
/-- GATE_LOOP (R178). -/
abbrev fltGateLoop : FaultId := ⟨0x060D, .latch⟩
/-- COMPARATOR_FAIL (R178). -/
abbrev fltComparatorFail : FaultId := ⟨0x060E, .latch⟩
/-- DEADTIME_LIMIT (R178). -/
abbrev fltDeadtimeLimit : FaultId := ⟨0x060F, .warn⟩
/-- DVDT_OUT_OF_BAND (R178). -/
abbrev fltDvdtOutOfBand : FaultId := ⟨0x0610, .warn⟩
/-- BOOT_LOW (R178). -/
abbrev fltBootLow : FaultId := ⟨0x0611, .info⟩
/-- BOOT_UVLO (R178). -/
abbrev fltBootUvlo : FaultId := ⟨0x0612, .warn⟩
/-- STO_ASC_INHIBIT (R178). -/
abbrev fltStoAscInhibit : FaultId := ⟨0x0613, .info⟩
/-- OFFSTATE_PENDING (R178). -/
abbrev fltOffstatePending : FaultId := ⟨0x0614, .info⟩
/-- LVOUT_SHORT (R201). -/
abbrev fltLvoutShort : FaultId := ⟨0x0701, .latch⟩
/-- LV_START_FAILED (R201). -/
abbrev fltLvStartFailed : FaultId := ⟨0x0702, .latch⟩
/-- LVOUT_OV (R201). -/
abbrev fltLvoutOv : FaultId := ⟨0x0703, .warn⟩
/-- LVOUT_OV_START (R201). -/
abbrev fltLvoutOvStart : FaultId := ⟨0x0704, .warn⟩
/-- LVOUT_REVERSE (R201). -/
abbrev fltLvoutReverse : FaultId := ⟨0x0705, .warn⟩
/-- LV_OVERTEMP_WARN (R201). -/
abbrev fltLvOvertempWarn : FaultId := ⟨0x0706, .info⟩
/-- LV_OVERTEMP (R201). -/
abbrev fltLvOvertemp : FaultId := ⟨0x0707, .warn⟩
/-- LV_CELL_FAIL (R201). -/
abbrev fltLvCellFail : FaultId := ⟨0x0708, .warn⟩
/-- LV_BUS_FAULT (R201). -/
abbrev fltLvBusFault : FaultId := ⟨0x0709, .warn⟩
/-- LV_PRECHARGE_FAULT (R201). -/
abbrev fltLvPrechargeFault : FaultId := ⟨0x070A, .warn⟩
/-- LV_ISOSW_FAIL (R201). -/
abbrev fltLvIsoswFail : FaultId := ⟨0x070B, .latch⟩
/-- LV_CLAMP_FAIL (R201). -/
abbrev fltLvClampFail : FaultId := ⟨0x070C, .latch⟩
/-- CHG_TIMER (R236). -/
abbrev fltChgTimer : FaultId := ⟨0x0801, .warn⟩
/-- CHG_INPUT_LOW (R236). -/
abbrev fltChgInputLow : FaultId := ⟨0x0802, .warn⟩
/-- CHG_PILOT_INVALID (R236). -/
abbrev fltChgPilotInvalid : FaultId := ⟨0x0803, .warn⟩
/-- CHG_NO_SOURCE (R236). -/
abbrev fltChgNoSource : FaultId := ⟨0x0804, .warn⟩
/-- CHG_RESIDUAL (R236). -/
abbrev fltChgResidual : FaultId := ⟨0x0805, .warn⟩
/-- CHG_PE_FAULT (R236). -/
abbrev fltChgPeFault : FaultId := ⟨0x0806, .warn⟩
/-- CHG_BATT_MISSING (R236). -/
abbrev fltChgBattMissing : FaultId := ⟨0x0807, .warn⟩
/-- CHG_BATT_SHORTED (R236). -/
abbrev fltChgBattShorted : FaultId := ⟨0x0808, .warn⟩
/-- CHG_TEMP_WINDOW (R236). -/
abbrev fltChgTempWindow : FaultId := ⟨0x0809, .info⟩
/-- CHG_GRID_TRIP (R236). -/
abbrev fltChgGridTrip : FaultId := ⟨0x080A, .info⟩
/-- CHG_ISLAND_OVERLOAD (R236). -/
abbrev fltChgIslandOverload : FaultId := ⟨0x080B, .warn⟩
/-- CHG_BACKFEED (R236). -/
abbrev fltChgBackfeed : FaultId := ⟨0x080C, .warn⟩
/-- OBC_OVERTEMP_WARN (R236). -/
abbrev fltObcOvertempWarn : FaultId := ⟨0x080D, .info⟩
/-- OBC_OVERTEMP (R236). -/
abbrev fltObcOvertemp : FaultId := ⟨0x080E, .warn⟩
/-- DCB_PARK_LOST (R236). -/
abbrev fltDcbParkLost : FaultId := ⟨0x080F, .arrest⟩
/-- DCB_INDUCTANCE (R236). -/
abbrev fltDcbInductance : FaultId := ⟨0x0810, .latch⟩
/-- DCB_MATCH_FAIL (R236). -/
abbrev fltDcbMatchFail : FaultId := ⟨0x0811, .warn⟩
/-- DCB_SOURCE_LOST (R236). -/
abbrev fltDcbSourceLost : FaultId := ⟨0x0812, .warn⟩
/-- DCB_RATIO (R236). -/
abbrev fltDcbRatio : FaultId := ⟨0x0813, .warn⟩
/-- DCB_TORQUE (R236). -/
abbrev fltDcbTorque : FaultId := ⟨0x0814, .arrest⟩
/-- DCB_CONTACTOR_WELD (R236). -/
abbrev fltDcbContactorWeld : FaultId := ⟨0x0815, .latch⟩
/-- ACT_LOCKED (R256). -/
abbrev fltActLocked : FaultId := ⟨0x0901, .warn⟩
/-- ACT_POS_INVALID (R256). -/
abbrev fltActPosInvalid : FaultId := ⟨0x0902, .warn⟩
/-- ACT_SHIFT_ABORTED (R256). -/
abbrev fltActShiftAborted : FaultId := ⟨0x0903, .info⟩
/-- ACT_SHIFT_STUCK (R256). -/
abbrev fltActShiftStuck : FaultId := ⟨0x0904, .warn⟩
/-- ACT_NEUTRAL_HELD (R256). -/
abbrev fltActNeutralHeld : FaultId := ⟨0x0905, .belay⟩
/-- PARK_INHIBITED (R256). -/
abbrev fltParkInhibited : FaultId := ⟨0x0906, .info⟩
/-- PARK_CONFIRM_LOST (R256). -/
abbrev fltParkConfirmLost : FaultId := ⟨0x0907, .warn⟩
/-- ACT_VS_HIGH (R256). -/
abbrev fltActVsHigh : FaultId := ⟨0x0908, .warn⟩
/-- ACT_VS_LOW (R256). -/
abbrev fltActVsLow : FaultId := ⟨0x0909, .warn⟩
/-- ACT_BOOT (R256). -/
abbrev fltActBoot : FaultId := ⟨0x090A, .warn⟩
/-- ACT_SENSE_LOST (R256). -/
abbrev fltActSenseLost : FaultId := ⟨0x090B, .warn⟩
/-- ACT_HALL_OBSERVER (R256). -/
abbrev fltActHallObserver : FaultId := ⟨0x090C, .warn⟩
/-- NEGOAC_RESYNC (R289). -/
abbrev fltNegoacResync : FaultId := ⟨0x0A01, .info⟩
/-- NEGOAC_CORE_FAIL (R289). -/
abbrev fltNegoacCoreFail : FaultId := ⟨0x0A02, .warn⟩
/-- NEGOAC_NO_MAJORITY (R289). -/
abbrev fltNegoacNoMajority : FaultId := ⟨0x0A03, .arrest⟩
/-- TILE_CHECKER_MISMATCH (R289). -/
abbrev fltTileCheckerMismatch : FaultId := ⟨0x0A04, .belay⟩
/-- CHECKER_INJECT_FAIL (R289). -/
abbrev fltCheckerInjectFail : FaultId := ⟨0x0A05, .latch⟩
/-- STO_OPEN (R289). -/
abbrev fltStoOpen : FaultId := ⟨0x0A06, .info⟩
/-- STO_DISCREPANCY (R289). -/
abbrev fltStoDiscrepancy : FaultId := ⟨0x0A07, .arrest⟩
/-- STO_PATH_FAIL (R289). -/
abbrev fltStoPathFail : FaultId := ⟨0x0A08, .latch⟩
/-- SO_SWITCH_FAIL (R289). -/
abbrev fltSoSwitchFail : FaultId := ⟨0x0A09, .latch⟩
/-- SO_SHORT (R289). -/
abbrev fltSoShort : FaultId := ⟨0x0A0A, .latch⟩
/-- SO_OPEN_LOAD (R289). -/
abbrev fltSoOpenLoad : FaultId := ⟨0x0A0B, .warn⟩
/-- SAFETY_PDU_REPEAT (R289). -/
abbrev fltSafetyPduRepeat : FaultId := ⟨0x0A0C, .belay⟩
/-- SAFETY_SET_DEFAULT (R289). -/
abbrev fltSafetySetDefault : FaultId := ⟨0x0A0D, .warn⟩
/-- SAFETY_SET_CORRUPT (R289). -/
abbrev fltSafetySetCorrupt : FaultId := ⟨0x0A0E, .arrest⟩
/-- SAFETY_CONFIRM_MISMATCH (R289). -/
abbrev fltSafetyConfirmMismatch : FaultId := ⟨0x0A0F, .info⟩
/-- HVIL_OPEN (R289). -/
abbrev fltHvilOpen : FaultId := ⟨0x0A10, .warn⟩
/-- HVIL_SHORT (R289). -/
abbrev fltHvilShort : FaultId := ⟨0x0A11, .warn⟩
/-- DISCHARGE_HELD (R289). -/
abbrev fltDischargeHeld : FaultId := ⟨0x0A12, .warn⟩
/-- DISCHARGE_FAIL (R289). -/
abbrev fltDischargeFail : FaultId := ⟨0x0A13, .latch⟩
/-- APP_SIGNAL_LOST (R289). -/
abbrev fltAppSignalLost : FaultId := ⟨0x0A14, .belay⟩
/-- SENSE_SUPPLY_LOST (R289). -/
abbrev fltSenseSupplyLost : FaultId := ⟨0x0A15, .arrest⟩
/-- CLOCK_LOSS (R289). -/
abbrev fltClockLoss : FaultId := ⟨0x0A16, .arrest⟩
/-- CK0_FALLBACK (R289). -/
abbrev fltCk0Fallback : FaultId := ⟨0x0A17, .warn⟩
/-- VSUP_LOST (R289). -/
abbrev fltVsupLost : FaultId := ⟨0x0A18, .arrest⟩
/-- DEBUG_ATTACHED (R289). -/
abbrev fltDebugAttached : FaultId := ⟨0x0A19, .info⟩
/-- DEBUG_SPLIT (R289). -/
abbrev fltDebugSplit : FaultId := ⟨0x0A1A, .warn⟩
/-- HOST_LINK_LOST (R320). -/
abbrev fltHostLinkLost : FaultId := ⟨0x0B01, .warn⟩
/-- HOST_DOORBELL_INVALID (R320). -/
abbrev fltHostDoorbellInvalid : FaultId := ⟨0x0B02, .warn⟩
/-- HOST_CQ_STALL (R320). -/
abbrev fltHostCqStall : FaultId := ⟨0x0B03, .warn⟩
/-- HOST_DMA_ERROR (R320). -/
abbrev fltHostDmaError : FaultId := ⟨0x0B04, .warn⟩
/-- HOST_CONTEXT_TAMPER (R320). -/
abbrev fltHostContextTamper : FaultId := ⟨0x0B05, .warn⟩
/-- HOST_RECORDS_LOST (R320). -/
abbrev fltHostRecordsLost : FaultId := ⟨0x0B06, .info⟩
/-- CINCH_EXPIRED (R350). -/
abbrev fltCinchExpired : FaultId := ⟨0x0C01, .info⟩
/-- IMAGE_AUTH_FAIL (R350). -/
abbrev fltImageAuthFail : FaultId := ⟨0x0C02, .warn⟩
/-- SAFE_SWAP_FAIL (R350). -/
abbrev fltSafeSwapFail : FaultId := ⟨0x0C03, .arrest⟩
/-- OTP_EXHAUSTED (R350). -/
abbrev fltOtpExhausted : FaultId := ⟨0x0C04, .warn⟩
/-- OTP_PROGRAM_FAIL (R350). -/
abbrev fltOtpProgramFail : FaultId := ⟨0x0C05, .warn⟩
/-- OTP_RECORD_INVALID (R350). -/
abbrev fltOtpRecordInvalid : FaultId := ⟨0x0C06, .arrest⟩
/-- CONFIG_MISSING (R350). -/
abbrev fltConfigMissing : FaultId := ⟨0x0C07, .warn⟩
/-- SNAPSHOT_UNSYNCED (R364). -/
abbrev fltSnapshotUnsynced : FaultId := ⟨0x0D01, .info⟩
/-- FAULT_HISTORY_OVERWRITE (R364). -/
abbrev fltFaultHistoryOverwrite : FaultId := ⟨0x0D02, .warn⟩
/-- CAN_ERROR_PASSIVE (R387). -/
abbrev fltCanErrorPassive : FaultId := ⟨0x0E01, .info⟩
/-- CAN_BUS_OFF (R387). -/
abbrev fltCanBusOff : FaultId := ⟨0x0E02, .warn⟩
/-- CAN_QUEUE_OVERFLOW (R387). -/
abbrev fltCanQueueOverflow : FaultId := ⟨0x0E03, .info⟩
/-- CAN_TT_REF_LOST (R387). -/
abbrev fltCanTtRefLost : FaultId := ⟨0x0E04, .warn⟩
/-- CAN_TT_MASTER_CHANGE (R387). -/
abbrev fltCanTtMasterChange : FaultId := ⟨0x0E05, .info⟩
/-- CAN_TXVR_FAULT (R387). -/
abbrev fltCanTxvrFault : FaultId := ⟨0x0E06, .warn⟩
/-- ETH_LINK_DOWN (R387). -/
abbrev fltEthLinkDown : FaultId := ⟨0x0E07, .warn⟩
/-- PTP_SYNC_LOST (R387). -/
abbrev fltPtpSyncLost : FaultId := ⟨0x0E08, .warn⟩
/-- CAN_FALLBACK_ACTIVE (R387). -/
abbrev fltCanFallbackActive : FaultId := ⟨0x0E09, .warn⟩
/-- PTP_TIME_BEHIND (R387). -/
abbrev fltPtpTimeBehind : FaultId := ⟨0x0E0A, .warn⟩
/-- PAIR_PARTNER_LOST (R406). -/
abbrev fltPairPartnerLost : FaultId := ⟨0x0F01, .warn⟩
/-- PAIR_LINK_LOST (R406). -/
abbrev fltPairLinkLost : FaultId := ⟨0x0F02, .warn⟩
/-- PAIR_OK_MISMATCH (R406). -/
abbrev fltPairOkMismatch : FaultId := ⟨0x0F03, .belay⟩
/-- PAIR_INTERLEAVE (R406). -/
abbrev fltPairInterleave : FaultId := ⟨0x0F04, .warn⟩
/-- PAIR_ROLE_CONFLICT (R406). -/
abbrev fltPairRoleConflict : FaultId := ⟨0x0F05, .warn⟩
/-- PAIR_PARTNER_ABSENT (R406). -/
abbrev fltPairPartnerAbsent : FaultId := ⟨0x0F06, .info⟩
/-- PAIR_PRECHARGE_ALONE (R406). -/
abbrev fltPairPrechargeAlone : FaultId := ⟨0x0F07, .info⟩

/-- The code and class of an assigned fault code (R363), by its position in the tables of the chapters. -/
def faultIds : List FaultId := [
  fltDcLinkLive, fltHostAbsent, fltTopupNoPermit, fltBelayExpired, fltDrainForced,
  fltWakeDuringSleep, fltSenseGainDrift, fltSenseCoreFail, fltSenseCoreDegraded, fltSenseUrgentMiss,
  fltSenseUrgentLate, fltSenseSaturation, fltCalRejected, fltSenseMonSafe, fltSenseMonFail,
  fltSenseReference, fltPosObserverLost, fltPosSensorLost, fltPosNoSource, fltResExcFault,
  fltResSignal, fltResOverspeed, fltEncIllegal, fltEncIndexMismatch, fltHallInvalid,
  fltSentFrameError, fltSentTimeout, fltEncoutOverrun, fltResSlotLost, fltTrqSyncMismatch,
  fltTrqSetpointStale, fltTrqMotorData, fltTrqIdentRejected, fltTrqMagnetHot, fltTrqCoolantHot,
  fltTrqDcCeiling, fltTrqReacquireFail, fltTrqUnintended, fltTrqRegulation, fltTrqOverspeed,
  fltModLegXcmd, fltModLegXcmdRepeat, fltGateDesat, fltGateDesatRepeat, fltGateUvlo,
  fltGateRailOv, fltDieOvertemp, fltDieSpread, fltDieSensor, fltSwitchShorted,
  fltSwitchOpen, fltPhaseOpen, fltGateLoop, fltComparatorFail, fltDeadtimeLimit,
  fltDvdtOutOfBand, fltBootLow, fltBootUvlo, fltStoAscInhibit, fltOffstatePending,
  fltLvoutShort, fltLvStartFailed, fltLvoutOv, fltLvoutOvStart, fltLvoutReverse,
  fltLvOvertempWarn, fltLvOvertemp, fltLvCellFail, fltLvBusFault, fltLvPrechargeFault,
  fltLvIsoswFail, fltLvClampFail, fltChgTimer, fltChgInputLow, fltChgPilotInvalid,
  fltChgNoSource, fltChgResidual, fltChgPeFault, fltChgBattMissing, fltChgBattShorted,
  fltChgTempWindow, fltChgGridTrip, fltChgIslandOverload, fltChgBackfeed, fltObcOvertempWarn,
  fltObcOvertemp, fltDcbParkLost, fltDcbInductance, fltDcbMatchFail, fltDcbSourceLost,
  fltDcbRatio, fltDcbTorque, fltDcbContactorWeld, fltActLocked, fltActPosInvalid,
  fltActShiftAborted, fltActShiftStuck, fltActNeutralHeld, fltParkInhibited, fltParkConfirmLost,
  fltActVsHigh, fltActVsLow, fltActBoot, fltActSenseLost, fltActHallObserver,
  fltNegoacResync, fltNegoacCoreFail, fltNegoacNoMajority, fltTileCheckerMismatch, fltCheckerInjectFail,
  fltStoOpen, fltStoDiscrepancy, fltStoPathFail, fltSoSwitchFail, fltSoShort,
  fltSoOpenLoad, fltSafetyPduRepeat, fltSafetySetDefault, fltSafetySetCorrupt, fltSafetyConfirmMismatch,
  fltHvilOpen, fltHvilShort, fltDischargeHeld, fltDischargeFail, fltAppSignalLost,
  fltSenseSupplyLost, fltClockLoss, fltCk0Fallback, fltVsupLost, fltDebugAttached,
  fltDebugSplit, fltHostLinkLost, fltHostDoorbellInvalid, fltHostCqStall, fltHostDmaError,
  fltHostContextTamper, fltHostRecordsLost, fltCinchExpired, fltImageAuthFail, fltSafeSwapFail,
  fltOtpExhausted, fltOtpProgramFail, fltOtpRecordInvalid, fltConfigMissing, fltSnapshotUnsynced,
  fltFaultHistoryOverwrite, fltCanErrorPassive, fltCanBusOff, fltCanQueueOverflow, fltCanTtRefLost,
  fltCanTtMasterChange, fltCanTxvrFault, fltEthLinkDown, fltPtpSyncLost, fltCanFallbackActive,
  fltPtpTimeBehind, fltPairPartnerLost, fltPairLinkLost, fltPairOkMismatch, fltPairInterleave,
  fltPairRoleConflict, fltPairPartnerAbsent, fltPairPrechargeAlone]

end Sys2Proof.Machine
end

