-- ==== Sys2Proof/Machine/ParamTable.lean ====
section
/-!
DEFINITION. Machine/ParamTable.lean: the parameters of R53, R84, R111, R150, R177, R200, R235, R255, R288, R319, R344,
R349, R364, R385 and R404: width, sign, range, reset value and applies-at class, one row for each ID.
-/
namespace Sys2Proof.Machine

/-- Applies-at classes (R7). -/
inductive PCls where
  | immediate | controlA | controlB | controlAB | pwmA | pwmB | modeEdge | atTime
  deriving DecidableEq, Repr

/-- The range of a parameter. -/
inductive PRange where
  /-- Any value of the width. -/
  | any
  /-- From `lo` to `hi`. -/
  | between (lo hi : Int)
  /-- 0, or from `lo` to `hi`. -/
  | zeroOr (lo hi : Int)
  | oneOf (vs : List Int)
  /-- Fields (low bit, width, least, greatest); every other bit is reserved and 0. -/
  | fields (fs : List (Nat × Nat × Nat × Nat))
  /-- Ranges of the CW-8840-12 and of the CW-8840-48 (R1). -/
  | variant (lo12 hi12 lo48 hi48 : Int)
  /-- TOPUP_WAKE_FRAME (R53). -/
  | wakeFrame
  /-- DVDT_BAND (R177): low and high 5-50, low below high. -/
  | band
  /-- CHG_TEMP_WINDOW (R235): four ascending temperatures. -/
  | window
  /-- ISLAND_NOMINAL (R235). -/
  | island
  /-- CAN_BITRATE (R366, R385). -/
  | bitrate
  deriving DecidableEq, Repr

/-- One parameter: ID, bytes of its encoding, signed, range, reset value (none where it comes from CONFIG), class. -/
structure PRow where
  id : Nat
  bytes : Nat
  signed : Bool
  range : PRange
  reset : Option Nat
  cls : PCls
  deriving DecidableEq, Repr

/-- Parameters of subsystem 0x01 (R344). -/
def paramsSystem : List PRow := [
  ⟨0x0101, 4, false, .between 0 200000, none, .modeEdge⟩,
  ⟨0x0102, 4, false, .between 0 200000, none, .modeEdge⟩,
  ⟨0x0103, 1, false, .between 0 1, none, .modeEdge⟩,
  ⟨0x0104, 1, false, .between 0 1, none, .modeEdge⟩,
  ⟨0x0105, 2, true, .between 0 12000, none, .modeEdge⟩,
  ⟨0x0106, 4, false, .any, none, .modeEdge⟩]

/-- Parameters of subsystem 0x02 (R53). -/
def paramsModes : List PRow := [
  ⟨0x0201, 2, false, .between 0 0x3FFF, some 1023, .modeEdge⟩,
  ⟨0x0202, 1, false, .fields [(0, 2, 0, 2), (2, 2, 0, 2), (4, 2, 0, 2), (6, 2, 0, 2)], some 85, .modeEdge⟩,
  ⟨0x0203, 1, false, .between 0 3, some 0, .modeEdge⟩,
  ⟨0x0204, 4, false, .zeroOr 10 604800, some 0, .modeEdge⟩,
  ⟨0x0205, 8, false, .wakeFrame, some 0, .modeEdge⟩,
  ⟨0x0206, 4, false, .between 1000000 60000000, some 10000000, .immediate⟩,
  ⟨0x0207, 4, false, .between 1000000 600000000, some 30000000, .immediate⟩,
  ⟨0x0208, 4, true, .between 0 150000, some 60000, .modeEdge⟩,
  ⟨0x0209, 4, false, .between 1000 1000000, some 50000, .immediate⟩,
  ⟨0x020A, 4, false, .between 10000 2000000, some 300000, .immediate⟩,
  ⟨0x020B, 4, false, .between 10000 2000000, some 200000, .immediate⟩,
  ⟨0x020C, 4, false, .between 5000 500000, some 50000, .immediate⟩,
  ⟨0x020D, 4, false, .between 50000 2000000, some 400000, .immediate⟩]

/-- Parameters of subsystem 0x03 (R84). -/
def paramsSensing : List PRow := [
  ⟨0x0301, 4, true, .between 200000 600000, some 400000, .immediate⟩,
  ⟨0x0302, 4, false, .zeroOr 100000 60000000, some 1000000, .immediate⟩,
  ⟨0x0303, 1, false, .between 0 1, some 1, .modeEdge⟩,
  ⟨0x0304, 2, false, .between 10 1000, some 500, .immediate⟩,
  ⟨0x0305, 2, false, .any, some 65280, .modeEdge⟩,
  ⟨0x0306, 2, false, .between 0 400, some 20, .immediate⟩]

/-- Parameters of subsystem 0x04 (R111). -/
def paramsPosition : List PRow := [
  ⟨0x0401, 1, false, .oneOf [0x10, 0x11, 0x20, 0x21], some 16, .modeEdge⟩,
  ⟨0x0402, 1, false, .oneOf [0x10, 0x11, 0x20, 0x21], some 17, .modeEdge⟩,
  ⟨0x0403, 1, false, .between 1 16, some 4, .modeEdge⟩,
  ⟨0x0404, 1, false, .between 1 16, some 4, .modeEdge⟩,
  ⟨0x0405, 4, false, .any, some 0, .controlA⟩,
  ⟨0x0406, 4, false, .any, some 0, .controlB⟩,
  ⟨0x0407, 2, false, .between 4000 20000, some 10000, .modeEdge⟩,
  ⟨0x0408, 2, false, .between 4000 20000, some 10000, .modeEdge⟩,
  ⟨0x0409, 4, true, .between 3000 7000, some 4000, .modeEdge⟩,
  ⟨0x040A, 4, true, .between 3000 7000, some 4000, .modeEdge⟩,
  ⟨0x040B, 1, false, .between 1 16, some 4, .modeEdge⟩,
  ⟨0x040C, 1, false, .between 1 16, some 4, .modeEdge⟩,
  ⟨0x040D, 4, false, .fields [(0, 16, 50, 500), (16, 16, 100, 1000)], some 49152150, .immediate⟩,
  ⟨0x040E, 4, false, .fields [(0, 16, 50, 500), (16, 16, 100, 1000)], some 49152150, .immediate⟩,
  ⟨0x040F, 2, false, .between 1 65535, some 1024, .modeEdge⟩,
  ⟨0x0410, 2, false, .between 1 65535, some 1024, .modeEdge⟩,
  ⟨0x0411, 2, false, .fields [(0, 2, 0, 2), (2, 3, 0, 7), (6, 1, 0, 1), (7, 5, 0, 31)], some 0, .modeEdge⟩,
  ⟨0x0412, 2, false, .fields [(0, 2, 0, 2), (2, 3, 0, 7), (6, 1, 0, 1), (7, 5, 0, 31)], some 0, .modeEdge⟩,
  ⟨0x0413, 4, false, .between 10 100000, some 1000, .immediate⟩,
  ⟨0x0414, 4, false, .between 10 100000, some 1000, .immediate⟩,
  ⟨0x0415, 2, false, .fields [(0, 8, 0, 255), (8, 1, 0, 1), (9, 2, 0, 2)], some 25, .modeEdge⟩,
  ⟨0x0416, 2, false, .fields [(0, 8, 0, 255), (8, 1, 0, 1), (9, 2, 0, 2)], some 537, .modeEdge⟩,
  ⟨0x0417, 2, false, .fields [(0, 8, 0, 255), (8, 1, 0, 1), (9, 2, 0, 2)], some 1049, .modeEdge⟩,
  ⟨0x0418, 4, false, .fields [(0, 10, 30, 900), (10, 3, 1, 6), (13, 1, 0, 1), (14, 2, 0, 2), (16, 1, 0, 1), (17, 2, 0, 3)], some 22558, .modeEdge⟩,
  ⟨0x0419, 4, false, .fields [(0, 10, 30, 900), (10, 3, 1, 6), (13, 1, 0, 1), (14, 2, 0, 2), (16, 1, 0, 1), (17, 2, 0, 3)], some 153630, .modeEdge⟩,
  ⟨0x041A, 4, false, .fields [(0, 10, 30, 900), (10, 3, 1, 6), (13, 1, 0, 1), (14, 2, 0, 2), (16, 1, 0, 1), (17, 2, 0, 3)], some 284702, .modeEdge⟩,
  ⟨0x041B, 4, false, .fields [(0, 10, 30, 900), (10, 3, 1, 6), (13, 1, 0, 1), (14, 2, 0, 2), (16, 1, 0, 1), (17, 2, 0, 3)], some 415774, .modeEdge⟩,
  ⟨0x041C, 4, false, .between 1000 100000, some 10000, .immediate⟩,
  ⟨0x041D, 4, false, .between 1000 100000, some 10000, .immediate⟩,
  ⟨0x041E, 4, false, .between 1000 100000, some 10000, .immediate⟩,
  ⟨0x041F, 4, false, .between 1000 100000, some 10000, .immediate⟩,
  ⟨0x0420, 1, false, .between 0 4, some 0, .modeEdge⟩,
  ⟨0x0421, 1, false, .between 0 4, some 0, .modeEdge⟩,
  ⟨0x0422, 4, false, .fields [(0, 16, 1, 65535), (16, 16, 1, 65535)], some 262145, .modeEdge⟩,
  ⟨0x0423, 4, false, .fields [(0, 16, 1, 65535), (16, 16, 1, 65535)], some 262145, .modeEdge⟩,
  ⟨0x0424, 4, true, .between 20000 200000, some 50000, .immediate⟩,
  ⟨0x0425, 1, false, .between 0 128, some 64, .immediate⟩]

/-- Parameters of subsystem 0x05 (R150). -/
def paramsTorque : List PRow := [
  ⟨0x0501, 1, false, .oneOf [1, 2], some 2, .pwmA⟩,
  ⟨0x0502, 1, false, .oneOf [1, 2], some 2, .pwmB⟩,
  ⟨0x0503, 2, false, .between 100 3000, some 1500, .controlA⟩,
  ⟨0x0504, 2, false, .between 100 3000, some 1500, .controlB⟩,
  ⟨0x0505, 4, false, .between 100 1000000, some 200000, .controlA⟩,
  ⟨0x0506, 4, false, .between 100 1000000, some 200000, .controlB⟩,
  ⟨0x0507, 4, false, .between 100 1000000, some 10000, .immediate⟩,
  ⟨0x0508, 4, true, .between 0 6000000, some 1600000, .controlA⟩,
  ⟨0x0509, 4, true, .between 0 6000000, some 1600000, .controlB⟩,
  ⟨0x050A, 4, true, .between 0 6000000, some 300000, .controlA⟩,
  ⟨0x050B, 4, true, .between 0 6000000, some 300000, .controlB⟩,
  ⟨0x050C, 4, true, .between 0 720000, some 720000, .controlA⟩,
  ⟨0x050D, 4, true, .between 0 720000, some 720000, .controlB⟩,
  ⟨0x050E, 4, true, .between 0 480000, some 480000, .controlA⟩,
  ⟨0x050F, 4, true, .between 0 480000, some 480000, .controlB⟩,
  ⟨0x0510, 4, true, .between 0 1100000, some 1100000, .controlAB⟩,
  ⟨0x0511, 4, true, .between 0 1100000, some 300000, .controlAB⟩,
  ⟨0x0512, 1, false, .between 0 1, some 0, .immediate⟩,
  ⟨0x0513, 4, true, .between 600000 960000, some 920000, .immediate⟩,
  ⟨0x0514, 4, true, .between 250000 700000, some 260000, .immediate⟩,
  ⟨0x0515, 4, false, .between 0 80000, some 40000, .immediate⟩,
  ⟨0x0516, 1, false, .between 200 250, some 240, .immediate⟩,
  ⟨0x0517, 2, false, .between 2 100, some 30, .immediate⟩,
  ⟨0x0518, 4, true, .between 1000 50000, some 5000, .immediate⟩,
  ⟨0x0519, 4, false, .between 1000 50000, some 5000, .immediate⟩,
  ⟨0x051A, 2, true, .between 13000 17000, some 15500, .immediate⟩,
  ⟨0x051B, 2, false, .fields [(0, 2, 0, 2), (2, 2, 0, 2), (4, 2, 0, 2), (6, 2, 0, 2), (8, 2, 0, 2), (10, 2, 0, 2)], some 0, .modeEdge⟩,
  ⟨0x051C, 2, true, .between 8000 20000, some 15000, .immediate⟩,
  ⟨0x051D, 2, true, .between 9000 22000, some 18000, .immediate⟩,
  ⟨0x051E, 4, false, .between 5000 500000, some 50000, .immediate⟩,
  ⟨0x051F, 4, false, .between 100 100000, none, .controlA⟩,
  ⟨0x0520, 4, false, .between 100 100000, none, .controlB⟩,
  ⟨0x0521, 4, true, .between 10000 5000000, none, .controlA⟩,
  ⟨0x0522, 4, true, .between 10000 5000000, none, .controlB⟩,
  ⟨0x0523, 2, true, .between (-3000) 0, some 64436, .controlA⟩,
  ⟨0x0524, 2, true, .between (-3000) 0, some 64436, .controlB⟩,
  ⟨0x0525, 2, true, .between (-4000) 15000, some 2000, .modeEdge⟩,
  ⟨0x0526, 2, true, .between 8000 20000, some 15000, .immediate⟩,
  ⟨0x0527, 4, false, .between 10000000 3600000000, some 600000000, .immediate⟩,
  ⟨0x0528, 4, false, .fields [(0, 16, 30147, 35389), (16, 16, 30147, 35389)], some 2147516416, .controlA⟩,
  ⟨0x0529, 4, false, .fields [(0, 16, 30147, 35389), (16, 16, 30147, 35389)], some 2147516416, .controlB⟩,
  ⟨0x052A, 4, false, .between 1000 1000000, none, .controlA⟩,
  ⟨0x052B, 4, false, .between 1000 1000000, none, .controlB⟩,
  ⟨0x052C, 4, true, .between 50000 720000, some 300000, .immediate⟩,
  ⟨0x052D, 4, true, .between 1000 100000, some 20000, .immediate⟩,
  ⟨0x052E, 4, false, .between 10000 1000000, some 100000, .immediate⟩]

/-- Parameters of subsystem 0x06 (R177). -/
def paramsModulation : List PRow := [
  ⟨0x0601, 4, false, .between 8000 48000, some 16000, .pwmA⟩,
  ⟨0x0602, 4, false, .between 8000 48000, some 16000, .pwmB⟩,
  ⟨0x0603, 1, false, .between 0 25, some 0, .pwmA⟩,
  ⟨0x0604, 1, false, .between 0 25, some 0, .pwmB⟩,
  ⟨0x0605, 2, false, .between 0 40, some 10, .immediate⟩,
  ⟨0x0606, 2, false, .zeroOr 40 400, some 0, .pwmA⟩,
  ⟨0x0607, 2, false, .zeroOr 40 400, some 0, .pwmB⟩,
  ⟨0x0608, 2, false, .band, some 6415, .pwmA⟩,
  ⟨0x0609, 2, false, .band, some 6415, .pwmB⟩,
  ⟨0x060A, 2, false, .between 200 800, some 400, .modeEdge⟩,
  ⟨0x060B, 4, true, .between 4000 12000, some 8000, .modeEdge⟩,
  ⟨0x060C, 4, true, .between 6000 12000, some 9000, .modeEdge⟩,
  ⟨0x060D, 2, false, .between 100 400, some 200, .modeEdge⟩,
  ⟨0x060E, 2, true, .between 17500 19000, some 18000, .immediate⟩,
  ⟨0x060F, 2, false, .between 500 3000, some 1500, .immediate⟩,
  ⟨0x0610, 1, false, .between 192 250, some 230, .immediate⟩]

/-- Parameters of subsystem 0x07 (R200). -/
def paramsLv : List PRow := [
  ⟨0x0701, 4, true, .variant 11000 16000 36000 58000, none, .immediate⟩,
  ⟨0x0702, 4, true, .variant 0 450000 0 210000, some 450000, .immediate⟩,
  ⟨0x0703, 4, false, .variant 0 6000 0 10000, some 6000, .immediate⟩,
  ⟨0x0704, 4, false, .between 2000 50000, some 10000, .immediate⟩,
  ⟨0x0705, 2, false, .between 1 1000, some 100, .immediate⟩,
  ⟨0x0706, 4, true, .variant 16500 17500 58000 60000, some 17000, .immediate⟩,
  ⟨0x0707, 4, true, .between 200 2000, some 500, .immediate⟩,
  ⟨0x0708, 4, false, .between 150000 400000, some 250000, .modeEdge⟩,
  ⟨0x0709, 1, false, .between 1 8, some 1, .immediate⟩,
  ⟨0x070A, 1, false, .between 0 1, some 1, .immediate⟩,
  ⟨0x070B, 1, false, .between 0 20, some 20, .immediate⟩,
  ⟨0x070C, 1, false, .between 0 1, some 0, .modeEdge⟩,
  ⟨0x070D, 4, false, .between 0 2000000, some 2000000, .immediate⟩]

/-- Parameters of subsystem 0x08 (R235). -/
def paramsCharging : List PRow := [
  ⟨0x0801, 1, false, .between 0 1, none, .modeEdge⟩,
  ⟨0x0802, 1, false, .between 0 2, some 0, .modeEdge⟩,
  ⟨0x0803, 4, false, .between 1000 100000, some 16000, .immediate⟩,
  ⟨0x0804, 2, false, .between 850 980, some 930, .immediate⟩,
  ⟨0x0805, 2, false, .between 800 950, some 850, .immediate⟩,
  ⟨0x0806, 4, false, .between 0 10000, some 3000, .immediate⟩,
  ⟨0x0807, 4, false, .between 3000000 600000000, some 3000000, .immediate⟩,
  ⟨0x0808, 1, false, .between 0 1, some 0, .immediate⟩,
  ⟨0x0809, 1, false, .between 0 1, some 0, .immediate⟩,
  ⟨0x080A, 1, false, .between 0 1, some 0, .immediate⟩,
  ⟨0x080B, 8, false, .window, some 1548129551810623536, .immediate⟩,
  ⟨0x080C, 8, false, .window, some 1688869187616830536, .immediate⟩,
  ⟨0x080D, 1, false, .between 10 90, some 50, .immediate⟩,
  ⟨0x080E, 1, false, .between 0 6, some 0, .modeEdge⟩,
  ⟨0x080F, 4, false, .between 16000 48000, some 32000, .modeEdge⟩,
  ⟨0x0810, 4, false, .between 30000 200000, some 30000, .immediate⟩,
  ⟨0x0811, 4, false, .between 10 2000, some 100, .immediate⟩,
  ⟨0x0812, 4, false, .fields [(0, 16, 700, 1000), (16, 16, 1000, 1200)], some 72090450, .immediate⟩,
  ⟨0x0813, 4, false, .fields [(0, 16, 4500, 6300), (16, 16, 4500, 6300)], some 337515150, .immediate⟩,
  ⟨0x0814, 4, false, .between 20000 2000000, some 200000, .immediate⟩,
  ⟨0x0815, 4, false, .between 3000000 900000000, some 60000000, .immediate⟩,
  ⟨0x0816, 4, false, .island, some 3277030, .modeEdge⟩]

/-- Parameters of subsystem 0x09 (R255). -/
def paramsActuators : List PRow := [
  ⟨0x0901, 4, false, .between 20000 40000, some 20000, .modeEdge⟩,
  ⟨0x0902, 4, false, .between 20000 40000, some 20000, .modeEdge⟩,
  ⟨0x0903, 4, false, .between 20000 40000, some 20000, .modeEdge⟩,
  ⟨0x0904, 4, true, .between 1000 45000, some 30000, .immediate⟩,
  ⟨0x0905, 4, true, .between 1000 45000, some 30000, .immediate⟩,
  ⟨0x0906, 4, true, .between 1000 45000, some 30000, .immediate⟩,
  ⟨0x0907, 4, true, .between 0 15000, some 3000, .immediate⟩,
  ⟨0x0908, 4, true, .between 0 15000, some 3000, .immediate⟩,
  ⟨0x0909, 4, true, .between 0 15000, some 3000, .immediate⟩,
  ⟨0x090A, 4, false, .between 5000 500000, some 50000, .immediate⟩,
  ⟨0x090B, 4, false, .between 5000 500000, some 50000, .immediate⟩,
  ⟨0x090C, 4, false, .between 5000 500000, some 50000, .immediate⟩,
  ⟨0x090D, 1, false, .between 0 4, some 0, .modeEdge⟩,
  ⟨0x090E, 1, false, .between 0 4, some 1, .modeEdge⟩,
  ⟨0x090F, 1, false, .between 0 4, some 2, .modeEdge⟩,
  ⟨0x0910, 2, false, .between 64 8192, some 655, .immediate⟩,
  ⟨0x0911, 2, false, .between 64 8192, some 655, .immediate⟩,
  ⟨0x0912, 2, false, .between 64 8192, some 655, .immediate⟩,
  ⟨0x0913, 8, false, .any, none, .modeEdge⟩,
  ⟨0x0914, 4, false, .any, none, .modeEdge⟩,
  ⟨0x0915, 4, false, .any, none, .modeEdge⟩,
  ⟨0x0916, 2, false, .between 1000 30000, none, .modeEdge⟩,
  ⟨0x0917, 2, false, .between 1000 30000, none, .modeEdge⟩,
  ⟨0x0918, 2, false, .between 1000 3000, none, .modeEdge⟩,
  ⟨0x0919, 1, false, .between 0 1, none, .modeEdge⟩,
  ⟨0x091A, 4, false, .between 10000 100000, some 40000, .immediate⟩,
  ⟨0x091B, 4, false, .between 10000 200000, some 60000, .immediate⟩,
  ⟨0x091C, 4, false, .between 20000 1000000, some 150000, .immediate⟩,
  ⟨0x091D, 4, false, .between 5000 100000, some 20000, .immediate⟩,
  ⟨0x091E, 4, true, .between 500 6000, some 2000, .immediate⟩]

/-- Parameters of subsystem 0x0A (R288). -/
def paramsSafety : List PRow := [
  ⟨0x0A01, 4, false, .between 2000 500000, some 50000, .modeEdge⟩,
  ⟨0x0A02, 1, false, .between 10 60, some 40, .modeEdge⟩,
  ⟨0x0A03, 4, true, .between 0 6000000, some 600000, .modeEdge⟩,
  ⟨0x0A04, 4, false, .between 1000000 600000000, some 120000000, .modeEdge⟩,
  ⟨0x0A05, 1, false, .between 1 16, some 4, .modeEdge⟩,
  ⟨0x0A06, 4, false, .any, some 0, .modeEdge⟩,
  ⟨0x0A07, 4, false, .any, some 0, .modeEdge⟩,
  ⟨0x0A08, 4, false, .any, some 0, .modeEdge⟩,
  ⟨0x0A09, 4, false, .any, some 0, .modeEdge⟩,
  ⟨0x0A0A, 1, false, .between 0 2, some 1, .modeEdge⟩,
  ⟨0x0A0B, 1, false, .between 0 1, some 0, .modeEdge⟩,
  ⟨0x0A0C, 1, false, .between 0 1, some 1, .modeEdge⟩,
  ⟨0x0A0D, 1, false, .between 0 7, some 2, .modeEdge⟩]

/-- Parameters of subsystem 0x0B (R319). -/
def paramsHost : List PRow := [
  ⟨0x0B01, 4, false, .between 1000 100000, some 10000, .immediate⟩,
  ⟨0x0B02, 4, false, .between 1000 1000000, some 100000, .immediate⟩]

/-- Parameters of subsystem 0x0C (R349). -/
def paramsCinch : List PRow := [
  ⟨0x0C01, 4, false, .between 10000 1000000, some 100000, .immediate⟩]

/-- Parameters of subsystem 0x0D (R364). -/
def paramsCounters : List PRow := [
  ⟨0x0D01, 1, false, .between 0 63, some 0, .immediate⟩]

/-- Parameters of subsystem 0x0E (R385). -/
def paramsNetworks : List PRow := [
  ⟨0x0E01, 8, false, .bitrate, none, .modeEdge⟩,
  ⟨0x0E02, 8, false, .bitrate, none, .modeEdge⟩,
  ⟨0x0E03, 8, false, .bitrate, none, .modeEdge⟩,
  ⟨0x0E04, 8, false, .bitrate, none, .modeEdge⟩,
  ⟨0x0E05, 1, false, .between 0 3, none, .modeEdge⟩,
  ⟨0x0E06, 1, false, .between 0 3, none, .modeEdge⟩,
  ⟨0x0E07, 1, false, .between 0 3, none, .modeEdge⟩,
  ⟨0x0E08, 1, false, .between 0 3, none, .modeEdge⟩,
  ⟨0x0E09, 8, false, .fields [(0, 29, 0, 536870911), (29, 1, 0, 1), (30, 1, 0, 1), (32, 4, 0, 8)], some 0, .modeEdge⟩,
  ⟨0x0E0A, 8, false, .fields [(0, 29, 0, 536870911), (29, 1, 0, 1), (30, 1, 0, 1), (32, 4, 0, 8)], some 0, .modeEdge⟩,
  ⟨0x0E0B, 8, false, .fields [(0, 29, 0, 536870911), (29, 1, 0, 1), (30, 1, 0, 1), (32, 4, 0, 8)], some 0, .modeEdge⟩,
  ⟨0x0E0C, 8, false, .fields [(0, 29, 0, 536870911), (29, 1, 0, 1), (30, 1, 0, 1), (32, 4, 0, 8)], some 0, .modeEdge⟩,
  ⟨0x0E0D, 8, false, .any, some 0, .modeEdge⟩,
  ⟨0x0E0E, 8, false, .any, some 0, .modeEdge⟩,
  ⟨0x0E0F, 8, false, .any, some 0, .modeEdge⟩,
  ⟨0x0E10, 8, false, .any, some 0, .modeEdge⟩,
  ⟨0x0E11, 1, false, .between 0 1, some 0, .immediate⟩,
  ⟨0x0E12, 1, false, .between 0 63, some 0, .immediate⟩,
  ⟨0x0E13, 1, false, .oneOf [0, 1, 2, 3, 0xFF], none, .modeEdge⟩,
  ⟨0x0E14, 4, false, .fields [(0, 11, 0, 2047), (16, 11, 0, 2047)], none, .modeEdge⟩,
  ⟨0x0E15, 1, false, .between 0 15, none, .modeEdge⟩,
  ⟨0x0E16, 2, false, .any, some 0, .modeEdge⟩,
  ⟨0x0E17, 1, false, .between 0 2, none, .modeEdge⟩,
  ⟨0x0E18, 1, false, .between 0 3, none, .modeEdge⟩,
  ⟨0x0E19, 2, false, .between 1 65535, none, .modeEdge⟩,
  ⟨0x0E1A, 4, false, .any, some 1073741823, .modeEdge⟩,
  ⟨0x0E1B, 4, false, .any, some 1073741823, .modeEdge⟩,
  ⟨0x0E1C, 4, false, .any, some 1073741823, .modeEdge⟩,
  ⟨0x0E1D, 4, false, .any, some 1073741823, .modeEdge⟩]

/-- Parameters of subsystem 0x0F (R404). -/
def paramsPair : List PRow := [
  ⟨0x0F01, 1, false, .between 0 1, none, .modeEdge⟩,
  ⟨0x0F02, 1, false, .between 0 1, none, .modeEdge⟩,
  ⟨0x0F03, 1, false, .between 20 80, some 50, .atTime⟩,
  ⟨0x0F04, 1, false, .between 0 1, some 1, .modeEdge⟩]

/-- The rows of a subsystem; none where the identifier is not assigned (R6). -/
def paramsOf : Nat → List PRow
  | 1 => paramsSystem
  | 2 => paramsModes
  | 3 => paramsSensing
  | 4 => paramsPosition
  | 5 => paramsTorque
  | 6 => paramsModulation
  | 7 => paramsLv
  | 8 => paramsCharging
  | 9 => paramsActuators
  | 10 => paramsSafety
  | 11 => paramsHost
  | 12 => paramsCinch
  | 13 => paramsCounters
  | 14 => paramsNetworks
  | 15 => paramsPair
  | _ => []

/-- The row of a parameter ID, none where it is not assigned (R321). -/
def paramRow (id : Nat) : Option PRow := (paramsOf (id / 256)).find? (fun r => r.id == id)

/-- Reset values that differ on a CW-8840-48 (R200). -/
def reset48 : Tab Nat := [(0x0702, 210000), (0x0703, 10000), (0x0706, 59500), (0x0707, 1000)]

end Sys2Proof.Machine
end

