-- ==== Sys2Proof/Machine/Ops.lean ====
section
/-!
DEFINITION. Machine/Ops.lean: the named operations every meaning is written over: bytes and checks, parameters, counters,
the queues of the rings, completions, events, and the raising, clearing and recording of faults.
-/
namespace Sys2Proof

/-- Bridge codes: 0 A, 1 B (R116). -/
def Bridge.code : Bridge → Nat
  | .brA => 0 | .brB => 1

/-- The other bridge. -/
def Bridge.other : Bridge → Bridge
  | .brA => .brB | .brB => .brA

/-- Image kinds as R335 numbers them. -/
def ImageKind.code : ImageKind → Nat
  | .safe => 1 | .trac => 2 | .conv => 3 | .actu => 4 | .sens => 5 | .app => 6

/-- The image kind with a number (R335). -/
def ImageKind.ofCode : Nat → Option ImageKind
  | 1 => some .safe | 2 => some .trac | 3 => some .conv | 4 => some .actu | 5 => some .sens | 6 => some .app | _ => none

/-- PP is in a PLUG class (R209). -/
def PpClass.plugged : PpClass → Bool
  | .plug _ => true | .noPlug => false | .invalid => false

end Sys2Proof

namespace Sys2Proof.Machine

/-! ## Bytes and checks -/

/-- The `n` low bytes of a number, least significant first (R3). -/
def leBytes : Nat → Nat → List Byte
  | 0, _ => []
  | n + 1, x => BitVec.ofNat 8 x :: leBytes n (x / 256)

/-- The number that bytes spell, least significant first (R3). -/
def leNat : List Byte → Nat
  | [] => 0
  | b :: t => b.toNat + 256 * leNat t

/-- `n` bytes of a list from offset `i`, missing ones read 0. -/
def slice (l : List Byte) (i n : Nat) : List Byte := ((l.drop i) ++ List.replicate n 0).take n

/-- The little-endian field of `n` bytes at offset `i`. -/
def field (l : List Byte) (i n : Nat) : Nat := leNat (slice l i n)

/-- A number of `8 * n` bits read as signed. -/
def asInt (n x : Nat) : Int := if x < 2 ^ (8 * n - 1) then (x : Int) else (x : Int) - 2 ^ (8 * n)

/-- A signed number as `8 * n` bits. -/
def ofInt (n : Nat) (x : Int) : Nat := (x % (2 ^ (8 * n) : Int)).toNat

/-- One bit of a reflected CRC. -/
def crcBit (poly : W32) (c : W32) : W32 := if c.getLsbD 0 then (c >>> 1) ^^^ poly else c >>> 1

/-- One byte of a reflected CRC. -/
def crcByte (poly : W32) (c : W32) (b : Byte) : W32 :=
  let c := c ^^^ b.setWidth 32
  crcBit poly (crcBit poly (crcBit poly (crcBit poly (crcBit poly (crcBit poly (crcBit poly (crcBit poly c)))))))

/-- A CRC-32 with initial value and final XOR of all ones, reflected in and out; `poly` is given reflected. -/
def crc32 (poly : W32) (l : List Byte) : W32 := ~~~ (l.foldl (crcByte poly) 0xFFFFFFFF)

/-- The polynomial 0xF4AC_FB13 of the check value and the safety trailer, reflected (R271, R272). -/
abbrev polySafety : W32 := 0xC8DF352F

/-- The polynomial of CRC-32C, 0x1EDC_6F41, reflected (R121, R335, R342). -/
abbrev polyC : W32 := 0x82F63B78

/-- The nearest integer below a quotient of integers, for a positive divisor. -/
def idiv (a : Int) (b : Nat) : Int := a / (b : Int)

/-- The smaller of two numbers. -/
def minI (a b : Int) : Int := if a < b then a else b

/-- The larger of two numbers. -/
def maxI (a b : Int) : Int := if a < b then b else a

/-- A number clamped to an interval. -/
def clampI (lo hi x : Int) : Int := if x < lo then lo else if hi < x then hi else x

/-! ## Codes -/

/-- Mode codes (R34). -/
def Mode.code : Mode → Nat
  | .bivouac => 0 | .baseCamp => 1 | .ready => 2 | .drive => 3 | .charge => 4 | .belay => 5 | .arrest => 6 | .workshop => 7

/-- The mode with a code; codes 0x08-0xFF are not assigned (R34). -/
def Mode.ofCode : Nat → Option Mode
  | 0 => some .bivouac | 1 => some .baseCamp | 2 => some .ready | 3 => some .drive | 4 => some .charge | 5 => some .belay
  | 6 => some .arrest | 7 => some .workshop | _ => none

/-- Class codes (R359). -/
def FClass.code : FClass → Nat
  | .info => 0 | .warn => 1 | .belay => 2 | .arrest => 3 | .latch => 4

/-- Completion statuses (R298). -/
inductive Status where
  | done | drained | aborted | deferred | modeDenied | authDenied | range | safetyPdu | conflict | late | busy
  | noResource | unknownOp | hwFault | superseded
  deriving DecidableEq, Repr

/-- Status codes (R298). -/
def Status.code : Status → Byte
  | .done => 0 | .drained => 1 | .aborted => 2 | .deferred => 3 | .modeDenied => 4 | .authDenied => 5 | .range => 6
  | .safetyPdu => 7 | .conflict => 8 | .late => 9 | .busy => 10 | .noResource => 11 | .unknownOp => 12 | .hwFault => 13
  | .superseded => 14

/-! ## Small accessors and updates -/

/-- The control state of a bridge. -/
def Hw.ctl (h : Hw) : Bridge → Ctl
  | .brA => h.ctlA | .brB => h.ctlB

/-- The control state of a bridge changed by `f`. -/
def Hw.modCtl (h : Hw) (b : Bridge) (f : Ctl → Ctl) : Hw :=
  match b with
  | .brA => { h with ctlA := f h.ctlA }
  | .brB => { h with ctlB := f h.ctlB }

/-- The gate state of a bridge. -/
def Hw.gate (h : Hw) : Bridge → Gate
  | .brA => h.gateA | .brB => h.gateB

/-- The gate state of a bridge changed by `f`. -/
def Hw.modGate (h : Hw) (b : Bridge) (f : Gate → Gate) : Hw :=
  match b with
  | .brA => { h with gateA := f h.gateA }
  | .brB => { h with gateB := f h.gateB }

/-- Something left the module. -/
def Hw.emit (h : Hw) (o : Output) : Hw := { h with out := o :: h.out }

/-- A counter of R351 advances by `n`, stopping at 2^48 - 1. -/
def Hw.count (h : Hw) (i n : Nat) : Hw :=
  { h with cnt := { h.cnt with vals := h.cnt.vals.set i (min (h.cnt.vals.get i 0 + n) (2 ^ 48 - 1)) } }

/-- Power times ticks is added to an energy counter of R351 in mW x ticks: 1 J is 4 x 10^11 of them. -/
def Hw.addEnergy (h : Hw) (i work : Nat) : Hw :=
  let x := h.cnt.frac.get i 0 + work
  ({ h with cnt := { h.cnt with frac := h.cnt.frac.set i (x % 400000000000) } } : Hw).count i (x / 400000000000)

/-- A ring (R292); an unlisted one is ABSENT. -/
def Hw.ring (h : Hw) (n : Nat) : Ring := h.host.rings.get n {}

/-- A ring replaced. -/
def Hw.setRing (h : Hw) (n : Nat) (r : Ring) : Hw := { h with host := { h.host with rings := h.host.rings.set n r } }

/-- A session that is open or closing (R308). -/
def Hw.session (h : Hw) (n : Nat) : Option Session := h.host.sessions.find n

/-- A session replaced. -/
def Hw.setSession (h : Hw) (n : Nat) (s : Session) : Hw :=
  { h with host := { h.host with sessions := h.host.sessions.set n s } }

/-- The next draw of a free value of Config. -/
def Hw.drawn (h : Hw) : Hw := { h with free := h.free + 1 }

/-- BASE_CAMP_IDLE runs anew (R48): a valid command has come, a wake source is still active, or a plug has been present. -/
def Hw.busyNow (h : Hw) : Hw := { h with mode := { h.mode with lastCommand := h.time.clock } }

/-- A monitor. -/
def Hw.mon (h : Hw) (n : Nat) : Monitor := h.sen.mons.get n {}

/-- A level, as a code of the input's full scale, is a crossing for a monitor (R76, R77): threshold code k stands for the level
64 x (k - 512). A crossing that is present ends once the level is back by the hysteresis. -/
def Monitor.crosses (m : Monitor) (level : Int) (present : Bool) : Bool :=
  let at' (k : Int) : Int := 64 * (k - 512)
  let back : Int := if present then m.hyst else 0
  if m.inside then at' (m.low - back) ≤ level && level ≤ at' (m.high + back)
  else level < at' (m.low + back) || at' (m.high - back) < level

/-! ## Parameters -/

/-- The reset value of a row: CONFIG's entry where the reset is CONFIG, 0 where it holds none (R344). -/
def Hw.resetOf (h : Hw) (r : PRow) : Nat :=
  match r.reset with
  | none => h.otp.config.get r.id 0
  | some v => if h.otp.ident.is48 then reset48.get r.id v else v

/-- The active value of a parameter as PARAM_READ gives it (R323). -/
def Hw.par (h : Hw) (id : Nat) : Nat :=
  match h.prm.vals.find id with
  | some v => v
  | none => match paramRow id with
    | some r => h.resetOf r
    | none => 0

/-- The active value of a parameter under its encoding (R4). -/
def Hw.parI (h : Hw) (id : Nat) : Int :=
  match paramRow id with
  | some r => if r.signed then asInt r.bytes (h.par id) else (h.par id : Int)
  | none => 0

/-- UNSET (R323, R344): the reset is CONFIG, CONFIG holds no entry and nothing has been written in this wake. -/
def Hw.unset (h : Hw) (id : Nat) : Bool :=
  match paramRow id with
  | some r => r.reset.isNone && (h.prm.vals.find id).isNone && (h.otp.config.find id).isNone
  | none => false

/-- A duration parameter in ticks (R4). -/
def Hw.parTicks (h : Hw) (id : Nat) : Nat := h.par id * usTicks

/-- The parameter of bridge A or B, where a table lists A's ID first. -/
def perBridge (id : Nat) (b : Bridge) : Nat := id + Bridge.code b

/-- A value takes effect: the version advances by one (R323). -/
def Hw.putPar (h : Hw) (id v : Nat) : Hw :=
  { h with prm := { h.prm with vals := h.prm.vals.set id v
                               versions := h.prm.versions.set id ((h.prm.versions.get id 0 + 1) % 2 ^ 32) } }

/-- CONFIG peak torque of a bridge, 0.01 Nm (R344). -/
def Hw.peak (h : Hw) (b : Bridge) : Int := h.par (perBridge 0x0101 b)

/-! ## Interrupts and queues of the rings -/

/-- Vector `v` is to be signalled: sent, or its pending bit set while it is masked (R303, R431). -/
def Hw.msix (h : Hw) (v : Nat) : Hw :=
  if !h.host.msixOn || 64 < v then h
  else if h.host.msixMasked || (h.host.msix.get v {}).ctrl.getLsbD 0 then
    { h with host := { h.host with msixPending := h.host.msixPending ||| (1#65 <<< v) } }
  else h.emit (.msix v)

/-- The vector of a ring: vector 0 for ring 0 (R303). -/
def Ring.vec (n : Nat) (r : Ring) : Option Nat := if n = 0 then some 0 else r.vector

/-- A ring signals what it has posted (R303). -/
def Hw.signalRing (h : Hw) (n : Nat) : Hw :=
  match (h.ring n).vec n with
  | none => h.setRing n { h.ring n with unsignalled := 0 }
  | some v => (h.setRing n { h.ring n with unsignalled := 0 }).msix v

/-- Statuses signalled at once whatever the coalescing (R303). -/
def urgentStatus (s : Byte) : Bool := !(s == 0 || s == 1 || s == 14)

/-- A free entry exists in the queue (R300). -/
def Ring.hasRoom (r : Ring) : Bool := r.posted < 2 ^ r.size

/-- The ring after one more entry was posted at its tail (R299, R300). -/
def Ring.advance (r : Ring) (clock : Nat) : Ring :=
  let wrap := r.cqTail + 1 == 2 ^ r.size
  { r with cqTail := if wrap then 0 else r.cqTail + 1
           phase := if wrap then !r.phase else r.phase
           posted := r.posted + 1
           fullAt := if r.posted + 1 < 2 ^ r.size then none else some clock
           unsignalled := r.unsignalled + 1
           oldestAt := if r.unsignalled = 0 then clock else r.oldestAt }

/-- Signal now if the coalesce count or time asks for it, or the entry is urgent (R303). -/
def Hw.coalesce (h : Hw) (n : Nat) (urgent : Bool) : Hw :=
  let r := h.ring n
  if urgent || r.time == 0 || r.count ≤ r.unsignalled then h.signalRing n else h

/-- An entry is written at the ring's tail (R297, R304). -/
def Hw.place (h : Hw) (n : Nat) (w : Waiting) : Hw :=
  let r := h.ring n
  match w with
  | .completion tag st time =>
    (((h.emit (.completion n r.cqTail tag st r.phase r.sqHead time)).setRing n (r.advance h.time.clock))).coalesce n
      (urgentStatus st)
  | .record ty seq time body lost =>
    (((h.emit (.record n r.cqTail ty r.phase lost seq time body)).setRing n (r.advance h.time.clock))).coalesce n false

/-- The module can post on a ring now: the host link is up (R314) and an entry is free (R300). -/
def Hw.ringPosts (h : Hw) (n : Nat) : Bool := h.host.linkUp && (h.ring n).hasRoom

/-- Waiting entries are posted in order while there is room (R300, R305); `fuel` bounds the walk. -/
def Hw.postWaiting : Nat → Nat → Hw → Hw
  | 0, _, h => h
  | fuel + 1, n, h =>
    let r := h.ring n
    match r.buffer with
    | [] => h
    | w :: rest => if h.ringPosts n then Hw.postWaiting fuel n ((h.setRing n { r with buffer := rest }).place n w) else h

/-- A ring that posts: ENABLED or DRAINING (R294). -/
def Ring.posts (r : Ring) : Bool := r.state == .enabled || r.state == .draining

/-- A completion entry: posted, or waiting for room in order (R300). -/
def Hw.queueCompletion (h : Hw) (n : Nat) (tag : W32) (st : Byte) (time : W64) : Hw :=
  let r := h.ring n
  if r.posts then
    if h.ringPosts n && r.buffer.isEmpty then h.place n (.completion tag st time)
    else h.setRing n { r with buffer := r.buffer ++ [.completion tag st time] }
  else h

/-- A record on a TLM ring (R304, R305): posted, waiting, or dropped and counted. -/
def Hw.queueTlm (h : Hw) (n : Nat) (ty : W16) (time : W64) (body : List Byte) : Hw :=
  let r := h.ring n
  if r.state == .enabled then
    let r1 := { r with seq := (r.seq + 1) % 2 ^ 32 }
    if h.ringPosts n && r.buffer.isEmpty then (h.setRing n { r1 with lost := false }).place n (.record ty r.seq time body r.lost)
    else if r.buffer.length < 64 then
      h.setRing n { r1 with buffer := r.buffer ++ [.record ty r.seq time body r.lost], lost := false }
    else (h.setRing n { r1 with dropped := min (r.dropped + 1) 0xFFFFFFFF, lost := true }).count 0x098 1
  else h

/-- The EVT ring that is ENABLED, if any (R292: at most one EVT ring exists). -/
def evtRing (t : Tab Ring) : Option Nat := (t.find? (fun p => p.2.type == 1 && p.2.state == .enabled)).map (·.1)

/-- An event numbered on the EVT ring (R304, R305): posted, waiting in the ring's or the module's buffer, or dropped. -/
def Hw.queueEvent (h : Hw) (ty : W16) (time : W64) (body : List Byte) : Hw :=
  let seq := h.host.evtSeq
  let h1 := { h with host := { h.host with evtSeq := (seq + 1) % 2 ^ 32 } }
  match evtRing h.host.rings with
  | some n =>
    let r := h.ring n
    if h.ringPosts n && r.buffer.isEmpty then (h1.setRing n { r with lost := false }).place n (.record ty seq time body r.lost)
    else if r.buffer.length < 64 then
      h1.setRing n { r with buffer := r.buffer ++ [.record ty seq time body r.lost], lost := false }
    else (h1.setRing n { r with dropped := min (r.dropped + 1) 0xFFFFFFFF, lost := true }).count 0x098 1
  | none =>
    if h.host.events.length < 64 then
      { h1 with host := { h1.host with events := h.host.events ++ [.record ty seq time body h.host.evtLost], evtLost := false } }
    else (({ h1 with host := { h1.host with evtLost := true } } : Hw)).count 0x098 1

/-! ## Faults -/

/-- The bytes of a history entry (R361). -/
def Entry.bytes (e : Entry) : List Byte :=
  leBytes 2 e.code.toNat ++ [BitVec.ofNat 8 e.cls.code,
    BitVec.ofNat 8 ((if e.active then 1 else 0) + (if e.acked then 2 else 0) + (if e.cleared then 4 else 0)),
    e.source, e.mode] ++ leBytes 2 e.count ++ leBytes 8 e.first.toNat ++ leBytes 8 e.last.toNat ++
    leBytes 4 e.arg.toNat ++ leBytes 4 e.seq.toNat

/-- A FAULT record with a transition code (R362). -/
def Hw.faultRecord (h : Hw) (e : Entry) (transition : Byte) : Hw :=
  h.queueEvent 0x0D03 h.time.now (e.bytes ++ [transition])

/-- The next fault-transition number (R361). -/
def Hw.nextSeq (h : Hw) : Hw := { h with flt := { h.flt with seq := h.flt.seq + 1 } }

/-- Faults whose owning rule asks for an acknowledgement beside those of class BELAY and ARREST (R284, R359). -/
def ackAsked (code : W16) : Bool := code == fltDebugSplit.code

/-- An entry that needs an acknowledgement and has none (R359, R440). -/
def Entry.awaits (e : Entry) : Bool := (e.cls == .belay || e.cls == .arrest || ackAsked e.code) && !e.acked

/-- The entry matches a code and source. -/
def Entry.is (e : Entry) (code : W16) (src : Byte) : Bool := e.code == code && e.source == src

/-- The first entry that satisfies `p`, taken out of a list. -/
def takeFirst (p : Entry → Bool) : List Entry → Option (Entry × List Entry)
  | [] => none
  | e :: t => if p e then some (e, t) else (takeFirst p t).map (fun q => (q.1, e :: q.2))

/-- The oldest entry of the first group of R361 that has one, with its group. -/
def victim (l : List Entry) : Option (Entry × List Entry × Nat) :=
  match takeFirst (fun e => !e.active && !e.awaits) l with
  | some (e, t) => some (e, t, 1)
  | none => match takeFirst (fun e => !e.active) l with
    | some (e, t) => some (e, t, 2)
    | none => match takeFirst (fun e => e.cls == .info || e.cls == .warn) l with
      | some (e, t) => some (e, t, 3)
      | none => none

/-- A new entry is kept under R361: in a free place, over a victim, or in none. Answers the faults and whether entry
group 2 or 3 was overwritten, and whether anything was overwritten or kept in no entry. -/
def Faults.keep (f : Faults) (e : Entry) : Faults × Bool × Bool :=
  if f.hist.length < 256 then ({ f with hist := f.hist ++ [e] }, false, false)
  else match victim f.hist with
    | some (v, t, g) => ({ f with hist := t ++ [e], loss := f.loss || v.awaits }, 1 < g, true)
    | none => ({ f with extra := if e.active then f.extra ++ [e] else f.extra, loss := f.loss || e.awaits }, false, true)

/-- The present raise as a new entry (R361). -/
def Hw.newEntry (h : Hw) (code : W16) (cls : FClass) (src : Byte) (arg : W32) (active : Bool) : Entry :=
  { code := code, cls := cls, active := active, acked := false, cleared := false, source := src,
    mode := BitVec.ofNat 8 h.mode.mode.code, count := 1, first := h.time.now, last := h.time.now, arg := arg,
    seq := h.flt.seq }

/-- A class signalled on vector 0 (R303, R362). -/
def FClass.signals : FClass → Bool
  | .belay => true | .arrest => true | .latch => true | .info => false | .warn => false

/-- A raise that starts a new occurrence: entry, counters, record, vector 0 (R361, R362). -/
def Hw.noteNew (h : Hw) (code : W16) (cls : FClass) (src : Byte) (arg : W32) (active : Bool) : Hw × Bool :=
  let e := h.newEntry code cls src arg active
  let k := h.flt.keep e
  let h1 := ({ h with flt := k.1 } : Hw).nextSeq.count 0x09F 1
  let h2 := if k.2.2 then h1.count 0x09E 1 else h1
  let h3 := h2.faultRecord e 0
  (if cls.signals then h3.msix 0 else h3, k.2.1)

/-- A raise is recorded (R361, R362): again on its active entry, or as a new occurrence; an overwrite of group 2 or 3
raises FAULT_HISTORY_OVERWRITE, which clears at once (R439). -/
def Hw.note (h : Hw) (code : W16) (cls : FClass) (src : Byte) (arg : W32) (active : Bool) : Hw :=
  match h.flt.hist.find? (fun e => e.active && e.is code src) with
  | some e =>
    let e' := { e with count := min (e.count + 1) 65535, last := h.time.now, seq := h.flt.seq }
    let h1 := ({ h with flt := { h.flt with
      hist := h.flt.hist.map (fun x => if x.active && x.is code src then e' else x) } } : Hw).nextSeq.count 0x09F 1
    h1.faultRecord e' 1
  | none =>
    let (h1, dropped) := h.noteNew code cls src arg active
    if dropped then (h1.noteNew fltFaultHistoryOverwrite.code .warn 0xFF 0 false).1 else h1

/-- A lost run of records on the EVT path raises HOST_RECORDS_LOST once (R305, R320). -/
def Hw.postEvent (h : Hw) (ty : W16) (time : W64) (body : List Byte) : Hw :=
  let h1 := h.queueEvent ty time body
  match evtRing h.host.rings with
  | some n =>
    if (h1.ring n).lost && !(h.ring n).lost then h1.note fltHostRecordsLost.code .info (BitVec.ofNat 8 n) 0 false else h1
  | none =>
    if h1.host.evtLost && !h.host.evtLost then h1.note fltHostRecordsLost.code .info 0xFF 0 false else h1

/-- A TLM record, with HOST_RECORDS_LOST once for a run of dropped ones (R305, R320). -/
def Hw.postTlm (h : Hw) (n : Nat) (ty : W16) (time : W64) (body : List Byte) : Hw :=
  let h1 := h.queueTlm n ty time body
  if (h1.ring n).lost && !(h.ring n).lost then h1.note fltHostRecordsLost.code .info (BitVec.ofNat 8 n) 0 false else h1

/-- The fault is active, in an entry or in none (R439). -/
def Hw.faultActive (h : Hw) (code : W16) (src : Byte) : Bool :=
  (h.flt.hist ++ h.flt.extra).any (fun e => e.active && e.is code src)

/-- Some fault of a class is active. -/
def Hw.classActive (h : Hw) (c : FClass) : Bool := (h.flt.hist ++ h.flt.extra).any (fun e => e.active && e.cls == c)

/-- The fault's condition has ended (R439): its entry clears, and a record tells so (R362). -/
def Hw.clearFault (h : Hw) (code : W16) (src : Byte) : Hw :=
  match h.flt.hist.find? (fun e => e.active && e.is code src) with
  | some e =>
    let e' := { e with active := false, last := h.time.now, seq := h.flt.seq }
    (({ h with flt := { h.flt with hist := h.flt.hist.map (fun x => if x.active && x.is code src then e' else x) } }
      : Hw).nextSeq).faultRecord e' 2
  | none => match h.flt.extra.find? (fun e => e.is code src) with
    | some e =>
      let e' := { e with active := false, last := h.time.now, seq := h.flt.seq }
      (({ h with flt := { h.flt with extra := h.flt.extra.filter (fun x => !x.is code src) } } : Hw).nextSeq).faultRecord e' 2
    | none => h

/-- The host has acknowledged the faults (R360, R440). -/
def Hw.acknowledged (h : Hw) : Bool :=
  !h.flt.loss && h.flt.hist.all (fun e => !((e.cls == .belay || e.cls == .arrest) && !e.acked))

/-! ## Completions -/

/-- CAN_FB_CHANNEL, none while it is unset, 0xFF, or its channel is off (R365, R385). -/
def Hw.fbChannel (h : Hw) : Option Nat :=
  let ch := h.par 0x0E13
  if h.unset 0x0E13 || 3 < ch || h.par (0x0E05 + ch) == 0 then none else some ch

/-- A CAN fallback response leaves on the fallback channel (R378): completion of 16 bytes, then a result block. -/
def Hw.canRespond (h : Hw) (tag : W32) (st : Byte) (time : W64) (extra : List Byte) : Hw :=
  match h.fbChannel with
  | none => h
  | some ch =>
  if h.net.busOff ch then h
  else
    let data := leBytes 4 tag.toNat ++ [st, 0, 0, 0] ++ leBytes 8 time.toNat ++ extra
    (h.emit (.can ch { word := BitVec.ofNat 32 (h.par 0x0E14 / 2 ^ 16 % 2 ^ 11), fmt := .xl, data := data })).count
      (0x0A1 + 5 * ch) 1

/-- A transition to BIVOUAC is granted: the rings drain for it (R50). -/
def Hw.entersSleep (h : Hw) : Bool := h.mode.granted.any (fun g => g.target == .bivouac)

/-- The work of a ring that the drain for BIVOUAC does not wait for: the MODE_REQUEST, or the CINCH_COMMIT of its cinch, that
completes at the edge itself (R36). -/
def Hw.ownWork (h : Hw) (n : Nat) : List (W32 × Nat) :=
  match h.mode.granted with
  | none => []
  | some g =>
    match (if g.cinch = 0 then g.req else (h.slots.get g.cinch {}).commit) with
    | none => []
    | some q => (match q.path with | .ring m => if m.val = n then [(q.tag, q.session)] else [] | .can => [])

/-- The completion of a descriptor on its path (R297, R378): within a drain DONE becomes DRAINED (R50, R294),
COMPLETE_ON_ERROR_ONLY suppresses DONE, and a descriptor whose ring no longer counts it as outstanding has completed. -/
def Hw.completeRaw (h : Hw) (q : Req) (st : Status) (time : W64) (extra : List Byte) : Hw :=
  match q.path with
  | .can => if q.flags.getLsbD 3 && st == .done then h else h.canRespond q.tag st.code time extra
  | .ring n =>
    let r := h.ring n
    let st := if (r.state == .draining || h.entersSleep) && st == .done then Status.drained else st
    let left := r.outstanding.erase (q.tag, q.session)
    let h1 := h.setRing n { r with outstanding := left, fenced := r.fenced && !left.isEmpty }
    if (q.flags.getLsbD 3 && st == .done) || !r.outstanding.contains (q.tag, q.session) then h1
    else h1.queueCompletion n q.tag st.code time

/-- A ring in DRAINING whose work and completions are out reaches IDLE, and its RING_DISABLE completes (R294, R445). -/
def Hw.settleOne (h : Hw) (n : Nat) : Hw :=
  let r := h.ring n
  if r.state == .draining && r.outstanding.isEmpty && r.buffer.isEmpty then
    let h1 := h.setRing n { r with state := .idle, disable := none }
    match r.disable with
    | some q => h1.completeRaw q .done h.time.now []
    | none => h1
  else h

/-- A ring settles, and ring 0 after it, which carries the RING_DISABLE. -/
def Hw.settleRing (h : Hw) (n : Nat) : Hw := if n = 0 then h.settleOne 0 else (h.settleOne n).settleOne 0

/-- Descriptors of a session that have started and not completed. -/
def Hw.sessionWork (h : Hw) (n : Nat) : Nat :=
  (h.host.rings.flatMap (fun p => p.2.outstanding.filter (fun x => x.2 == n))).length

/-- A session's context is freed once its other descriptors have completed, and its SESSION_CLOSE completes (R313);
SAFETY_PDU_REPEAT ends with the last session it blocks (R274). -/
def Hw.settleSession (h : Hw) (n : Nat) : Hw :=
  match h.session n with
  | none => h
  | some s =>
    match s.closing with
    | none => h
    | some q =>
      let own := if q.session = n && q.path != .can then 1 else 0
      if own < h.sessionWork n then h
      else
        let h1 : Hw := { h with host := { h.host with sessions := h.host.sessions.del n } }
        let h2 := if s.blocked && !h1.host.sessions.any (fun p => p.2.blocked) then
            h1.clearFault fltSafetyPduRepeat.code 0xFF else h1
        h2.completeRaw q .done h.time.now []

/-- A descriptor completes on its path (R297), which may end a drain (R294) or a session's close (R313). -/
def Hw.completeAt (h : Hw) (q : Req) (st : Status) (time : W64) (extra : List Byte := []) : Hw :=
  let h1 := (h.completeRaw q st time extra).settleSession q.session
  match q.path with
  | .ring n => h1.settleRing n
  | .can => h1

/-- A descriptor completes now. -/
def Hw.complete (h : Hw) (q : Req) (st : Status) : Hw := h.completeAt q st h.time.now

/-- A descriptor completes now, if there is one. -/
def Hw.completeOpt (h : Hw) (q : Option Req) (st : Status) : Hw :=
  match q with
  | some q => h.complete q st
  | none => h

/-- The next state in which the module has changed by `f` and the queue stands as it was. -/
def onHw (f : Hw → Hw) (s : State) : Host.Outcome State Fault Refusal := .next { s with hw := f s.hw }

/-- Each of several descriptors completes now. -/
def Hw.completeAll : List Req → Status → Hw → Hw
  | [], _, h => h
  | q :: t, st, h => Hw.completeAll t st (h.complete q st)

/-- Number of bits that read 1. -/
def popcount : Nat → Nat → Nat
  | 0, _ => 0
  | n + 1, x => x % 2 + popcount n (x / 2)

/-- A mask with the bits of a list set. -/
def maskOf (l : List Nat) : Nat := l.foldl (fun m k => m ||| 2 ^ k) 0

end Sys2Proof.Machine
end

