-- ==== Sys2Proof/Machine/Operands.lean ====
section
/-!
DEFINITION. Machine/Operands.lean: the operand forms of the commands: the fields of a descriptor (R295), the trailer
(R272), the bytes its DMA reads, and a descriptor read from its 64 raw bytes.
-/
namespace Sys2Proof

/-- Byte `k` of the descriptor, 16-63 (R295). -/
def Desc.byte (d : Desc) (k : Nat) : Byte := d.payload.extractLsb' (8 * (k - 16)) 8

/-- The unsigned little-endian field of `n` bytes at byte `k`. -/
def Desc.num (d : Desc) (k n : Nat) : Nat := (d.payload.extractLsb' (8 * (k - 16)) (8 * n)).toNat

/-- The signed little-endian field of `n` bytes at byte `k`. -/
def Desc.int (d : Desc) (k n : Nat) : Int := Sys2Proof.Machine.asInt n (d.num k n)

/-- Flags of R295. -/
def Desc.fence (d : Desc) : Bool := d.flags.getLsbD 0
def Desc.member (d : Desc) : Bool := d.flags.getLsbD 1
def Desc.trailer (d : Desc) : Bool := d.flags.getLsbD 2

/-- Trailer fields of R272: sequence, age budget in 10 us, source identity, CRC. -/
def Desc.seq (d : Desc) : W16 := d.payload.extractLsb' 288 16
def Desc.age (d : Desc) : Nat := d.num 54 2
def Desc.source (d : Desc) : W32 := d.payload.extractLsb' 320 32
def Desc.crc (d : Desc) : W32 := d.payload.extractLsb' 352 32

/-- The 52 bytes the trailer's CRC runs over (R272): bytes 16-59, opcode, session and binding value. -/
def Desc.trailerBytes (d : Desc) (op : Nat) (binding : W32) : List Byte :=
  Sys2Proof.Machine.leBytes 44 d.payload.toNat ++ Sys2Proof.Machine.leBytes 2 op ++
    Sys2Proof.Machine.leBytes 2 d.session.toNat ++ Sys2Proof.Machine.leBytes 4 binding.toNat

/-- What a completion needs of the descriptor. -/
def Desc.req (d : Desc) : Sys2Proof.Machine.Req :=
  { path := d.path, tag := d.tag, flags := d.flags, session := d.session.toNat }

/-- The ID and value of a PARAM_WRITE (R321). -/
def Desc.paramId (d : Desc) : Nat := d.num 16 2
def Desc.paramValue (d : Desc) : Nat := d.num 20 8

/-- The bridge a byte names, 0 A and 1 B. -/
def Bridge.ofByte : Nat → Option Bridge
  | 0 => some .brA | 1 => some .brB | _ => none

/-- The descriptor with its command byte as the row of the table names it. -/
def Desc.withByte16 (d : Desc) (b : Byte) : Desc :=
  { d with payload := (d.payload &&& ~~~ (0xFF : BitVec 384)) ||| b.setWidth 384 }

/-- The descriptor marked as a cinch member. -/
def Desc.asMember (d : Desc) : Desc := { d with flags := d.flags ||| 2 }

/-- A descriptor from its 64 bytes (R295), with its opcode. -/
def Desc.ofRaw (path : Path) (raw : BitVec 512) (dma : List Byte) (sigOk : Bool) : Nat × Desc :=
  ((raw.extractLsb' 0 16).toNat,
   { path := path, session := raw.extractLsb' 16 16, tag := raw.extractLsb' 32 32, flags := raw.extractLsb' 64 8,
     cinch := raw.extractLsb' 72 8, len := raw.extractLsb' 80 16, rsvd := raw.extractLsb' 96 32,
     payload := raw.extractLsb' 128 384, dma := dma, sigOk := sigOk })

/-- Bytes as one number of 512 bits, byte 0 lowest: a CAN XL frame's data (R377). -/
def rawOfBytes (l : List Byte) : BitVec 512 := BitVec.ofNat 512 (Sys2Proof.Machine.leNat (l.take 64))

end Sys2Proof
end

