-- ==== Sys2Proof/Machine/Flags.lean ====
section
/-!
DEFINITION. Machine/Flags.lean: the flag and status words of the manual, computed from the state: BOOT_STATUS, MODULE_STATUS,
OTP_STATUS, RING_STATE, mailbox status, limit-reason bits, accumulator flags, FAULT_OUT and PARTNER_OK.
-/
namespace Sys2Proof.Machine

/-- Bit `k` of a word. -/
def bitIf (k : Nat) (b : Bool) : Nat := if b then 2 ^ k else 0

/-- Images running as bits: image kind k in bit k - 1 (R335, R426). -/
def Hw.imageBits (h : Hw) : Nat :=
  bitIf 0 (h.img.running.find 1).isSome + bitIf 1 (h.img.running.find 2).isSome +
  bitIf 2 (h.img.running.find 3).isSome + bitIf 3 (h.img.running.find 4).isSome +
  bitIf 4 (h.img.running.find 5).isSome + bitIf 5 (h.img.running.find 6).isSome

/-- All six images run (R27). -/
def Hw.allImages (h : Hw) : Bool := h.imageBits == 63

/-- BOOT_STATUS in mailbox 0 (R317). -/
def Hw.bootStatus (h : Hw) : W32 :=
  BitVec.ofNat 32 (h.mode.wakeReason.toNat + h.mode.mode.code * 2 ^ 16 + h.imageBits * 2 ^ 24)

/-- MODULE_STATUS (R426). -/
def Hw.moduleStatus (h : Hw) : W32 :=
  BitVec.ofNat 32 (h.mode.mode.code + h.imageBits * 2 ^ 8 + bitIf 16 h.time.synced +
    bitIf 17 (h.faultActive fltHostAbsent.code 0xFF) + bitIf 18 (h.classActive .arrest) + bitIf 19 h.flt.loss)

/-- OTP_STATUS (R426). -/
def Hw.otpStatus (h : Hw) : W32 :=
  let act := (List.range 6).foldl (fun a t => a + bitIf t (h.otp.active.find (t + 1)).isSome) 0
  let overlays := bitIf 2 h.otp.syscal.isSome + bitIf 3 h.saf.overlay + bitIf 4 h.otp.configOn
  BitVec.ofNat 32 ((match h.otp.job with | some j => j.type | none => 0) + bitIf 8 h.otp.job.isSome + act * 2 ^ 16 +
    overlays * 2 ^ 24)

/-- State codes of R294. -/
def RingState.code : RingState → Nat
  | .absent => 0 | .enabled => 1 | .draining => 2 | .idle => 3 | .error => 4

/-- RING_STATE of a ring (R429). -/
def Ring.stateWord (r : Ring) : W32 :=
  BitVec.ofNat 32 (r.state.code + r.type * 2 ^ 8 + r.size * 2 ^ 12 + r.cause * 2 ^ 16)

/-- The receiver's agent number of a mailbox (R317, R434); 0 where R317 leaves the assignment internal. -/
def mbReceiver : Nat → Nat
  | 0 => 1 | 1 => 6 | 2 => 2 | 3 => 3 | 4 => 6 | 5 => 6 | 6 => 6 | 7 => 6 | 8 => 6 | 9 => 6 | 10 => 6 | 11 => 6 | _ => 0

/-- MB_STATUS (R433); mailbox 0 names the safety controller as its sender. -/
def Mailbox.statusWord (m : Nat) (x : Mailbox) : W32 :=
  BitVec.ofNat 32 (bitIf 0 x.full + bitIf 1 x.timeout + (if m = 0 then 6 else x.sender) * 2 ^ 8 + mbReceiver m * 2 ^ 16)

/-- MB_ACK (R433). -/
def Mailbox.ackWord (x : Mailbox) : W32 := BitVec.ofNat 32 (x.ack.toNat + bitIf 8 x.valid)

/-- A fault whose class bit is set in FAULT_OUT_MASK is active (R268, R288). -/
def Hw.maskedFault (h : Hw) : Bool :=
  let m := BitVec.ofNat 8 (h.par 0x0A0D)
  (m.getLsbD 0 && h.classActive .warn) || (m.getLsbD 1 && h.classActive .belay) || (m.getLsbD 2 && h.classActive .latch)

/-- P1 is supplied: the module is awake, from VSUP or P11 (R30). -/
def Hw.awake (h : Hw) : Bool := h.mode.phase == .bringUp || h.mode.phase == .up

/-- P11 runs while the DC link is between 120 V and 1050 V outside BIVOUAC (R24). -/
def Hw.p11Runs (h : Hw) : Bool :=
  h.awake && h.mode.mode != .bivouac && 120000 ≤ h.pwr.vdc && h.pwr.vdc ≤ 1050000

/-- An STO channel is open, or the safety controller's own series input (R174). -/
def Hw.stoOpen (h : Hw) : Bool := !h.pwr.stoA || !h.pwr.stoB || h.saf.seriesOpen

/-- The supply of a power domain. -/
inductive Supply where
  /-- VSUP in every mode, BIVOUAC included: P0. -/
  | always
  /-- VSUP alone while the module is awake: P2, P3, P9, P10. -/
  | vsup
  /-- VSUP or P11: P1, P4, P5, P6. -/
  | either
  /-- VSUP or P11 through the STO series switches: P7, P8. -/
  | sto
  /-- The DC link: P11. -/
  | link
  deriving DecidableEq, Repr

/-- What supplies power domain P0-P11 (R30). -/
def supplyOf : Nat → Supply
  | 0 => .always | 2 => .vsup | 3 => .vsup | 9 => .vsup | 10 => .vsup | 7 => .sto | 8 => .sto | 11 => .link | _ => .either

/-- A power domain is on: by mode as R49 switches it, from the supplies R30 gives it. -/
def Hw.powered (h : Hw) (p : Nat) : Bool :=
  match supplyOf p with
  | .always => h.mode.phase != .unpowered && !h.pwr.onP11
  | .vsup => h.awake && !h.pwr.onP11
  | .either => h.awake
  | .sto => h.awake && !h.stoOpen
  | .link => h.p11Runs

/-- Positions with a rail under voltage (R161). -/
def Gate.uvlo (g : Gate) : BitVec 6 := g.uvloPos ||| g.uvloNeg

/-- The gate supply of a bridge is there: its domain is on, and no rail of it is under voltage (R17, R161). -/
def Hw.gateSupplied (h : Hw) (b : Bridge) : Bool := h.powered (7 + b.code) && (h.gate b).uvlo == 0

/-- APP runs, on the application cluster in P2 (R26, R30). -/
def Hw.appRuns (h : Hw) : Bool := h.powered 2 && (h.img.running.find 6).isSome

/-! ## The loss of supply -/

/-- What stands outside the module or in OTP, kept whatever happens to the supply: OTP, pins and plugs as the module last saw
them. The vehicle's pins keep their levels; the model's own log of outputs and draws runs on. -/
def Hw.outside (h : Hw) : Hw :=
  { time := { clock := h.time.clock, ck0Rc := h.time.ck0Rc }
    pwr := { vsup := h.pwr.vsup, vdc := h.pwr.vdc, stoA := h.pwr.stoA, stoB := h.pwr.stoB, stoAAt := h.pwr.stoAAt
             stoBAt := h.pwr.stoBAt, board := h.pwr.board, coolant := h.pwr.coolant, lvb := h.pwr.lvb }
    chg := { pp := h.chg.pp, cp := h.chg.cp, state := .unplugged }
    act := { vs := h.act.vs }
    saf := { hvil := h.saf.hvil, hvilCurrent := h.saf.hvilCurrent }
    otp := { bytes := h.otp.bytes, consumed := h.otp.consumed, ident := h.otp.ident }
    out := h.out, free := h.free }

/-- Unpowered (R43): nothing is kept. -/
def Hw.unpower (h : Hw) : Hw :=
  let h1 := h.outside
  { h1 with pwr := { h1.pwr with vsup := 0 }, time := { clock := h.time.clock } }

/-- P11 follows the DC link and the mode; the module is unpowered where P11 was its only supply and stops (R24, R25). -/
def Hw.checkP11 (h : Hw) : Hw :=
  let on := h.p11Runs
  let h1 : Hw := { h with pwr := { h.pwr with p11 := on } }
  if h1.pwr.onP11 && !on then h1.unpower else h1

/-- Since when a condition has held: kept while it holds. -/
def heldSince (since : Option Nat) (holds : Bool) (clock : Nat) : Option Nat :=
  if holds then some (since.getD clock) else none

/-- A condition has held for some ticks. -/
def heldFor (since : Option Nat) (ticks clock : Nat) : Bool := match since with | some t => t + ticks ≤ clock | none => false

/-- Ticks until the half-period in progress ends, for a period of some length that began at a module time. -/
def halfLeft (start : W64) (len : Nat) (now : W64) : Nat := len / 2 - (now - start).toNat % max (len / 2) 1

/-- The DC link meets a calibration point's condition (R74): at or below 60 V at ZERO, at or above 750 V at point 2. -/
def linkFits (point : Nat) (vdc : Int) : Bool := if point = 1 then vdc ≤ 60000 else point != 2 || 750000 ≤ vdc

/-- A calibration in progress follows the DC link. -/
def Cal.follow (c : Cal) (vdc : Int) (clock : Nat) : Cal := { c with linkAt := heldSince c.linkAt (linkFits c.point vdc) clock }

/-- The DC link voltage as it is seen now; the time above DC_CEIL runs (R143), and reaching 255 V is kept for the converter (R198). -/
def Hw.setVdc (h : Hw) (mv : Int) : Hw :=
  ({ h with pwr := { h.pwr with vdc := mv }
            lv := { h.lv with autoDue := decide (255000 ≤ mv) && (h.lv.autoDue || decide (h.pwr.vdc < 255000)) }
            sh := { h.sh with ceilAt := heldSince h.sh.ceilAt (decide (h.parI 0x0513 < mv)) h.time.clock }
            sen := { h.sen with cal := h.sen.cal.map (fun c => c.follow mv h.time.clock) } } : Hw).checkP11

/-- What opens FAULT_OUT and PARTNER_OK alike (R268, R391). -/
def Hw.outsHealthy (h : Hw) : Bool := h.awake && h.mode.mode != .arrest && h.mode.mode != .bivouac && !h.saf.noMajority

/-- FAULT_OUT channel A conducts (R268). -/
def Hw.faultOutA (h : Hw) : Bool := h.outsHealthy && !h.maskedFault

/-- FAULT_OUT channel B conducts (R268). -/
def Hw.faultOutB (h : Hw) : Bool := h.outsHealthy && !h.maskedFault && !h.saf.wdExpired

/-- The PARTNER_OK output conducts (R391). -/
def Hw.partnerOk (h : Hw) : Bool := h.outsHealthy && !h.saf.wdExpired

/-- State byte of R147; an identification, for which the byte has no code, reads as RUN torque (DESIGN CHOICE). -/
def BState.code : BState → Nat
  | .openAll => 0 | .ascLow => 1 | .ascHigh => 2 | .sync => 3 | .runTorque => 4 | .runSpeed => 5 | .shiftSync => 6
  | .ident => 4

/-- The bridge holds a safe pattern (R171). -/
def BState.safe : BState → Bool
  | .openAll => true | .ascLow => true | .ascHigh => true | .sync => false | .runTorque => false | .runSpeed => false
  | .shiftSync => false | .ident => false

/-- An active short circuit. -/
def BState.asc (s : BState) : Bool := s == .ascLow || s == .ascHigh

/-- Full scale of an input (R57), in mA or mV; CH37, CH70 in uA. -/
def fullScale (i : Nat) : Int :=
  if i < 6 then 1600000 else if i = 6 then 2048000 else if i = 7 then 1200000 else if i < 12 then 32000
  else if i < 15 then 80000 else if i = 15 then 600000 else if i < 24 then 100000 else if i < 27 then 800000
  else if i < 31 then 160000 else if i = 31 then 1200000 else if i = 32 then 80000 else if i = 33 then 800000
  else if i = 34 then 1024000 else if i < 37 then 512000 else if i = 37 then 500000 else if i = 38 then 800000
  else if i = 39 then 1200000 else if i < 43 then 60000 else if i = 43 then 80000 else if i < 55 then 5120
  else if i = 55 then 64000 else if i = 56 then 80000 else if i = 57 then 64000 else if i < 62 then 32000
  else if i < 66 then 10240 else if i < 68 then 20480 else if i < 70 then 16000 else if i = 70 then 40000
  else if i < 73 then 1200000 else if i < 82 then 5120 else if i < 86 then 8000 else if i = 86 then 5120
  else if i < 93 then 64000 else 5120

/-- A temperature input (R57). -/
def isThermistor (i : Nat) : Bool := (47 ≤ i && i ≤ 54) || (73 ≤ i && i ≤ 81) || i = 86 || i = 95

/-- The window's mean in the input's own unit: mA, mV, or 0.01 degC of a thermistor (R57); 0 of a window without samples. -/
def AccRecord.reading (r : AccRecord) : Int :=
  if r.count = 0 then 0
  else if isThermistor r.input then Config.thermistor r.input (r.sum / (r.count : Int))
  else r.sum * fullScale r.input / (32768 * (r.count : Int))

/-- Flags byte of an accumulator record (R62). -/
def accFlags (ovf sat partial' half abort : Bool) : Byte :=
  BitVec.ofNat 8 (bitIf 0 ovf + bitIf 1 sat + bitIf 2 partial' + bitIf 3 half + bitIf 4 abort)

end Sys2Proof.Machine
end

