-- ==== Sys2Proof/Machine/Safe.lean ====
section
/-!
DEFINITION. Machine/Safe.lean: the safe patterns of the bridges (R125, R171-R175), the stops of every function, the mode edge
(R36, R38) and the reaction to a fault by its class (R39, R359).
-/
namespace Sys2Proof.Machine

/-! ## Crossover speed and patterns -/

/-- Magnet flux at a temperature in 0.01 degC, in 1e-15 Vs (R125): PSI_M x (1 + MAG_ALPHA x (T - MAG_TREF)). -/
def Hw.psiAt (h : Hw) (b : Bridge) (temp : Int) : Int :=
  h.parI (perBridge 0x0521 b) * (100000000 + h.parI (perBridge 0x0523 b) * (temp - h.parI 0x0525))

/-- The magnet temperature R125 takes: the estimate, a free value while it is not valid. -/
def Hw.magEst (h : Hw) (b : Bridge) : Int := (h.ctl b).magTemp.getD Config.magUnknown

/-- n_x of R125 in 0.01 rpm for a flux: 60 x VDC / (2 pi p sqrt 3 psi), with 2 pi sqrt 3 = 10.8827961854, rounded down. -/
def crossover (vdc : Int) (poles : Nat) (psi : Int) : Int :=
  if psi ≤ 0 then Config.crossoverUnset else vdc * (6 * 10 ^ 25) / ((poles : Int) * psi * 108827961854)

/-- The crossover speed n_x of a bridge (R125). -/
def Hw.nx (h : Hw) (b : Bridge) : Int :=
  crossover h.pwr.vdc (h.par (perBridge 0x0403 b)) (h.psiAt b (h.magEst b))

/-- n_x,safe: 0.95 x n_x at the estimate less 40 K, never colder than -40 degC (R125). -/
def Hw.nxSafe (h : Hw) (b : Bridge) : Int :=
  let t := h.magEst b - 4000
  let t := if t < -4000 then -4000 else t
  crossover h.pwr.vdc (h.par (perBridge 0x0403 b)) (h.psiAt b t) * 95 / 100

/-- Magnitude of a speed. -/
def absI (x : Int) : Int := if x < 0 then -x else x

/-- Positions counted as shorted and as open (R171). -/
def Gate.shorts (g : Gate) : BitVec 6 := g.shorted ||| g.suspect
def Gate.opens (g : Gate) : BitVec 6 := g.opened ||| g.uvlo

/-- Low sides are the odd positions, high sides the even ones (R358). -/
def lowSides : BitVec 6 := 0b101010
def highSides : BitVec 6 := 0b010101

/-- The safe pattern of R172 for the switches' condition. `asc`: the bridge holds an active short circuit; `n`: speed;
`nx`: n_x,safe, in 0.01 rpm; `hyst`: ASC_HYST. -/
def safePattern (g : Gate) (asc : Bool) (n nx : Int) (hyst : Nat) : BState :=
  let lowShort := g.shorts &&& lowSides != 0
  let highShort := g.shorts &&& highSides != 0
  let lowOpen := g.opens &&& lowSides != 0
  let highOpen := g.opens &&& highSides != 0
  let fast : Bool := if asc then (hyst : Int) * nx ≤ 256 * n else nx ≤ n
  if lowShort && highShort then .openAll
  else if n < 3000 then .openAll
  else if lowShort then .ascLow
  else if highShort then .ascHigh
  else if lowOpen && highOpen then .openAll
  else if !fast then .openAll
  else if lowOpen then .ascHigh
  else .ascLow

/-- What the gates of a bridge under a safe order hold: nothing without supply, the ASC hold with STO open (R174), the
pattern of R172 otherwise. -/
def Hw.safeFor (h : Hw) (b : Bridge) : BState :=
  let g := h.gate b
  if !h.awake then .openAll
  else if h.stoOpen then (if g.ascArm && !g.ascInhibit then .ascLow else .openAll)
  else safePattern g (h.ctl b).state.asc (absI (h.ctl b).speed) (h.nxSafe b) (h.par 0x0610)

/-- The bridge takes a pattern; an entry to a safe pattern is counted (0x064-0x067, R351). -/
def Hw.setPattern (h : Hw) (b : Bridge) (p : BState) : Hw :=
  if (h.ctl b).state == p then h
  else ({ h.modCtl b (fun c => { c with state := p }) with
    saf := { h.saf with openSince := if p == .openAll then h.time.clock else h.saf.openSince } } : Hw).count (0x064 + 2 * b.code + (if p.asc then 0 else 1)) 1

/-- A bridge under a safe order follows R172 and R174. -/
def Hw.refreshSafe (h : Hw) (b : Bridge) : Hw := if (h.ctl b).ordered then h.setPattern b (h.safeFor b) else h

/-- Both bridges follow R172 and R174. -/
def Hw.refreshBoth (h : Hw) : Hw := (h.refreshSafe .brA).refreshSafe .brB

/-- A setpoint waiting for its control boundary is stored and completes DONE, as in a safe pattern (R11, R116). -/
def Hw.storePending (h : Hw) (b : Bridge) : Hw :=
  match (h.ctl b).pending with
  | none => h
  | some p =>
    (h.modCtl b (fun c => { c with stored := some { p with req := none }, pending := none })).completeOpt p.req .done

/-- The control state of a bridge that leaves torque service: no target, zero torque, no shift reference, no voltage command. -/
def Ctl.cease (c : Ctl) : Ctl :=
  { c with ordered := true, target := none, ramped := 0, applied := 0, draining := false, shiftRef := none,
           inWindow := false, winAt := none, reacqAt := none, agreeAt := none, refD := 0, refQ := 0, intD := 0, intQ := 0
           vD := 0, vQ := 0, vLimited := false, legs := [0, 0, 0], legsNext := [0, 0, 0], syncStep := 0 }

/-- A safe pattern is ordered (R11): the bridge leaves torque service at once. -/
def Hw.orderSafe (h : Hw) (b : Bridge) : Hw := ((h.modCtl b Ctl.cease).storePending b).refreshSafe b

/-- A safe pattern is ordered on both bridges. -/
def Hw.orderBoth (h : Hw) : Hw := (h.orderSafe .brA).orderSafe .brB

/-! ## Standstill, HV safe, inhibits -/

/-- A drive is moving (R38). -/
def Drive.busy (d : Drive) : Bool := d.state == .moving || d.state == .braking || d.state == .returning || d.state == .tooth

/-- No actuator moves. -/
def Act.still (a : Act) : Bool := !a.shift.busy && !a.park.busy && !a.disc.busy && a.gear.step == .none

/-- Standstill (R38): both bridges below 30 rpm and no actuator moving. -/
def Hw.standstill (h : Hw) : Bool := absI h.ctlA.speed < 3000 && absI h.ctlB.speed < 3000 && h.act.still

/-- HV safe (R38): the DC link at or below 60 V. -/
def Hw.hvSafe (h : Hw) : Bool := h.pwr.vdc ≤ 60000

/-- The bridge a LATCH-class fault inhibits, by its code and source byte (R178, R261, R358). -/
def latchBridge (code : W16) (src : Byte) : Option Bridge :=
  let n := src.toNat
  if code == fltGateDesatRepeat.code || code == fltSwitchShorted.code || code == fltSwitchOpen.code ||
     code == fltGateLoop.code || code == fltComparatorFail.code then some (if n < 6 then .brA else .brB)
  else if code == fltPhaseOpen.code then some (if n < 3 then .brA else .brB)
  else if code == fltCheckerInjectFail.code then some (if n = 0 then .brA else .brB)
  else none

/-- An active LATCH-class fault inhibits the bridge (R39, R178). -/
def Hw.bridgeInhibited (h : Hw) (b : Bridge) : Bool :=
  (h.flt.hist ++ h.flt.extra).any (fun e => e.active && e.cls == .latch && latchBridge e.code e.source == some b)

/-- The bridge that a fault which can be of class ARREST belongs to, by its code and source byte (R178, R358). -/
def arrestBridge (code : W16) (src : Byte) : Option Bridge :=
  let n := src.toNat
  if code == fltPosNoSource.code || code == fltTrqUnintended.code || code == fltTileCheckerMismatch.code then
    some (if n = 0 then .brA else .brB)
  else if code == fltModLegXcmdRepeat.code then (if n < 3 then some .brA else if n < 6 then some .brB else none)
  else if code == fltGateDesat.code || code == fltGateUvlo.code || code == fltDieOvertemp.code then
    some (if n < 6 then .brA else .brB)
  else none

/-- An ARREST-class fault of the bridge is active (R118). -/
def Hw.bridgeArrested (h : Hw) (b : Bridge) : Bool :=
  (h.flt.hist ++ h.flt.extra).any (fun e => e.active && e.cls == .arrest && arrestBridge e.code e.source == some b)

/-- An active fault with one of these codes. -/
def Hw.anyActive (h : Hw) (codes : List W16) : Bool :=
  (h.flt.hist ++ h.flt.extra).any (fun e => e.active && codes.contains e.code)

/-- STO_PATH_FAIL inhibits DRIVE (R265). -/
def Hw.driveInhibited (h : Hw) : Bool := h.anyActive [fltStoPathFail.code]

/-- What inhibits DC boost (R236, R265, R267). -/
def Hw.boostInhibited (h : Hw) : Bool :=
  h.anyActive [fltStoPathFail.code, fltSoSwitchFail.code, fltSoShort.code, fltDcbInductance.code, fltDcbContactorWeld.code]

/-- What inhibits the converter (R184, R199). -/
def Hw.lvInhibited (h : Hw) : Bool :=
  h.pwr.senseLost || h.anyActive [fltLvoutShort.code, fltLvStartFailed.code, fltLvIsoswFail.code, fltLvClampFail.code]

/-- The fusion state of a bridge. -/
def Hw.fus (h : Hw) : Bridge → Fusion
  | .brA => h.pos.fusA | .brB => h.pos.fusB

/-- The fusion state of a bridge changed by `f`. -/
def Hw.modFus (h : Hw) (b : Bridge) (f : Fusion → Fusion) : Hw :=
  match b with
  | .brA => { h with pos := { h.pos with fusA := f h.pos.fusA } }
  | .brB => { h with pos := { h.pos with fusB := f h.pos.fusB } }

/-- The resolver's own checks pass (R88, R91, R92). -/
def Resolver.healthy (r : Resolver) : Bool := r.valid && !r.excFault && !r.signal && !r.overspeed && r.missing < 3

/-- The encoder's own checks pass and it has been referenced (R96, R97). R97 calls an encoder without reference no healthy
source for R38; that it is none for R107 and for an output of R103 either is the model's reading (DEDUCED). -/
def Encoder.healthy (e : Encoder) : Bool := e.referenced && !e.illegal && !e.mismatch

/-- The own checks of the sensor named in POS_SOURCE pass. -/
def Hw.sensorOk (h : Hw) (b : Bridge) : Bool :=
  let s := h.par (perBridge 0x0401 b)
  if s = 0x10 then h.pos.res0.healthy else if s = 0x11 then h.pos.res1.healthy
  else if s = 0x20 then h.pos.enc0.healthy else h.pos.enc1.healthy

/-- OBS_MIN_SPEED in 0.01 rpm. -/
def Hw.obsMin (h : Hw) : Int := h.parI 0x0424

/-- The observer is locked (R104): at or above OBS_MIN_SPEED, with the residual below 5 % for 16 control periods. -/
def Hw.obsLocked (h : Hw) (b : Bridge) : Bool := 16 ≤ (h.fus b).lockCount && h.obsMin ≤ absI (h.fus b).speed

/-- The bridge has a healthy position source (R38, R118): its sensor, neither lost nor excluded, or its observer, unless the
bridge waits for the sensor (R144). -/
def Hw.posHealthy (h : Hw) (b : Bridge) : Bool :=
  let f := h.fus b
  (h.sensorOk b && !f.sensorLost && !f.noSource) ||
  (h.obsLocked b && !f.observerLost && !f.noSource && !f.waitSensor)

/-- The other bridge is healthy, as R13 and R178 ask without saying when: it has a position source, no LATCH inhibit,
and no safe pattern that a fault of its own ordered. -/
def Hw.otherHealthy (h : Hw) (b : Bridge) : Bool :=
  h.posHealthy b.other && !h.bridgeInhibited b.other && !(h.ctl b.other).faulted

/-- A bridge's class where its table reads BELAY or ARREST (R178). -/
def Hw.bridgeClass (h : Hw) (b : Bridge) : FClass := if h.otherHealthy b then .belay else .arrest

/-! ## Stops of the functions -/

/-- Function codes of CHARGE_SETUP. -/
def ChgFn.code : ChgFn → Nat
  | .none => 0 | .ac => 1 | .grid => 2 | .island => 3 | .boost => 4 | .topup => 5

/-- Charge state codes (R306). -/
def ChgState.code : ChgState → Nat
  | .unplugged => 0 | .plugWait => 1 | .armed => 2 | .flow => 3 | .handOver => 4 | .suspended => 5

/-- The staged function. -/
def Hw.chgFn (h : Hw) : ChgFn := match h.chg.setup with | some s => s.fn | none => .none

/-- A change of charge state with its event (R213, R306). -/
def Hw.chgGo (h : Hw) (st : ChgState) (cause : Byte) (code : W16) : Hw :=
  if h.chg.state == st then h
  else
    let body := [BitVec.ofNat 8 st.code, BitVec.ofNat 8 h.chg.state.code, BitVec.ofNat 8 h.chgFn.code, cause] ++
      leBytes 2 code.toNat
    ({ h with chg := { h.chg with state := st, phase := h.chg.phase.map (fun p => { p with countedAt := h.time.clock }) } } : Hw).postEvent 0x0801 h.time.now body

/-- The 48-byte charge-phase record (R233). -/
def ChgPhase.bytes (p : ChgPhase) (reason : Byte) (exports : Bool) (endVolts : Int) (now : W64) : List Byte :=
  [BitVec.ofNat 8 p.target, BitVec.ofNat 8 p.phase, reason,
    BitVec.ofNat 8 (bitIf 0 p.restarted + bitIf 1 p.fromBms + bitIf 2 exports)] ++
  leBytes 4 (p.elapsed / 1000) ++ leBytes 4 (p.equiv / 1000000) ++ leBytes 4 (p.vreg / 1000) ++
  leBytes 4 (p.thermal / 1000) ++ leBytes 4 (p.charge / 1000000) ++ leBytes 4 (p.energy / 3600000000) ++
  leBytes 4 (ofInt 4 endVolts) ++ leBytes 8 p.start.toNat ++ leBytes 8 now.toNat

/-- Battery voltage of a target (R208): the BMS value for 1 s after receipt, the module's own channel after. -/
def Hw.battVolts (h : Hw) (target : Nat) : Int :=
  let own := if target = 0 then h.pwr.vdc else h.pwr.lvb
  match (if target = 0 then h.chg.battHv else h.chg.battLv) with
  | some s => match s.volts with
    | some v => if h.time.clock < s.at' + sTicks then v else own
    | none => own
  | none => own

/-- The phase in progress ends: its record is posted (R233). -/
def Hw.chgEndPhase (h : Hw) (reason : Byte) : Hw :=
  match h.chg.phase with
  | none => h
  | some p =>
    let exp := h.chgFn == .grid || h.chgFn == .island
    ({ h with chg := { h.chg with phase := none, left := some p } } : Hw).postEvent 0x0802 h.time.now
      (p.bytes reason exp (h.battVolts p.target) h.time.now)

/-- No current, S2 open, star points and safety outputs open (R234, R266). -/
def Hw.chgOpen (h : Hw) : Hw :=
  { h with chg := { h.chg with current := 0, s2 := false, spA := false, spB := false, dcb := .off, draining := false,
                               reduced := false, paused := false, vref := [], refCycles := 0, refSum := [], left := none
                               limit := 0 }
           saf := { h.saf with so1 := false, so2 := false } }

/-- Every request of the charging function completes. -/
def Hw.chgCompleteAll (h : Hw) (start stop : Status) : Hw :=
  let c := h.chg
  let h1 := { h with chg := { c with startReq := none, pauseReq := none, matchReq := none, stopReqs := [] } }
  Hw.completeAll c.stopReqs stop
    (((h1.completeOpt c.startReq start).completeOpt c.pauseReq stop).completeOpt c.matchReq start)

/-- Charging stops at once (R234, R278): record, open contacts, state by the plug. -/
def Hw.chgArrest (h : Hw) (code : W16) : Hw :=
  let h1 := (h.chgEndPhase 4).chgCompleteAll .aborted .aborted
  h1.chgOpen.chgGo (if h.chg.pp.plugged then .plugWait else .unplugged) 3 code

/-- DC boost has its contactors or star points in use. -/
def Chg.boosting (c : Chg) : Bool := c.dcb != .off

/-- DC boost ends at once: the legs stop, SO_1, SO_2, SPA and SPB open, and the function is ARMED (R225). -/
def Hw.boostAbort (h : Hw) (code : W16) : Hw :=
  if h.chg.boosting then
    let h1 := (h.chgEndPhase 4).chgCompleteAll .aborted .done
    h1.chgOpen.chgGo (if h.chg.pp.plugged then .armed else .unplugged) 3 code
  else h

/-- A fault of the bridge orders the pattern; `ack`: SENSE or the checker did (R118). In DC boost it ends the boost
(R225). -/
def Hw.faultSafe (h : Hw) (b : Bridge) (ack : Bool) : Hw :=
  ((h.modCtl b (fun c => { c with faulted := true, ackNeeded := c.ackNeeded || ack })).orderSafe b).boostAbort 0

/-- LV state codes (R306). -/
def LvState.code : LvState → Nat
  | .stopped => 0 | .starting => 1 | .running => 2 | .precharge => 3 | .hold => 4 | .waiting => 5 | .latchedOff => 6

/-- Phases and cells in service. -/
def Lv.phases (l : Lv) : Nat := popcount 8 l.phaseSet.toNat
def Lv.cells (l : Lv) : Nat := popcount 4 l.cellSet.toNat

/-- A change of converter state with its event (R306). -/
def Hw.lvGo (h : Hw) (st : LvState) : Hw :=
  let h1 : Hw := { h with lv := { h.lv with state := st } }
  if h.lv.state == st then h1
  else h1.postEvent 0x0701 h.time.now ([BitVec.ofNat 8 st.code, BitVec.ofNat 8 h.lv.phases, BitVec.ofNat 8 h.lv.cells,
    BitVec.ofNat 8 h.lv.attempts] ++ leBytes 4 (ofInt 4 h.pwr.vdc) ++ leBytes 4 (ofInt 4 h.lv.vout))

/-- The stage stops; the isolation switch opens once the stage current has been ramped below 5 A (R194). -/
def Lv.stageOff (l : Lv) : Lv :=
  { l with opening := l.closed && decide (5000 ≤ absI l.load), closed := l.closed && decide (5000 ≤ absI l.load), phaseSet := 0
           currents := [], offsets := [], syncOff := 0, shedding := 0, lowAt := none, ovStop := false, regSince := none, draining := false
           diode := false, check := 0, checkAt := none, biasAt := none, shortAt := none, foldAt := none, rose := false, preAmps := 0 }

/-- The cells stop. -/
def Lv.cellsOff (l : Lv) : Lv := { l with cellsUp := false, busOk := false, busBadAt := none, cellSet := 0, cellLowAt := none, cellBadAt := [] }

/-- The stage and cells stop with the isolation switch open. -/
def Hw.lvOff (h : Hw) : Hw := { h with lv := { h.lv.stageOff.cellsOff with closed := false, opening := false } }

/-- The converter comes to rest: requests that ask for STOP complete DONE, others as given. -/
def Hw.lvRest (h : Hw) (st : LvState) (others : Status) : Hw :=
  let l := h.lv
  let h1 := { h with lv := { l with req := none, slewReqs := [], stopReqs := [], preReq := none, fwdInHold := none } }
  let h2 := h1.lvOff.lvGo st
  Hw.completeAll l.stopReqs .done (Hw.completeAll l.slewReqs others
    (((h2.completeOpt l.req others).completeOpt l.preReq others).completeOpt l.fwdInHold others))

/-- Pre-charge ends ABORTED when ARREST is entered; forward service goes on (R198). -/
def Hw.lvArrest (h : Hw) : Hw :=
  if h.lv.state == .precharge || h.lv.state == .hold || (h.lv.state == .waiting && h.lv.waitPre) then h.lvRest .stopped .aborted else h

/-- A drive stops where it is and holds; its motion completes. -/
def Drive.stop (d : Drive) : Drive :=
  { d with state := (if d.state == .off || d.state == .lowSides then d.state else .hold), req := none, failing := false }

/-- A drive by number: 0 SHIFT, 1 PARK, 2 DISC. -/
def Act.drive (a : Act) (i : Nat) : Drive := if i = 0 then a.shift else if i = 1 then a.park else a.disc

/-- A drive changed by `f`. -/
def Hw.modDrive (h : Hw) (i : Nat) (f : Drive → Drive) : Hw :=
  if i = 0 then { h with act := { h.act with shift := f h.act.shift } }
  else if i = 1 then { h with act := { h.act with park := f h.act.park } }
  else { h with act := { h.act with disc := f h.act.disc } }

/-- The 16-bit word `k` of a positions parameter (R255). -/
def posWord (v k : Nat) : Nat := v / 65536 ^ k % 65536

/-- The position of a drive's target code; code 3 of SHIFT, 4 and 5, are the pre-engage positions toward gears 1 and 2. -/
def Hw.drivePos (h : Hw) (i code : Nat) : Nat :=
  let s := h.par 0x0913
  let gear (k : Nat) : Int := posWord s k
  let pre (k : Nat) : Nat :=
    let d : Int := posWord s 3
    (clampI 0 65535 (if gear 1 ≤ gear k then gear 1 + minI d (gear k - gear 1) else gear 1 - minI d (gear 1 - gear k))).toNat
  if i = 0 then (if code ≤ 2 then posWord s code else if code = 4 then pre 0 else pre 2)
  else if i = 1 then posWord (h.par 0x0914) code
  else posWord (h.par 0x0915) code

/-- The positions of a drive are set: CONFIG or a write gives them (R255). -/
def Hw.posUnset (h : Hw) (i : Nat) : Bool := h.unset (0x0913 + i)

/-- A position lies within a drive's window of a target (R238). -/
def Hw.inPosWindow (h : Hw) (i position target : Nat) : Bool :=
  absI ((position : Int) - target) ≤ h.par (0x0910 + i)

/-- The named position of a drive that a resting mechanism stands at. -/
def Hw.namedAt (h : Hw) (i position : Nat) : Option Nat :=
  if h.posUnset i then none
  else (List.range (if i = 0 then 3 else 2)).find? (fun k => h.inPosWindow i position (h.drivePos i k))

/-- The target code in whose window a position stands: the drive's own target while it moves or is confirmed, else any named one. -/
def Hw.placeOf (h : Hw) (i position : Nat) : Option Nat :=
  let d := h.act.drive i
  if d.busy || d.confirmed then (if h.inPosWindow i position d.target then some d.code else none) else h.namedAt i position

/-- The gear that the shift drives to now: the new one, or the old one it returns to. -/
def Shift.goal (g : Shift) : Nat := if g.reverting then g.old else if g.target = 4 then g.old else g.target

/-- SHIFT has passed the pre-engage position toward the gear it goes to (R252). -/
def Hw.passedPre (h : Hw) (position : Nat) : Bool :=
  let first := h.act.gear.goal = 1
  let pre := h.drivePos 0 (if first then 4 else 5)
  if pre ≤ h.drivePos 0 (if first then 0 else 2) then pre < position else position < pre

/-- Engagement of a shift begins with the position that passes the pre-engage position (R252). -/
def Hw.engageSeen (h : Hw) (i position : Nat) : Hw :=
  let g := h.act.gear
  if i = 0 && g.step == .engage && g.target != 4 && h.passedPre position then
    { h with act := { h.act with gear := { g with begun := true } } }
  else h

/-- An output position of a drive reaches the tile (R238): the time it has stood in a window runs. A position of SHIFT or DISC that
leaves its window is confirmed no longer; PARK loses its confirmation after 20 ms (R250). -/
def Hw.seePosition (h : Hw) (i position : Nat) : Hw :=
  let place := h.placeOf i position
  let now := h.time.clock
  let see (d : Drive) : Drive :=
    { d with position := position, posValid := true, place := place, placeAt := if d.place == place then d.placeAt else now
             confirmed := d.confirmed && (i == 1 || place.isSome) }
  (h.modDrive i see).engageSeen i position

/-- The Hall set that serves a drive (R100). -/
def Hw.hallOf (h : Hw) (i : Nat) : Option Nat := (List.range 3).find? (fun k => h.par (0x0415 + k) / 512 % 4 = i)

/-- The motor turns: a commutation event within the last 20 ms (R244). -/
def Hw.turning (h : Hw) (i : Nat) : Bool :=
  match h.hallOf i with
  | none => false
  | some k => match (h.pos.halls.get k {}).events with
    | [] => false
    | t :: _ => decide (h.time.now.toNat < t.toNat + 20 * msTicks)

/-- The motor turns against a motion from the present position to a target (R244). -/
def Hw.turnsAgainst (h : Hw) (i target : Nat) : Bool :=
  match h.hallOf i with
  | none => false
  | some k => h.turning i && (h.pos.halls.get k {}).forward != decide ((h.act.drive i).position ≤ target)

/-- Motor speed of a drive in 0.01 rpm from its commutation events (R100), 0 once the motor counts as standing (R244). -/
def Hw.motorSpeed (h : Hw) (i : Nat) : Int :=
  match h.hallOf i with
  | some k => if h.turning i then Int.tdiv (h.pos.halls.get k {}).speed (max (Config.actPoles i) 1 : Nat) else 0
  | none => 0

/-- A motion starts (R244): a motor that turns against it is braked first; one that turns with it has its regulator preloaded. -/
def Hw.startDrive (h : Hw) (i code : Nat) (limit : Int) (q : Option Req) : Hw :=
  let target := h.drivePos i code
  let against := h.turnsAgainst i target
  let preload := if h.turning i && !against then Config.actEmf i (h.motorSpeed i) else 0
  h.modDrive i (fun d =>
    { d with state := if against then .braking else .moving, target := target, code := code, confirmed := false, req := q
             limit := limit, failing := false, missed := 0, startAt := h.time.clock, vsBefore := h.act.vs, lowOn := false
             onObserver := false, preload := preload, burn := 0, placeAt := h.time.clock
             place := if d.posValid && h.inPosWindow i d.position target then some code else none })

/-- The motion limit of a drive in mA, 0 selecting ACT_I_LIMIT. -/
def Hw.driveLimit (h : Hw) (i : Nat) (asked : Nat) : Int := if asked = 0 then h.parI (0x0904 + i) else asked

/-- The actuators hold; their motions complete (R50, R253). -/
def Hw.actStop (h : Hw) (st : Status) : Hw :=
  let a := h.act
  let h1 := { h with act := { a with shift := a.shift.stop, park := a.park.stop, disc := a.disc.stop, parkEnable := false } }
  ((h1.completeOpt a.shift.req st).completeOpt a.park.req st).completeOpt a.disc.req st

/-- A shift ends without its work: the request completes ABORTED. -/
def Hw.shiftArrest (h : Hw) : Hw :=
  let g := h.act.gear
  if g.step == .none then h
  else ({ h with act := { h.act with gear := { g with step := .none, req := none } } } : Hw).completeOpt g.req .aborted

/-- The drives hold on the way into a fault-driven ARREST or at a forced drain; a shift in progress completes ABORTED: before
engagement SHIFT goes to neutral, after it the engagement is completed (R252, R253). -/
def Hw.actHold (h : Hw) : Hw :=
  let g := h.act.gear
  let h1 := h.shiftArrest.actStop .aborted
  if g.step == .none || h.pwr.onP11 then h1
  else if g.begun then
    { h1 with act := { h1.act with shift := if g.target = 4 then h1.act.shift else h.act.shift
                                   disc := if g.target = 4 then h.act.disc else h1.act.disc } }
  else if g.target ≤ 2 then h1.startDrive 0 1 (h.driveLimit 0 0) none
  else h1

/-- A bridge that an identification drives is OPEN again (R134, R135). -/
def Hw.endIdent (h : Hw) (b : Bridge) : Hw := if (h.ctl b).state == .ident then h.orderSafe b else h

/-- Intrusive tests under way complete ABORTED (R52). -/
def Hw.abortTests (h : Hw) : Hw :=
  let stop := h.tests.filter (fun t => t.cls == 2)
  let h1 := { h with tests := h.tests.filter (fun t => t.cls != 2)
                     gateA := { h.gateA with offRunning := false, offWait := false }
                     gateB := { h.gateB with offRunning := false, offWait := false }
                     sen := { h.sen with cal := none } }
  Hw.completeAll (stop.filterMap (·.req)) .aborted ((h1.endIdent .brA).endIdent .brB)

/-- Every committed cinch completes ABORTED (R330). -/
def Hw.abortCinches (h : Hw) : Hw :=
  let reqs := h.slots.filterMap (fun p => if p.2.state == .committed then p.2.commit else none)
  let h1 := { h with slots := h.slots.mapv (fun _ s => if s.state == .committed then {} else s) }
  Hw.completeAll reqs .aborted h1

/-- A pending transition is pre-empted (R36): its request completes ABORTED. -/
def Hw.abortGrant (h : Hw) : Hw :=
  match h.mode.granted with
  | none => h
  | some g =>
    let h1 : Hw := { h with mode := { h.mode with granted := none, latched := none }
                            act := { h.act with drainAt := none, gear := { h.act.gear with draining := false } } }
    if g.cinch = 0 then h1.completeOpt g.req .aborted else h1

/-- Setpoints of a bridge that wait complete ABORTED in a fault-driven transition (R37, R50). -/
def Hw.abortSetpoints (h : Hw) (b : Bridge) : Hw :=
  let c := h.ctl b
  let h1 := h.modCtl b (fun c => { c with pending := none, held := none })
  (h1.completeOpt (c.pending.bind (·.req)) .aborted).completeOpt (c.held.bind (·.req)) .aborted

/-- A held TORQUE_PAIR completes (R37, R140). -/
def Hw.endHeldPair (h : Hw) (st : Status) : Hw :=
  ({ h with sh := { h.sh with held := none } } : Hw).completeOpt (h.sh.held.bind (fun x => x.2.2)) st

/-- A TORQUE_PAIR that waits for its boundary completes, and so does one that is held. -/
def Hw.endPair (h : Hw) (st : Status) : Hw :=
  (({ h with sh := { h.sh with pair := none } } : Hw).completeOpt (h.sh.pair.bind (fun x => x.2.2)) st).endHeldPair st

/-! ## The mode edge -/

/-- Values staged for a mode edge take effect (R322, R36). -/
def Hw.applyStaged (h : Hw) : Hw :=
  ({ h with prm := { h.prm with staged := [] } } : Hw) |> fun h0 => h.prm.staged.foldl (fun x p => x.putPar p.1 p.2) h0

/-- The IDs of the safety parameter set in ascending order (R288). -/
def safetyIds : List Nat := paramsSafety.map (·.id)

/-- The values of the active safety set (R269). -/
def Hw.activeSet (h : Hw) : Tab Nat := safetyIds.map (fun i => (i, h.par i))

/-- The safety set at an edge (R269): a confirmed pending set becomes active on the way to READY, any other is discarded;
WORKSHOP starts with a copy of the active set. -/
def Hw.safetyEdge (h : Hw) (m : Mode) : Hw :=
  let cleared : Hw := { h with saf := { h.saf with pending := none, written := [], confirmed := false, mismatches := 0 } }
  let left := if h.mode.mode == .workshop then
      (match h.saf.pending with
       | some s => if m == .ready && h.saf.confirmed then
           (s.foldl (fun (x : Hw) p => x.putPar p.1 p.2)
             { cleared with saf := { cleared.saf with overlay := true } }).clearFault fltSafetySetDefault.code 0xFF
         else cleared
       | none => cleared)
    else h
  if m == .workshop then { left with saf := { left.saf with pending := some left.activeSet } } else left

/-- The modes in which a bridge gives torque (R116). -/
def Mode.torque : Mode → Bool
  | .drive => true | .belay => true | .baseCamp => true | .bivouac => false | .ready => false | .charge => false
  | .arrest => false | .workshop => false

/-- A bridge at a mode edge: outside torque service it takes its safe pattern (R148). -/
def Hw.bridgeEdge (h : Hw) (b : Bridge) (m : Mode) : Hw := if m.torque then h else h.orderSafe b

/-- A change of mailbox 0 signals vector 0 from ring 0's enable on (R431). -/
def Hw.mailbox0 (h : Hw) : Hw := if (h.ring 0).state == .absent then h else h.msix 0

/-- The MODE event (R306). -/
def Hw.modeEvent (h : Hw) (m : Mode) (cause : Byte) (code : W16) (src : Byte) : Hw :=
  h.postEvent 0x0201 h.time.now ([BitVec.ofNat 8 m.code, BitVec.ofNat 8 h.mode.mode.code, cause, 0] ++
    leBytes 2 code.toNat ++ [src])

/-- Active discharge at a mode edge (R279): that of ARREST stands while the module stays there; a request stands in the modes
that accept DISCHARGE, and is over at BIVOUAC, which is entered with the DC link safe. -/
def Hw.dischargeEdge (h : Hw) (m : Mode) : Hw :=
  let q := h.saf.dischargeReqs
  let ends := m.torque && m != .baseCamp || m == .charge || m == .bivouac
  let h1 : Hw := { h with saf := { h.saf with dischargeAuto := false, dischargeReqs := if ends then [] else q
                                              dischargeOn := h.saf.dischargeOn && !ends && !q.isEmpty
                                              retryAt := if ends || q.isEmpty then none else h.saf.retryAt } }
  if ends then Hw.completeAll q (if m == .bivouac then .done else .aborted) h1 else h1

/-- The mode edge (R36): staged values, the safety set, the event, the counters; the bridges leave torque service where
the new mode has none. -/
def Hw.edge (h : Hw) (m : Mode) (cause : Byte) (code : W16) (src : Byte) : Hw :=
  let h1 := (h.modeEvent m cause code src).applyStaged.safetyEdge m
  let h2 : Hw := { h1 with mode := { h1.mode with mode := m, since := h.time.clock, granted := none
                                                  lastCommand := h.time.clock } }
  ((((h2.count (0x018 + m.code) 1).dischargeEdge m).bridgeEdge .brA m).bridgeEdge .brB m).mailbox0

/-- Active discharge is due in ARREST (R278). -/
def Hw.arrestDischarge (h : Hw) : Hw :=
  { h with saf := { h.saf with dischargeAuto := h.par 0x0A0C == 1 } }

/-- DISCHARGE requests that wait complete ABORTED in a fault-driven transition to ARREST (R50); the discharge itself goes on
only as ARREST asks for it. -/
def Hw.abortDischarge (h : Hw) : Hw :=
  Hw.completeAll h.saf.dischargeReqs .aborted { h with saf := { h.saf with dischargeReqs := [] } }

/-- ARREST (R278, R50): safe states at once without a drain, everything outstanding completes ABORTED. While the debugger
halts the cores no mode change occurs (R283). -/
def Hw.enterArrest (h : Hw) (code : W16) (src : Byte) : Hw :=
  if h.mode.mode == .bivouac || h.mode.mode == .arrest || h.saf.dbgHalted then h
  else
    let h1 := (((h.abortGrant.abortSetpoints .brA).abortSetpoints .brB).endPair .aborted).abortTests.abortCinches.abortDischarge
    let h2 := (((if code == fltBelayExpired.code then h1.edge .arrest 2 0 0 else h1.edge .arrest 1 code src)).chgArrest
      code).lvArrest
    h2.actHold.arrestDischarge

/-- Charging on the way into BELAY (R234): AC charge and top-up go on at no more than their current, the rest drains. -/
def Hw.chgBelay (h : Hw) : Hw :=
  if h.mode.mode != .charge then h
  else match h.chgFn with
    | .ac => { h with chg := { h.chg with belayCap := some h.chg.current } }
    | .topup => { h with chg := { h.chg with belayCap := some h.lv.load } }
    | _ => if h.chg.phase.isSome || h.chg.current != 0 || h.chg.dcb != .off then
        { h with chg := { h.chg with draining := true, drainAt := h.time.clock } } else h

/-- BELAY (R38, R275, R276) from DRIVE or CHARGE, with the fault that caused it. -/
def Hw.enterBelay (h : Hw) (code : W16) (src : Byte) : Hw :=
  let from' := h.mode.mode
  let h1 := (((h.abortGrant.abortSetpoints .brA).abortSetpoints .brB).endPair .aborted).abortTests.abortCinches.chgBelay
  let h2 := h1.edge .belay 1 code src
  let cap (c : Ctl) : Ctl := { c with capFrom := absI c.applied }
  let h3 := (h2.modCtl .brA cap).modCtl .brB cap
  { h3 with mode := { h3.mode with belayFrom := from', belayAt := h.time.clock, belayCode := code, belaySource := src } }

/-! ## Raising a fault -/

/-- What a class does to the mode (R39). -/
def Hw.classEffect (h : Hw) (cls : FClass) (code : W16) (src : Byte) : Hw :=
  match cls with
  | .belay =>
    if h.saf.dbgHalted then h
    else if h.mode.mode == .drive || h.mode.mode == .charge then h.enterBelay code src
    else if h.mode.mode == .belay then h.enterArrest code src
    else h
  | .arrest => h.enterArrest code src
  | .info => h
  | .warn => h
  | .latch => h

/-- The raise repeats the active fault that caused BELAY (R277). -/
def Hw.repeatsBelay (h : Hw) (code : W16) (src : Byte) : Bool :=
  h.mode.mode == .belay && h.mode.belayCode == code && h.mode.belaySource == src && h.faultActive code src

/-- A fault is raised with a class (R359, R439). `lasting`: its condition persists, and it stays active; an occurrence
clears once the reaction of its class is applied, at once where the class prescribes none. LATCH stays. -/
def Hw.raiseAs (h : Hw) (f : FaultId) (cls : FClass) (src : Byte) (arg : W32) (lasting : Bool) : Hw :=
  let stays := cls == .latch || (lasting && cls != .info)
  let acts := cls == .belay || cls == .arrest
  let h1 := h.note f.code cls src arg (stays || acts)
  let h2 := if cls == .belay && h.repeatsBelay f.code src then h1 else h1.classEffect cls f.code src
  if stays || !acts then h2 else h2.clearFault f.code src

/-- A lasting condition raises its fault under the listed class. -/
def Hw.raise (h : Hw) (f : FaultId) (src : Byte) : Hw := h.raiseAs f f.cls src 0 true

/-- An occurrence raises its fault under the listed class. -/
def Hw.occur (h : Hw) (f : FaultId) (src : Byte) : Hw := h.raiseAs f f.cls src 0 false

/-- An occurrence whose rule prescribes a reaction of its own: raised, the reaction applied, and cleared (R439). -/
def Hw.occurThen (h : Hw) (f : FaultId) (cls : FClass) (src : Byte) (react : Hw → Hw) : Hw :=
  let h1 := h.note f.code cls src 0 true
  let h2 := react (if cls == .belay && h.repeatsBelay f.code src then h1 else h1.classEffect cls f.code src)
  h2.clearFault f.code src

/-- An occurrence whose reaction has just been applied: raised, and cleared at once (R439). -/
def Hw.occurActed (h : Hw) (f : FaultId) (src : Byte) : Hw := h.occurThen f f.cls src (fun x => x)

/-- A lasting condition is raised where it is not active yet. -/
def Hw.raiseOnce (h : Hw) (f : FaultId) (src : Byte) : Hw := if h.faultActive f.code src then h else h.raise f src

end Sys2Proof.Machine
end

