-- ==== Sys2Proof/Machine/Front.lean ====
section
/-!
DEFINITION. Machine/Front.lean: the ordered checks of a descriptor before it acts (R296): layout, opcode, session, authority
and the safety trailer (R273, R274), on the rings and on the CAN path (R377).
-/
namespace Sys2Proof.Machine

/-! ## The opcodes -/

/-- An opcode with its payload length and the bits of its payload that are reserved, as (byte, mask). -/
structure OpRow where
  code : Nat
  len : Nat
  rsv : List (Nat × Nat)
  deriving DecidableEq, Repr

/-- Whole reserved bytes. -/
def rsvBytes (first n : Nat) : List (Nat × Nat) := (List.range n).map (fun i => (first + i, 0xFF))

/-- Every assigned opcode with the length its chapter states. -/
def opRows : List OpRow := [
  ⟨0x0201, 1, []⟩, ⟨0x0202, 8, []⟩,
  ⟨0x0301, 16, [(23, 0xFF), (31, 0xFF)]⟩, ⟨0x0302, 16, rsvBytes 30 2⟩, ⟨0x0303, 1, []⟩, ⟨0x0304, 8, rsvBytes 18 2⟩,
  ⟨0x0401, 1, []⟩, ⟨0x0402, 36, rsvBytes 18 2⟩,
  ⟨0x0501, 20, rsvBytes 17 3⟩, ⟨0x0502, 20, rsvBytes 17 3⟩, ⟨0x0503, 16, rsvBytes 17 3⟩, ⟨0x0504, 12, []⟩,
  ⟨0x0701, 12, rsvBytes 17 3⟩,
  ⟨0x0801, 12, (17, 0xF0) :: rsvBytes 18 2⟩, ⟨0x0802, 16, rsvBytes 18 2⟩, ⟨0x0803, 16, rsvBytes 17 3⟩, ⟨0x0804, 12, []⟩,
  ⟨0x0901, 12, rsvBytes 18 2⟩, ⟨0x0902, 4, rsvBytes 17 3⟩,
  ⟨0x0A01, 0, []⟩, ⟨0x0A02, 8, rsvBytes 17 3⟩, ⟨0x0A03, 0, []⟩,
  ⟨0x0B01, 24, []⟩, ⟨0x0B02, 1, []⟩, ⟨0x0B03, 1, []⟩, ⟨0x0B04, 24, (17, 0xFE) :: rsvBytes 18 2⟩, ⟨0x0B05, 2, []⟩,
  ⟨0x0B06, 8, []⟩] ++ [
  ⟨0x0C01, 12, rsvBytes 18 2⟩, ⟨0x0C02, 1, []⟩, ⟨0x0C03, 1, []⟩, ⟨0x0C04, 12, rsvBytes 18 2⟩, ⟨0x0C05, 16, rsvBytes 18 6⟩,
  ⟨0x0C06, 12, []⟩, ⟨0x0C07, 16, rsvBytes 18 2⟩, ⟨0x0C08, 16, rsvBytes 18 2⟩, ⟨0x0C09, 12, []⟩, ⟨0x0C0A, 12, []⟩,
  ⟨0x0D01, 12, (19, 0xFF) :: rsvBytes 22 2⟩, ⟨0x0D02, 1, []⟩, ⟨0x0D03, 16, rsvBytes 17 3⟩, ⟨0x0D04, 4, []⟩, ⟨0x0D05, 4, []⟩,
  ⟨0x0D06, 8, []⟩,
  ⟨0x0E01, 4, []⟩, ⟨0x0E02, 48, [(19, 0xFF)]⟩, ⟨0x0E03, 12, [(19, 0xF8)]⟩, ⟨0x0E04, 12, []⟩, ⟨0x0E05, 1, []⟩]

/-- The row of an opcode, none where it is not assigned. -/
def opRow (op : Nat) : Option OpRow := opRows.find? (fun r => r.code == op)

/-- Check 1 of R296: reserved bits, the payload length, and the bytes beyond it. -/
def layoutOk (op : Nat) (d : Desc) : Bool :=
  let len := d.len.toNat
  let most := if d.trailer then 36 else 48
  d.flags &&& 0xF0 == 0 && d.rsvd == 0 && len ≤ most &&
  (d.payload.setWidth (8 * most) >>> (8 * len)) == 0 &&
  (match opRow op with
   | some r => len == r.len && r.rsv.all (fun p => d.byte p.1 &&& BitVec.ofNat 8 p.2 == 0)
   | none => true)

/-! ## Session and authority -/

/-- The session a descriptor acts in, the admin session as none. -/
def Hw.auth (h : Hw) (d : Desc) : Option Auth := (h.session d.session.toNat).map (·.auth)

/-- Opcodes accepted over CAN with their restrictions (R377). -/
def Hw.canAccepts (h : Hw) (op : Nat) (d : Desc) : Bool :=
  if op = 0x0E01 || op = 0x0501 || op = 0x0502 || op = 0x0D04 then true
  else if op = 0x0201 then d.byte 16 == 2 || d.byte 16 == 3 || d.byte 16 == 0
  else if op = 0x0901 then d.byte 16 == 1
  else if op = 0x0B05 then d.num 16 2 == d.session.toNat
  else if op = 0x0801 then h.mode.mode == .baseCamp && d.byte 16 == 1
  else if op = 0x0803 then h.mode.mode == .baseCamp && (d.byte 16 == 0 || d.byte 16 == 1 || d.byte 16 == 2 || d.byte 16 == 3)
  else false

/-- Check 3 of R296 and its CAN form (R377, R379): the session is open, not closing, on the path that may use it; 0 is
the admin session on ring 0, and over CAN only for CAN_SESSION_OPEN. -/
def Hw.sessionOk (h : Hw) (op : Nat) (d : Desc) : Bool :=
  match d.path with
  | .ring n =>
    if d.session = 0 then n = 0
    else match h.session d.session.toNat with
      | some s => !s.viaCan && s.closing.isNone
      | none => false
  | .can =>
    if d.session = 0 then op = 0x0E01
    else match h.session d.session.toNat with
      | some s => s.viaCan && s.closing.isNone
      | none => false

/-- An authority as the chapters ask for it. -/
inductive Need where
  /-- The opcode's own checks answer whatever the session. -/
  | free
  | observe | operate | motion | workshop | motionOrWorkshop
  /-- Session 0 on ring 0 alone. -/
  | admin
  /-- The owning images alone, no session (R59). -/
  | images
  /-- The admin session, or OPERATE or higher (R335). -/
  | adminOrOperate
  /-- Accepted only over CAN (R379). -/
  | canOnly
  /-- SESSION_CLOSE: session 0, or the session it names (R313). -/
  | ownSession
  deriving DecidableEq, Repr

/-- Tests that need MOTION or WORKSHOP authority (R438). -/
def motionTests : List Nat := [0x0401, 0x0501, 0x0502, 0x0503, 0x0601, 0x0602, 0x0604, 0x0605]

/-- An entry of the history that a FAULT_ACK names (R360). -/
def ackMatches (code : W16) (src : Byte) (e : Entry) : Bool :=
  (code == 0xFFFF || e.code == code) && (src == 0xFF || e.source == src)

/-- A FAULT_ACK needs MOTION or WORKSHOP (R360). -/
def Hw.ackHigh (h : Hw) (code : W16) (src : Byte) : Bool :=
  h.flt.hist.any (fun e => ackMatches code src e && (e.cls == .belay || e.cls == .arrest)) || (code == 0xFFFF && h.flt.loss)

/-- The authority an opcode needs, by its payload where its chapter says so. The table of R59 ends at monitor 47; for the wake
monitors 48-51 the model asks for WORKSHOP, as for the other monitors that no OPERATE session may set (DESIGN CHOICE). -/
def Hw.need (h : Hw) (op : Nat) (d : Desc) : Need :=
  let b := (d.byte 16).toNat
  if op = 0x0201 then
    (if b = 3 then .motion else if b = 7 then .workshop else if b = 0 || b = 2 || b = 4 then .operate else .free)
  else if op = 0x0202 then
    (let t := d.num 16 2
     if t = 0x0305 then .workshop else if motionTests.contains t then .motionOrWorkshop else .operate)
  else if op = 0x0301 then (if 112 ≤ b && b ≤ 127 then .operate else if 80 ≤ b && b ≤ 111 then .images else .workshop)
  else if op = 0x0302 || op = 0x0303 then (if 44 ≤ b && b ≤ 47 then .operate else if 36 ≤ b && b ≤ 43 then .images else .workshop)
  else if op = 0x0304 then .workshop
  else if op = 0x0501 || op = 0x0502 || op = 0x0503 || op = 0x0902 then .motion
  else if op = 0x0504 then .motionOrWorkshop
  else if op = 0x0901 then (if d.byte 16 == 1 && d.byte 17 == 1 then .motion else .operate)
  else if op = 0x0A01 || op = 0x0C05 || op = 0x0D01 || op = 0x0D02 || op = 0x0D03 || op = 0x0D06 then .observe
  else if op = 0x0A02 || op = 0x0C08 || op = 0x0C09 || op = 0x0D05 then .workshop
  else if op = 0x0B01 || op = 0x0B02 || op = 0x0B03 || op = 0x0B04 || op = 0x0B06 then .admin
  else if op = 0x0B05 then .ownSession
  else if op = 0x0C04 then
    (let sub := (d.byte 17).toNat
     if sub = 1 then .free else if sub = 4 || sub = 5 || sub = 6 then .motionOrWorkshop
     else if sub = 0x0A then .workshop else .operate)
  else if op = 0x0C06 then .adminOrOperate
  else if op = 0x0C07 then (if b = 1 then .workshop else if b = 2 then .motionOrWorkshop else .operate)
  else if op = 0x0D04 then
    (if h.ackHigh (BitVec.ofNat 16 (d.num 16 2)) (d.byte 18) then .motionOrWorkshop else .operate)
  else if op = 0x0E01 then .canOnly
  else .operate

/-- The session's authority meets a need (R307); none is the admin session. -/
def needMet (n : Need) (a : Option Auth) (d : Desc) : Bool :=
  match n with
  | .free => true
  | .observe => true
  | .operate => a == some .operate || a == some .motion || a == some .workshop
  | .motion => a == some .motion
  | .workshop => a == some .workshop
  | .motionOrWorkshop => a == some .motion || a == some .workshop
  | .admin => a.isNone
  | .images => false
  | .adminOrOperate => a.isNone || a == some .operate || a == some .motion || a == some .workshop
  | .canOnly => d.path == .can
  | .ownSession => a.isNone || d.num 16 2 == d.session.toNat

/-- Every descriptor of the session but SESSION_CLOSE is refused (R274). -/
def Hw.blocked (h : Hw) (op : Nat) (d : Desc) : Bool :=
  match h.session d.session.toNat with
  | some s => s.blocked && op != 0x0B05
  | none => false

/-- Checks 3 and 4 of R296. -/
def Hw.authOk (h : Hw) (op : Nat) (d : Desc) : Bool :=
  h.sessionOk op d && (d.path != .can || h.canAccepts op d) && !h.blocked op d && needMet (h.need op d) (h.auth d) d

/-- SAFETY_TRAILER is to be set (R296, check 5): in a MOTION session with an opcode that needs MOTION there, and with
PARAM_WRITE, TEST_REQUEST and FAULT_ACK; with a CINCH_COMMIT as its members ask (R328). -/
def Hw.trailerDue (h : Hw) (op : Nat) (d : Desc) : Bool :=
  if op = 0x0C02 then (h.slots.get (d.byte 16).toNat {}).members.any (·.trailer)
  else h.auth d == some .motion &&
    (op = 0x0C04 || op = 0x0202 || op = 0x0D04 || h.need op d == .motion || h.need op d == .motionOrWorkshop)

/-! ## The safety trailer -/

/-- SAFETY_SOURCE_ID0-3 as configured (R288). -/
def Hw.sourceIds (h : Hw) : List W32 := [0x0A06, 0x0A07, 0x0A08, 0x0A09].map (fun i => BitVec.ofNat 32 (h.par i))

/-- A source identity is listed: not 0, and one of SAFETY_SOURCE_ID0-3. -/
def Hw.sourceListed (h : Hw) (x : W32) : Bool := x != 0 && h.sourceIds.contains x

/-- Distance from the last accepted sequence number, none before the first (R273). -/
def seqGap (s : Session) (d : Desc) : Option Nat := s.lastSeq.map (fun l => (d.seq - l).toNat)

/-- Ticks from the event that published the descriptor: the doorbell for a ring, none over CAN (R273). -/
def Hw.trailerAge (h : Hw) (d : Desc) : Nat :=
  match d.path with
  | .ring n => h.time.clock - (h.ring n).doorbellAt
  | .can => 0

/-- The age check of R273, in units of 10 us. -/
def ageOk (age elapsed : Nat) : Bool := age != 0 && elapsed ≤ age * 10 * usTicks

/-- The checks of R273; a CINCH_COMMIT's age is looked at on acceptance (R328). -/
def Hw.trailerOk (h : Hw) (op : Nat) (d : Desc) : Bool :=
  match h.session d.session.toNat with
  | none => false
  | some s =>
    crc32 polySafety (d.trailerBytes op s.binding) == d.crc && h.sourceListed d.source && d.source == s.source &&
    (match seqGap s d with
     | none => true
     | some g => 1 ≤ g && g ≤ h.par 0x0A05) &&
    (op == 0x0C02 || ageOk d.age (h.trailerAge d))

/-- A trailer is accepted: its number becomes the last one, and lost numbers are counted (R273, 0x091). -/
def Hw.acceptTrailer (h : Hw) (d : Desc) : Hw :=
  match h.session d.session.toNat with
  | none => h
  | some s =>
    let lost := match seqGap s d with | some g => g - 1 | none => 0
    (h.setSession d.session.toNat { s with lastSeq := some d.seq }).count 0x091 lost

/-- A SAFETY_PDU_FAIL counts (R274, 0x090); the third within 100 ms raises SAFETY_PDU_REPEAT and blocks the session. -/
def Hw.pduFail (h : Hw) (session : Nat) : Hw :=
  let h1 := h.count 0x090 1
  match h1.session session with
  | none => h1
  | some s =>
    let now := h.time.clock
    let fails := now :: (s.fails.filter (fun t => now < t + 100 * msTicks)).take 2
    if 3 ≤ fails.length && !s.blocked then
      (h1.setSession session { s with fails := fails, blocked := true }).raiseOnce fltSafetyPduRepeat 0xFF
    else h1.setSession session { s with fails := fails }

/-! ## The checks in order -/

/-- Checks 1 to 6 of R296 in their order: the first that fails, none where all pass. -/
def Hw.firstFailure (h : Hw) (op : Nat) (d : Desc) : Option Status :=
  if !layoutOk op d then some .range
  else if (opRow op).isNone then some .unknownOp
  else if !h.authOk op d then some .authDenied
  else if d.trailer != h.trailerDue op d then some .safetyPdu
  else if d.trailer && !h.trailerOk op d then some .safetyPdu
  else none

/-- Opcodes that the safety controller serves itself, which wait while the hold supervisor of R340 holds its outputs. -/
def safetyOps : List Nat := [0x0201, 0x0A01, 0x0A02, 0x0A03, 0x0B04, 0x0D04, 0x0D05, 0x0D06]

/-- The descriptor needs the safety controller, and a SAFE swap makes it wait (R340). -/
def Hw.heldBySwap (h : Hw) (op : Nat) (d : Desc) : Bool :=
  h.img.safeHold.isSome && (d.trailer || safetyOps.contains op || (op = 0x0C04 && d.byte 17 == 0x0A))

/-- A descriptor starts on its path: an enabled CMD or BULK ring with room for its completion and no fence in the way
(R294, R300, R302) while the link is up and P3 has its supply (R30), or the CAN path while the module is awake and
CAN_FB_CHANNEL names a channel (R377). -/
def Hw.canStart (h : Hw) (d : Desc) : Bool :=
  match d.path with
  | .ring n =>
    let r := h.ring n
    h.host.linkUp && h.powered 3 && (r.state == .enabled || r.resuming) && (r.type == 0 || r.type == 3) && r.buffer.length < 64 && !r.fenced && r.missed.isNone &&
      (!d.fence || r.outstanding.isEmpty)
  | .can => h.mode.phase == .up && h.powered 3 && h.fbChannel.isSome

/-- The descriptor is outstanding on its ring until it completes (R302). -/
def Hw.started (h : Hw) (d : Desc) : Hw :=
  match d.path with
  | .ring n =>
    h.setRing n { h.ring n with outstanding := (h.ring n).outstanding ++ [(d.tag, d.session.toNat)], fenced := d.fence
                                resuming := false }
  | .can => h

/-- A context is used (R311). -/
def Hw.touch (h : Hw) (d : Desc) : Hw :=
  match h.session d.session.toNat with
  | some s => h.setSession d.session.toNat { s with usedAt := h.time.clock }
  | none => h

/-- A descriptor whose checks 1 to 6 pass: its trailer is accepted, and it counts as a valid command (R48). -/
def Hw.admitted (h : Hw) (d : Desc) : Hw :=
  let h1 := (if d.trailer then h.acceptTrailer d else h).touch d
  { h1 with mode := { h1.mode with lastCommand := h1.time.clock } }

/-- A descriptor runs (R296): checked in order, refused with the first failure's status, else handed to `own`. -/
def Hw.checked (h : Hw) (op : Nat) (d : Desc) (own : Req → Hw → Hw) : Hw :=
  if !h.canStart d || h.heldBySwap op d then h
  else
    let h1 := h.started d
    match h1.firstFailure op d with
    | some .safetyPdu => (h1.pduFail d.session.toNat).complete d.req .safetyPdu
    | some st => h1.complete d.req st
    | none => own d.req (h1.admitted d)

end Sys2Proof.Machine
end

