-- ==== Sys2Proof/Machine/Align.lean ====
section
/-!
DEFINITION. Machine/Align.lean: PWM periods and control boundaries in module time, and the CONTROL_AB boundary with the
realignment of bridge B (R113, R152, R332, R334, R444).
-/
namespace Sys2Proof.Machine

/-- PWM period in ticks (R152): 2 x round(200 000 000 / f), halves up. -/
def pwmPeriod (f : Nat) : Nat := 2 * ((400000000 + f) / (2 * f))

/-- The nominal period of a bridge, at DCB_PWM_FREQ while DC boost runs on both bridges (R220, R334). -/
def Hw.nominalPeriod (h : Hw) (b : Bridge) : Nat :=
  match h.chg.dcb with
  | .off => pwmPeriod (h.par (perBridge 0x0601 b))
  | .matching => pwmPeriod (h.par (perBridge 0x0601 b))
  | .inletClosed => pwmPeriod (h.par (perBridge 0x0601 b))
  | .testing => pwmPeriod (h.par 0x080F)
  | .running => pwmPeriod (h.par 0x080F)
  | .ending => pwmPeriod (h.par 0x080F)
  | .checking => pwmPeriod (h.par 0x080F)

/-- Control boundaries of periods of the given lengths that follow one another (R113): each start, and the counter's peak with
two updates. -/
def boundariesOf (two : Bool) : Nat → List Nat → List Nat
  | _, [] => []
  | start, l :: t => (if two then [start, start + l / 2] else [start]) ++ boundariesOf two (start + l) t

/-- Lengths of the present period and the `n` after it: drawn and stretched ones where they are placed, nominal after. -/
def Hw.lengths (h : Hw) (b : Bridge) (n : Nat) : List Nat :=
  let g := h.gate b
  let next := match g.stretch with | some (_, l) => l :: g.plan.drop 1 | none => g.plan
  (h.ctl b).periodLen :: ((next ++ List.replicate n (h.nominalPeriod b)).take n)

/-- Control boundaries of a bridge from its present period on. -/
def Hw.boundaries (h : Hw) (b : Bridge) (periods : Nat) : List Nat :=
  boundariesOf (h.par (perBridge 0x0501 b) == 2) (h.ctl b).periodStart.toNat (h.lengths b (periods - 1))

/-- Random PWM draws this bridge's periods (R160): not in BASE_CAMP or CHARGE (R176), nor on an interleaved SECOND (R396). -/
def Hw.randomOn (h : Hw) (b : Bridge) : Bool :=
  h.par (perBridge 0x0603 b) != 0 && h.mode.mode != .baseCamp && h.mode.mode != .charge &&
  !(h.par 0x0F01 == 1 && !h.pair.lead && h.par 0x0F04 == 1)

/-- A drawn period (R160): uniform over the spread, an even number of ticks, within 8 to 48 kHz. -/
def drawLen (freq spread : Nat) (x : W16) : Nat :=
  let f := freq * (100 - spread) * 65535 + 2 * freq * spread * x.toNat
  max 8334 (min 50000 (2 * ((400000000 * 6553500 + f) / (2 * f))))

/-- Lengths of `n` periods drawn from the `k`-th draw on. -/
def Hw.drawMany (h : Hw) (b : Bridge) (k : Nat) : Nat → List Nat
  | 0 => []
  | n + 1 => drawLen (h.par (perBridge 0x0601 b)) (h.par (perBridge 0x0603 b)) (Config.lfsr (h.free + k)) :: Hw.drawMany h b (k + 1) n

/-- The periods of a bridge with random PWM are drawn as far as a boundary may lie (R444). -/
def Hw.planPeriods (h : Hw) (b : Bridge) : Hw :=
  if h.randomOn b then
    { h.modGate b (fun g => { g with plan := g.plan ++ h.drawMany b 0 (64 - g.plan.length) }) with free := h.free + 64 }
  else h

/-- The first common control boundary after `from'` and within 1 ms of it (R332). -/
def Hw.commonBoundary (h : Hw) (from' : Nat) : Option Nat :=
  let bs := h.boundaries .brB 64
  (h.boundaries .brA 64).find? (fun t => from' < t && t ≤ from' + msTicks && bs.contains t)

/-- The realigned boundary and the stretched period of B (R332): its start, its length. -/
def Hw.realigned (h : Hw) : Option (Nat × Nat) :=
  let e := h.ctlB.periodStart.toNat + h.ctlB.periodLen
  ((h.boundaries .brA 64).find? (fun t => e + h.nominalPeriod .brB ≤ t)).map (fun t => (e, t - e))

/-- The CONTROL_AB boundary is fixed and kept (R332, R444), `lead` ticks at least ahead. -/
def Hw.fixAB (h : Hw) (lead : Nat) : Hw :=
  match h.sh.fixedAB with
  | some _ => h
  | none =>
    let h := (h.planPeriods .brA).planPeriods .brB
    match h.commonBoundary (h.time.now.toNat + lead) with
    | some t => { h with sh := { h.sh with fixedAB := some (BitVec.ofNat 64 t) } }
    | none => match h.realigned with
      | some (e, l) =>
        { h with sh := { h.sh with fixedAB := some (BitVec.ofNat 64 (e + l)) }
                 gateB := { h.gateB with stretch := some (BitVec.ofNat 64 e, l) } }
      | none => h

/-- A monitor at a PWM period start of its time base (R79): a PERIOD flag ends, and sets again at once where the crossing is
still present, with CAPTURE and IRQ. -/
def Monitor.atPeriod (m : Monitor) (now : W64) : Monitor :=
  let again := m.present && m.mode != 0 && !m.dead
  let take := again && m.routes.getLsbD 1
  { m with flag := again, irq := m.irq || (again && m.routes.getLsbD 2), capTime := if take then now else m.capTime
           capPwm := if take then 0 else m.capPwm }

/-- A PWM period starts on a time base: monitors that latch by PERIOD look at their crossing anew (R79), and the windows of
time bases 2-5 have their edge (R60). -/
def Hw.periodLatch (h : Hw) (base : Nat) : Hw :=
  let old := h.sen.starts.get base (0, 0)
  { h with sen := { h.sen with
    mons := h.sen.mons.mapv (fun _ m => if m.period && m.base = base then m.atPeriod h.time.now else m)
    starts := if 2 ≤ base then h.sen.starts.set base (h.time.now, h.time.now.toNat - old.1.toNat) else h.sen.starts } }

/-- Both bridges have a control boundary at the present module time (R120, R332). -/
def Hw.atAB (h : Hw) : Bool := h.ctlA.boundary == some h.time.now && h.ctlB.boundary == some h.time.now

end Sys2Proof.Machine
end

