-- ==== Sys2Proof/Machine/Params.lean ====
section
/-!
DEFINITION. Machine/Params.lean: ranges, relations, effect and reading of parameters (R103, R321-R323, R366, R441).
-/
namespace Sys2Proof.Machine

/-- A value of `n` bytes lies in a range; `is48` names the variant (R1). -/
def PRange.holds (r : PRange) (is48 : Bool) (bytes : Nat) (signed : Bool) (v : Nat) : Bool :=
  let x : Int := if signed then asInt bytes v else (v : Int)
  match r with
  | .any => true
  | .between lo hi => lo ≤ x && x ≤ hi
  | .zeroOr lo hi => x == 0 || (lo ≤ x && x ≤ hi)
  | .oneOf vs => vs.contains x
  | .fields fs =>
    fs.all (fun f => let y := v / 2 ^ f.1 % 2 ^ f.2.1
                     f.2.2.1 ≤ y && y ≤ f.2.2.2) &&
    v == fs.foldl (fun a f => a + v / 2 ^ f.1 % 2 ^ f.2.1 * 2 ^ f.1) 0
  | .variant l12 h12 l48 h48 => if is48 then l48 ≤ x && x ≤ h48 else l12 ≤ x && x ≤ h12
  | .wakeFrame =>
    v / 2 ^ 30 % 4 == 0 && v / 2 ^ 34 == 0 && (v / 2 ^ 29 % 2 == 1 || decide (v % 2 ^ 29 ≤ 0x7FF))
  | .band => let lo := v % 256
             let hi := v / 256
             5 ≤ lo && lo ≤ 50 && 5 ≤ hi && hi ≤ 50 && lo < hi
  | .window =>
    let t (i : Nat) : Int := asInt 2 (v / 2 ^ (16 * i) % 2 ^ 16)
    (-4000 : Int) ≤ t 0 && t 0 < t 1 && t 1 < t 2 && t 2 < t 3 && t 3 ≤ 8000
  | .island =>
    let volts := v % 2 ^ 16
    let freq := v / 2 ^ 16
    100 ≤ volts && volts ≤ 240 && (freq == 50 || freq == 60)
  | .bitrate => v / 2 ^ 48 == 0

/-- A number of kb/s has a bit time of whole CK11 periods of 12.5 ns: it divides 80 Mb/s (R366). -/
def wholeBits (kbps : Nat) : Bool := kbps != 0 && 80000 % kbps == 0

/-- CAN_BITRATE suits CAN_FORMAT (R366). -/
def bitrateOk (rate fmt : Nat) : Bool :=
  let arb := rate % 2 ^ 16
  let fd := rate / 2 ^ 16 % 2 ^ 16
  let xl := rate / 2 ^ 32 % 2 ^ 16
  let arbOk := arb == 125 || arb == 250 || arb == 500 || arb == 1000
  let fdOk := fd == 0 || (5 ≤ fd && fd ≤ 80 && wholeBits (100 * fd))
  let xlOk := (xl == 0 && 20 ≤ fd && fd ≤ 80) || (20 ≤ xl && xl ≤ 200 && wholeBits (100 * xl))
  if fmt = 0 then true
  else if fmt = 1 then arbOk && fd == 0 && xl == 0
  else if fmt = 2 then arbOk && fdOk && xl == 0
  else arbOk && fdOk && xlOk

/-- ENCOUT_RATIO suits its source (R103). -/
def ratioOk (src ratio lines0 lines1 : Nat) : Bool :=
  let n := ratio % 2 ^ 16
  let m := ratio / 2 ^ 16
  let base := if src = 3 then lines0 else if src = 4 then lines1 else 4096
  src == 0 || (m != 0 && base * n % m == 0 && base * n / m ≤ 65535 && (src < 3 || n ≤ m))

/-- The relations of R441, and of R87, that a parameter belongs to hold for the values `get` gives. -/
def relationsOk (get : Nat → Nat) (id : Nat) : Bool :=
  if id = 0x0804 || id = 0x0805 then get 0x0805 < get 0x0804
  else if id = 0x0401 || id = 0x0402 then get 0x0401 != get 0x0402
  else if 0x0E01 ≤ id && id ≤ 0x0E08 then
    (let ch := (id - 0x0E01) % 4
     bitrateOk (get (0x0E01 + ch)) (get (0x0E05 + ch)))
  else if id = 0x0420 || id = 0x0422 then ratioOk (get 0x0420) (get 0x0422) (get 0x040F) (get 0x0410)
  else if id = 0x0421 || id = 0x0423 then ratioOk (get 0x0421) (get 0x0423) (get 0x040F) (get 0x0410)
  else if id = 0x040F || id = 0x0410 then
    ratioOk (get 0x0420) (get 0x0422) (get 0x040F) (get 0x0410) &&
    ratioOk (get 0x0421) (get 0x0423) (get 0x040F) (get 0x0410)
  else true

/-- The value that stands for a relation (R441): staged where one waits for a mode edge, else active. -/
def Hw.standing (h : Hw) (id : Nat) : Nat := (h.prm.staged.find id).getD (h.par id)

/-- The relations with one value replaced. -/
def Hw.relationOk (h : Hw) (id v : Nat) : Bool := relationsOk (fun j => if j = id then v else h.standing j) id

/-- A value fits its row: unused bytes 0 and within its own range (R321). -/
def Hw.fits (h : Hw) (r : PRow) (v : Nat) : Bool := v < 2 ^ (8 * r.bytes) && r.range.holds h.otp.ident.is48 r.bytes r.signed v

/-- The own checks of a PARAM_WRITE (R321, R269, R388): none where it passes. `member`: inside a cinch, where only the
parameter's own range is checked (R441). -/
def Hw.paramCheck (h : Hw) (d : Desc) (member : Bool) : Option Status :=
  let id := d.paramId
  match paramRow id with
  | none => some .range
  | some r =>
    if id / 256 = 1 || !h.fits r d.paramValue then some .range
    else if id / 256 = 0x0A then
      (if member then some .range else if h.mode.mode == .workshop then none else some .modeDenied)
    else if member then none
    else if r.cls == .atTime || !h.relationOk id d.paramValue then some .range
    else none

/-- A write waiting for a boundary: an earlier one to the same parameter completes SUPERSEDED (R322). -/
def Hw.paramWait (h : Hw) (id v : Nat) (q : Option Req) : Hw :=
  let old := h.prm.waiting.filter (fun w => w.id == id)
  let rest := h.prm.waiting.filter (fun w => w.id != id)
  Hw.completeAll (old.filterMap (·.req)) .superseded
    { h with prm := { h.prm with waiting := rest ++ [{ id := id, value := v, req := q }] } }

/-- A write to the pending safety set (R269): the confirmation is removed. -/
def Hw.safetyWrite (h : Hw) (id v : Nat) : Hw :=
  let set := h.saf.pending.getD h.activeSet
  { h with saf := { h.saf with pending := some (set.set id v), confirmed := false
                               written := if h.saf.written.contains id then h.saf.written else h.saf.written ++ [id] } }

/-- A parameter written outside a cinch takes effect by its class (R322). -/
def Hw.paramWrite (h : Hw) (id v : Nat) (cls : PCls) (q : Req) : Hw :=
  if id / 256 = 0x0A then (h.safetyWrite id v).complete q .done
  else match cls with
    | .immediate => (h.putPar id v).complete q .done
    | .modeEdge => ({ h with prm := { h.prm with staged := h.prm.staged.set id v } } : Hw).complete q .done
    | .controlA => h.paramWait id v (some q)
    | .controlB => h.paramWait id v (some q)
    | .controlAB => (h.paramWait id v (some q)).fixAB 0
    | .pwmA => h.paramWait id v (some q)
    | .pwmB => h.paramWait id v (some q)
    | .atTime => h.complete q .range

/-- Waiting writes of the given classes take effect and complete with this boundary (R322). -/
def Hw.applyWaiting (h : Hw) (cs : List PCls) : Hw :=
  let due (w : PendWrite) : Bool := match paramRow w.id with | some r => cs.contains r.cls | none => false
  let now := h.prm.waiting.filter due
  let h1 : Hw := { h with prm := { h.prm with waiting := h.prm.waiting.filter (fun w => !due w) } }
  now.foldl (fun x w => (x.putPar w.id w.value).completeOpt w.req .done) h1

/-- The 24-byte result block of PARAM_READ (R323). -/
def Hw.paramBlock (h : Hw) (id : Nat) : List Byte :=
  let pending : Option Nat :=
    if id / 256 = 0x0A then (h.saf.pending.map (fun s => s.get id (h.par id))) else h.prm.staged.find id
  leBytes 8 (h.par id) ++ leBytes 8 (pending.getD 0) ++ leBytes 4 (h.prm.versions.get id 0) ++
    [BitVec.ofNat 8 ((if pending.isSome then 1 else 0) + (if h.unset id then 2 else 0)), 0, 0, 0]

end Sys2Proof.Machine
end

