-- ==== Sys2Proof/Machine/Setpoint.lean ====
section
/-!
DEFINITION. Machine/Setpoint.lean: setpoints of the bridges as they are received (R11, R37, R116, R120, R121, R140), motor
tables (R121-R123) and resolver tables (R94) as they are loaded.
-/
namespace Sys2Proof.Machine

/-! ## Motor data -/

/-- The parameters of the motor data set are there (R121). MAG_ALPHA, for which R121 names CONFIG and the table of R150 gives
-1100, is taken by the table and asked for nowhere (DESIGN CHOICE). -/
def Hw.motorParams (h : Hw) (b : Bridge) : Bool :=
  !h.unset (perBridge 0x051F b) && !h.unset (perBridge 0x0521 b) && !h.unset (perBridge 0x052A b)

/-- The bridge has an active motor data set (R121); creep in BASE_CAMP uses the parameters alone (R45, R148). -/
def Hw.hasMotorData (h : Hw) (b : Bridge) : Bool :=
  h.motorParams b && (h.mode.mode == .baseCamp || ((h.ctl b).mtpa.isSome && (h.ctl b).flux.isSome))

/-- A pair of signed 16-bit numbers from four bytes. -/
def pairAt (l : List Byte) : Int × Int := (asInt 2 (field l 0 2), asInt 2 (field l 2 2))

/-- The entries of a table, as a flat list of signed numbers; `fuel` is their count. -/
def signedWords : Nat → List Byte → List Int
  | 0, _ => []
  | n + 1, l => asInt 2 (field l 0 2) :: signedWords n (l.drop 2)

/-- Entry (i, j) of a square table of `w` columns. -/
def tableEntry (t : MotorTable) (w i j : Nat) : Int × Int :=
  (t.entries.getD (2 * (w * i + j)) 0, t.entries.getD (2 * (w * i + j) + 1) 0)

/-- An entry that marks a torque out of reach (R121). -/
def markedEntry (e : Int × Int) : Bool := e.1 == -32768

/-- A column of an MTPA table is well formed (R122): row 0 unmarked, marked rows one run to the top, no unmarked entry
beyond a current vector of 1100 A. -/
def columnOk (t : MotorTable) (j : Nat) : Bool :=
  let col := (List.range 64).map (fun i => tableEntry t 64 i j)
  let rest := col.dropWhile (fun e => !markedEntry e)
  (match col with | [] => false | e :: _ => !markedEntry e) && rest.all markedEntry &&
  col.all (fun e => markedEntry e || e.1 * e.1 + e.2 * e.2 ≤ 484000000)

/-- A table image as it decodes: kind and bridge with the table, none where R122 rejects it. -/
def motorImage (l : List Byte) : Option (Bridge × MotorTable) :=
  let kind := field l 0 2
  let bytes := field l 20 4
  let count := if kind = 1 then 8192 else 2048
  let t : MotorTable :=
    { flux := kind == 2, lim1 := asInt 4 (field l 4 4), lim2 := asInt 4 (field l 8 4), lim3 := asInt 4 (field l 12 4),
      mapTemp := asInt 2 (field l 16 2), entries := signedWords count (l.drop 32) }
  match Bridge.ofByte (field l 2 1) with
  | none => none
  | some b =>
    let head := field l 3 1 == 1 && field l 18 2 == 0 && field l 24 4 == 0 &&
      (if kind = 1 then bytes == 16384 && 0 < t.lim1 && 0 ≤ t.lim2 && t.lim2 < t.lim3 && field l 16 2 == 0
       else kind == 2 && bytes == 4096 && t.lim1 < 0 && 0 < t.lim2 && t.lim3 == 0)
    if head && l.length == 32 + bytes &&
       (crc32 polyC (slice l 0 28 ++ l.drop 32)).toNat == field l 28 4 &&
       (kind == 2 || (List.range 64).all (columnOk t)) then some (b, t) else none

/-- The host address of a descriptor's buffer is a multiple of `n`. -/
def alignedTo (addr n : Nat) : Bool := addr % n == 0

/-- A table load outside its modes (R123): in DRIVE or BELAY only as a cinch member; in BIVOUAC nothing is accepted. R123 names
ARREST in neither of its rows: the model takes the load there as in READY (DESIGN CHOICE). -/
def Mode.bridgeLive : Mode → Bool
  | .drive => true | .belay => true | .bivouac => false | .baseCamp => false | .ready => false | .charge => false
  | .arrest => false | .workshop => false

/-- The own checks of MOTOR_MAP_LOAD (R121-R123), with the table where they pass. -/
def Hw.mapCheck (h : Hw) (d : Desc) (member : Bool) : Status ⊕ (Bridge × MotorTable) :=
  if !alignedTo (d.num 16 8) 8 then .inl .range
  else if h.mode.mode.bridgeLive && !member then .inl .modeDenied
  else if d.dma.length < d.num 24 4 then .inl .range
  else match motorImage (d.dma.take (d.num 24 4)) with
    | none => .inl .range
    | some t => .inr t

/-- A table that R122 rejects raises TRQ_MOTOR_DATA, naming the bridge of its header where there is one. -/
def Hw.mapReject (h : Hw) (d : Desc) (st : Status) : Hw :=
  if st == .range && alignedTo (d.num 16 8) 8 then
    h.occur fltTrqMotorData (match Bridge.ofByte (field d.dma 2 1) with | some b => BitVec.ofNat 8 b.code | none => 0xFF)
  else h

/-- A table becomes active (R123): its slot's version advances (R323). -/
def Ctl.activateMap (c : Ctl) (t : MotorTable) : Ctl :=
  if t.flux then { c with flux := some t, fluxVersion := (c.fluxVersion + 1) % 2 ^ 32, fluxNext := none }
  else { c with mtpa := some t, mtpaVersion := (c.mtpaVersion + 1) % 2 ^ 32, mtpaNext := none }

/-- A table waits for the next control boundary of its bridge (R123). -/
def Ctl.stageMap (c : Ctl) (t : MotorTable) (q : Req) : Ctl :=
  if t.flux then { c with fluxNext := some t, mapReqs := c.mapReqs ++ [q] }
  else { c with mtpaNext := some t, mapReqs := c.mapReqs ++ [q] }

/-! ## Resolver tables -/

/-- The bridge a position interface serves, by its POS_SOURCE code (R87). -/
def Hw.servedBy (h : Hw) (src : Nat) : Option Bridge :=
  if h.par 0x0401 = src then some .brA else if h.par 0x0402 = src then some .brB else none

/-- A resolver by number. -/
def Hw.res (h : Hw) (n : Nat) : Resolver := if n = 0 then h.pos.res0 else h.pos.res1

/-- A resolver changed by `f`. -/
def Hw.modRes (h : Hw) (n : Nat) (f : Resolver → Resolver) : Hw :=
  if n = 0 then { h with pos := { h.pos with res0 := f h.pos.res0 } } else { h with pos := { h.pos with res1 := f h.pos.res1 } }

/-- An encoder by number. -/
def Hw.enc (h : Hw) (n : Nat) : Encoder := if n = 0 then h.pos.enc0 else h.pos.enc1

/-- An encoder changed by `f`. -/
def Hw.modEnc (h : Hw) (n : Nat) (f : Encoder → Encoder) : Hw :=
  if n = 0 then { h with pos := { h.pos with enc0 := f h.pos.enc0 } } else { h with pos := { h.pos with enc1 := f h.pos.enc1 } }

/-- The own checks of POS_HARM_LOAD (R94). -/
def Hw.harmCheck (h : Hw) (d : Desc) (member : Bool) : Option Status :=
  let r := d.num 16 1
  if 1 < r || 1 < d.num 17 1 then some .range
  else if (h.servedBy (0x10 + r)).isSome && h.mode.mode.bridgeLive && !member then some .modeDenied
  else none

/-- A half of a table is loaded and waits for the other. -/
def Resolver.loadHalf (r : Resolver) (high : Bool) (c : BitVec 256) : Resolver :=
  { r with next := if high then { r.next with high := some c } else { r.next with low := some c } }

/-- Both halves of the waiting table are there. -/
def HarmTable.complete (t : HarmTable) : Bool := t.low.isSome && t.high.isSome

/-- A whole waiting table takes effect, and its version advances (R94, R323). -/
def Resolver.activate (r : Resolver) : Resolver :=
  if r.next.complete then { r with table := r.next, next := {}, version := (r.version + 1) % 2 ^ 32 } else r

/-- A waiting whole table of resolver `n` takes effect and its loads complete. -/
def Hw.harmActivate (h : Hw) (n : Nat) : Hw :=
  let r := h.res n
  if r.next.complete then
    Hw.completeAll r.reqs .done (h.modRes n (fun r => { r.activate with reqs := [] }))
  else h

/-! ## Setpoints -/

/-- The setpoint of a TORQUE_SET (R116). -/
def torqueSp (d : Desc) : Setpoint :=
  { speed := false, value := d.int 20 4, ramp := d.num 24 4, fwd := d.int 28 4, rev := d.int 32 4,
    session := d.session.toNat, pair := none, viaCan := d.path == .can }

/-- The setpoint of a SPEED_SET (R119). -/
def speedSp (d : Desc) : Setpoint :=
  { speed := true, value := d.int 20 4, ramp := d.num 24 4, fwd := d.int 28 4, rev := d.int 32 4,
    session := d.session.toNat, pair := none, viaCan := d.path == .can }

/-- The two setpoints of a TORQUE_PAIR (R120). -/
def pairSp (d : Desc) : Setpoint × Setpoint :=
  let sp (v o : Int) : Setpoint :=
    { speed := false, value := v, ramp := d.num 28 4, fwd := 0, rev := 0, session := d.session.toNat,
      pair := some (d.num 16 1, o), viaCan := d.path == .can }
  (sp (d.int 20 4) (d.int 24 4), sp (d.int 24 4) (d.int 20 4))

/-- DC boost runs (R18). -/
def Hw.boosting (h : Hw) : Bool := h.chg.dcb != .off

/-- The mode gives torque service to a new setpoint: a mode of torque service, or during a transition a target mode that
is one (R37). -/
def Hw.torqueMode (h : Hw) : Bool :=
  match h.mode.granted with
  | none => h.mode.mode.torque
  | some g => g.target.torque

/-- PAIR_MODE 1: the module is one of a rope team (R388). -/
def Hw.roped (h : Hw) : Bool := h.par 0x0F01 == 1

/-- The own checks of TORQUE_SET and SPEED_SET (R116, R118, R393): the bridge where they pass. -/
def Hw.setpointCheck (h : Hw) (speed : Bool) (d : Desc) : Status ⊕ Bridge :=
  match Bridge.ofByte (d.num 16 1) with
  | none => .inl .range
  | some b =>
    if (!speed && 1000000 < d.num 24 4) || d.int 28 4 < 0 || d.int 32 4 < 0 then .inl .range
    else if !h.torqueMode || h.boosting || !h.hasMotorData b then .inl .modeDenied
    else if speed && h.roped && !h.pair.lead then .inl .modeDenied
    else .inr b

/-- The bridge is in torque service: its regulator runs. -/
def BState.inService : BState → Bool
  | .runTorque => true | .runSpeed => true | .openAll => false | .ascLow => false | .ascHigh => false | .sync => false
  | .shiftSync => false | .ident => false

/-- The bridge named in SHIFT_BRIDGE (R255). -/
def Hw.shiftBridge (h : Hw) : Bridge := if h.par 0x0919 = 1 then .brB else .brA

/-- The actuator tile holds the bridge's torque or speed reference (R140, R251). -/
def Hw.shiftHolds (h : Hw) (b : Bridge) : Bool := h.act.gear.step != .none && b == h.shiftBridge

/-- The own checks of TORQUE_PAIR (R116, R120). One for a bridge in a shift is held (R140), whatever the bridge does just then. -/
def Hw.pairCheck (h : Hw) (d : Desc) : Option Status :=
  if 2 < d.num 16 1 || 1000000 < d.num 28 4 then some .range
  else if !h.torqueMode || h.boosting || !h.hasMotorData .brA || !h.hasMotorData .brB then some .modeDenied
  else if h.shiftHolds .brA || h.shiftHolds .brB then none
  else if !h.ctlA.state.inService || !h.ctlB.state.inService then some .modeDenied
  else none

/-- A setpoint renews the bridge's service (R117): TRQ_SETPOINT_STALE ends. -/
def Hw.renew (h : Hw) (b : Bridge) : Hw :=
  (h.modCtl b (fun c => { c with renewedAt := h.time.clock, stale := false })).clearFault fltTrqSetpointStale.code
    (BitVec.ofNat 8 b.code)

/-- A setpoint held until the mode edge or the end of the shift (R37, R140): an earlier one completes SUPERSEDED, a held pair
too. -/
def Hw.holdSetpoint (h : Hw) (b : Bridge) (p : SetReq) : Hw :=
  let old := (h.ctl b).held
  ((h.modCtl b (fun c => { c with held := some p })).completeOpt (old.bind (·.req)) .superseded).endHeldPair .superseded

/-- What is held for a bridge is superseded. -/
def Hw.supersedeHeld (h : Hw) (b : Bridge) : Hw :=
  (h.modCtl b (fun c => { c with held := none })).completeOpt ((h.ctl b).held.bind (·.req)) .superseded

/-- A TORQUE_PAIR held until the mode edge or the end of the shift (R37, R140). -/
def Hw.holdPair (h : Hw) (p : Setpoint × Setpoint × Option Req) : Hw :=
  let h1 := ((h.endHeldPair .superseded).supersedeHeld .brA).supersedeHeld .brB
  { h1 with sh := { h1.sh with held := some p } }

/-- A setpoint stored while a safe pattern holds, or a start runs (R11): it completes DONE. -/
def Hw.storeSetpoint (h : Hw) (b : Bridge) (p : SetReq) : Hw :=
  (h.modCtl b (fun c => { c with stored := some { p with req := none } })).completeOpt p.req .done

/-- A pair that waits for its boundary is superseded by a later setpoint for one of its bridges (R116). -/
def Hw.pendSetpoint (h : Hw) (b : Bridge) (p : SetReq) : Hw :=
  let old := (h.ctl b).pending
  ((h.modCtl b (fun c => { c with pending := some p })).completeOpt (old.bind (·.req)) .superseded).endPair .superseded

/-- A setpoint received outside a cinch (R11, R37, R116, R140). -/
def Hw.acceptSetpoint (h : Hw) (b : Bridge) (p : SetReq) : Hw :=
  let h1 := h.renew b
  let c := h1.ctl b
  if h1.mode.granted.isSome || h1.shiftHolds b then h1.holdSetpoint b p
  else if c.state.safe || c.state == .sync then h1.storeSetpoint b p
  else h1.pendSetpoint b p

/-- A TORQUE_PAIR waits for the CONTROL_AB boundary (R120): one that waits already is superseded. -/
def Hw.pendPair (h : Hw) (p : Setpoint × Setpoint × Option Req) : Hw :=
  let h1 := h.endPair .superseded
  ({ h1 with sh := { h1.sh with pair := some p } } : Hw).fixAB 0

/-- A TORQUE_PAIR received outside a cinch (R37, R120, R140). -/
def Hw.acceptPair (h : Hw) (d : Desc) (q : Req) : Hw :=
  let p := pairSp d
  let h1 := (h.renew .brA).renew .brB
  if h1.mode.granted.isSome || h1.shiftHolds .brA || h1.shiftHolds .brB then h1.holdPair (p.1, p.2, some q)
  else h1.pendPair (p.1, p.2, some q)

/-- A held TORQUE_PAIR waits for its boundary again once nothing holds it (R37, R140). -/
def Hw.freePair (h : Hw) : Hw :=
  match h.sh.held with
  | none => h
  | some p => ({ h with sh := { h.sh with held := none } } : Hw).pendPair p

/-- A setpoint becomes the target of its bridge, ramped from the present torque (R116, R117). -/
def Ctl.retarget (c : Ctl) (sp : Setpoint) : Ctl :=
  { c with target := some sp, draining := false, reentry := false, ramped := c.applied
           state := if sp.speed then .runSpeed else .runTorque
           speedRef := if sp.speed then c.speed else c.speedRef }

/-- A cinch member's setpoint takes effect (R326, R330, R140): stored in a safe pattern, held in a shift, else the target; a setpoint outside
the cinch that waits for the same boundary completes SUPERSEDED. -/
def Hw.applySetpoint (h : Hw) (b : Bridge) (sp : Setpoint) : Hw :=
  let h1 := h.renew b
  let c := h1.ctl b
  if c.state.safe || c.state == .sync then h1.storeSetpoint b { sp := sp, req := none }
  else if h1.shiftHolds b then h1.holdSetpoint b { sp := sp, req := none }
  else
    (h1.modCtl b (fun c => { c.retarget sp with pending := none })).completeOpt (c.pending.bind (·.req)) .superseded

end Sys2Proof.Machine
end

