-- ==== Sys2Proof/Machine/Snapshot.lean ====
section
/-!
DEFINITION. Machine/Snapshot.lean: thermal-cycle counting (R352), and the copying and posting of snapshots (R353-R355).
-/
namespace Sys2Proof.Machine

/-! ## Thermal cycles (R352) -/

/-- The bin of a swing in 0.01 K, none below 10 K. -/
def swingBin (x : Int) : Option Nat :=
  let s := absI x
  if s < 1000 then none else if s < 2000 then some 0 else if s < 3000 then some 1 else if s < 4000 then some 2
  else if s < 5000 then some 3 else if s < 6500 then some 4 else if s < 8000 then some 5 else if s < 10000 then some 6
  else some 7

/-- A swing of a die counts `n` in its bin. -/
def Hw.countSwing (h : Hw) (die : Nat) (x : Int) (n : Nat) : Hw :=
  match swingBin x with
  | some b => h.count (0x100 + 8 * die + b) n
  | none => h

/-- Half cycles still open, newest first, each count 1. -/
def Hw.countOpen (die : Nat) : List Int → Hw → Hw
  | [], h => h
  | [_], h => h
  | a :: b :: t, h => Hw.countOpen die (b :: t) (h.countSwing die (a - b) 1)

/-- Every open half cycle of every die is counted (R352). -/
def Hw.closeHalfCycles (h : Hw) : Hw :=
  { h.cnt.rain.foldl (fun x p => Hw.countOpen p.1 p.2 x) h with
    cnt := { (h.cnt.rain.foldl (fun x p => Hw.countOpen p.1 p.2 x) h).cnt with rain := [] } }

/-- Reversals, newest first, with a closed inner swing taken out: the two newest ranges, the inner no larger than the
outer. Answers the rest and the closed swing. -/
def closeSwing : List Int → Option (List Int × Int)
  | a :: b :: c :: t => if absI (b - c) ≤ absI (a - b) && !t.isEmpty then some (a :: t, b - c) else none
  | _ => none

/-- Closed swings add 2 each until none is left; `fuel` bounds the walk. -/
def Hw.closeSwings (die : Nat) : Nat → List Int → Hw → Hw
  | 0, l, h => { h with cnt := { h.cnt with rain := h.cnt.rain.set die l } }
  | n + 1, l, h =>
    match closeSwing l with
    | some (l', x) => Hw.closeSwings die n l' (h.countSwing die x 2)
    | none => { h with cnt := { h.cnt with rain := h.cnt.rain.set die l } }

/-- A new temperature of a die: it extends the running swing, starts a reversal, or, within 2 K of the last point, is
discarded. -/
def turn (l : List Int) (t : Int) : List Int :=
  match l with
  | [] => [t]
  | [a] => if absI (t - a) < 200 then [a] else [t, a]
  | a :: b :: r =>
    if (b < a && a ≤ t) || (a < b && t ≤ a) then t :: b :: r
    else if absI (t - a) < 200 then a :: b :: r
    else t :: a :: b :: r

/-- A die's temperature is counted by rainflow. -/
def Hw.rainflow (h : Hw) (die : Nat) (t : Int) : Hw :=
  let l := turn (h.cnt.rain.get die []) t
  Hw.closeSwings die l.length l h

/-! ## Snapshots (R353-R355) -/

/-- The body of a counter record (R354): epoch, range, values. -/
def counterBody (epoch : W32) (first n : Nat) (unsynced : Bool) (vals : Tab Nat) : List Byte :=
  leBytes 4 epoch.toNat ++ leBytes 2 (first + n * 1024 + (if unsynced then 8192 else 0)) ++
    (List.range n).flatMap (fun k => leBytes 6 (vals.get (first + k) 0))

/-- Record `k` of a bank: seven counters, two in the last. -/
def bankRecord (epoch : W32) (k : Nat) (unsynced : Bool) (bank : Tab Nat) : List Byte :=
  counterBody epoch (7 * k) (if k = 146 then 2 else 7) unsynced bank

/-- Records a TLM ring takes now, into its queue and its buffer of 64 (R300, R305). -/
def Hw.tlmSpace (h : Hw) (n : Nat) : Nat :=
  let r := h.ring n
  (if h.host.linkUp && r.buffer.isEmpty then 2 ^ r.size - r.posted else 0) + (64 - r.buffer.length)

/-- Some of the 147 records of a bank are posted, with the instant as their module time (R354). -/
def Hw.postBank (h : Hw) (s : Snap) (unsynced : Bool) (bank : Tab Nat) (count : Nat) : Hw :=
  (List.range count).foldl (fun x k => x.postTlm s.ring 0x0D02 s.at' (bankRecord s.epoch (s.next + k) unsynced bank))
    { h with cnt := { h.cnt with snap := some { s with next := s.next + count } } }

/-- A pending snapshot goes on (R354): its records are posted as the ring takes them, and 500 us after the instant all that
are left, subject to R305. -/
def Hw.postSnap (h : Hw) : Hw :=
  match h.cnt.snap with
  | none => h
  | some s =>
    match s.bank with
    | none => h
    | some (bank, unsynced) =>
      let left := 147 - s.next
      let late := decide (s.at'.toNat + 500 * usTicks ≤ h.time.now.toNat)
      h.postBank s unsynced bank (if late then left else min left (h.tlmSpace s.ring))

/-- A record of a snapshot. -/
def Waiting.ofBank : Waiting → Bool
  | .record ty _ _ _ _ => ty == 0x0D02
  | .completion _ _ _ => false

/-- A snapshot is pending until its last record is posted; then its SNAPSHOT completes, with the instant as its module time
(R354). -/
def Hw.settleSnap (h : Hw) : Hw :=
  match h.cnt.snap with
  | none => h
  | some s =>
    if s.bank.isSome && s.next == 147 && !(h.ring s.ring).buffer.any Waiting.ofBank then
      let h1 : Hw := { h with cnt := { h.cnt with snap := none } }
      match s.req with
      | some q => h1.completeAt q .done s.at'
      | none => h1
    else h

/-- A pending snapshot ends ABORTED (R355). -/
def Hw.abortSnap (h : Hw) : Hw :=
  match h.cnt.snap with
  | none => h
  | some s => ({ h with cnt := { h.cnt with snap := none } } : Hw).completeOpt s.req .aborted

/-- An ENABLED TLM ring. -/
def Hw.tlmRing (h : Hw) (n : Nat) : Bool := 1 ≤ n && n ≤ 63 && (h.ring n).type == 2 && (h.ring n).state == .enabled

/-- The final snapshot of the drain to BIVOUAC (R355): open half cycles first, then the bank with epoch 0xFFFF_FFFF. -/
def Hw.finalSnapshot (h : Hw) : Hw :=
  let h1 := h.abortSnap.closeHalfCycles
  let n := h1.par 0x0D01
  let s : Snap := { ring := n, epoch := 0xFFFFFFFF, at' := h1.time.now, req := none
                    bank := some (h1.cnt.vals, !h1.time.synced) }
  if h1.tlmRing n then ({ h1 with cnt := { h1.cnt with snap := some s } } : Hw).postSnap.settleSnap else h1

end Sys2Proof.Machine
end

