-- ==== Sys2Proof/Machine/Grant.lean ====
section
/-!
DEFINITION. Machine/Grant.lean: what a MODE_REQUEST is granted on (R34-R39, R52, R205, R263, R284, R388), and the drains that a
granted transition starts and waits for (R50, R36).
-/
namespace Sys2Proof.Machine

/-! ## Charging conditions (R205, R206) -/

/-- A profile phase's values are in range (R206, R226): CC has no voltage field, TERMINATION may have voltage 0 and has no
current field. -/
def profOk (is48 : Bool) (target phase : Nat) (volts amps : Int) (timer : Nat) : Bool :=
  let range := if target = 0 then 250000 ≤ volts && volts ≤ 950000
    else if is48 then 24000 ≤ volts && volts ≤ 58000 else 8000 ≤ volts && volts ≤ 16000
  (if phase = 3 then volts == 0 else if phase = 5 then volts == 0 || range else range) &&
  (if phase = 5 then amps == 0 else 0 ≤ amps) && 60 ≤ timer && timer ≤ 172800

/-- A phase of a profile: as written in this wake, else as CONFIG holds it (R206). -/
def Hw.profPhase (h : Hw) (target phase : Nat) : Option ProfPhase :=
  match h.chg.prof.find (8 * target + phase) with
  | some p => some p
  | none =>
    if h.otp.config.isEmpty then none
    else (Config.profileEntry h.otp.config target phase).map (fun p => { volts := p.1, amps := p.2.1, timer := p.2.2 })

/-- A valid profile (R205). -/
def Hw.profileValid (h : Hw) (target : Nat) : Bool :=
  let is48 := h.otp.ident.is48
  let ok (k : Nat) (p : ProfPhase) : Bool := profOk is48 target k p.volts p.amps p.timer
  match h.profPhase target 1, h.profPhase target 2, h.profPhase target 3, h.profPhase target 4, h.profPhase target 5 with
  | some t, some p, some c, some v, some e =>
    ok 1 t && ok 2 p && ok 3 c && ok 4 v && ok 5 e && t.volts < p.volts && p.volts < v.volts && v.amps < c.amps
  | _, _, _, _, _ => false

/-- The conditions that AC charge, export and DC boost share (R205), with the least DC link voltage. -/
def Hw.acConditions (h : Hw) (permit : Bool) (least : Int) : Bool :=
  permit && h.standstill && least ≤ h.pwr.vdc && h.pwr.vdc ≤ 950000 && h.chg.pp.plugged &&
  !h.anyActive [fltChgPeFault.code] && h.profileValid 0

/-- Every AC input phase has been below 30 V for 1 s, and CP carries no PWM (R205). -/
def Hw.acDead (h : Hw) : Bool :=
  !h.chg.pwm && (match h.chg.acHighAt with | some t => t + sTicks ≤ h.time.clock | none => true)

/-- The conditions of R17 and R18 for DC boost: PARK confirmed, both bridges in a safe pattern with their gate supplies; in a rope team the partner's
frames report both its bridges in OPEN (R397). -/
def Hw.boostConditions (h : Hw) : Bool :=
  h.act.parkOn && h.ctlA.state.safe && h.ctlB.state.safe && h.gateSupplied .brA && h.gateSupplied .brB &&
  !h.bridgeInhibited .brA && !h.bridgeInhibited .brB && !h.boostInhibited && h.chg.inlet < 60000 &&
  (!h.roped || !h.pair.partner || (match h.pair.last with | some f => f.stateA == 0 && f.stateB == 0 | none => false))

/-- The conditions of the staged charging function (R205). -/
def Hw.chargeConditions (h : Hw) : Bool :=
  match h.chg.setup with
  | none => false
  | some s =>
    match s.fn with
    | .none => false
    | .ac => h.acConditions s.permit 370000
    | .grid => h.acConditions s.permit 370000 && s.hlc
    | .island => h.acConditions s.permit 370000 && h.acDead
    | .boost => h.acConditions s.permit 550000 && h.boostConditions
    | .topup => s.permit && 255000 ≤ h.pwr.vdc && !(h.lv.state == .latchedOff) && !h.lvInhibited && h.profileValid 1

/-! ## Conditions of the modes -/

/-- The newest history entry of a code and source. -/
def Hw.latest (h : Hw) (code : W16) (src : Byte) : Option Entry :=
  h.flt.hist.foldl (fun a e => if e.is code src then some e else a) none

/-- A fault has cleared and the host has acknowledged it (R276, R360). -/
def Hw.clearedAndAcked (h : Hw) (code : W16) (src : Byte) : Bool :=
  !h.faultActive code src && !h.flt.loss && (match h.latest code src with | some e => e.acked | none => false)

/-- The fault that caused BELAY bars DRIVE and CHARGE until it is cleared and acknowledged (R38). -/
def Hw.belayBars (h : Hw) : Bool := h.mode.belayCode != 0 && !h.clearedAndAcked h.mode.belayCode h.mode.belaySource

/-- A rope team whose E1 is not the pair link serves neither DRIVE nor CHARGE (R388). -/
def Hw.pairBars (h : Hw) : Bool := h.roped && h.par 0x0E17 != 0

/-- A bridge fit for DRIVE (R38, R121): a healthy position source, no LATCH inhibit and an active motor data set. -/
def Hw.bridgeFit (h : Hw) (b : Bridge) : Bool := h.posHealthy b && !h.bridgeInhibited b && h.hasMotorData b

/-- The conditions of DRIVE (R38, R39, R265, R284, R388). -/
def Hw.driveConditions (h : Hw) : Bool :=
  250000 ≤ h.pwr.vdc && h.pwr.vdc ≤ 950000 && h.pwr.stoA && h.pwr.stoB &&
  (h.bridgeFit .brA || h.bridgeFit .brB) && !h.driveInhibited && !h.saf.splitLimit && !h.pairBars && !h.belayBars

/-- The conditions of CHARGE (R38, R205, R284, R388). -/
def Hw.chargeEntry (h : Hw) : Bool := h.chargeConditions && !h.saf.splitLimit && !h.pairBars && !h.belayBars

/-- WORKSHOP sessions that are open. -/
def Hw.workshopSessions (h : Hw) : Nat := (h.host.sessions.filter (fun p => p.2.auth == .workshop)).length

/-- The conditions on which ARREST is left for READY (R38, R263, R360), images apart. -/
def Hw.arrestExit (h : Hw) : Bool :=
  !h.classActive .arrest && h.acknowledged && h.pwr.stoA && h.pwr.stoB && !h.saf.stoBlock

/-- The mode a requested target leads to, none where R38 lists no transition or its conditions are not met. A request
for BIVOUAC asks for standstill; HV safe is reached by its drain (R54, R279). -/
def Hw.route (h : Hw) (target : Mode) : Option Mode :=
  match target with
  | .ready =>
    (match h.mode.mode with
     | .drive => some .ready
     | .charge => some .ready
     | .belay => some .ready
     | .workshop => some .ready
     | .arrest => if h.arrestExit then some (if h.allImages then .ready else .baseCamp) else none
     | .bivouac => none
     | .baseCamp => none
     | .ready => none)
  | .drive => if h.mode.mode == .ready && h.driveConditions then some .drive else none
  | .charge => if h.mode.mode == .ready && h.chargeEntry then some .charge else none
  | .workshop =>
    if h.mode.mode == .ready && h.standstill && h.workshopSessions ≤ 1 && !h.saf.splitLimit then some .workshop else none
  | .bivouac =>
    if (h.mode.mode == .baseCamp || h.mode.mode == .ready || h.mode.mode == .arrest) && h.standstill then some .bivouac
    else none
  | .baseCamp => none
  | .belay => none
  | .arrest => none

/-- An intrusive test runs (R52): requested, of the module's own, or system calibration. -/
def Hw.testing (h : Hw) : Bool :=
  h.tests.any (fun t => t.cls == 2 && t.running) || h.gateA.offRunning || h.gateB.offRunning || h.sen.cal.isSome

/-- A MODE_REQUEST completes BUSY (R36, R52, R167, R345). -/
def Hw.modeBusy (h : Hw) : Bool := h.mode.granted.isSome || h.testing || h.otp.job.isSome

/-- The own checks of MODE_REQUEST (R34-R38): the mode to enter where they pass. -/
def Hw.modeCheck (h : Hw) (d : Desc) : Status ⊕ Mode :=
  match Mode.ofCode (d.byte 16).toNat with
  | none => .inl .range
  | some t =>
    if t == .baseCamp || t == .belay || t == .arrest then .inl .modeDenied
    else if h.modeBusy then .inl .busy
    else match h.route t with
      | some m => .inr m
      | none => .inl .modeDenied

/-! ## Drains (R50) -/

/-- A bridge in service drains: its torque ramps to zero, and setpoints that wait complete DRAINED. -/
def Hw.drainBridge (h : Hw) (b : Bridge) : Hw :=
  let c := h.ctl b
  if c.state.inService || c.state == .shiftSync then
    (h.modCtl b (fun c => { c with draining := true, drainAt := h.time.clock, pending := none })).completeOpt
      (c.pending.bind (·.req)) .drained
  else h

/-- Both bridges drain, and a pair that waits with them. -/
def Hw.drainBridges (h : Hw) : Hw := ((h.drainBridge .brA).drainBridge .brB).endPair .drained

/-- Charging is at work: current, or a phase or a contactor to wind down. -/
def Chg.active (c : Chg) : Bool := c.state == .flow || c.state == .handOver || c.phase.isSome || c.current != 0 || c.dcb != .off

/-- The modes in which the staged function may run (R213, R234). -/
def Hw.chgLive (h : Hw) : Bool :=
  h.mode.mode == .charge || (h.mode.mode == .baseCamp && h.chgFn == .ac) ||
  (h.mode.mode == .belay && (h.chgFn == .ac || h.chgFn == .topup) && h.mode.belayFrom == .charge)

/-- The drain of charging ends (R50, R207, R234): the record, then the STOP. -/
def Hw.chgDrained (h : Hw) : Hw :=
  let h1 := h.chgEndPhase 2
  let h2 := h1.chgOpen.chgGo (if !h.chg.pp.plugged && h.chgFn != .topup then .unplugged else if h.chgLive then .armed
    else .plugWait) 0 0
  h2.chgCompleteAll .aborted .done

/-- The charging function drains (R50): at once where no current flows, and LV top-up, which leaves plain LV service. -/
def Hw.drainCharge (h : Hw) : Hw :=
  if !h.chg.active || h.chg.draining then h
  else
    let h1 : Hw := { h with chg := { h.chg with draining := true, drainAt := h.time.clock } }
    if (h.chg.current = 0 && h.chg.dcb == .off) || h.chgFn == .topup then h1.chgDrained else h1

/-- The converter is in service. -/
def Lv.active (l : Lv) : Bool := l.state == .starting || l.state == .running || l.state == .precharge || l.state == .hold

/-- The converter drains; one that waits after a failed attempt has no current to drain and rests. -/
def Hw.drainLv (h : Hw) : Hw :=
  if h.lv.active then { h with lv := { h.lv with draining := true, drainAt := h.time.clock } }
  else if h.lv.state == .waiting then h.lvRest .stopped .aborted else h

/-- A shift under way runs on within the actuator bound. -/
def Hw.drainAct (h : Hw) : Hw :=
  if h.act.still then h
  else { h with act := { h.act with drainAt := some h.time.clock, gear := { h.act.gear with draining := true } } }

/-- Active discharge is started by the drain of a transition to BIVOUAC (R279); its switch closes at DISCHARGE_START. The final snapshot
belongs to this drain (R355). -/
def Hw.drainsFor (h : Hw) (m : Mode) : Hw :=
  let h1 := if m.torque then h else if h.act.gear.step == .none then h.drainBridges.drainAct else h.drainAct
  let keep := m == .charge || m == .belay || (m == .ready && h.mode.mode == .baseCamp)
  let h2 := if keep then h1 else h1.drainCharge
  if m == .bivouac then h2.drainLv.finalSnapshot else h2

/-- The final snapshot is posted, or DRAIN_RING has passed since the grant (R50, R355). -/
def Hw.snapDrained (h : Hw) : Bool :=
  h.cnt.snap.isNone || (match h.mode.granted with
    | some g => decide (g.at' + h.parTicks 0x0209 ≤ h.time.clock)
    | none => true)

/-- On the way into BIVOUAC a ring is drained when all but the request for it has completed and is posted (R50). -/
def Hw.ringsDrained (h : Hw) : Bool :=
  h.host.rings.all (fun p => p.2.outstanding.all (fun t => (h.ownWork p.1).contains t) && p.2.buffer.isEmpty)

/-- The drains a transition waits for are complete; BIVOUAC also needs HV safe and standstill, and WORKSHOP is left once its
intrusive work has ended (R36, R38, R50). -/
def Hw.drained (h : Hw) (m : Mode) : Bool :=
  (m.torque || (!(h.ctlA.state.inService || h.ctlA.state == .shiftSync) &&
    !(h.ctlB.state.inService || h.ctlB.state == .shiftSync) && h.act.gear.step == .none)) &&
  !h.chg.draining && (h.act.drainAt.isNone || h.act.still) && (h.mode.mode != .workshop || !h.testing) &&
  (m != .bivouac || (!h.lv.active && h.hvSafe && h.standstill && h.snapDrained && h.ringsDrained))

/-- A transition is granted and its drains begin (R36, R50). -/
def Hw.grant (h : Hw) (m : Mode) (q : Option Req) (cause : Byte) (cinch : Nat) : Hw :=
  ({ h with mode := { h.mode with granted := some { target := m, req := q, cause := cause, cinch := cinch, at' := h.time.clock } } }
    : Hw).drainsFor m

/-- A transition the module itself asks for is granted where R38 allows it and none is pending. -/
def Hw.ownRequest (h : Hw) (target : Mode) (cause : Byte) : Hw :=
  if h.modeBusy then h
  else match h.route target with
    | some m => h.grant m none cause 0
    | none => h

end Sys2Proof.Machine
end

