-- ==== Sys2Proof/Machine/Persist.lean ====
section
/-!
DEFINITION. Machine/Persist.lean: the OTP array and its tack records (R341-R347), the image directory and the authentication and
swap of images (R26, R335-R340), and the safety set's check value (R269-R271).
-/
namespace Sys2Proof.Machine

/-! ## The OTP array -/

/-- A byte of OTP; one that is not listed reads 0 (R342). -/
def memRead : List Host.Cell → Nat → Byte
  | [], _ => 0
  | (i, x) :: t, a => if i = a then x else memRead t a

/-- The array with a byte written, in canonical form: addresses rising, no zero byte listed. -/
def memWrite : List Host.Cell → Nat → Byte → List Host.Cell
  | [], a, v => if v = 0 then [] else [(a, v)]
  | (i, x) :: t, a, v =>
    if a < i then (if v = 0 then (i, x) :: t else (a, v) :: (i, x) :: t)
    else if a = i then (if v = 0 then t else (a, v) :: t)
    else (i, x) :: memWrite t a v

/-- Every listed address is above `lo`, rising, with no zero byte. -/
def memSorted : Nat → List Host.Cell → Bool
  | _, [] => true
  | lo, (i, x) :: t => lo ≤ i && x != 0 && memSorted (i + 1) t

/-- The canonical form of the OTP array. -/
def Memory.wf (m : List Host.Cell) : Bool := memSorted 0 m

/-- Bytes programmed from an address on: a bit that reads 1 stays 1, as OTP can be programmed once. -/
def memBurn : List Host.Cell → Nat → List Byte → List Host.Cell
  | m, _, [] => m
  | m, a, b :: t => memBurn (memWrite m a (memRead m a ||| b)) (a + 1) t

/-- `n` bytes from an address on. -/
def memBytes (m : List Host.Cell) (a : Nat) : Nat → List Byte
  | 0 => []
  | n + 1 => memRead m a :: memBytes m (a + 1) n

/-- Base, generations and body bytes of a record type (R341). -/
def otpMap : Nat → Option (Nat × Nat × Nat)
  | 1 => some (0x0000, 1, 128)
  | 2 => some (0x0090, 2, 1024)
  | 3 => some (0x08B0, 6, 1024)
  | 4 => some (0x2110, 6, 512)
  | 5 => some (0x2D70, 6, 512)
  | 6 => some (0x39D0, 4, 64)
  | _ => none

/-- Offset of a generation slot. -/
def slotBase (base body gen : Nat) : Nat := base + gen * (body + 16)

/-- The bytes of a generation slot (R342). -/
def Otp.slot (o : Otp) (base body gen : Nat) : List Byte := memBytes o.bytes (slotBase base body gen) (body + 16)

/-- The check of a slot: CRC-32C over bytes 4 to the end of the body (R342). -/
def slotCheck (l : List Byte) (body : Nat) : W32 := crc32 polyC (slice l 4 (body + 8))

/-- A slot image is valid: its check is good, and its type and generation match (R342). -/
def slotValid (l : List Byte) (body type gen : Nat) : Bool :=
  field l 4 2 == type && field l 6 1 == gen && (slotCheck l body).toNat == field l (body + 12) 4

/-- A generation counts as revoked (R342). -/
def slotRevoked (l : List Byte) : Bool := 16 ≤ popcount 32 (field l 0 4)

/-- A blank slot: every byte reads 0 (R342). -/
def slotBlank (l : List Byte) : Bool := l.all (fun b => b == 0)

/-- The generations of a record type that are valid and not revoked, highest first. -/
def Otp.liveGens (o : Otp) (type : Nat) : List Nat :=
  match otpMap type with
  | none => []
  | some (base, gens, body) =>
    ((List.range gens).filter (fun g =>
      let l := o.slot base body g
      slotValid l body type g && !slotRevoked l && !o.consumed.contains (type, g))).reverse

/-- The slot to program next: the lowest blank slot above every slot already written (R345). -/
def Otp.nextSlot (o : Otp) (type : Nat) : Option Nat :=
  match otpMap type with
  | none => none
  | some (base, gens, body) =>
    let written := (List.range gens).filter (fun g => !slotBlank (o.slot base body g) || o.consumed.contains (type, g))
    let g := match written.reverse with | [] => 0 | w :: _ => w + 1
    if g < gens then some g else none

/-- The body of the active generation of a record. -/
def Otp.body (o : Otp) (type : Nat) : Option (List Byte) :=
  match otpMap type, o.active.find type with
  | some (base, _, body), some g => some (slice (o.slot base body g) 12 body)
  | _, _ => none

/-- Entries of a CONFIG or SAFETY body (R343): 2-byte ID and 8-byte value; ID 0 ends the list. -/
def bodyEntries : Nat → List Byte → List (Nat × Nat)
  | 0, _ => []
  | n + 1, l =>
    if l.length < 10 || field l 0 2 = 0 then []
    else (field l 0 2, field l 2 8) :: bodyEntries n (l.drop 10)

/-- Entries as a table. -/
def entryTab (l : List (Nat × Nat)) : Tab Nat := l.foldl (fun t p => t.set p.1 p.2) []

/-- The bytes of a slot to be programmed (R342). -/
def slotImage (type gen : Nat) (body : List Byte) : List Byte :=
  let l := leBytes 4 0 ++ leBytes 2 type ++ [BitVec.ofNat 8 gen, 0] ++ leBytes 4 body.length ++ body
  l ++ leBytes 4 (crc32 polyC (l.drop 4)).toNat

/-- The active generations of all records (R342, R347). -/
def Otp.resolve (o : Otp) : Otp :=
  let act := (List.range 6).foldl (fun a k => match o.liveGens (k + 1) with | [] => a | g :: _ => Tab.set a (k + 1) g) ([] : Tab Nat)
  let o1 := { o with active := act, configNext := none, configOn := false, syscal := none, syscalNext := none, job := none }
  let keys := (o1.body 6).getD []
  { o1 with config := (match o1.body 5 with | some l => entryTab (bodyEntries 51 l) | none => [])
            keyHash := BitVec.ofNat 256 (leNat (slice keys 0 32))
            serviceHash := BitVec.ofNat 256 (leNat (slice keys 32 32)) }

/-- The safety entries of the active SAFETY generation (R343). -/
def Otp.safetyEntries (o : Otp) : List (Nat × Nat) :=
  match o.body 4 with
  | some l => bodyEntries 50 (l.drop 4)
  | none => []

/-- The check value of a safety set (R269): each parameter as a 2-byte ID and 4-byte value, in ascending ID order. -/
def checkValue (set : Tab Nat) : W32 :=
  crc32 polySafety (safetyIds.flatMap (fun i => leBytes 2 i ++ leBytes 4 (set.get i 0)))

/-- The body of a SAFETY generation (R343, R442): the check value, then every parameter of the set. -/
def safetyBody (set : Tab Nat) : List Byte :=
  slice (leBytes 4 (checkValue set).toNat ++ safetyIds.flatMap (fun i => leBytes 2 i ++ leBytes 8 (set.get i 0))) 0 512

/-! ## Overlays and programming (R345-R347) -/

/-- The record a SYSCAL or CONFIG overlay image holds: R342 with revoke word 0 and generation 0xFF. -/
def overlayBody (l : List Byte) (type : Nat) : Option (List Byte) :=
  match otpMap type with
  | none => none
  | some (_, _, body) =>
    if field l 0 4 == 0 && slotValid (slice l 0 (body + 16)) body type 0xFF then some (slice l 12 body) else none

/-- The own checks of OVERLAY_LOAD (R347, R325). -/
def Hw.overlayCheck (h : Hw) (d : Desc) (member : Bool) : Option Status :=
  let type := (d.byte 16).toNat
  if !(type = 3 || type = 5) || (member && type = 5) || (overlayBody d.dma type).isNone then some .range
  else if h.mode.mode == .bivouac || (type = 5 && h.mode.mode != .baseCamp) then some .modeDenied
  else none

/-- A SYSCAL overlay takes effect and replaces any overlay of R75 (R347): the corrections against the old set fall away. -/
def Hw.applySyscal (h : Hw) (body : List Byte) : Hw :=
  (List.range 6).foldl (fun x k => x.clearFault fltSenseGainDrift.code (BitVec.ofNat 8 k))
    { h with otp := { h.otp with syscal := some body }
             sen := { h.sen with offset := [], offsetNext := [], gain := [], gainNext := [], gainHeld := 0 } }

/-- The sampling skew of every pair is trimmed, in 10 ps steps over +-1.6 ns (R69). -/
def Hw.trimSkew (h : Hw) : Hw :=
  ({ h with sen := { h.sen with
    skew := (List.range 16).map (fun p => (p, clampI (-160) 160 (Config.skewTrim h.free p))) } } : Hw).drawn

/-- An accumulator of a traction tile over an input, ungated, on the tile's time base (R59-R61). -/
def tileAcc (input base closure : Nat) (now : W64) : Acc :=
  { cfg := some { input := input, closure := closure, base := base, gate := 0, gateArg := 0, paired := true, length := 0, delay := 0,
                  run := true }, openAt := now }

/-- The windows that the traction tiles regulate by (R59, R113): for each bridge its phases, CH6 and CH7, in PERIOD and in HALF
windows. Which accumulators TRAC takes for them no rule says; the model gives bridge A 0-9 and bridge B 10-19 (DESIGN CHOICE). -/
def Hw.tracWindows (h : Hw) : Hw :=
  let inputs (b : Nat) : List Nat := [3 * b, 3 * b + 1, 3 * b + 2, 6, 7]
  let put (t : Tab Acc) (b closure : Nat) : Tab Acc :=
    (List.range 5).foldl (fun t k => t.set (10 * b + 5 * closure + k) (tileAcc ((inputs b).getD k 0) b closure h.time.now)) t
  { h with sen := { h.sen with accs := put (put (put (put h.sen.accs 0 0) 0 1) 1 0) 1 1 } }

/-- VSUP and board temperature allow programming (R345). -/
def Hw.otpFit (h : Hw) : Bool := 9000 ≤ h.pwr.vsup && 0 ≤ h.pwr.board && h.pwr.board ≤ 8500

/-! ## Images (R26, R335-R340) -/

/-- Size limits in bytes (R26). -/
def imageLimit : ImageKind → Nat
  | .safe => 1572864 | .trac => 1048576 | .conv => 786432 | .actu => 524288 | .sens => 262144 | .app => 8388608

/-- The first step of R337 that fails, none where the image is accepted. `named` is the kind that was asked for. -/
def Hw.authStep (h : Hw) (named : ImageKind) (i : ImageInfo) : Option Nat :=
  if !i.magicOk || i.format != 1 || i.kind.toNat != named.code || imageLimit named < i.totalLen then some 1
  else if (h.otp.active.find 6).isNone || i.keyHash != h.otp.keyHash then some 2
  else if !i.sigOk then some 3
  else if !i.bodyOk then some 4
  else if i.version.toNat < h.par 0x0106 then some 5
  else none

/-- The running image of a kind, of a tile for TRAC. -/
def Images.image (m : Images) (k : ImageKind) (t : Bridge) : Option ImgVer :=
  if k == .trac && t == .brB then m.tracB else m.running.find k.code

/-- The slot of an image kind, of a tile for TRAC. -/
def imageKey (k : ImageKind) (t : Bridge) : Nat := 2 * k.code + (if k == .trac then t.code else 0)

/-- An image starts to run (R27, R339): its slot's version advances (R323), and the spare bank keeps the old image (R338). -/
def Images.start (m : Images) (k : ImageKind) (t : Bridge) (v : ImgVer) : Images :=
  let key := imageKey k t
  let m1 := { m with versions := m.versions.set key ((m.versions.get key 0 + 1) % 2 ^ 32)
                     spare := (match m.image k t with | some old => m.spare.set key old | none => m.spare) }
  if k == .trac && t == .brB then { m1 with tracB := some v } else { m1 with running := m1.running.set k.code v }

/-- The modes of an image swap (R339, R348), with the conditions of the table. -/
def Hw.swapAllowed (h : Hw) (k : ImageKind) : Bool :=
  let m := h.mode.mode
  let idle := m == .ready || m == .workshop
  let live := idle || m == .drive || m == .belay
  match k with
  | .safe => idle && h.standstill
  | .trac => live || (m == .charge && !h.boosting)
  | .conv => live && !h.chg.active && h.lv.state != .precharge && h.lv.state != .hold
  | .actu => live && h.act.still
  | .sens => idle
  | .app => live || m == .charge

/-- The image kind and tile an IMAGE_SWAP names. -/
def swapTarget (d : Desc) : Option (ImageKind × Bridge) :=
  match ImageKind.ofCode (d.byte 16).toNat, Bridge.ofByte (d.byte 17).toNat with
  | some k, some b => if k == .trac || b == .brA then some (k, b) else none
  | _, _ => none

/-- The own checks of IMAGE_SWAP at staging (R338). -/
def Hw.swapCheck (h : Hw) (d : Desc) (i : ImageInfo) : Option Status :=
  match swapTarget d with
  | none => some .range
  | some (k, b) =>
    if !h.swapAllowed k then some .modeDenied
    else if (h.img.image k b).map (·.format) != some i.stateFormat then some .range
    else if (h.authStep k i).isSome then some .authDenied
    else none

/-- The IMAGE event (R306). -/
def Hw.imageEvent (h : Hw) (k : ImageKind) (t : Bridge) (step : Nat) (version : W32) : Hw :=
  h.postEvent 0x0C02 h.time.now ([BitVec.ofNat 8 k.code, BitVec.ofNat 8 t.code, if step = 0 then 0 else 1,
    BitVec.ofNat 8 step] ++ leBytes 4 version.toNat)

/-- IMAGE_AUTH_FAIL names the kind in the source byte and the step in its argument (R337). -/
def Hw.authFail (h : Hw) (k : ImageKind) (step : Nat) : Hw :=
  h.raiseAs fltImageAuthFail fltImageAuthFail.cls (BitVec.ofNat 8 k.code) (BitVec.ofNat 32 step) false

/-- An authentication that failed while an IMAGE_SWAP staged is reported (R337). -/
def Hw.swapReject (h : Hw) (d : Desc) (i : ImageInfo) (st : Status) : Hw :=
  if st == .authDenied then
    (match swapTarget d with
     | some (k, b) => (match h.authStep k i with | some n => (h.authFail k n).imageEvent k b n i.version | none => h)
     | none => h)
  else h

/-- A swap takes effect at the instant (R339, R340). -/
def Hw.applySwap (h : Hw) (slot : Nat) (k : ImageKind) (b : Bridge) (i : ImageInfo) (commit : Option Req) : Hw :=
  let v : ImgVer := { version := i.version, format := i.stateFormat }
  match k with
  | .safe => { h with img := { h.img with safeHold := some { since := h.time.clock, image := v } } }
  | .app => { h with img := { h.img with appSwap := some { slot := slot, done := 0, coreAt := h.time.clock, reversing := false, image := v, commit := commit } } }
  | .conv => { h with img := { h.img with waiting := h.img.waiting ++ [{ kind := 3, target := b, image := v }] } }
  | .actu => { h with img := { h.img with waiting := h.img.waiting ++ [{ kind := 4, target := b, image := v }] } }
  | .trac => { h with img := h.img.start .trac b v }
  | .sens => { h with img := h.img.start .sens b v }

/-- An image waiting for its tile's next start begins to run (R339). -/
def Hw.startWaiting (h : Hw) (k : ImageKind) : Hw :=
  match h.img.waiting.find? (fun w => w.kind == k.code) with
  | none => h
  | some w => { h with img := ({ h.img with waiting := h.img.waiting.filter (fun x => x.kind != k.code) }).start k w.target w.image }

end Sys2Proof.Machine
end

