-- ==== Sys2Proof/Machine/Sha.lean ====
section
/-!
DEFINITION. Machine/Sha.lean: SHA-256 of a list of bytes, the hash of R336, R337, R342 and R343.
-/
namespace Sys2Proof.Machine

/-- The round constants. -/
def shaK : List W32 :=
  [0x428a2f98, 0x71374491, 0xb5c0fbcf, 0xe9b5dba5, 0x3956c25b, 0x59f111f1, 0x923f82a4, 0xab1c5ed5,
   0xd807aa98, 0x12835b01, 0x243185be, 0x550c7dc3, 0x72be5d74, 0x80deb1fe, 0x9bdc06a7, 0xc19bf174] ++
  [0xe49b69c1, 0xefbe4786, 0x0fc19dc6, 0x240ca1cc, 0x2de92c6f, 0x4a7484aa, 0x5cb0a9dc, 0x76f988da,
   0x983e5152, 0xa831c66d, 0xb00327c8, 0xbf597fc7, 0xc6e00bf3, 0xd5a79147, 0x06ca6351, 0x14292967] ++
  [0x27b70a85, 0x2e1b2138, 0x4d2c6dfc, 0x53380d13, 0x650a7354, 0x766a0abb, 0x81c2c92e, 0x92722c85,
   0xa2bfe8a1, 0xa81a664b, 0xc24b8b70, 0xc76c51a3, 0xd192e819, 0xd6990624, 0xf40e3585, 0x106aa070] ++
  [0x19a4c116, 0x1e376c08, 0x2748774c, 0x34b0bcb5, 0x391c0cb3, 0x4ed8aa4a, 0x5b9cca4f, 0x682e6ff3,
   0x748f82ee, 0x78a5636f, 0x84c87814, 0x8cc70208, 0x90befffa, 0xa4506ceb, 0xbef9a3f7, 0xc67178f2]

/-- The eight working words. -/
structure ShaState where
  a : W32
  b : W32
  c : W32
  d : W32
  e : W32
  f : W32
  g : W32
  h : W32
  deriving DecidableEq, Repr

/-- The initial hash value. -/
def shaInit : ShaState :=
  { a := 0x6a09e667, b := 0xbb67ae85, c := 0x3c6ef372, d := 0xa54ff53a,
    e := 0x510e527f, f := 0x9b05688c, g := 0x1f83d9ab, h := 0x5be0cd19 }

/-- The message schedule, newest word first: `n` further words. -/
def shaExtend : Nat → List W32 → List W32
  | 0, w => w
  | n + 1, w =>
    let x := w.getD 14 0
    let y := w.getD 1 0
    let s0 := x.rotateRight 7 ^^^ x.rotateRight 18 ^^^ (x >>> 3)
    let s1 := y.rotateRight 17 ^^^ y.rotateRight 19 ^^^ (y >>> 10)
    shaExtend n ((s1 + w.getD 6 0 + s0 + w.getD 15 0) :: w)

/-- One round. -/
def shaRound (s : ShaState) (k w : W32) : ShaState :=
  let s1 := s.e.rotateRight 6 ^^^ s.e.rotateRight 11 ^^^ s.e.rotateRight 25
  let ch := (s.e &&& s.f) ^^^ (~~~s.e &&& s.g)
  let t1 := s.h + s1 + ch + k + w
  let s0 := s.a.rotateRight 2 ^^^ s.a.rotateRight 13 ^^^ s.a.rotateRight 22
  let maj := (s.a &&& s.b) ^^^ (s.a &&& s.c) ^^^ (s.b &&& s.c)
  { a := t1 + s0 + maj, b := s.a, c := s.b, d := s.c, e := s.d + t1, f := s.e, g := s.f, h := s.g }

/-- A word of four bytes, most significant first. -/
def beWord (l : List Byte) : W32 := l.foldl (fun a b => (a <<< 8) ||| b.setWidth 32) 0

/-- The words of a block, newest first. -/
def shaWords : Nat → List Byte → List W32 → List W32
  | 0, _, w => w
  | n + 1, l, w => shaWords n (l.drop 4) (beWord (slice l 0 4) :: w)

/-- One block of 64 bytes. -/
def shaBlock (s : ShaState) (l : List Byte) : ShaState :=
  let w := (shaExtend 48 (shaWords 16 l [])).reverse
  let t := (shaK.zip w).foldl (fun x p => shaRound x p.1 p.2) s
  { a := s.a + t.a, b := s.b + t.b, c := s.c + t.c, d := s.d + t.d,
    e := s.e + t.e, f := s.f + t.f, g := s.g + t.g, h := s.h + t.h }

/-- Every block in turn; `fuel` is the number of blocks. -/
def shaBlocks : Nat → ShaState → List Byte → ShaState
  | 0, s, _ => s
  | n + 1, s, l => shaBlocks n (shaBlock s (l.take 64)) (l.drop 64)

/-- A word as four bytes, most significant first. -/
def beBytes (w : W32) : List Byte := (leBytes 4 w.toNat).reverse

/-- The message with its padding: a one bit, zeros, and its length in bits. -/
def shaPad (l : List Byte) : List Byte :=
  l ++ [0x80] ++ List.replicate ((119 - l.length % 64) % 64) 0 ++ (leBytes 8 (8 * l.length)).reverse

/-- SHA-256 as its 32 bytes. -/
def sha256 (l : List Byte) : List Byte :=
  let p := shaPad l
  let s := shaBlocks (p.length / 64) shaInit p
  beBytes s.a ++ beBytes s.b ++ beBytes s.c ++ beBytes s.d ++ beBytes s.e ++ beBytes s.f ++ beBytes s.g ++ beBytes s.h

/-- What the engine finds in the bytes of an image (R336, R337); `sigOk` is its verdict on the signature. -/
def imageInfo (l : List Byte) (sigOk : Bool) : ImageInfo :=
  let body := field l 12 4
  { magicOk := slice l 0 4 == [0x43, 0x57, 0x49, 0x4D], format := BitVec.ofNat 8 (field l 5 1),
    kind := BitVec.ofNat 8 (field l 4 1), stateFormat := BitVec.ofNat 16 (field l 6 2),
    version := BitVec.ofNat 32 (field l 8 4), totalLen := l.length,
    keyHash := BitVec.ofNat 256 (leNat (sha256 (slice l 48 64))), sigOk := sigOk,
    bodyOk := l.length == 192 + body && sha256 (slice l 128 body) == slice l 16 32 }

end Sys2Proof.Machine
end

