-- ==== Sys2Proof/Machine/Cinch.lean ====
section
/-!
DEFINITION. Machine/Cinch.lean: cinches (R324-R331): what a member is checked for, its class and its versioned items, staging,
acceptance of a commit, and the instant; and the front door that every descriptor takes.
-/
namespace Sys2Proof.Machine

/-! ## Members -/

/-- The opcodes that can be members (R325). -/
def memberOps : List Nat := [0x0201, 0x0402, 0x0501, 0x0502, 0x0503, 0x0504, 0x0C04, 0x0C07, 0x0C0A]

/-- Codes of the applies-at classes as CINCH_OPEN numbers them (R324). -/
def PCls.code : PCls → Nat
  | .immediate => 0 | .controlA => 1 | .controlB => 2 | .controlAB => 3 | .pwmA => 4 | .pwmB => 5 | .modeEdge => 6 | .atTime => 7

/-- The CONTROL class of a bridge. -/
def controlOf : Option Bridge → Nat
  | some .brA => 1 | some .brB => 2 | none => 0

/-- The class of a member (R325); a resolver that serves no bridge asks for no boundary. -/
def Hw.memberClass (h : Hw) (op : Nat) (d : Desc) : Nat :=
  if op = 0x0201 then 6
  else if op = 0x0402 then controlOf (h.servedBy (0x10 + d.num 16 1))
  else if op = 0x0501 || op = 0x0502 then controlOf (Bridge.ofByte (d.num 16 1))
  else if op = 0x0503 then 3
  else if op = 0x0504 then controlOf (Bridge.ofByte (field d.dma 2 1))
  else if op = 0x0C04 then (match paramRow d.paramId with | some r => r.cls.code | none => 0)
  else if op = 0x0C07 then
    (match swapTarget d with | some (.trac, .brA) => 4 | some (.trac, .brB) => 5 | _ => 0)
  else 3

/-- The member classes that a boundary class meets (R327). -/
def meets (cls m : Nat) : Bool :=
  match cls with
  | 0 => m == 0
  | 1 => m == 0 || m == 1
  | 2 => m == 0 || m == 2
  | 3 => m ≤ 3
  | 4 => m == 0 || m == 1 || m == 4
  | 5 => m == 0 || m == 2 || m == 5
  | 6 => m ≤ 3 || m == 6
  | _ => m != 6

/-- The versioned items a member touches (R323). -/
def memberItems (op : Nat) (d : Desc) : List Item :=
  if op = 0x0C04 then [.param d.paramId]
  else if op = 0x0402 then [.harm (d.num 16 1)]
  else if op = 0x0504 then
    (match Bridge.ofByte (field d.dma 2 1) with | some b => [.map b (field d.dma 0 2 == 2)] | none => [])
  else if op = 0x0C07 then (match swapTarget d with | some (k, b) => [.image k b] | none => [])
  else []

/-- The version of an item (R323). -/
def Hw.version (h : Hw) : Item → Nat
  | .param id => h.prm.versions.get id 0
  | .map b flux => if flux then (h.ctl b).fluxVersion else (h.ctl b).mtpaVersion
  | .harm r => (h.res r).version
  | .image k b => h.img.versions.get (imageKey k b) 0

/-- The own checks of a member (R326, R329). -/
def Hw.memberCheck (h : Hw) (op : Nat) (d : Desc) (i : Option ImageInfo) : Option Status :=
  let left {α : Type} (x : Status ⊕ α) : Option Status := match x with | .inl st => some st | .inr _ => none
  if op = 0x0201 then left (h.modeCheck d)
  else if op = 0x0402 then h.harmCheck d true
  else if op = 0x0501 then left (h.setpointCheck false d)
  else if op = 0x0502 then left (h.setpointCheck true d)
  else if op = 0x0503 then h.pairCheck d
  else if op = 0x0504 then left (h.mapCheck d true)
  else if op = 0x0C04 then h.paramCheck d true
  else if op = 0x0C0A then h.overlayCheck d true
  else if op = 0x0C07 then (match i with | some i => h.swapCheck d i | none => some .range)
  else some .range

/-! ## Staging (R326) -/

/-- A slot replaced. -/
def Hw.setSlot (h : Hw) (n : Nat) (s : Slot) : Hw := { h with slots := h.slots.set n s }

/-- A slot (R324); an unlisted one is FREE. -/
def Hw.slot (h : Hw) (n : Nat) : Slot := h.slots.get n {}

/-- The cinch is the descriptor's own: its session opened it on its path (R324). -/
def Slot.owned (s : Slot) (d : Desc) : Bool := s.session == d.session.toNat && s.path == d.path

/-- A member failed a check: its own cinch is poisoned (R326). -/
def Hw.poison (h : Hw) (d : Desc) : Hw :=
  let n := d.cinch.toNat
  let s := h.slot n
  if s.state == .opened && s.owned d then h.setSlot n { s with state := .poisoned } else h

/-- A refusal that another chapter reports too: a rejected motor table (R122), a failed authentication (R337). -/
def Hw.memberReject (h : Hw) (op : Nat) (d : Desc) (i : Option ImageInfo) (st : Status) : Hw :=
  if op = 0x0504 then h.mapReject d st
  else if op = 0x0C07 then (match i with | some i => h.swapReject d i st | none => h)
  else h

/-- The slot's own checks and the member's, in order: the status that refuses it, and whether it poisons (R325-R327). -/
def Hw.stageCheck (h : Hw) (op : Nat) (d : Desc) (i : Option ImageInfo) : Option (Status × Bool) :=
  let s := h.slot d.cinch.toNat
  if d.cinch = 0 || s.state == .free || s.state == .committed || s.commit.isSome then some (.range, false)
  else if s.session != d.session.toNat then some (.authDenied, false)
  else if s.path != d.path then some (.range, false)
  else if s.state == .poisoned then some (.aborted, false)
  else if 256 ≤ s.members.length then some (.noResource, true)
  else if !memberOps.contains op then some (.range, true)
  else if (op = 0x0201 || op = 0x0C07) && s.members.any (fun m => m.op == 0x0201 || m.op == 0x0C07) then some (.range, true)
  else match h.memberCheck op d i with
    | some st => some (st, true)
    | none => if meets s.cls (h.memberClass op d) then none else some (.range, true)

/-- The image that a swap has loaded into the spare bank, its authentication reported (R306, R338). -/
def Hw.reportImage (h : Hw) (op : Nat) (d : Desc) (i : Option ImageInfo) : Hw :=
  if op = 0x0C07 then
    (match swapTarget d, i with
     | some (k, b), some i =>
       ({ h with img := { h.img with spare := h.img.spare.set (imageKey k b) { version := i.version, format := i.stateFormat } } }
         : Hw).imageEvent k b 0 i.version
     | _, _ => h)
  else h

/-- A member is staged (R326): copied with the versions of its items, and completed DONE. -/
def Hw.stage (h : Hw) (op : Nat) (d : Desc) (i : Option ImageInfo) : Hw :=
  match h.stageCheck op d i with
  | some (st, bad) => ((if bad then (h.memberReject op d i st).poison d else h)).complete d.req st
  | none =>
    let s := h.slot d.cinch.toNat
    let m : Member := { op := BitVec.ofNat 16 op, desc := d, versions := (memberItems op d).map (fun x => (x, h.version x)),
                        image := i, trailer := d.trailer }
    ((h.reportImage op d i).setSlot d.cinch.toNat { s with members := s.members ++ [m] }).complete d.req .done

/-- A member descriptor: the checks of R296, then staging; a failure of any check poisons its cinch (R326). -/
def Hw.stageMember (h : Hw) (op : Nat) (d : Desc) (i : Option ImageInfo) : Hw :=
  if !h.canStart d || h.heldBySwap op d then h
  else
    let h1 := h.started d
    match h1.firstFailure op d with
    | some .safetyPdu => ((h1.pduFail d.session.toNat).poison d).complete d.req .safetyPdu
    | some st => (h1.poison d).complete d.req st
    | none => (h1.admitted d).stage op d i

/-- The front door of every descriptor: a member is staged, any other is checked and runs its own part. -/
def Hw.descriptor (h : Hw) (op : Nat) (d : Desc) (own : Req → Hw → Hw) : Hw :=
  if d.member then h.stageMember op d none else h.checked op d own

/-! ## Commit, acceptance, abort -/

/-- A commit ends (R328, R329): it completes, the outcome is counted (0x095-0x097), and the slot is FREE. -/
def Hw.finishCinch (h : Hw) (n : Nat) (st : Status) : Hw :=
  let s := h.slot n
  let h1 := (h.setSlot n {}).completeOpt s.commit st
  match st with
  | .done => h1.count 0x095 1
  | .conflict => h1.count 0x096 1
  | .late => h1.count 0x097 1
  | _ => h1

/-- A cinch is freed with nothing applied (R330): a commit that waits completes ABORTED. -/
def Hw.dropCinch (h : Hw) (n : Nat) : Hw :=
  let s := h.slot n
  (h.setSlot n {}).completeOpt s.commit .aborted

/-- Every cinch that satisfies `p` is freed. -/
def Hw.dropCinches (h : Hw) (p : Slot → Bool) : Hw :=
  ((h.slots.filter (fun x => x.2.state != .free && p x.2)).map (·.1)).foldl Hw.dropCinch h

/-- A staged version differs from the present one (R329). -/
def Hw.conflicts (h : Hw) (s : Slot) : Bool := s.members.any (fun m => m.versions.any (fun v => h.version v.1 != v.2))

/-- The own checks of CINCH_OPEN (R324). -/
def Hw.openCheck (h : Hw) (d : Desc) : Option Status :=
  let n := (d.byte 16).toNat
  let cls := (d.byte 17).toNat
  let t := d.num 20 8
  if n = 0 || 32 < n || 7 < cls || (cls != 7 && t != 0) || (cls = 7 && h.time.now.toNat + 60 * sTicks < t) then some .range
  else if (h.slot n).state != .free || (cls = 7 && h.time.stepWait.isSome) then some .busy
  else none

/-- CINCH_OPEN (R324). -/
def Hw.cinchOpen (h : Hw) (d : Desc) (q : Req) : Hw :=
  match h.openCheck d with
  | some st => h.complete q st
  | none =>
    (h.setSlot (d.byte 16).toNat
      { state := .opened, cls := (d.byte 17).toNat, time := BitVec.ofNat 64 (d.num 20 8), session := d.session.toNat,
        path := d.path, openedAt := h.time.clock }).complete q .done

/-- The checks of a commit or abort against its slot (R324, R331): slot number, owner. -/
def Hw.slotCheck (h : Hw) (d : Desc) : Option Status :=
  let n := (d.byte 16).toNat
  let s := h.slot n
  if n = 0 || 32 < n || s.state == .free then some .range
  else if s.session != d.session.toNat then some .authDenied
  else if s.path != d.path then some .range
  else none

/-- CINCH_COMMIT (R328): a poisoned cinch completes ABORTED; any other waits until its members have staged. -/
def Hw.cinchCommit (h : Hw) (d : Desc) (q : Req) : Hw :=
  match h.slotCheck d with
  | some st => h.complete q st
  | none =>
    let n := (d.byte 16).toNat
    let s := h.slot n
    if s.state == .committed || s.commit.isSome then h.complete q .busy
    else
      let at' := match d.path with | .ring r => (h.ring r).doorbellAt | .can => h.time.clock
      let h1 := h.setSlot n { s with commit := some q, publishedAt := at', age := d.age }
      if s.state == .poisoned then h1.finishCinch n .aborted else h1

/-- The ends of periods that follow one another from a start. -/
def startsOf : Nat → List Nat → List Nat
  | s, [] => [s]
  | s, l :: t => s :: startsOf (s + l) t

/-- Period starts of a bridge: its present period's and the next ones. -/
def Hw.periodStarts (h : Hw) (b : Bridge) : List Nat := startsOf (h.ctl b).periodStart.toNat (h.lengths b 7)

/-- The first of some times at or after another. -/
def firstFrom (l : List Nat) (t : Nat) : Option Nat := l.find? (fun x => t ≤ x)

/-- The instant of a committed cinch as far as it is known (R327). -/
def Hw.instantOf (h : Hw) (s : Slot) : Option Nat :=
  let lead := s.leadEnd.toNat
  let pwm := max lead (match h.sh.fixedAB with | some t => t.toNat | none => 0)
  match s.cls with
  | 0 => some lead
  | 1 => firstFrom (h.boundaries .brA 8) lead
  | 2 => firstFrom (h.boundaries .brB 8) lead
  | 3 => h.sh.fixedAB.map (·.toNat)
  | 4 => firstFrom (h.periodStarts .brA) pwm
  | 5 => firstFrom (h.periodStarts .brB) pwm
  | 7 => some s.time.toNat
  | _ => none

/-- CINCH_ABORT (R331). -/
def Hw.cinchAbort (h : Hw) (d : Desc) (q : Req) : Hw :=
  match h.slotCheck d with
  | some st => h.complete q st
  | none =>
    let n := (d.byte 16).toNat
    let s := h.slot n
    if s.state != .committed then (h.dropCinch n).complete q .done
    else match h.instantOf s with
      | some t => if h.time.now.toNat + 10 * usTicks < t then (h.complete q .done).finishCinch n .aborted else h.complete q .busy
      | none => h.complete q .busy

/-- An AT_TIME cinch whose T comes too soon (R328), with 1 ms for the share of a rope team (R392). -/
def Hw.tooLate (h : Hw) (s : Slot) : Bool :=
  let share := s.members.any (fun m => m.op == 0x0C04 && m.desc.paramId == 0x0F03)
  s.cls == 7 && (s.time.toNat < h.time.now.toNat + 10 * usTicks || (share && s.time.toNat < h.time.now.toNat + msTicks))

/-- A MODE_EDGE commit submits its MODE_REQUEST member (R328). -/
def Hw.submitMember (h : Hw) (n : Nat) (m : Member) : Hw :=
  match h.modeCheck m.desc with
  | .inl st => h.finishCinch n st
  | .inr t => h.grant t none 0 (BitVec.ofNat 8 n).toNat

/-- A commit is accepted (R328): its age, then COMMITTED, and the cases that complete at once. -/
def Hw.cinchAccept (h : Hw) (n : Nat) : Hw :=
  let s := h.slot n
  match s.commit with
  | none => h
  | some _ =>
    if s.state != .opened then h
    else if s.members.any (·.trailer) && !ageOk s.age (h.time.clock - s.publishedAt) then
      (h.pduFail s.session).finishCinch n .safetyPdu
    else
      let s1 := { s with state := .committed, acceptedAt := some h.time.clock,
                         leadEnd := h.time.now + BitVec.ofNat 64 (10 * usTicks) }
      let h1 := h.setSlot n s1
      if h.tooLate s then h1.finishCinch n .late
      else if s.cls == 6 && !s.members.any (fun m => m.op == 0x0201) then h1.finishCinch n .range
      else if s.members.isEmpty then h1.finishCinch n .done
      else if h.conflicts s then h1.finishCinch n .conflict
      else if s.cls == 6 then
        (match s.members.find? (fun m => m.op == 0x0201) with
         | some m => h1.submitMember n m
         | none => h1)
      else if s.cls == 3 then h1.fixAB (10 * usTicks)
      else h1

/-! ## The instant (R329) -/

/-- A parameter of a member takes effect; PAIR_SHARE waits for its control boundary and is without effect on the SECOND
(R392, R404). -/
def Hw.applyParam (h : Hw) (s : Slot) (id v : Nat) : Hw :=
  if id = 0x0F03 then
    (if h.roped && !h.pair.lead then h
     else { h.putPar id v with pair := { h.pair with shareNext := some (v, s.time) } })
  else h.putPar id v

/-- A member takes effect. -/
def Hw.applyMember (h : Hw) (n : Nat) (s : Slot) (m : Member) : Hw :=
  let d := m.desc
  let op := m.op.toNat
  let bridge := (Bridge.ofByte (d.num 16 1)).getD .brA
  if op = 0x0501 then h.applySetpoint bridge (torqueSp d)
  else if op = 0x0502 then h.applySetpoint bridge (speedSp d)
  else if op = 0x0503 then (h.applySetpoint .brA (pairSp d).1).applySetpoint .brB (pairSp d).2
  else if op = 0x0504 then
    (match h.mapCheck d true with
     | .inr (b, t) => h.modCtl b (fun c => c.activateMap t)
     | .inl _ => h)
  else if op = 0x0402 then
    (h.modRes (d.num 16 1) (fun r => r.loadHalf (d.num 17 1 == 1) (d.payload.extractLsb' 32 256))).harmActivate (d.num 16 1)
  else if op = 0x0C04 then h.applyParam s d.paramId d.paramValue
  else if op = 0x0C0A then (match overlayBody d.dma 3 with | some l => h.applySyscal l | none => h)
  else if op = 0x0C07 then
    (match swapTarget d, m.image with
     | some (k, b), some i => h.applySwap n k b i (if k == .app then s.commit else none)
     | _, _ => h)
  else h

/-- The values a cinch gives its parameters, the last one of each. -/
def Slot.values (s : Slot) : Tab Nat :=
  s.members.foldl (fun t m => if m.op == 0x0C04 then Tab.set t m.desc.paramId m.desc.paramValue else t) []

/-- The relations of R441 with the values the whole cinch gives. -/
def Hw.cinchRelations (h : Hw) (s : Slot) : Bool :=
  let vals := s.values
  vals.all (fun p => relationsOk (fun j => (vals.find j).getD (h.standing j)) p.1)

/-- What keeps a committed cinch from applying (R329): changed versions, a member's own check, a broken relation. A
MODE_REQUEST member is looked at where the edge is made. -/
def Hw.instantCheck (h : Hw) (s : Slot) : Option Status :=
  if h.conflicts s then some .conflict
  else match s.members.findSome? (fun m => if m.op == 0x0201 then none else h.memberCheck m.op.toNat m.desc m.image) with
    | some st => some st
    | none => if h.cinchRelations s then none else some .range

/-- Every member takes effect in staging order. -/
def Hw.applyMembers (h : Hw) (n : Nat) (s : Slot) : Hw := s.members.foldl (fun x m => x.applyMember n s m) h

/-- A committed cinch applies, or completes with what keeps it from it. The commit of an APP swap completes with the
fourth core (R339). -/
def Hw.applyCinch (h : Hw) (n : Nat) : Hw :=
  let s := h.slot n
  match h.instantCheck s with
  | some st => h.finishCinch n st
  | none =>
    let h1 := h.applyMembers n s
    if s.members.any (fun m => m.op == 0x0C07 && m.desc.byte 16 == 6) then h1 else h1.finishCinch n .done

/-- The bridge has a control boundary at the present module time: as reported, or by its period (R113). -/
def Hw.atControl (h : Hw) (b : Bridge) : Bool :=
  (h.ctl b).boundary == some h.time.now || (h.boundaries b 2).contains h.time.now.toNat

/-- The bridge has a period start at the present module time, and no fixed CONTROL_AB boundary lies ahead (R444). -/
def Hw.atPwm (h : Hw) (b : Bridge) : Bool :=
  (h.ctl b).periodStart == h.time.now &&
  (match h.sh.fixedAB with | some t => t.toNat ≤ h.time.now.toNat | none => true)

/-- A member class is met at the present module time (R327). -/
def Hw.classMet (h : Hw) (m : Nat) : Bool :=
  match m with
  | 1 => h.atControl .brA
  | 2 => h.atControl .brB
  | 3 => h.atControl .brA && h.atControl .brB
  | 4 => h.atPwm .brA
  | 5 => h.atPwm .brB
  | _ => true

/-- A committed cinch is due at the present module time (R327); that of MODE_EDGE comes with its mode edge. -/
def Hw.cinchDue (h : Hw) (s : Slot) : Bool :=
  s.state == .committed &&
  (match s.acceptedAt with | some t => t + 10 * usTicks ≤ h.time.clock | none => false) &&
  (match s.cls with
   | 0 => true
   | 1 => h.atControl .brA
   | 2 => h.atControl .brB
   | 3 => h.atControl .brA && h.atControl .brB
   | 4 => if s.members.any (fun m => h.memberClass m.op.toNat m.desc == 4) then h.atPwm .brA
          else (h.ctl .brA).periodStart == h.time.now
   | 5 => if s.members.any (fun m => h.memberClass m.op.toNat m.desc == 5) then h.atPwm .brB
          else (h.ctl .brB).periodStart == h.time.now
   | 7 => s.time.toNat ≤ h.time.now.toNat && s.members.all (fun m => h.classMet (h.memberClass m.op.toNat m.desc))
   | _ => false)

/-- An AT_TIME cinch past its T whose members need a boundary of both bridges has one found for it (R327). -/
def Hw.seekCommon (h : Hw) (s : Slot) : Hw :=
  let need (b : Nat) : Bool := s.members.any (fun m =>
    let c := h.memberClass m.op.toNat m.desc
    c == b || c == 3 || c == b + 3)
  if s.state == .committed && s.cls == 7 && s.time.toNat ≤ h.time.now.toNat && need 1 && need 2 then h.fixAB 0 else h

/-- A setpoint of a committed cinch takes this bridge at the present boundary: a setpoint outside it is superseded (R330). -/
def Hw.cinchTakes (h : Hw) (b : Bridge) : Bool :=
  h.slots.any (fun p => h.cinchDue p.2 && p.2.members.any (fun m =>
    m.op == 0x0503 || ((m.op == 0x0501 || m.op == 0x0502) && Bridge.ofByte (m.desc.num 16 1) == some b)))

/-- A CONTROL_AB boundary is still asked for by something that waits for it. -/
def Hw.wantsAB (h : Hw) : Bool :=
  h.sh.pair.isSome || h.otp.syscalNext.isSome ||
  h.prm.waiting.any (fun w => (paramRow w.id).map (·.cls) == some .controlAB) ||
  h.slots.any (fun p => p.2.state == .committed && p.2.cls == 3)

end Sys2Proof.Machine
end

