-- ==== Sys2Proof/Machine/Limits.lean ====
section
/-!
DEFINITION. Machine/Limits.lean: the operating point and the limits of a bridge: intervals of admissible torque by rank
(R124-R130, R142, R143, R275), and the fitting of a pair (R120).
-/
namespace Sys2Proof.Machine

/-- A value that falls linearly from `full` at `lo` to `low` at `hi`. -/
def fall (full low lo hi x : Int) : Int :=
  if x ≤ lo then full else if hi ≤ x then low else full - (full - low) * (x - lo) / (hi - lo)

/-- Integer square root by binary digits, from bit `n` down. -/
def isqrtFrom : Nat → Nat → Nat → Nat
  | 0, _, r => r
  | n + 1, x, r => let c := r + 2 ^ n
                   isqrtFrom n x (if c * c ≤ x then c else r)

/-- The integer part of a square root below 2^40. -/
def isqrt (x : Nat) : Nat := isqrtFrom 40 x 0

/-- The greatest number reached from `x` by adding powers of two from 2^(n-1) down while the sum fits. -/
def largest (fits : Int → Bool) : Nat → Int → Int
  | 0, x => x
  | n + 1, x => largest fits n (if fits (x + 2 ^ n) then x + 2 ^ n else x)

/-- e^-x with 48 fractional bits, for x with 48 fractional bits: a series at x / 4096, squared twelve times. -/
def expNeg (x : Nat) : Nat :=
  let one : Int := 2 ^ 48
  let y : Int := min x (40 * 2 ^ 48) / 4096
  let s := one - y + y * y / (2 * one) - y * y * y / (6 * one * one) + y * y * y * y / (24 * one * one * one)
  ((List.range 12).foldl (fun a _ => a * a / one) s).toNat

/-- What a first-order lag of bandwidth `f` in Hz gains on its input in some ticks, with 48 fractional bits: 1 - e^(-2 pi f t). -/
def lagGain (f ticks : Nat) : Nat := 2 ^ 48 - expNeg (6283185307 * f * ticks * 2 ^ 48 / (1000000000 * sTicks))

/-- The hottest of some temperatures. -/
def hottest (l : List Int) : Option Int :=
  l.foldl (fun a t => match a with | none => some t | some m => some (maxI m t)) none

/-- The hottest die of a bridge (R128, R166); excluded dies are left out. -/
def Hw.hotDie (h : Hw) (b : Bridge) : Option Int := hottest ((h.gate b).dies.filterMap (·.2))

/-- Die-temperature derating of a current limit (R128): full at TJ_DERATE_START, zero at 175 degC. -/
def Hw.dieDerated (h : Hw) (b : Bridge) (full : Int) : Int :=
  match h.hotDie b with
  | some t => fall full 0 (h.parI 0x051A) 17500 t
  | none => full

/-! ## The operating point (R114, R124, R128) -/

/-- Winding temperatures of a bridge: the TEMP inputs CH47-CH52 that MOTOR_TEMP_MAP assigns to it (R128). -/
def Hw.windings (h : Hw) (b : Bridge) : List Int :=
  (List.range 6).filterMap (fun k =>
    if h.par 0x051B / 4 ^ k % 4 = 1 + b.code then h.sen.reading.find (47 + k) else none)

/-- V_max in mV (R114): FW_MARGIN / 256 x VDC / sqrt 3. -/
def Hw.vmax (h : Hw) : Int := (h.par 0x0516 : Int) * h.pwr.vdc * 577350269 / 256000000000

/-- Stator resistance in micro-ohm at the hottest winding (R114), 0.393 %/K from 20 degC (R134). -/
def Hw.rsHot (h : Hw) (b : Bridge) : Int :=
  (h.par (perBridge 0x051F b) : Int) *
    (1000000 + 3930 * ((hottest (h.windings b)).getD 2000 - 2000) / 100) / 1000000

/-- Pole pairs of a bridge's motor. -/
def Hw.poles (h : Hw) (b : Bridge) : Int := h.par (perBridge 0x0403 b)

/-- The flux limit of R124 in 0.1 uVs, before its clamp; none at standstill, where it does not bind. -/
def Hw.psiLimit (h : Hw) (b : Bridge) : Option Int :=
  let c := h.ctl b
  let i : Int := isqrt ((c.idCur * c.idCur + c.iqCur * c.iqCur).toNat)
  if c.speed = 0 then none
  else some (maxI 0 (h.vmax - h.rsHot b * i / 1000000) * 9549296586 / (1000 * h.poles b * absI c.speed) *
    (1000 - c.fluxCut) / 1000)

/-- The value of a square grid of `last + 1` rows and columns, bilinear at places `x` and `y` from 0 to 1 on its axes, each a
numerator and a denominator (R121). -/
def bilinear (e : Nat → Nat → Int) (last : Nat) (x y : Int × Int) (unit : Int) : Int :=
  let px := (last : Int) * clampI 0 x.2 x.1
  let py := (last : Int) * clampI 0 y.2 y.1
  let i := (px / x.2).toNat
  let j := (py / y.2).toNat
  let fx := px % x.2
  let fy := py % y.2
  let v (i j : Nat) : Int := e (min i last) (min j last)
  ((v i j * (x.2 - fx) + v (i + 1) j * fx) * (y.2 - fy) + (v i (j + 1) * (x.2 - fx) + v (i + 1) (j + 1) * fx) * fy) * unit /
    (x.2 * y.2)

/-- The last unmarked row of a column: its MTPV point (R121). -/
def lastRow (t : MotorTable) (j : Nat) : Nat :=
  ((List.range 64).takeWhile (fun i => !markedEntry (tableEntry t 64 i j))).length - 1

/-- Motoring current (i_d, i_q) in mA peak of an MTPA table for the size of a torque and a flux limit (R121, R124), bilinear. In a
cell with a marked corner that corner is taken at its column's MTPV point (DESIGN CHOICE). -/
def mtpaAt (t : MotorTable) (torque psi : Int) : Int × Int :=
  let e (i j : Nat) : Int × Int := tableEntry t 64 (min i (lastRow t j)) j
  let x := (absI torque, t.lim1)
  let y := (psi - t.lim2, t.lim3 - t.lim2)
  (bilinear (fun i j => (e i j).1) 63 x y 50, bilinear (fun i j => (e i j).2) 63 x y 50)

/-- Places on the axes of a FLUX map for two currents in mA (R121). -/
def fluxPlace (t : MotorTable) (id iq : Int) : (Int × Int) × (Int × Int) := ((id - t.lim1, -t.lim1), (absI iq, t.lim2))

/-- A flux of the FLUX map at two currents in mA, bilinear, 0.1 uVs: (psi_d, psi_q) (R121). -/
def fluxAt (t : MotorTable) (id iq : Int) : Int × Int :=
  let p := fluxPlace t id iq
  let q := bilinear (fun i j => (tableEntry t 32 i j).2) 31 p.1 p.2 100
  (bilinear (fun i j => (tableEntry t 32 i j).1) 31 p.1 p.2 100, if iq < 0 then -q else q)

/-- Incremental inductances (L_d, L_q) in nH at two currents (R114): the slopes of psi_d along i_d and of psi_q along i_q in the
cell of the FLUX map. Entries are 10 uVs. -/
def slopesAt (t : MotorTable) (id iq : Int) : Int × Int :=
  let p := fluxPlace t id iq
  let cell (x : Int × Int) : Nat := min (31 * clampI 0 x.2 x.1 / x.2).toNat 30
  let i := cell p.1
  let j := cell p.2
  (bilinear (fun _ k => (tableEntry t 32 (i + 1) k).1 - (tableEntry t 32 i k).1) 31 p.1 p.2 310000000 / (-t.lim1),
   bilinear (fun k _ => (tableEntry t 32 k (j + 1)).2 - (tableEntry t 32 k j).2) 31 p.1 p.2 310000000 / t.lim2)

/-- Voltage reach at a flux limit (R124) in 0.01 Nm: the MTPV point, linear between columns; zero below psi_MIN. -/
def reachAt (t : MotorTable) (psi : Option Int) : Int :=
  match psi with
  | none => t.lim1 * lastRow t 63 / 63
  | some p =>
    if p < t.lim2 then 0
    else
      let x := (63 * 1024 * (minI p t.lim3 - t.lim2) / (t.lim3 - t.lim2)).toNat
      let at' (j : Nat) : Int := t.lim1 * lastRow t (min j 63) / 63
      at' (x / 1024) + (at' (x / 1024 + 1) - at' (x / 1024)) * (x % 1024 : Nat) / 1024

/-- The flux limit within psi_MIN and psi_MAX of a table (R124). -/
def Hw.psiOn (h : Hw) (b : Bridge) (t : MotorTable) : Int := clampI t.lim2 t.lim3 ((h.psiLimit b).getD t.lim3)

/-- The CONFIG nominal magnet flux in 0.1 uVs, which creep in BASE_CAMP uses (R148). -/
def Hw.psiNominal (h : Hw) (b : Bridge) : Int := (h.otp.config.get (perBridge 0x0521 b) 0 : Nat)

/-- The MTPA table in force, none in BASE_CAMP (R148). -/
def Hw.mtpaOn (h : Hw) (b : Bridge) : Option MotorTable := if h.mode.mode == .baseCamp then none else (h.ctl b).mtpa

/-- The torque that a current in mA rms gives at most (R126 rank 2): the greatest torque whose current on the table stays within
it, or in creep with i_d = 0 from the nominal flux (R148). -/
def Hw.torqueOf (h : Hw) (b : Bridge) (amps : Int) : Int :=
  if amps ≤ 0 then 0
  else match h.mtpaOn b with
    | some t =>
      let psi := h.psiOn b t
      largest (fun x => x ≤ t.lim1 && (let i := mtpaAt t x psi
                                       decide (i.1 * i.1 + i.2 * i.2 ≤ 2 * amps * amps))) 31 0
    | none => 3 * h.poles b * h.psiNominal b * amps * 14142 / (2 * 10 ^ 12)

/-- Torque in 0.01 Nm of a power in W at a speed in 0.01 rpm. -/
def torqueOfPower (watts : Nat) (n : Int) : Int := (watts : Int) * 9549296586 / (100000 * absI n)

/-- Mechanical power in mW of a torque in 0.01 Nm at a speed in 0.01 rpm. -/
def mechPower (t n : Int) : Int := t * n * 10471975512 / 10 ^ 12

/-! ## The overload accounts (R127, R130) -/

/-- Capacity of an overload account for its two currents in mA: 10 s, in mA^2 x ticks. -/
def accountSize (peak cont : Int) : Nat := ((peak * peak - cont * cont) * (10 * sTicks)).toNat

/-- What an account has lost after a current in mA for some ticks: between nothing and all of it. -/
def accountStep (drawn : Nat) (peak cont amps : Int) (ticks : Nat) : Nat :=
  (clampI 0 (accountSize peak cont) ((drawn : Int) + (amps * amps - cont * cont) * ticks)).toNat

/-- The current an account allows: the peak while more than 10 % is left, then linearly to the continuous current. -/
def accountLimit (drawn : Nat) (peak cont : Int) : Int :=
  let size := accountSize peak cont
  let left := size - drawn
  if size < 10 * left then peak
  else if size = 0 then cont
  else cont + (peak - cont) * (10 * left : Nat) / size

/-- The account still allows the peak current. -/
def accountFull (drawn : Nat) (peak cont : Int) : Bool :=
  accountSize peak cont < 10 * (accountSize peak cont - drawn)

/-- The default current of R129 in mA rms. -/
def Hw.defaultCurrent (h : Hw) : Int := if 8500 < h.pwr.coolant then 0 else fall 480000 300000 6500 8500 h.pwr.coolant

/-! ## Intervals of admissible torque (R126) -/

/-- An interval with the status bits of the limits that bound it from below and from above. -/
structure Span where
  lo : Int
  hi : Int
  loBits : W16
  hiBits : W16
  deriving DecidableEq, Repr

/-- No limit. -/
def Span.free : Span := { lo := -1000000000000, hi := 1000000000000, loBits := 0, hiBits := 0 }

/-- The interval intersected with a lower-ranked limit, which yields where nothing would be left: the point nearest to it
(R126). -/
def Span.cut (s : Span) (lo hi : Int) (bit : Nat) : Span :=
  let m : W16 := BitVec.ofNat 16 (2 ^ bit)
  if s.hi < lo then { lo := s.hi, hi := s.hi, loBits := s.hiBits ||| m, hiBits := s.hiBits ||| m }
  else if hi < s.lo then { lo := s.lo, hi := s.lo, loBits := s.loBits ||| m, hiBits := s.loBits ||| m }
  else { lo := maxI s.lo lo, hi := minI s.hi hi, loBits := if s.lo < lo then m else s.loBits
         hiBits := if hi < s.hi then m else s.hiBits }

/-- A limit on the magnitude. -/
def Span.cap (s : Span) (t : Int) (bit : Nat) : Span := s.cut (-t) t bit

/-- A limit on torque with the rotation. -/
def Span.motoring (s : Span) (n t : Int) (bit : Nat) : Span :=
  if 0 < n then s.cut (-1000000000000) t bit else if n < 0 then s.cut (-t) 1000000000000 bit else s

/-- A limit on torque against the rotation. -/
def Span.braking (s : Span) (n t : Int) (bit : Nat) : Span := s.motoring (-n) t bit

/-- The bound on torque with the rotation that holds so far. -/
def Span.motoringBound (s : Span) (n : Int) : Int := if 0 < n then s.hi else -s.lo

/-- Rank 1: voltage reach. -/
def Hw.rank1 (h : Hw) (b : Bridge) (s : Span) : Span :=
  match h.mtpaOn b with
  | some t => s.cap (reachAt t (h.psiLimit b)) 0
  | none => s

/-- The current limit of the overload account in mA rms (R127). -/
def Hw.accountAmps (h : Hw) (b : Bridge) : Int :=
  accountLimit (h.ctl b).overload (h.parI (perBridge 0x050C b)) (h.parI (perBridge 0x050E b))

/-- Rank 2: the overload account, then the dies. -/
def Hw.rank2 (h : Hw) (b : Bridge) (s : Span) : Span :=
  let full := accountFull (h.ctl b).overload (h.parI (perBridge 0x050C b)) (h.parI (perBridge 0x050E b))
  (s.cap (h.torqueOf b (h.accountAmps b)) (if full then 1 else 2)).cap (h.torqueOf b (h.dieDerated b (h.accountAmps b))) 3

/-- The requested power of a bridge in mW: the mechanical power of its ramped torque. R130 shares by the requested DC powers and
gives no formula for them; the model leaves losses out of them (DESIGN CHOICE). -/
def Hw.wanted (h : Hw) (b : Bridge) : Int := mechPower (h.ctl b).ramped (h.ctl b).speed

/-- A bound in mW on what both bridges together take in one direction, as bridge `own` may use it: the rest the other leaves
while the sum fits, else its share in proportion to the requested powers (R130). -/
def shareOut (most own other : Int) : Int := if own + other ≤ most then most - other else own * most / (own + other)

/-- The net power in W that both bridges may return to the DC link (R142), none where nothing bounds it. -/
def Hw.returnLimit (h : Hw) : Option Nat :=
  if h.par 0x0512 = 0 then some 0
  else if h.parI 0x0513 - 20000 < h.pwr.vdc then some (Config.returnable h.pwr.vdc (h.parI 0x0513))
  else none

/-- What a bridge may return to the DC link in mW: its part of the net power of both, with what the other motors (R142). -/
def Hw.mayReturn (h : Hw) (b : Bridge) : Option Int :=
  h.returnLimit.map (fun w =>
    let own := h.wanted b
    let other := h.wanted b.other
    shareOut ((w : Int) * 1000 + maxI 0 other) (maxI 0 (-own)) (maxI 0 (-other)))

/-- The braking power of a bridge in W that the DC link and loss braking take (R142, R143), none where nothing bounds it. -/
def Hw.brakingPower (h : Hw) (b : Bridge) : Option Nat :=
  if h.sh.dcCeil then some 0
  else (h.mayReturn b).map (fun p => (p / 1000).toNat + h.par 0x0515)

/-- The DC link ceiling of rank 3 (R142). -/
def Hw.ceilingRank (h : Hw) (b : Bridge) (s : Span) : Span :=
  let n := (h.ctl b).speed
  match h.brakingPower b with
  | some w => if n = 0 then s else s.braking n (torqueOfPower w n) 4
  | none => s

/-- The DC link floor of rank 3. -/
def Hw.floorRank (h : Hw) (b : Bridge) (s : Span) : Span :=
  let n := (h.ctl b).speed
  let f := clampI 0 1000 ((h.pwr.vdc - h.parI 0x0514) / 50)
  if f = 1000 then s else s.motoring n (s.motoringBound n * f / 1000) 5

/-- The BELAY cap (R275): from the limit at entry it falls over 200 ms. -/
def Hw.belayCap (h : Hw) (b : Bridge) : Int :=
  let final := h.peak b * h.par 0x0A02 / 100
  let from' := (h.ctl b).capFrom
  let t := h.time.clock - h.mode.belayAt
  if from' ≤ final || 200 * msTicks ≤ t then final else from' - (from' - final) * t / (200 * msTicks)

/-- Rank 4: the caps of BASE_CAMP, of BELAY, and of a setpoint that came over CAN (R45, R275, R380). -/
def Hw.rank4 (h : Hw) (b : Bridge) (can : Bool) (s : Span) : Span :=
  let s1 := if h.mode.mode == .baseCamp || can then s.cap (h.peak b / 10) 6 else s
  if h.mode.mode == .belay then s1.cap (h.belayCap b) 6 else s1

/-- The bound on the bridges' DC current in mA: the battery's, or the module's own rating where that is smaller (R130). -/
def Hw.dcBound (h : Hw) (charging : Bool) : Int :=
  minI (h.parI (if charging then 0x0511 else 0x0510)) (accountLimit h.sh.dcDrawn 1100000 720000)

/-- Rank 5: the battery's bounds, shared in proportion to the requested powers; what one bridge returns while the other
motors does not count (R130). -/
def Hw.rank5 (h : Hw) (b : Bridge) (s : Span) : Span :=
  let own := h.wanted b
  let other := h.wanted b.other
  let limit (charging : Bool) : Int := h.dcBound charging * h.pwr.vdc / 1000
  let t := absI (h.ctl b).ramped
  let bounded (p q most : Int) (cut : Int → Span) : Span := if p + q ≤ most then s else cut (t * shareOut most p q / p)
  if 0 < own then
    bounded own (maxI 0 other) (limit false + maxI 0 (-other)) (fun x => s.motoring (h.ctl b).speed x 7)
  else if own < 0 then
    bounded (-own) (maxI 0 (-other)) (limit true + maxI 0 other) (fun x => s.braking (h.ctl b).speed x 8)
  else s

/-- Rank 6: thermal allowance or default, and the derating by winding and magnet temperature (R128, R129, R132). -/
def Hw.rank6 (h : Hw) (b : Bridge) (s : Span) : Span :=
  let s1 := match (h.ctl b).allowance with
    | some i => s.cap (h.torqueOf b i) 9
    | none => s.cap (h.torqueOf b h.defaultCurrent) 13
  let winding := match hottest (h.windings b) with
    | some t => fall 1000 0 (h.parI 0x051C) (h.parI 0x051D) t
    | none => 1000
  let magnet := match (h.ctl b).magTemp with
    | some t => clampI 0 1000 (1000 - (t - h.parI 0x0526))
    | none => 1000
  let f := minI winding magnet
  if f = 1000 then s1 else s1.cut (s1.lo * f / 1000) (s1.hi * f / 1000) 10

/-- The speed limits forward and in reverse (R45, R116, R119, R275, R380). -/
def Hw.speedLimits (h : Hw) (b : Bridge) (sp : Option Setpoint) : Int × Int :=
  let own (v : Int) (id : Nat) : Int := if v = 0 then h.parI (perBridge id b) else v
  let base := match sp with
    | some p => if p.speed then (h.parI (perBridge 0x0508 b), h.parI (perBridge 0x050A b))
        else (own p.fwd 0x0508, own p.rev 0x050A)
    | none => (h.parI (perBridge 0x0508 b), h.parI (perBridge 0x050A b))
  let both (p : Int × Int) (v : Int) : Int × Int := (minI p.1 v, minI p.2 v)
  let camp := h.mode.mode == .baseCamp || (match sp with | some p => p.viaCan | none => false)
  let l1 := if camp then both base (h.parI 0x0208) else base
  if h.mode.mode == .belay then both l1 (h.parI 0x0A03) else l1

/-- Rank 7: the pull of a speed limit, J_ROTOR x 2 pi x SPD_BW x (n_lim - n), with 4 pi^2 / 6000 x 10^-4 folded in. -/
def Hw.rank7 (h : Hw) (b : Bridge) (sp : Option Setpoint) (s : Span) : Span :=
  let n := (h.ctl b).speed
  let l := h.speedLimits b sp
  let pull (d : Int) : Int := (h.par (perBridge 0x052A b) : Int) * h.par 0x0517 * d * 6579736267 / 10 ^ 16
  if l.1 < n then s.cut (-1000000000000) (pull (l.1 - n)) 11
  else if n < -l.2 then s.cut (pull (-l.2 - n)) 1000000000000 11
  else s

/-- Ranks 4 to 7 on what ranks 1 to 3 leave. -/
def Hw.lowerRanks (h : Hw) (b : Bridge) (s : Span) : Span :=
  let sp := (h.ctl b).target
  let can := match sp with | some p => p.viaCan | none => false
  h.rank7 b sp (h.rank6 b (h.rank5 b (h.rank4 b can s)))

/-- The final interval of a bridge (R126), ranks 1 to 7. -/
def Hw.span (h : Hw) (b : Bridge) : Span :=
  h.lowerRanks b (h.floorRank b (h.ceilingRank b (h.rank2 b (h.rank1 b Span.free))))

/-- A torque clamped into an interval, with the bits that bound it. -/
def Span.clamp (s : Span) (t : Int) : Int × W16 := if t < s.lo then (s.lo, s.loBits) else if s.hi < t then (s.hi, s.hiBits) else (t, 0)

/-! ## Pairs (R120) -/

/-- DIFFERENCE: the difference is kept and the common part moves toward zero; where none fits, the difference shrinks by
the least amount that lets one fit. -/
def fitDifference (x y : Span) (ta tb : Int) : Option (Int × Int) :=
  let d := ta - tb
  let c := ta + tb
  let least := minI 0 c
  let most := maxI 0 c
  let dlo := maxI (maxI (x.lo - y.hi) (2 * x.lo - most)) (least - 2 * y.hi)
  let dhi := minI (minI (x.hi - y.lo) (2 * x.hi - least)) (most - 2 * y.lo)
  let d1 := clampI dlo dhi d
  if dhi < dlo || d1 < minI 0 d || maxI 0 d < d1 then none
  else
    let lo := maxI (maxI (2 * x.lo - d1) (2 * y.lo + d1)) least
    let hi := minI (minI (2 * x.hi - d1) (2 * y.hi + d1)) most
    if hi < lo then none
    else
      let c1 := clampI lo hi c
      some ((c1 + d1) / 2, (c1 + d1) / 2 - d1)

/-- The largest factor from 0 to 1, in 2^-30, for which a torque lies in an interval, and the smallest. -/
def factorOf (s : Span) (t : Int) : Option (Int × Int) :=
  if t = 0 then (if s.lo ≤ 0 && 0 ≤ s.hi then some (0, 2 ^ 30) else none)
  else
    let lo := if 0 < t then s.lo else -s.hi
    let hi := if 0 < t then s.hi else -s.lo
    let a := absI t
    some (maxI 0 (-((-lo) * 2 ^ 30 / a)), minI (2 ^ 30) (hi * 2 ^ 30 / a))

/-- RATIO: both scaled by the largest common factor that fits. -/
def fitRatio (x y : Span) (ta tb : Int) : Option (Int × Int) :=
  match factorOf x ta, factorOf y tb with
  | some p, some q =>
    let k := minI p.2 q.2
    if k < maxI p.1 q.1 then none else some (Int.tdiv (k * ta) (2 ^ 30), Int.tdiv (k * tb) (2 ^ 30))
  | _, _ => none

/-- What a policy makes of two torques, none where it finds no fit (R120). -/
def fitPair (policy : Nat) (x y : Span) (ta tb : Int) : Option (Int × Int) :=
  if policy = 1 then fitDifference x y ta tb else if policy = 2 then fitRatio x y ta tb
  else some ((x.clamp ta).1, (y.clamp tb).1)

end Sys2Proof.Machine
end

