-- ==== Sys2Proof/Machine/ChargeOps.lean ====
section
/-!
DEFINITION. Machine/ChargeOps.lean: charge states, phases, limits, hand-over and the steps of DC boost (R202-R234).
-/
namespace Sys2Proof.Machine

/-! ## Functions and ratings -/

/-- A function fed from AC. -/
def ChgFn.isAc : ChgFn → Bool
  | .ac => true | .grid => true | .island => true | .none => false | .boost => false | .topup => false

/-- An export function. -/
def ChgFn.exports : ChgFn → Bool
  | .grid => true | .island => true | .none => false | .ac => false | .boost => false | .topup => false

/-- The function of a code of CHARGE_SETUP. -/
def ChgFn.ofCode : Nat → Option ChgFn
  | 1 => some .ac | 2 => some .grid | 3 => some .island | 4 => some .boost | 5 => some .topup | _ => none

/-- The battery a function charges: 0 HV, 1 LV. -/
def ChgFn.target (f : ChgFn) : Nat := if f == .topup then 1 else 0

/-- Phases of AC_INPUT_CONFIG in use (R214). -/
def Hw.acPhases (h : Hw) : Nat := if h.par 0x0802 = 0 then 3 else 1

/-- Rating of a function: current in mA, power in W (R202, R218). -/
def Hw.rating (h : Hw) (f : ChgFn) : Int × Nat :=
  let three := h.acPhases == 3
  match f with
  | .ac => if three then (32000, 22000) else (80000, 19200)
  | .grid => if three then (32000, 22000) else (80000, 19200)
  | .island => (((11000 * 1000 / (h.acPhases * max (h.par 0x0816 % 65536) 1) : Nat) : Int), 11000)
  | .boost => (600000, 240000)
  | .topup => if h.otp.ident.is48 then (210000, 10000) else (450000, 6000)
  | .none => (0, 0)

/-- The AC input voltage is in the range of R202: a phase voltage in mV. -/
def Hw.inputOk (h : Hw) (v : Int) : Bool :=
  if h.acPhases = 3 then 196300 ≤ v && v ≤ 277100 else 100000 ≤ v && v ≤ 264000

/-- BMS_PERMIT stands in the setup. -/
def Hw.chgPermit (h : Hw) : Bool := match h.chg.setup with | some s => s.permit | none => false

/-- HLC is set in the setup; BASE_CAMP has none (R234). -/
def Hw.chgHlc (h : Hw) : Bool := h.mode.mode != .baseCamp && h.chg.setup.any (·.hlc)

/-! ## Phases (R226, R229) -/

/-- The values of a phase at entry: as written, or in BASE_CAMP as CONFIG holds them (R206, R234). -/
def Hw.phaseValues (h : Hw) (target k : Nat) : ProfPhase :=
  let p := if h.mode.mode == .baseCamp then ({ h with chg := { h.chg with prof := [] } } : Hw).profPhase target k
    else h.profPhase target k
  p.getD { volts := 0, amps := 0, timer := 0 }

/-- A phase is entered with its record open; `equiv` is the charge-equivalent time it carries on (R229, R232). -/
def Hw.enterPhase (h : Hw) (target k equiv : Nat) (restarted : Bool) : Hw :=
  let p : ChgPhase :=
    { target := target, phase := k, equiv := equiv, elapsed := 0, vreg := 0, thermal := 0, charge := 0, energy := 0,
      start := h.time.now, prof := h.phaseValues target k, restarted := restarted, fromBms := false
      countedAt := h.time.clock }
  { h with chg := { h.chg with left := none, phase := some p } }

/-- The phase whose entry condition a voltage meets (R226). -/
def Hw.firstPhase (h : Hw) (target : Nat) (v : Int) : Nat :=
  if v < (h.phaseValues target 1).volts then 1 else if v < (h.phaseValues target 2).volts then 2
  else if v < (h.phaseValues target 4).volts then 3 else 4

/-- Entry to FLOW (R226): the first phase by voltage after a new setup, else the phase left; export opens a record
without a phase. A session is counted when it is new (0x078-0x07C). -/
def Hw.flowEntry (h : Hw) : Hw :=
  let f := h.chgFn
  let t := f.target
  let h1 := if h.chg.fresh then ({ h with chg := { h.chg with fresh := false, left := none } } : Hw).count (0x077 + f.code) 1
    else h
  if h1.chg.phase.isSome then h1
  else if f.exports then h1.enterPhase 0 0 0 false
  else match h1.chg.left with
    | some p => h1.enterPhase p.target p.phase p.equiv p.restarted
    | none => h1.enterPhase t (h1.firstPhase t (h1.battVolts t)) 0 false

/-- Current field a phase's timer rate is taken against (R229): CV counts against I(CC). -/
def Hw.progCurrent (h : Hw) (p : ChgPhase) : Int :=
  if p.phase = 4 then (h.phaseValues p.target 3).amps else p.prof.amps

/-- The rate of R229 in 0.1 %, clamped to 250-1000; TERMINATION counts at 1000. -/
def timerRate (phase : Nat) (amps prog : Int) : Nat :=
  if phase = 5 then 1000 else if prog ≤ 0 then 1000
  else (clampI 250 1000 (amps * 1000 / prog)).toNat

/-! ## The converter at work (R182, R192, R197) -/

/-- Rated output power, W. -/
def Hw.lvPower (h : Hw) : Int := if h.otp.ident.is48 then 10000 else 6000

/-- The converter's default power in W without an allowance (R192). -/
def Hw.lvDefault (h : Hw) : Int :=
  if 8500 < h.pwr.coolant then h.lvPower / 4 else fall h.lvPower (h.lvPower / 2) 6500 8500 h.pwr.coolant

/-- A phase may run (R190): neither of its high sides is locked off, and a released one's bootstrap has been back for 1 ms. -/
def Lv.phaseFit (l : Lv) (clock k : Nat) : Bool :=
  [2 * k, 2 * k + 1].all (fun leg => !l.locked.getLsbD leg &&
    (match l.bootOkAt.find (0x10 + leg) with | some t => decide (t + msTicks ≤ clock) | none => true))

/-- The first so many phases that may run, and the first so many healthy cells. -/
def Lv.firstPhases (l : Lv) (clock n : Nat) : BitVec 8 := BitVec.ofNat 8 (maskOf (((List.range 8).filter (l.phaseFit clock)).take n))
def Lv.firstCells (l : Lv) (n : Nat) : BitVec 4 :=
  BitVec.ofNat 4 (maskOf (((List.range 4).filter (fun k => !l.cellsFailed.getLsbD k)).take n))

/-- The highest threshold code that stands for no more than a voltage, of an input with full scale 80 V (R77), and what a code
stands for, in mV. -/
def codeAtOrBelow (mv : Int) : Nat := ((mv + 80000) * 512 / 80000).toNat
def codeVolts (k : Nat) : Int := (k : Int) * 80000 / 512 - 80000

/-- Threshold codes the conversion tile gives its monitors: 24 low at 98.5 % of LV_VSET (R187), 25 and 26 high at LV_OV_LEVEL. -/
def Hw.stepCode (h : Hw) : Nat := codeAtOrBelow (h.parI 0x0701 * 985 / 1000)
def Hw.overCode (h : Hw) : Nat := codeAtOrBelow (h.parI 0x0706)

/-- The conversion tile's monitors 24 to 27 (R180, R187, R193): LV_OUT in FAST mode for load steps, CH13 and CH14 in FAST mode for
overvoltage, the bus in MID mode with thresholds 768 and 896. -/
def Hw.lvMonitors (h : Hw) : Hw :=
  let put (t : Tab Monitor) (n input mode low high : Nat) : Tab Monitor :=
    t.set n { t.get n {} with input := input, mode := mode, inside := false, low := low, high := high, base := 2 }
  let m := put (put (put h.sen.mons 24 14 1 h.stepCode 1023) 25 13 1 0 h.overCode) 26 14 1 0 h.overCode
  { h with sen := { h.sen with mons := put m 27 12 2 768 896 } }

/-- The stage begins at step 2 of R182, or with its cells at step 1 where they have stopped. -/
def Hw.lvBegin (h : Hw) (cells : BitVec 4) (st : LvState) : Hw :=
  let h1 := (h.startWaiting .conv).lvMonitors
  let l := h1.lv.stageOff
  ({ h1 with lv := { l with cellsUp := true, cellSet := if l.cellsUp then l.cellSet else cells
                            phaseSet := l.firstPhases h.time.clock (max (h.par 0x0709) 1), resume := false, autoDue := false
                            periodAt := h.time.clock } } : Hw).lvGo st

/-- A forward start (R182). -/
def Hw.lvStart (h : Hw) : Hw := h.lvBegin (h.lv.firstCells 1) .starting

/-- The reference ramps from the measured output (R182, step 5). -/
def Hw.lvRamp (h : Hw) (from' : Int) : Hw :=
  { h with lv := { h.lv with closed := true, rampAt := h.time.clock, rampFrom := from', ref := from'
                             rampLen := h.parTicks 0x0704, rose := false, shortAt := none, foldAt := none } }

/-- Forward service takes over from a pre-charge hold with the switch closed (R197), once the DC link is at or above 255 V. -/
def Hw.lvFromHold (h : Hw) (q : Option Req) : Hw :=
  let h1 : Hw := { h with lv := { h.lv with req := q, fwdInHold := none, preAmps := 0, autoDue := false, periodAt := h.time.clock
                                            phaseSet := h.lv.firstPhases h.time.clock (max (h.par 0x0709) 1) } }
  (h1.lvRamp h.lv.vout).lvGo .starting

/-- Top-up is in FLOW. -/
def Hw.topupFlows (h : Hw) : Bool := h.chgFn == .topup && h.chg.state == .flow

/-- FLOW of top-up runs the converter in forward service (R198, R226). -/
def Hw.topupStart (h : Hw) : Hw :=
  if !h.topupFlows || h.pwr.vdc < 255000 || h.lvInhibited || h.lv.shut != 0 then h
  else if h.lv.state == .stopped then h.lvStart
  else if h.lv.state == .hold then h.lvFromHold h.lv.fwdInHold
  else h

/-! ## States (R213) -/

/-- The pilot allows ARMED (R213): B with a current on offer, or digital communication under HLC. Islanded export has no
EVSE, and top-up no plug. -/
def Hw.armable (h : Hw) : Bool :=
  match h.chgFn with
  | .topup => true
  | .island => h.chg.pp.plugged
  | .none => false
  | _ => h.chg.pp.plugged && h.chg.cp == .cpB && (0 < h.chg.offer || (h.chg.digital && h.chgHlc))

/-- FLOW begins (R207, R213): S2 closes, the source is awaited, the phase is entered; top-up takes the converter. -/
def Hw.startFlow (h : Hw) (q : Option Req) (cause : Byte) : Hw :=
  let f := h.chgFn
  let h1 := h.chgGo .flow cause 0
  ({ h1 with chg := { h1.chg with s2 := f != .topup, startReq := q, startAt := h.time.clock, paused := false, outage := false,
                                  vref := [], refCycles := 0, refSum := [], limitAt := h.time.clock
                                  limit := if f == .boost then 30000 else 0, overAt := none, peakAt := none
                                  reduced := h.mode.mode == .baseCamp, suspendedBy := 0
                                  lowAt := none, goodAt := none, gridAt := none
                                  dcb := if f == .boost then .testing else h1.chg.dcb, dcbAt := h.time.clock } } : Hw).flowEntry.topupStart

/-- PP and the setup move the state on from UNPLUGGED and PLUG_WAIT, and AUTO_START starts (R213). -/
def Hw.chgSettle (h : Hw) : Hw :=
  let h1 := if h.chg.state == .unplugged && h.chg.pp.plugged then h.chgGo .plugWait 0 0 else h
  let waits := h1.chg.state == .plugWait || (h1.chgFn == .topup && h1.chg.state == .unplugged)
  if waits && h1.chgLive && h1.chg.confirmed && h1.chgPermit && !h1.chg.outage && h1.armable then
    let h2 := h1.chgGo .armed 0 0
    (match h2.chg.setup with
     | some s => if s.auto && s.fn != .boost then h2.startFlow none 0 else h2
     | none => h2)
  else h1

/-- S2 and the current are off. -/
def Hw.chgIdle (h : Hw) : Hw := { h with chg := { h.chg with current := 0, limit := 0, outLimit := 0, s2 := false } }

/-- The session stops without a drain and goes to a state; a START that waits completes ABORTED, a PAUSE or STOP DONE,
since the current is zero. -/
def Hw.chgStopTo (h : Hw) (reason : Byte) (st : ChgState) (cause : Byte) (code : W16) : Hw :=
  ((h.chgEndPhase reason).chgIdle.chgGo st cause code).chgCompleteAll .aborted .done

/-- SUSPENDED (R213, R227-R230): current zero, S2 open. A STOP that drains completes with it. -/
def Hw.chgSuspend (h : Hw) (code : W16) (reason : Byte) : Hw :=
  let h1 := h.chgStopTo reason .suspended 3 code
  { h1 with chg := { h1.chg with suspendedBy := code, lowAt := none, goodAt := none, draining := false
                                 dcb := if h.chg.boosting then .inletClosed else .off } }

/-- A suspension ends and the function returns to FLOW. -/
def Hw.chgUnsuspend (h : Hw) : Hw := h.startFlow none 0

/-- The drain bound has passed (R50): the stop is forced, and what is outstanding completes ABORTED. -/
def Hw.chgForced (h : Hw) : Hw :=
  let h1 := (h.chgEndPhase 2).chgOpen
  (h1.chgGo (if !h.chg.pp.plugged && h.chgFn != .topup then .unplugged else if h.chgLive then .armed else .plugWait) 0
    0).chgCompleteAll .aborted .aborted

/-- Zero current ends a PAUSE (R207) or a drain. -/
def Hw.chgAtZero (h : Hw) : Hw :=
  if h.chg.draining && !h.chg.boosting then h.chgDrained
  else match h.chg.pauseReq with
    | none => h
    | some _ =>
      let h1 := h.chgStopTo 2 .armed 0 0
      { h1 with chg := { h1.chg with paused := true } }

/-- R224 from step 1: the inlet current ramps to zero within 100 ms. -/
def Hw.boostEnding (h : Hw) : Hw :=
  { h with chg := { h.chg with dcb := .ending, dcbAt := h.time.clock, endFrom := h.chg.limit } }

/-- Session completion (R226): the record is closed, S2 opens or DC boost ends, and CHARGE leads to READY. -/
def Hw.sessionComplete (h : Hw) : Hw :=
  let h1 := h.chgEndPhase 1
  let h2 := { h1 with chg := { h1.chg with left := none } }
  let h3 := if h2.chg.boosting then h2.boostEnding
    else (h2.chgIdle.chgGo .armed 4 0).chgCompleteAll .aborted .done
  if h.mode.mode == .charge then h3.ownRequest .ready 0 else h3

/-! ## Limits -/

/-- The OBC's share of its power in 0.1 % from heatsink and coolant (R219), and its allowance in W. -/
def Hw.obcPower (h : Hw) (rated : Nat) : Int :=
  if h.chg.obcShut then 0
  else
    let hot := (rated : Int) * h.chg.obcLimit / 1000
    match h.chg.allowance with
    | some a => minI hot a
    | none => if 8500 < h.pwr.coolant then 0 else minI hot (fall rated ((rated : Int) / 2) 6500 8500 h.pwr.coolant)

/-- A power in W as a current per phase in mA at phase voltages in mV. -/
def ampsAt (watts : Int) (volts : List Int) : Int :=
  let sum := volts.foldl (· + ·) 0
  if sum ≤ 0 then 0 else watts * 1000000 / sum

/-- The voltages at which an AC function takes or gives its current: V_ref of each phase, islanded the nominal one (R212, R218). -/
def Hw.acVolts (h : Hw) : List Int :=
  if h.chgFn == .island then List.replicate h.acPhases (1000 * (h.par 0x0816 % 65536 : Nat)) else h.chg.vref

/-- The least of some currents. -/
def leastI (a : Int) (l : List Int) : Int := l.foldl minI a

/-- The current a phase allows, in mA (R226): its current field, I(CC) in CV, and in TERMINATION what is left of I(CV) by the
ramp to zero at I(CC) per 10 s. -/
def Hw.phaseAmps (h : Hw) (p : ChgPhase) : Int :=
  let cc := (h.phaseValues p.target 3).amps
  if p.phase = 4 then cc
  else if p.phase = 5 then maxI 0 ((h.phaseValues p.target 4).amps - cc * p.elapsed / 10000)
  else p.prof.amps

/-- The voltage a phase of top-up puts in place of LV_VSET, in mV (R226): the field of TRICKLE, PRECHARGE and CV, and V(CV) in CC
and TERMINATION. -/
def Hw.phaseVolts (h : Hw) (p : ChgPhase) : Int :=
  if p.phase = 3 || p.phase = 5 then (h.phaseValues p.target 4).volts else p.prof.volts

/-- Current the temperature bands and battery faults leave of the phase current, in mA (R227, R228). -/
def Hw.phaseCurrent (h : Hw) (p : ChgPhase) : Int :=
  let full := h.phaseAmps p
  let trickle := (h.phaseValues p.target 1).amps
  let byBand := if h.chg.band = 2 then minI full trickle
    else if h.chg.band = 1 then full * h.par 0x080D / 100 else full
  if h.chg.missing || h.chg.shorted then minI byBand trickle else byBand

/-- The input power limit of an AC function in W: setup, BMS and temperature (R212, R219). -/
def Hw.acPower (h : Hw) : Int :=
  let r := (h.rating h.chgFn).2
  let setup := match h.chg.setup with | some s => if s.power = 0 then (r : Int) else s.power | none => 0
  let bms := match h.chg.limPow with | some p => (p : Int) | none => r
  minI (minI setup bms) (h.obcPower r)

/-- The AC input current limit (R212) with the factor of R215 applied, in mA. An islanded output carries up to 150 % of rated current,
for as long as R218 allows. -/
def Hw.acLimit (h : Hw) : Int :=
  let c := h.chg
  let r := if h.chgFn == .island then (h.rating h.chgFn).1 * 3 / 2 else (h.rating h.chgFn).1
  let setup := match c.setup with | some s => if s.current = 0 then r else s.current | none => 0
  let offer := if h.chgFn == .island then r else if c.digital then (if h.chgHlc then c.limCur.getD 0 else 0) else c.offer
  let cable := match c.pp with | .plug a => (a : Int) | .noPlug => (0 : Int) | .invalid => 0
  let base := leastI r [setup, offer, c.limCur.getD r, (if h.chgFn == .island then minI r (ampsAt (h.acPower * 3 / 2) h.acVolts) else ampsAt h.acPower h.acVolts),
    (if c.reduced then 16000 else r), (match c.belayCap with | some x => x | none => r)]
  let wired := if h.chgFn == .island then base else minI base cable
  wired * c.vreg / 1000

/-- The OBC's output current limit in mA (R214, R226-R228): the phase current within 60 A; none in export. -/
def Hw.obcOut (h : Hw) : Int :=
  match h.chg.phase with
  | some p => if h.chgFn.exports then 0 else minI 60000 (h.phaseCurrent p)
  | none => 0

/-- The phase of top-up that governs the converter; with the LV battery missing there is plain forward service (R226, R227). -/
def Hw.topupPhase (h : Hw) : Option ChgPhase := if h.topupFlows && !h.chg.missing then h.chg.phase else none

/-- The current of top-up in place of LV_I_LIMIT, in mA (R203, R207, R226, R234). -/
def Hw.topupAmps (h : Hw) (p : ChgPhase) : Int :=
  let r := (h.rating .topup).1
  let setup := match h.chg.setup with | some s => if s.current = 0 then r else s.current | none => 0
  leastI (h.phaseCurrent p) [setup, h.chg.limCur.getD r, h.chg.belayCap.getD r]

/-- The power of top-up in W: the setup's and SET_LIMITS' (R203, R207). -/
def Hw.topupWatts (h : Hw) : Int :=
  let r := (h.rating .topup).2
  minI (match h.chg.setup with | some s => if s.power = 0 then (r : Int) else s.power | none => 0) (h.chg.limPow.getD r : Nat)

/-- A third of each bridge's die-derated current, times six (R223). -/
def Hw.boostDies (h : Hw) : Int := 6 * (minI (h.dieDerated .brA (h.parI 0x050C)) (h.dieDerated .brB (h.parI 0x050D)) / 3)

/-- The thermal allowance of DC boost or its default by the coolant (R223), in mA. -/
def Hw.boostHeat (h : Hw) : Int :=
  match h.chg.dcbAllowance with
  | some a => a
  | none => if 8500 < h.pwr.coolant then 0 else fall 600000 300000 6500 8500 h.pwr.coolant

/-- The function is reduced by heat or by a temperature band (R219, R223, R228, R233). -/
def Hw.chgWarm (h : Hw) : Bool :=
  h.chg.band != 0 ||
  (match h.chgFn with
   | .boost => decide (h.boostHeat < 600000) || decide (h.dieDerated .brA (h.parI 0x050C) < h.parI 0x050C) ||
       decide (h.dieDerated .brB (h.parI 0x050D) < h.parI 0x050D)
   | .topup => decide (h.lv.limCur < 1000) || decide (h.lv.limPow < 1000) || h.lv.shut != 0 ||
       decide (h.lv.allowance.getD h.lvDefault < h.lvPower)
   | .none => false
   | _ => decide (h.obcPower (h.rating h.chgFn).2 < (h.rating h.chgFn).2))

/-- A BMS measurement of the charge current that still counts (R208), else the module's own. -/
def Hw.battAmps (h : Hw) (target : Nat) (own : Int) : Int × Bool :=
  match (if target = 0 then h.chg.battHv else h.chg.battLv) with
  | some s => match s.amps with
    | some a => if h.time.clock < s.at' + sTicks then (a, true) else (own, false)
    | none => (own, false)
  | none => (own, false)

/-- The inlet current that corresponds to a battery current (R223), at the measured ratio of the two; below 5 A of either, which gives
no ratio, at that of the voltages (DESIGN CHOICE). -/
def Hw.inletFor (h : Hw) (batt : Int) : Int :=
  let own := (h.battAmps 0 (0 - h.sen.reading.get 6 0)).1
  if 5000 ≤ own && 5000 ≤ h.chg.current then batt * h.chg.current / own
  else if h.chg.inlet ≤ 0 then 0 else batt * h.pwr.vdc / h.chg.inlet

/-- The inlet current limit of DC boost (R223), in mA. -/
def Hw.boostLimit (h : Hw) : Int :=
  let c := h.chg
  let setup := match c.setup with | some s => if s.current = 0 then (600000 : Int) else s.current | none => 0
  let power := match c.setup with | some s => if s.power = 0 then (240000 : Int) else minI s.power 240000 | none => 0
  let bms := minI power (match c.limPow with | some p => (p : Int) | none => 240000)
  let phase := match c.phase with | some p => h.phaseCurrent p | none => 0
  let byPower := if h.pwr.vdc ≤ 0 then 0 else h.inletFor (bms * 1000000 / h.pwr.vdc)
  let full := if c.inlet ≤ 0 then 0 else 240000 * 1000000 / c.inlet
  leastI 600000 [setup, c.limCur.getD 600000, full, byPower, h.inletFor phase, h.boostDies, h.boostHeat] * c.vreg / 1000

/-- A current limit follows its target: down at once, up along a ramp in mA per `per` ticks (R212, R214, R220). -/
def Hw.rampLimit (h : Hw) (target : Int) (ramp per : Nat) : Hw :=
  let dt := h.time.clock - h.chg.limitAt
  let owed := ramp * dt + h.chg.limitRem
  let up := h.chg.limit + ((owed / per : Nat) : Int)
  { h with chg := { h.chg with limit := if target ≤ h.chg.limit then target else minI target up
                               limitAt := h.time.clock, limitRem := owed % per } }

/-- The factor of input-voltage regulation in 0.1 % (R215): full from CHG_VREG_START on, 25 % from CHG_VREG_FLOOR down. -/
def vregFactor (v vref : Int) (start floor : Nat) : Nat :=
  if vref ≤ 0 || start ≤ floor then 1000
  else if start * vref ≤ v * 1000 then 1000
  else if v * 1000 ≤ floor * vref then 250
  else (250 + (v * 1000 - floor * vref) * 750 / (((start : Int) - floor) * vref)).toNat

/-! ## Source loss (R231, R232) -/

/-- The hand-over begins (R231): S2 open, OBC stopped, the converter capped; counted (0x07E). -/
def Hw.handOver (h : Hw) (unplugged : Bool) : Hw :=
  let power := (h.lv.vout * h.lv.load / 1000000).toNat
  let h1 := h.chgGo .handOver (if unplugged then 2 else 1) 0
  let h2 : Hw := { h1 with chg := { h1.chg with s2 := false, current := 0, limit := 0, handAt := h.time.clock
                                                handUnplugged := unplugged
                                                capPower := some (min power (h.par 0x0806))
                                                capBy := h.time.clock + 20 * msTicks + sTicks } }
  (h2.count 0x07E 1).chgCompleteAll .aborted .done

/-- An outage (R217, R232): PLUG_WAIT with cause OUTAGE until the source has been back for the hold-off. -/
def Hw.chgOutage (h : Hw) (reason : Byte) : Hw :=
  let h1 := h.chgStopTo reason .plugWait 1 0
  { h1 with chg := { h1.chg with outage := true, mainsAt := none, handAt := h.time.clock, draining := false } }

/-- PP has left its PLUG class (R216, R232): the setup is no longer confirmed, the timers reload. -/
def Chg.unplug (c : Chg) : Chg :=
  { c with confirmed := false, fresh := true, expired := [], left := none, outage := false, leftPlug := true, paused := false
           band := 0, bandAt := none, missing := false, shorted := false }

/-- The resistance in ohms that the module adds between CP and PE by S2 (R210): none with S2 open, 1.3 kOhm for state C, or
270 ohm for state D where STATE_D_ALLOWED is set. -/
def Chg.s2Ohms (c : Chg) : Option Nat :=
  if !c.s2 then none else if c.setup.any (·.stateD) then some 270 else some 1300

/-- The faults that a plug cycle clears (R216, R218, R227, R230). -/
def plugFaults : List W16 :=
  [fltChgResidual.code, fltChgPeFault.code, fltChgBackfeed.code, fltChgTimer.code, fltChgBattMissing.code,
   fltChgBattShorted.code, fltChgInputLow.code]

/-- Every one of some faults with source 0xFF clears. -/
def Hw.clearAll (h : Hw) (codes : List W16) : Hw := codes.foldl (fun x c => x.clearFault c 0xFF) h

/-! ## DC boost (R220-R225) -/

/-- SO_1 or SO_2 is switched on and counted (0x069, 0x06A). -/
def Hw.closeSo (h : Hw) (second : Bool) : Hw :=
  if second then ({ h with saf := { h.saf with so2 := true } } : Hw).count 0x06A 1
  else ({ h with saf := { h.saf with so1 := true } } : Hw).count 0x069 1

/-- Matching fails (R220): SO_1 and SO_2 stay open. -/
def Hw.matchFail (h : Hw) : Hw :=
  let q := h.chg.matchReq
  let h1 : Hw := { h with chg := { h.chg with dcb := .off, spA := false, spB := false, matchReq := none }
                          saf := { h.saf with so1 := false, so2 := false } }
  h1.occurThen fltDcbMatchFail fltDcbMatchFail.cls 0xFF (fun x => x.completeOpt q .aborted)

/-- The filter is within 20 V of the station. -/
def Hw.matched (h : Hw) : Bool := absI (h.chg.inlet - h.chg.station) ≤ 20000

/-- A millisecond of matching (R220, steps 3 to 6). -/
def Hw.matchStep (h : Hw) : Hw :=
  let t := h.time.clock - h.chg.dcbAt
  let mark (x : Hw) : Hw := { x with chg := { x.chg with dcbAt := h.time.clock } }
  if !h.saf.so2 then
    (if 5 * msTicks ≤ t && h.matched then mark (h.closeSo true)
     else if 25 * msTicks ≤ t then h.matchFail else h)
  else if !h.saf.so1 then
    (if t < 20 * msTicks then h else if h.matched then mark (h.closeSo false) else h.matchFail)
  else if t < 20 * msTicks then h
  else if h.anyActive [fltSoSwitchFail.code, fltSoShort.code, fltSoOpenLoad.code] then h.matchFail
  else ({ h with chg := { h.chg with dcb := .inletClosed, matchReq := none } } : Hw).completeOpt h.chg.matchReq .done

/-- R224 from step 2: SO_1 and then SO_2 open, and the filter is boosted into the DC link. -/
def Hw.boostOpen (h : Hw) : Hw :=
  { h with chg := { h.chg with dcb := .checking, dcbAt := h.time.clock, current := 0, limit := 0 }
           saf := { h.saf with so1 := false, so2 := false } }

/-- R224, step 4: SPA and SPB open, and the function enters ARMED. -/
def Hw.boostDone (h : Hw) : Hw :=
  let h1 := h.chgEndPhase 2
  let h2 := h1.chgOpen.chgGo (if h.chg.pp.plugged then (if h.chgLive then .armed else .plugWait) else .unplugged) 0 0
  h2.chgCompleteAll .aborted .done

/-- A boost event of R225 whose action is R224 from step 2. -/
def Hw.boostLost (h : Hw) : Hw := if h.chg.boosting then (h.chgEndPhase 3).boostOpen else h

/-- A millisecond of the ending (R224): the current limit falls to zero in 100 ms; below 5 A the contactors open, below 60 V the star
points. -/
def Hw.boostEndStep (h : Hw) (amps : Int) : Hw :=
  let left : Int := 100 * msTicks - min (h.time.clock - h.chg.dcbAt) (100 * msTicks)
  if h.chg.dcb == .ending then
    (if amps < 5000 then h.boostOpen else { h with chg := { h.chg with limit := h.chg.endFrom * left / (100 * msTicks : Nat) } })
  else if h.chg.dcb == .checking then (if h.chg.inlet < 60000 then h.boostDone else h)
  else h

/-- Carrier angle of a boost leg in degrees (R221): bridge A at 0, 120 and 240, bridge B at 60, 180 and 300. -/
def boostAngle (leg : Nat) : Nat := 120 * (leg % 3) + (if leg < 3 then 0 else 60)

/-- The low-side duty of the boost legs in 0.1 % (R221): about 1 - V_inlet / VDC. -/
def Hw.boostDuty (h : Hw) : Nat :=
  if h.pwr.vdc ≤ 0 then 0 else (clampI 0 1000 (1000 - h.chg.inlet * 1000 / h.pwr.vdc)).toNat

/-- A current differs from what it should be by more than 2 %. -/
def astray (is want : Int) : Bool := decide (2 * absI want < 100 * absI (is - want))

/-- The duty and its trims (R221): the tile trims a leg whose star-point current (CH35, CH36) is not half the inlet current within 2 %, or
whose phase current is not a third of its star point's. -/
def Hw.boostTrims (h : Hw) (amps : Int) : Hw :=
  let star (k : Nat) : Int := h.sen.reading.get (if k < 3 then 35 else 36) 0
  let off (k : Nat) : Bool := astray (star k) (amps / 2) || astray (h.sen.reading.get k 0) (star k / 3)
  let trim (t : Tab Int) (k : Nat) : Tab Int := if off k then t.set k (Config.boostTrim h.free k) else t
  ({ h with chg := { h.chg with duty := h.boostDuty, legTrim := (List.range 6).foldl trim h.chg.legTrim } } : Hw).drawn

/-- A millisecond of DC boost with the inlet voltage and current measured (R215, R220, R224). -/
def Hw.boostStep (h : Hw) (volts amps : Int) : Hw :=
  let h1 : Hw := { h with chg := { h.chg with inlet := volts, current := amps } }
  match h.chg.dcb with
  | .off => h1
  | .matching => if h1.chg.draining then h1.boostOpen else h1.matchStep
  | .inletClosed => if h1.chg.draining then h1.boostOpen else h1
  | .testing => if h1.chg.draining then h1.boostEnding else h1
  | .running =>
    if h1.chg.draining then h1.boostEnding
    else if h1.chg.pauseReq.isSome then
      (if amps ≤ 0 then ({ h1 with chg := { h1.chg with dcb := .inletClosed } } : Hw).chgAtZero
       else { h1 with chg := { h1.chg with limit := 0 } })
    else
      let h2 : Hw := { h1 with chg := { h1.chg with vreg := vregFactor volts h.chg.station (h.par 0x0804) (h.par 0x0805) } }
      ((h2.rampLimit h2.boostLimit (h2.par 0x0811) msTicks).boostTrims amps).addEnergy 0x02A ((volts * amps / 1000).toNat * msTicks)
  | .ending => h1.boostEndStep amps
  | .checking => h1.boostEndStep amps

end Sys2Proof.Machine
end

