-- ==== Sys2Proof/Machine/Modes.lean ====
section
/-!
DEFINITION. Machine/Modes.lean: supplies, wake-up, bring-up, images at wake, mode requests and mode edges, drains that are
forced, and the thermal allowances (R9, R22-R27, R34-R54, R415).
-/
namespace Sys2Proof.Machine

/-! ## Sleep -/

/-- The wake settings (R443). -/
def wakeIds : List Nat :=
  [0x0201, 0x0202, 0x0203, 0x0204, 0x0205, 0x0E09, 0x0E0A, 0x0E0B, 0x0E0C, 0x0E0D, 0x0E0E, 0x0E0F, 0x0E10,
   0x0E1A, 0x0E1B, 0x0E1C, 0x0E1D]

/-- Only P0 is powered (R49, R443): module time runs on, the wake settings, a latched wake event and WM0's arming are held,
and everything else of the wake is lost. -/
def Hw.sleep (h : Hw) : Hw :=
  let h1 := h.outside
  { h1 with time := { h1.time with now := h.time.now }
            mode := { phase := .asleep, latched := h.mode.latched, wm0Armed := h.mode.wm0Armed, since := h.time.clock }
            prm := { vals := h.prm.vals.filter (fun p => wakeIds.contains p.1) }
            chg := { h1.chg with expired := h.chg.expired.filter (· < 8) }
            sen := { mons := h.sen.mons.filter (fun p => decide (48 ≤ p.1)) } }

/-! ## Wake (R40-R46) -/

/-- The least VSUP at which the module wakes, mV (R38). -/
abbrev vsupMin : Int := 3800

/-- A safety set whose stored check value is right (R271). -/
def safetySetOk (o : Otp) : Bool :=
  match o.body 4 with
  | some l => (checkValue (entryTab o.safetyEntries)).toNat == field l 0 4
  | none => false

/-- The wake begins (R40, R46, R342): OTP resolves, the safety set of its active generation is in force where its check
value is right (R271), and the WAKE event is the first on the event ring. -/
def Hw.wakeUp (h : Hw) (code : Nat) : Hw :=
  let o := h.otp.resolve
  let set : Tab Nat := if safetySetOk o then o.safetyEntries.filter (fun p => p.1 / 256 == 0x0A) else []
  let h1 : Hw :=
    { h with otp := o, prm := { h.prm with vals := set.foldl (fun t p => Tab.set t p.1 p.2) h.prm.vals }
             mode := { h.mode with phase := .bringUp, wakeReason := BitVec.ofNat 16 code, wakeAt := h.time.clock
                                   lastCommand := h.time.clock, latched := none, topupWait := code == 10, topupBack := false }
             time := { h.time with msAt := h.time.clock } }
  (h1.count (if code = 0x10 then 0x016 else 0x008 + code) 1).postEvent 0x0202 h.time.now (leBytes 2 code)

/-- TOPUP_WAKE_FRAME leaves as a CAN CC data frame of length 0 (R44, R53), where its channel is configured. -/
def Hw.topupFrame (h : Hw) : Hw :=
  let v := h.par 0x0205
  let ch := v / 2 ^ 32 % 4
  h.emit (.can ch { word := BitVec.ofNat 32 (v % 2 ^ 30), fmt := .cc })

/-- A wake monitor sees a crossing (R81): as MON_SET has set it up, else by its default: WM0 below 11.8 V on LVB_SENSE of 80 V
full scale with 0.4 V of hysteresis, WM1 above the coolant threshold of CONFIG, where CONFIG holds one. `present`: the crossing
was there before. -/
def Hw.wakeCrosses (h : Hw) (n : Nat) (level : Int) (present : Bool) : Bool :=
  match h.sen.mons.find n with
  | some m => m.mode != 0 && m.crosses level present
  | none =>
    if n = 48 then level * 80000 < (if present then 12200 else 11800) * 32768
    else if n = 49 then (match h.otp.config.find 0x0105 with
      | some t => decide ((t : Int) < Config.thermistor 53 level)
      | none => false)
    else false

/-- A wake source may wake (R40, R44, R81): enabled, with its own settings; an input with the edge its polarity names, a
wake monitor whose input crosses, WM0 while it is armed. -/
def Hw.wakeEnabled (h : Hw) (src : Nat) (falling : Bool) (level : Int) : Bool :=
  h.par 0x0201 / 2 ^ src % 2 == 1 &&
  (if src < 4 then h.par 0x0202 / 4 ^ src % 4 == 1
   else if src = 6 || src = 7 then (h.par 0x0203 / 2 ^ (src - 6) % 2 == 1) == falling
   else if src = 9 then h.par 0x0204 != 0 && h.mode.since + h.par 0x0204 * sTicks ≤ h.time.clock
   else if 10 ≤ src then h.wakeCrosses (src + 38) level false && (src != 10 || h.mode.wm0Armed)
   else true)

/-- The module wakes from BIVOUAC (R38), and after WM0 sends the wake frame of R44. -/
def Hw.wakeFrom (h : Hw) (src : Nat) : Hw :=
  if h.pwr.vsup < vsupMin then h else if src = 10 then (h.wakeUp src).topupFrame else h.wakeUp src

/-- A wake source that may wake has fired (R38, R40, R42, R44): asleep the module wakes, unless a latched event is about to
wake it; while it enters BIVOUAC the event is latched. -/
def Hw.wakeBy (h : Hw) (src : Nat) : Hw :=
  match h.mode.phase with
  | .asleep => if h.mode.latched.isSome then h else h.wakeFrom src
  | .up =>
    (match h.mode.granted with
     | some g => if g.target == .bivouac && h.mode.latched.isNone then
         { h with mode := { h.mode with latched := some (BitVec.ofNat 16 src) } } else h
     | none => h)
  | .bringUp => h
  | .unpowered => h

/-- WAKE_EVENT (R40, R42). -/
def execWakeEvent (source : Fin 14) (falling : Bool) (level : Int) (s : State) : Host.Outcome State Fault Refusal :=
  onHw (fun h => if h.wakeEnabled source.val falling level then h.wakeBy source.val else h) s

/-- WAKE_TIMER_EXPIRY (R40): source 9. -/
def execWakeTimerExpiry (s : State) : Host.Outcome State Fault Refusal :=
  onHw (fun h => if h.wakeEnabled 9 false 0 then h.wakeBy 9 else h) s

/-- The channel is enabled and in wake-frame mode (R373). -/
def Hw.frameMode (h : Hw) (ch : Nat) : Bool := h.par 0x0201 / 2 ^ ch % 2 == 1 && h.par 0x0202 / 4 ^ ch % 4 == 2

/-- A CAN CC frame matches the wake settings of a channel (R373). -/
def Hw.wakeMatch (h : Hw) (ch : Nat) (f : CanFrame) : Bool :=
  let id := h.par (0x0E09 + ch)
  let mask := BitVec.ofNat 32 (h.par (0x0E1A + ch))
  let want := BitVec.ofNat 32 (id % 2 ^ 30)
  f.fmt == .cc && (f.word &&& 0x3FFFFFFF) &&& mask == want &&& mask && f.data.length == id / 2 ^ 32 % 16 &&
  (id / 2 ^ 30 % 2 == 0 || (leNat f.data &&& h.par (0x0E0D + ch)) != 0)

/-- CAN_WAKE_FRAME (R373). -/
def execCanWakeFrame (ch : Fin 4) (f : CanFrame) (s : State) : Host.Outcome State Fault Refusal :=
  onHw (fun h => if h.frameMode ch.val && h.wakeMatch ch.val f then h.wakeBy ch.val else h) s

/-- CAN_WAKE_ERROR_COUNT (R373): more than 32 decoding errors wake as a dominant edge would. -/
def execCanWakeErrorCount (ch : Fin 4) (errors : Nat) (s : State) : Host.Outcome State Fault Refusal :=
  onHw (fun h => if h.frameMode ch.val && 32 < errors then h.wakeBy ch.val else h) s

/-- LATCHED_WAKE (R42): once P0 alone is powered the module wakes, and the new wake counts the latched event and reports it. -/
def Hw.latchedWake (h : Hw) : Hw :=
  match h.mode.latched with
  | some c =>
    if h.mode.phase == .asleep && decide (vsupMin ≤ h.pwr.vsup) then
      ((h.wakeFrom c.toNat).count 0x017 1).occur fltWakeDuringSleep 0xFF
    else h
  | none => h

/-- LATCHED_WAKE (R42). -/
def execLatchedWake (s : State) : Host.Outcome State Fault Refusal := onHw Hw.latchedWake s

/-- POWER_ON (R43): a start from the unpowered state, module time from 0. -/
def Hw.powerOn (h : Hw) (vsup : Int) : Hw :=
  if h.mode.phase == .unpowered && vsupMin < vsup then
    ({ h with pwr := { h.pwr with vsup := vsup }, time := { h.time with now := 0 } } : Hw).wakeUp 0x10
  else h

/-- POWER_ON (R43). -/
def execPowerOn (vsup : Int) (s : State) : Host.Outcome State Fault Refusal := onHw (fun h => h.powerOn vsup) s

/-- The images of the agents in P2, P9 and P10 end with their supply (R30): APP, CONV and ACTU, and a swap of one of them. -/
def Hw.dropImages (h : Hw) : Hw :=
  let c := h.img.appSwap.bind (·.commit)
  ({ h with img := { h.img with running := ((h.img.running.del 3).del 4).del 6, appSwap := none
                                waiting := h.img.waiting.filter (fun w => w.kind != 3 && w.kind != 4) } } : Hw).completeOpt c .hwFault

/-- The VSUP-only domains lose their supply (R30): the application cluster, the PCIe link, the converter and the drives
stop. -/
def Hw.dropVsupDomains (h : Hw) : Hw :=
  let h1 : Hw := { h with pwr := { h.pwr with onP11 := true, vsup := 0 }, host := { h.host with linkUp := false } }
  ((if h1.lv.active || h1.lv.state == .waiting then h1.lvRest .stopped .aborted else h1).actStop .aborted).dropImages

/-- VSUP_LOST (R24, R43): ARREST on P11, or unpowered. -/
def Hw.vsupLoss (h : Hw) : Hw :=
  if h.mode.phase == .unpowered || h.pwr.onP11 then h
  else if h.p11Runs then (h.dropVsupDomains.raiseOnce fltVsupLost 0xFF).refreshBoth
  else h.unpower

/-- VSUP_LOST (R24): VSUP has been below 3.8 V for `below` ticks; it counts as lost from 1 ms on. -/
def execVsupLost (below : Nat) (s : State) : Host.Outcome State Fault Refusal :=
  onHw (fun h => if msTicks ≤ below then h.vsupLoss else h) s

/-- VSUP_RETURN (R415): the domains are powered again, and the module stays in ARREST. -/
def execVsupReturn (vsup : Int) (s : State) : Host.Outcome State Fault Refusal :=
  onHw (fun h => if h.pwr.onP11 && vsupMin < vsup then
    ({ h with pwr := { h.pwr with onP11 := false, vsup := vsup } } : Hw).clearFault fltVsupLost.code 0xFF else h) s

/-- P11_SUPPLY_CHANGE (R24, R25). -/
def execP11SupplyChange (vdc : Int) (s : State) : Host.Outcome State Fault Refusal := onHw (fun h => h.setVdc vdc) s

/-! ## Bring-up and images (R26, R27, R46, R47, R335-R337, R400) -/

/-- The image kinds in the order of R26. -/
def imageOrder : List ImageKind := [.safe, .trac, .conv, .actu, .sens, .app]

/-- The first image of the order that does not run. -/
def Hw.nextImage (h : Hw) : Option ImageKind := imageOrder.find? (fun k => (h.img.running.find k.code).isNone)

/-- The directory has an entry for an image. -/
def Images.listed (m : Images) (k : ImageKind) : Bool := m.directory.any (fun e => e.kind == k.code)

/-- No request for an image is open: HOST_ABSENT ends (R47). -/
def Hw.requestAnswered (h : Hw) : Hw :=
  ({ h with img := { h.img with requested := none } } : Hw).clearFault fltHostAbsent.code 0xFF

/-- The module asks for the next image (R335): an IMAGE_REQUEST where it holds no directory entry. -/
def Hw.requestImage (h : Hw) : Hw :=
  match h.nextImage with
  | none => h.requestAnswered
  | some k =>
    if h.img.listed k then h.requestAnswered
    else
      let first := if h.img.requested.isSome then h.img.firstRequestAt else h.time.clock
      ({ h with img := { h.img with requested := some k.code, requestAt := h.time.clock, firstRequestAt := first } }
        : Hw).postEvent 0x0C01 h.time.now [BitVec.ofNat 8 k.code]

/-- The faults of the resolved OTP records (R271, R347), and the fallback of CK0 where it stands (R29). -/
def Hw.otpFaults (h : Hw) : Hw :=
  let has (t : Nat) : Bool := (h.otp.active.find t).isSome
  let h1 := if has 1 && has 2 && has 6 then h else h.raiseOnce fltOtpRecordInvalid 0xFF
  let h2 := if has 5 then h1 else h1.raiseOnce fltConfigMissing 0xFF
  let h3 := if h.time.ck0Rc then h2.raiseOnce fltCk0Fallback 0xFF else h2
  if !has 4 then h3.raiseOnce fltSafetySetDefault 0xFF
  else if safetySetOk h.otp then h3 else h3.raiseOnce fltSafetySetCorrupt 0xFF

/-- An STO channel open at reduced service leads to ARREST (R38). -/
def Hw.stoAtStart (h : Hw) : Hw :=
  if h.pwr.stoA && h.pwr.stoB then h else h.enterArrest fltStoOpen.code (if h.pwr.stoA then 1 else 0)

/-- REDUCED_SERVICE (R38, R46): BASE_CAMP, the event, and the first image request; an open STO channel or an ARREST-class
fault found at bring-up leads on to ARREST. -/
def Hw.reducedService (h : Hw) : Hw :=
  if h.mode.phase != .bringUp then h
  else
    let h1 : Hw := { h with mode := { h.mode with phase := .up } }
    let h2 := h1.postEvent 0x0203 h.time.now (leBytes 4 h.otp.ident.romVersion.toNat)
    (((h2.edge .baseCamp 3 0 0).trimSkew.tracWindows.checkP11.otpFaults.stoAtStart).requestImage).chgSettle

/-- REDUCED_SERVICE (R46). -/
def execReducedService (s : State) : Host.Outcome State Fault Refusal := onHw Hw.reducedService s

/-- IMAGE_REQUEST_RETRY (R47): again every 100 ms, and to the partner after 200 ms where CONFIG permits. -/
def Hw.imageRetry (h : Hw) : Hw :=
  match h.img.requested with
  | none => h
  | some k =>
    if h.time.clock < h.img.requestAt + 100 * msTicks then h
    else
      let h1 := ({ h with img := { h.img with requestAt := h.time.clock } } : Hw).postEvent 0x0C01 h.time.now [BitVec.ofNat 8 k]
      if h.roped && h.par 0x0104 == 1 && h.img.firstRequestAt + 200 * msTicks ≤ h.time.clock then h1.emit (.image k true) else h1

/-- IMAGE_REQUEST_RETRY (R47). -/
def execImageRequestRetry (s : State) : Host.Outcome State Fault Refusal := onHw Hw.imageRetry s

/-- HOST_ABSENT (R47): one second after the first request. -/
def execHostAbsent (s : State) : Host.Outcome State Fault Refusal :=
  onHw (fun h => if h.img.requested.isSome && h.img.firstRequestAt + sTicks ≤ h.time.clock then h.raiseOnce fltHostAbsent 0xFF
    else h) s

/-- An image starts: TRAC in both tiles (R26). -/
def Images.startAll (m : Images) (k : ImageKind) (v : ImgVer) : Images :=
  if k == .trac then (m.start .trac .brA v).start .trac .brB v else m.start k .brA v

/-- READY is reached once all six images run and no ARREST-class fault is active (R27, R38). -/
def Hw.toReady (h : Hw) : Hw :=
  if h.mode.mode == .baseCamp && h.allImages && !h.classActive .arrest && h.mode.granted.isNone then h.grant .ready none 3 0
  else h

/-- IMAGE_LOADED (R26, R27, R46, R337): the next image of the order is authenticated and starts, or is rejected. -/
def Hw.imageLoaded (h : Hw) (k : ImageKind) (i : ImageInfo) : Hw :=
  let due := h.mode.phase == .up && h.nextImage == some k &&
    (h.img.listed k || (h.roped && h.par 0x0104 == 1))
  if !due then h
  else match h.authStep k i with
    | some n => (h.authFail k n).imageEvent k .brA n i.version
    | none =>
      let h1 : Hw := { h with img := h.img.startAll k { version := i.version, format := i.stateFormat } }
      ((h1.imageEvent k .brA 0 i.version).mailbox0.requestImage).toReady

/-- IMAGE_LOADED (R337). TRAC starts in both tiles, whichever is named. -/
def execImageLoaded (kind : ImageKind) (_target : Bridge) (img : ImageInfo) (s : State) : Host.Outcome State Fault Refusal :=
  onHw (fun h => h.imageLoaded kind img) s

/-- PARTNER_IMAGE_REQUEST (R400): answered in READY or later with the running image; counted (0x0C7). -/
def execPartnerImageRequest (kind : ImageKind) (s : State) : Host.Outcome State Fault Refusal :=
  onHw (fun h => if h.roped && h.mode.phase == .up && h.mode.mode != .baseCamp && (h.img.running.find kind.code).isSome then
    (h.count 0x0C7 1).emit (.image kind.code false) else h) s

/-! ## Mode requests and edges -/

/-- MODE_REQUEST past its checks (R36, R44): granted, or refused. -/
def Hw.modeRequest (h : Hw) (d : Desc) (q : Req) : Hw :=
  match h.modeCheck d with
  | .inl st => h.complete q st
  | .inr m =>
    let h1 : Hw := if m == .charge && h.chgFn == .topup then { h with mode := { h.mode with topupWait := false, topupBack := false } } else h
    h1.grant m (some q) 0 0

/-- MODE_REQUEST (R38). -/
def execModeRequest (d : Desc) (s : State) : Host.Outcome State Fault Refusal :=
  onHw (fun h => h.descriptor 0x0201 d (fun q h => h.modeRequest d q)) s

/-- Held setpoints reach the mode they are valid in (R37): stored in a safe pattern, else the target. -/
def Hw.releaseHeld (h : Hw) (b : Bridge) : Hw :=
  match (h.ctl b).held with
  | none => h
  | some p =>
    let h1 := h.modCtl b (fun c => { c with held := none })
    if !h.mode.mode.torque then h1.completeOpt p.req .aborted
    else if (h.ctl b).state.safe || (h.ctl b).state == .sync then h1.storeSetpoint b p
    else (h1.modCtl b (fun c => c.retarget p.sp)).completeOpt p.req .done

/-- A held TORQUE_PAIR reaches the mode it is valid in (R37, R120). -/
def Hw.releasePair (h : Hw) : Hw :=
  match h.sh.held with
  | none => h
  | some (x, y, q) =>
    let h1 : Hw := { h with sh := { h.sh with held := none } }
    if !h.mode.mode.torque then h1.completeOpt q .aborted
    else if !h.ctlA.state.inService || !h.ctlB.state.inService then h1.completeOpt q .modeDenied
    else ((h1.modCtl .brA (fun c => c.retarget x)).modCtl .brB (fun c => c.retarget y)).completeOpt q .done

/-- OFFSTATE_DIAG of an entry to READY starts as soon as the DC link is at or above 50 V and the rotor turns below 30 rpm
(R167); it waits only in READY. -/
def Hw.offstateLook (h : Hw) (b : Bridge) : Hw :=
  if !(h.gate b).offWait then h
  else if h.mode.mode != .ready then h.modGate b (fun g => { g with offWait := false })
  else if 50000 ≤ h.pwr.vdc && absI (h.ctl b).speed < 3000 && !h.tests.any (fun t => t.id == 0x0A02) then
    h.modGate b (fun g => { g with offRunning := true, offWait := false })
  else h

/-- OFFSTATE_DIAG starts on its own at entry to READY, at once where its conditions hold (R167). -/
def Hw.offstateStart (h : Hw) (b : Bridge) : Hw := (h.modGate b (fun g => { g with offWait := true })).offstateLook b

/-- STO_PATH runs on its own at each entry to READY (R265). -/
def Hw.stoPathStart (h : Hw) : Hw :=
  if h.tests.any (fun t => t.id == 0x0A02) then h
  else { h with tests := h.tests ++ [{ id := 0x0A02, inst := 0, cls := 2, req := none, deadline := 0, running := true, count := 0 }] }

/-- The CONFIG overlay takes effect at the edge from BASE_CAMP to READY (R347). -/
def Hw.configOverlay (h : Hw) : Hw :=
  match h.otp.configNext with
  | some l => { h with otp := { h.otp with config := entryTab l, configNext := none, configOn := true } }
  | none => h

/-- A module that is not the holder leaves its actuator drives off (R389). -/
def Hw.holderDrives (h : Hw) : Hw :=
  let off (d : Drive) : Drive := { d with state := .off }
  if h.roped && !h.pair.holder then
    { h with act := { h.act with shift := off h.act.shift, park := off h.act.park, disc := off h.act.disc } }
  else h

/-- On the interleaved SECOND, a value of its LEAD for a parameter (R396), within the parameter's range. -/
def Hw.takeLead (h : Hw) (id lo hi : Nat) : Hw :=
  (h.putPar id (lo + Config.leadValue h.free id % (hi - lo + 1))).drawn

/-- The mode edge into DRIVE of an interleaved SECOND: PWM_FREQ and CTRL_UPDATE of each bridge come from the LEAD (R396). -/
def Hw.interleaveEdge (h : Hw) : Hw :=
  if h.roped && h.pair.partner && !h.pair.lead && h.par 0x0F04 == 1 then
    (((h.takeLead 0x0601 8000 48000).takeLead 0x0602 8000 48000).takeLead 0x0501 1 2).takeLead 0x0502 1 2
  else h

/-- A rope-team module that reaches READY without a partner takes LEAD (R389). -/
def Hw.pairAtReady (h : Hw) : Hw :=
  if h.roped && !h.pair.partner then
    ({ h with pair := { h.pair with lead := true, holder := h.par 0x0F02 == 0, exchanged := true } }
      : Hw).holderDrives.occur fltPairPartnerAbsent 0xFF
  else h

/-- What the edge to READY starts (R167, R234, R265, R347, R389). -/
def Hw.atReady (h : Hw) (from' : Mode) : Hw :=
  let h1 := if from' == .baseCamp then h.configOverlay.pairAtReady else h
  let h2 := if from' == .baseCamp && h1.chg.active then
      { h1 with mode := { h1.mode with chargeHoldBy := some (h.time.clock + 10 * sTicks) } }
    else if from' == .arrest then h1
    else h1.chgOpen.chgGo (if h1.chg.pp.plugged then .plugWait else .unplugged) 0 0
  ((h2.stoPathStart.offstateStart .brA).offstateStart .brB)

/-- The report of OFFSTATE_PENDING at entry to DRIVE (R167). -/
def Hw.offstatePending (h : Hw) (b : Bridge) : Hw :=
  if (h.gate b).offPassed then h else h.occur fltOffstatePending (BitVec.ofNat 8 b.code)

/-- What follows a requested mode edge in the new mode (R37, R167, R213, R234). -/
def Hw.atMode (h : Hw) (from' m : Mode) : Hw :=
  match m with
  | .ready => (((h.atReady from').releaseHeld .brA).releaseHeld .brB).releasePair
  | .drive => (((((h.interleaveEdge).offstatePending .brA).offstatePending .brB).releaseHeld .brA).releaseHeld .brB).releasePair
  | .charge => ({ h with mode := { h.mode with chargeHoldBy := none }
                         chg := { h.chg with reduced := false, belayCap := none } } : Hw).chgSettle
  | .baseCamp => h.checkP11.requestImage.toReady
  | .workshop => h
  | .belay => h
  | .arrest => h
  | .bivouac => h

/-- A requested mode edge (R36): the edge, what it starts, the request's completion, and on entry to BIVOUAC the loss of
the wake's state. -/
def Hw.makeEdge (h : Hw) (m : Mode) (cause : Byte) (code : W16) (src : Byte) (q : Option Req) : Hw :=
  let from' := h.mode.mode
  let h1 := (h.edge m cause code src).atMode from' m
  let h2 := ({ h1 with act := { h1.act with drainAt := none } } : Hw).completeOpt q .done
  if m == .bivouac then h2.sleep else h2

/-- The automatic return from BELAY (R38, R276): fault cleared and acknowledged, and the mode's conditions met. -/
def Hw.belayReturns (h : Hw) : Bool :=
  h.mode.mode == .belay && h.clearedAndAcked h.mode.belayCode h.mode.belaySource &&
  (if h.mode.belayFrom == .drive then h.driveConditions else h.mode.belayFrom == .charge && h.chargeEntry)

/-- Why a committed MODE_EDGE cinch cannot apply at its edge (R329): changed versions, a member's own check in the new mode,
or a broken relation. -/
def Hw.edgeCheck (h : Hw) (m : Mode) (s : Slot) : Option Status :=
  let h0 : Hw := { h with mode := { h.mode with granted := none } }
  let one (x : Member) : Option Status :=
    if x.op == (0x0201 : W16) then (match h0.modeCheck x.desc with | .inl st => some st | .inr _ => none) else none
  let ask := s.members.findSome? one
  match ask with
  | some st => some st
  | none => ({ h with mode := { h.mode with mode := m, granted := none } } : Hw).instantCheck s

/-- The edge of a MODE_EDGE cinch (R328, R329): its members with the mode, or neither. -/
def Hw.cinchEdge (h : Hw) (g : Grant) : Hw :=
  let s := h.slot g.cinch
  match h.edgeCheck g.target s with
  | some st => (({ h with mode := { h.mode with granted := none } } : Hw).finishCinch g.cinch st).toReady
  | none =>
    let h1 := (h.edge g.target g.cause 0 0).applyMembers g.cinch s
    let h2 := (h1.atMode h.mode.mode g.target).finishCinch g.cinch .done
    if g.target == .bivouac then h2.sleep else h2

/-- A bridge's tile runs: its bridge is in torque or speed service, or in SYNC. -/
def Hw.tileRuns (h : Hw) (b : Bridge) : Bool := !(h.ctl b).state.safe

/-- Now is a control boundary of every running tile (R36). -/
def Hw.atEdge (h : Hw) : Bool :=
  (!h.tileRuns .brA || h.ctlA.boundary == some h.time.now) && (!h.tileRuns .brB || h.ctlB.boundary == some h.time.now)

/-- MODE_EDGE (R36, R334): a granted transition whose drains are complete takes effect at the first control boundary of every
running tile, for which tile B realigns where none comes within 1 ms; without one, a BELAY whose fault is
cleared and acknowledged returns. No mode changes while the debugger halts the cores (R283). -/
def Hw.modeEdge (h : Hw) : Hw :=
  if h.saf.dbgHalted then h
  else match h.mode.granted with
    | some g =>
      if !h.drained g.target then h
      else if !h.atEdge then h.fixAB 0
      else if g.cinch = 0 then h.makeEdge g.target g.cause 0 0 g.req
      else h.cinchEdge g
    | none =>
      if h.belayReturns && !h.atEdge then h.fixAB 0
      else if h.belayReturns then
        let rise (c : Ctl) : Ctl := { c with ramped := c.applied }
        let h0 := (h.modCtl .brA rise).modCtl .brB rise
        let h1 := h0.makeEdge h.mode.belayFrom 1 h.mode.belayCode h.mode.belaySource none
        { h1 with mode := { h1.mode with belayCode := 0, belaySource := 0 } }
      else h

/-- MODE_EDGE (R36). -/
def execModeEdge (s : State) : Host.Outcome State Fault Refusal := onHw Hw.modeEdge s

/-! ## Drains that are forced (R50, R54) -/

/-- A ring's drain is forced: what is outstanding completes ABORTED, and what finds no room is discarded (R50, R294). -/
def Hw.forceRing (h : Hw) (n : Nat) : Hw :=
  let r := h.ring n
  let own := h.ownWork n
  let work := r.outstanding.filter (fun t => !own.contains t)
  let late (t : Nat) : Bool := t + h.parTicks 0x0209 ≤ h.time.clock
  if (r.state == .draining && late r.drainAt) ||
     (h.entersSleep && !work.isEmpty && h.mode.granted.any (fun g => late g.at')) then
    let h1 := work.foldl (fun x t => x.queueCompletion n t.1 Status.aborted.code h.time.now) h
    h1.occurThen fltDrainForced fltDrainForced.cls 0xFF (fun x =>
      (x.setRing n { x.ring n with outstanding := own.filter r.outstanding.contains, fenced := false
                                   buffer := if h.entersSleep then (x.ring n).buffer else [], missed := none }).settleRing n)
  else h

/-- A bridge's drain is forced. -/
def Hw.forceBridge (h : Hw) (b : Bridge) : Hw :=
  let c := h.ctl b
  if c.draining && c.drainAt + h.parTicks 0x020A ≤ h.time.clock then
    h.occurThen fltDrainForced fltDrainForced.cls 0xFF (fun x => x.orderSafe b) else h

/-- The charging drain is forced. -/
def Hw.forceCharge (h : Hw) : Hw :=
  if h.chg.draining && h.chg.drainAt + h.parTicks 0x020B ≤ h.time.clock then
    h.occurThen fltDrainForced fltDrainForced.cls 0xFF Hw.chgForced else h

/-- The converter's drain is forced: STOP completes ABORTED. -/
def Hw.forceLv (h : Hw) : Hw :=
  if h.lv.draining && h.lv.drainAt + h.parTicks 0x020C ≤ h.time.clock then
    h.occurThen fltDrainForced fltDrainForced.cls 0xFF (fun x =>
      Hw.completeAll x.lv.stopReqs .aborted (({ x with lv := { x.lv with stopReqs := [] } } : Hw).lvRest .stopped .aborted))
  else h

/-- The actuators' drain is forced: drives hold, motion and shift complete ABORTED. -/
def Hw.forceAct (h : Hw) : Hw :=
  match h.act.drainAt with
  | none => h
  | some t =>
    if t + h.parTicks 0x020D ≤ h.time.clock && !h.act.still then
      h.occurThen fltDrainForced fltDrainForced.cls 0xFF (fun x =>
        ({ x with act := { x.act with drainAt := none } } : Hw).actHold)
    else h

/-- DRAIN_FORCED (R50). -/
def execDrainForced (fn : DrainFn) (s : State) : Host.Outcome State Fault Refusal :=
  onHw (fun h => match fn with
    | .ring n => h.forceRing n.val
    | .bridge b => h.forceBridge b
    | .charge => h.forceCharge
    | .lv => h.forceLv
    | .act => h.forceAct) s

/-- DC_LINK_LIVE (R54): a BIVOUAC request whose discharge leaves the DC link above 60 V after 2.0 s ends ABORTED. -/
def Hw.dcLinkLive (h : Hw) : Hw :=
  match h.mode.granted with
  | none => h
  | some g =>
    let runs := h.saf.dischargeOn || h.saf.retryAt.isSome || decide (g.at' ≤ h.saf.dischargeAt)
    if g.target == .bivouac && runs && h.saf.dischargeAt + 2 * sTicks ≤ h.time.clock && !h.hvSafe then
      let react (x : Hw) : Hw :=
        let stands := x.saf.dischargeAuto || !x.saf.dischargeReqs.isEmpty
        let x1 : Hw := { x with mode := { x.mode with granted := none, latched := none } }
        let x2 : Hw := if stands then x1 else
          ({ x1 with saf := { x1.saf with dischargeOn := false, retryAt := none } } : Hw).clearFault fltDischargeHeld.code 0xFF
        (if g.cinch = 0 then x2.completeOpt g.req .aborted else x2.finishCinch g.cinch .aborted).toReady
      h.occurThen fltDcLinkLive fltDcLinkLive.cls 0xFF react
    else h

/-- DC_LINK_LIVE (R54). -/
def execDcLinkLive (s : State) : Host.Outcome State Fault Refusal := onHw Hw.dcLinkLive s

/-! ## Timers of the modes -/

/-- BASE_CAMP_IDLE_TIMEOUT (R48): a source or a plug that is there now makes the time run anew. -/
def Hw.idleTimeout (h : Hw) (wakeActive : Bool) : Hw :=
  if h.mode.mode != .baseCamp then h
  else if wakeActive || h.chg.pp != .noPlug then h.busyNow
  else if h.mode.lastCommand + h.parTicks 0x0207 ≤ h.time.clock then h.ownRequest .bivouac 2
  else h

/-- BASE_CAMP_IDLE_TIMEOUT (R48). -/
def execBaseCampIdleTimeout (wakeActive : Bool) (s : State) : Host.Outcome State Fault Refusal :=
  onHw (fun h => h.idleTimeout wakeActive) s

/-- The return to BIVOUAC without a permit (R44): granted as soon as no other transition or test is in the way. -/
def Hw.topupReturn (h : Hw) : Hw :=
  if h.modeBusy || (h.route .bivouac).isNone then h
  else ({ h with mode := { h.mode with topupBack := false } } : Hw).ownRequest .bivouac 2

/-- TOPUP_NO_PERMIT (R44): the report, and back to BIVOUAC with WM0 not armed; where the way is not free yet, the return
stays due and the next TOPUP_NO_PERMIT looks at it again. -/
def Hw.topupNoPermit (h : Hw) : Hw :=
  if h.mode.phase == .up && h.mode.topupWait && h.mode.wakeAt + h.parTicks 0x0206 ≤ h.time.clock then
    (({ h with mode := { h.mode with topupWait := false, topupBack := true, wm0Armed := false } } : Hw).occur fltTopupNoPermit
      0xFF).topupReturn
  else if h.mode.topupBack then h.topupReturn
  else h

/-- TOPUP_NO_PERMIT (R44). -/
def execTopupNoPermit (s : State) : Host.Outcome State Fault Refusal := onHw Hw.topupNoPermit s

/-- BELAY_TIME_EXPIRY (R276): ARREST, unless the fault has cleared and been acknowledged. -/
def Hw.belayExpiry (h : Hw) : Hw :=
  if h.mode.mode == .belay && h.mode.belayAt + h.parTicks 0x0A04 ≤ h.time.clock &&
     !h.clearedAndAcked h.mode.belayCode h.mode.belaySource then h.occur fltBelayExpired 0xFF
  else h

/-- BELAY_TIME_EXPIRY (R276). -/
def execBelayTimeExpiry (s : State) : Host.Outcome State Fault Refusal := onHw Hw.belayExpiry s

/-! ## The application cluster (R9, R22, R23) -/

/-- APP_SIGNAL (R9). -/
def execAppSignal (s : State) : Host.Outcome State Fault Refusal :=
  onHw (fun h => if h.appRuns then
    ({ h with mode := { h.mode with appMissed := 0 } } : Hw).clearFault fltAppSignalLost.code 0xFF else h) s

/-- APP_SIGNAL_LOST (R9): the third missing signal in a row raises the fault. -/
def Hw.appMiss (h : Hw) : Hw :=
  if !h.appRuns then h
  else
    let h1 : Hw := { h with mode := { h.mode with appMissed := min (h.mode.appMissed + 1) 3 } }
    if 3 ≤ h1.mode.appMissed then h1.raiseOnce fltAppSignalLost 0xFF else h1

/-- APP_SIGNAL_LOST (R9). -/
def execAppSignalLost (s : State) : Host.Outcome State Fault Refusal := onHw Hw.appMiss s

/-- The torque a bridge is asked for, in 0.01 Nm: its torque setpoint, or what its speed loop gives. -/
def Hw.torqueAsked (h : Hw) (b : Bridge) : Nat :=
  match (h.ctl b).target with
  | none => 0
  | some p => (absI (if p.speed then (h.ctl b).loopOut.getD (h.ctl b).applied else p.value)).toNat

/-- What each function receives in W (R22), in the order of the mode's column: each what is left after those above it. -/
structure Allowances where
  lv : Nat
  bridges : Nat
  charging : Nat
  deriving DecidableEq, Repr

/-- The loss budget shared out in the order of R22: control electronics, the LV load, the bridges or in CHARGE the charging
path, the converter above the load. A function that a column does not list gets what all the others leave. -/
def shareLoss (charge : Bool) (budget electronics lvLoad bridges charging lvAbove : Nat) : Allowances :=
  let l1 := budget - electronics
  let a2 := min l1 lvLoad
  let a3 := min (l1 - a2) (if charge then charging else bridges)
  let a4 := min (l1 - a2 - a3) lvAbove
  let rest := min (l1 - a2 - a3 - a4) (if charge then bridges else charging)
  if charge then { lv := a2 + a4, bridges := rest, charging := a3 } else { lv := a2 + a4, bridges := a3, charging := rest }

/-- A bridge's part of the bridges' allowance, in proportion to the torque requests (R22); in equal parts without any. -/
def Hw.bridgeLoss (h : Hw) (b : Bridge) (watts : Nat) : Nat :=
  let all := h.torqueAsked .brA + h.torqueAsked .brB
  if all = 0 then watts / 2 else watts * h.torqueAsked b / all

/-- THERMAL_ALLOWANCE (R22): the allowances are shared out, and the fast plane turns each into a limit. -/
def Hw.thermalAllowance (h : Hw) (a : Allowances) : Hw :=
  let cur (b : Bridge) (c : Ctl) : Ctl := { c with allowance := some (Config.lossCurrent (h.bridgeLoss b a.bridges)) }
  { h with ctlA := cur .brA h.ctlA, ctlB := cur .brB h.ctlB
           lv := { h.lv with allowance := some (Config.lossPower a.lv) }
           chg := { h.chg with allowance := some (Config.lossPower a.charging), dcbAllowance := some (Config.lossBoost a.charging) }
           saf := { h.saf with allowAt := h.time.clock, allowOn := true } }

/-- THERMAL_ALLOWANCE (R22). -/
def execThermalAllowance (budget electronics lvLoad bridges charging lvAbove : Nat) (s : State) :
    Host.Outcome State Fault Refusal :=
  onHw (fun h => if h.appRuns then
    h.thermalAllowance (shareLoss (h.mode.mode == .charge) budget electronics lvLoad bridges charging lvAbove) else h) s

/-- The default of R129 is zero above 85 degC: TRQ_COOLANT_HOT. -/
def Hw.coolantHot (h : Hw) : Hw :=
  if h.saf.allowOn then h.clearFault fltTrqCoolantHot.code 0xFF
  else if 8500 < h.pwr.coolant then h.raiseOnce fltTrqCoolantHot 0xFF
  else h.clearFault fltTrqCoolantHot.code 0xFF

/-- ALLOWANCE_TIMEOUT (R23): after 100 ms without an allowance every function falls to its default. -/
def Hw.allowanceEnd (h : Hw) : Hw :=
  if h.saf.allowOn && h.saf.allowAt + 100 * msTicks ≤ h.time.clock then
    ({ h with ctlA := { h.ctlA with allowance := none }, ctlB := { h.ctlB with allowance := none }
              lv := { h.lv with allowance := none }, chg := { h.chg with allowance := none, dcbAllowance := none }
              saf := { h.saf with allowOn := false } } : Hw).coolantHot
  else h

/-- ALLOWANCE_TIMEOUT (R23). -/
def execAllowanceTimeout (s : State) : Host.Outcome State Fault Refusal := onHw Hw.allowanceEnd s

end Sys2Proof.Machine
end

