-- ==== Sys2Proof/Machine/Gear.lean ====
section
/-!
DEFINITION. Machine/Gear.lean: the actuator drives' motions (R237-R250) and the steps of a gear shift (R141, R251, R252), as
operations that the control boundary and the actuator events share.
-/
namespace Sys2Proof.Machine

/-! ## Drives -/

/-- A motion ends in a state; its request completes. -/
def Hw.endDrive (h : Hw) (i : Nat) (st : DriveState) (r : Status) : Hw :=
  let q := (h.act.drive i).req
  (h.modDrive i (fun d => { d with state := st, req := none, failing := false, lowOn := false })).completeOpt q r

/-- A motion in progress is braked and will complete HW_FAULT (R237, R241-R243). -/
def Hw.brakeDrive (h : Hw) (i : Nat) : Hw :=
  let d := h.act.drive i
  if d.state == .moving || d.state == .returning || d.state == .tooth then
    h.modDrive i (fun d => { d with state := .braking, failing := true, vsBefore := h.act.vs })
  else h.modDrive i (fun d => { d with failing := d.failing || d.state == .braking })

/-- ACT_VS lets no drive run (R237). -/
def Hw.vsBad (h : Hw) : Bool := h.act.vs < 9000 || 58000 < h.act.vs

/-- The Halls of a drive are distrusted at a motor speed in 0.01 rpm (R242): above 1000 rpm the motion goes on with the
observer, below it brakes. -/
def Hw.hallObserver (h : Hw) (i : Nat) (speed : Int) : Hw :=
  let h1 := (h.modDrive i (fun d => { d with hallBad := true, hallOkAt := none })).raiseOnce fltActHallObserver (BitVec.ofNat 8 i)
  if 100000 < absI speed then h1.modDrive i (fun d => { d with onObserver := d.busy }) else h1.brakeDrive i

/-- HALL_INVALID of the set that serves a drive (R242). -/
def Hw.hallsLost (h : Hw) (i : Nat) : Hw := if i < 3 then h.hallObserver i (h.motorSpeed i) else h

/-- The output position of a drive is invalid (R238). -/
def Hw.posBad (h : Hw) (i : Nat) : Bool := h.faultActive fltActPosInvalid.code (BitVec.ofNat 8 i)

/-- Confirmation of PARK is lost (R250); in DC boost it ends the boost (R18). -/
def Hw.parkLost (h : Hw) : Hw :=
  if h.act.parkOn then
    let h1 := ({ h with act := { h.act with parkOn := false } } : Hw).raiseOnce fltParkConfirmLost 0xFF
    if h.chg.boosting then h1.occurThen fltDcbParkLost .arrest 0xFF (fun x => x.boostAbort fltDcbParkLost.code) else h1
  else h

/-- A drive's position has become invalid (R238, R250). -/
def Hw.posInvalid (h : Hw) (i : Nat) : Hw :=
  let h1 := (h.modDrive i (fun d => { d with posValid := false, confirmed := false })).raiseOnce fltActPosInvalid (BitVec.ofNat 8 i)
  if i = 1 then h1.parkLost else h1

/-- A drive's position is valid again. -/
def Hw.posGood (h : Hw) (i : Nat) : Hw :=
  (h.modDrive i (fun d => { d with posValid := true })).clearFault fltActPosInvalid.code (BitVec.ofNat 8 i)

/-- The drives whose output position a SENT channel gives (R238). -/
def Hw.drivesOf (h : Hw) (ch : Nat) : List Nat :=
  (List.range 3).filter (fun i => h.par (0x090D + i) = ch && h.par (0x0418 + ch) / 131072 % 4 = i)

/-! ## Synchronisation (R141, R251) -/

/-- SHIFT is confirmed in a gear. -/
def Act.inGear (a : Act) : Bool := a.shift.confirmed && (a.shift.code == 0 || a.shift.code == 2)

/-- The gear that SHIFT holds confirmed. -/
def Act.gearNow (a : Act) : Nat := if a.shift.code = 0 then 1 else 2

/-- GEAR_RATIO of a gear, 0.001. -/
def Hw.ratio (h : Hw) (gear : Nat) : Int := max (h.par (if gear = 1 then 0x0916 else 0x0917)) 1

/-- Torque available in a direction under R126 in 0.01 Nm; the braking power of R142 is counted by its energy instead. -/
def Hw.torqueTo (h : Hw) (b : Bridge) (up : Bool) : Int :=
  let s := h.lowerRanks b (h.floorRank b (h.rank2 b (h.rank1 b Span.free)))
  if up then s.hi else -s.lo

/-- The synchronisation time of R141 in us, none where no torque is available: by torque, and in a fall by the energy that
the braking power of R142 takes. -/
def Hw.syncTime (h : Hw) (b : Bridge) (target : Int) : Option Nat :=
  let n := (h.ctl b).speed
  let j : Int := h.par (perBridge 0x052A b)
  let t := h.torqueTo b (decide (n ≤ target))
  let fall : Bool := decide (absI target < absI n)
  if t ≤ 0 then none
  else
    let byTorque := (j * absI (target - n) * 10471975512 / (100000000000 * t)).toNat
    let energy := j * (n * n - target * target) * 548311356
    match h.brakingPower b with
    | some w => if fall then (if w = 0 then none else some (max byTorque (energy / (10 ^ 15 * (w : Int))).toNat)) else some byTorque
    | none => some byTorque

/-! ## The shift (R251, R252) -/

/-- The shift's own fields changed. -/
def Hw.modGear (h : Hw) (f : Shift → Shift) : Hw := { h with act := { h.act with gear := f h.act.gear } }

/-- The GEAR event (R306). -/
def Hw.gearEvent (h : Hw) (what : Nat) : Hw :=
  h.postEvent 0x0901 h.time.now ([BitVec.ofNat 8 what, BitVec.ofNat 8 h.shiftBridge.code, 0, 0] ++
    leBytes 4 (ofInt 4 (h.ctl h.shiftBridge).speed))

/-- The shift is over: its request completes, and a setpoint held meanwhile waits for the next boundary. -/
def Hw.endShift (h : Hw) (st : Status) : Hw :=
  let g := h.act.gear
  let b := h.shiftBridge
  let held := (h.ctl b).held
  let st := if g.draining && st == .done then .drained else st
  let h1 := (({ h with act := { h.act with gear := {}, drainAt := none } } : Hw).modCtl b (fun c =>
    { c with held := none, shiftRef := none })).completeOpt g.req st
  let h2 := match held with | some p => h1.acceptSetpoint b p | none => h1.freePair
  if g.draining then h2.drainBridges else h2

/-- The bridge is back in RUN torque from SHIFT_SYNC. -/
def Ctl.leaveSync (c : Ctl) : Ctl :=
  { c with shiftRef := none, state := if c.state == .shiftSync then .runTorque else c.state, ramped := 0, applied := 0 }

/-- Torque ramps back (step 6): to the held setpoint, else the one before the shift; to zero where the setpoint is stale. -/
def Hw.rampBack (h : Hw) : Hw :=
  let b := h.shiftBridge
  let held := (h.ctl b).held
  let h1 := h.modCtl b (fun c => { c.leaveSync with held := none })
  let h2 := match held with
    | some p => (h1.modCtl b (fun c => { c.retarget p.sp with ramped := 0 })).completeOpt p.req .done
    | none => h1.freePair
  h2.modGear (fun g => { g with step := .ramp, at' := h.time.clock })

/-- ACT_NEUTRAL_HELD (R252): SHIFT is held in neutral with the bridge at zero torque. -/
def Hw.neutralHeld (h : Hw) : Hw :=
  let b := h.shiftBridge
  let zero (c : Ctl) : Ctl :=
    { c.leaveSync with target := c.target.map (fun sp => { sp with speed := false, value := 0, ramp := 0, pair := none }) }
  let h1 := (h.startDrive 0 1 (h.driveLimit 0 0) none).modCtl b zero
  (((h1.count 0x072 1).gearEvent 5).endShift .hwFault).occur fltActNeutralHeld 0xFF

/-- The motor speed of a gear at the shift's output speed (R251): that of the disengagement, extrapolated to now at the output
acceleration of the 50 ms before it. -/
def Hw.gearSpeed (h : Hw) (gear : Nat) : Int :=
  let g := h.act.gear
  (g.out + g.slope.1 * ((h.time.clock : Int) - g.outAt) / max (g.slope.2 : Int) 1) * h.ratio gear / 1000000

/-- The speeds of a bridge over the last 50 ms, sampled at the control boundaries at most once a millisecond (DESIGN CHOICE: R251 gives
no sampling). -/
def Hw.trailSpeed (h : Hw) (b : Bridge) : Hw :=
  let now := h.time.clock
  h.modCtl b (fun c =>
    let kept := c.trail.filter (fun p => decide (now ≤ p.1 + 50 * msTicks))
    match kept with
    | p :: _ => if p.1 + msTicks ≤ now then { c with trail := (now, c.speed) :: kept } else { c with trail := kept }
    | [] => { c with trail := [(now, c.speed)] })

/-- The output speed of the gear just left in 0.00001 rpm, and its change over the ticks of the trail (R251). -/
def Hw.outputOf (h : Hw) (b : Bridge) (gear : Nat) : Int × Int × Nat :=
  let c := h.ctl b
  let out (n : Int) : Int := n * 1000000 / h.ratio gear
  match c.trail.getLast? with
  | some p => (out c.speed, out c.speed - out p.2, h.time.clock - p.1)
  | none => (out c.speed, 0, 1)

/-- The speed reference follows the extrapolated output speed while the shift synchronises (R140, R251). -/
def Hw.trackShift (h : Hw) (b : Bridge) : Hw :=
  let g := h.act.gear
  if (g.step == .sync || g.step == .retry || g.step == .engage) && b == h.shiftBridge && (h.ctl b).shiftRef.isSome then
    let n := h.gearSpeed g.goal + g.offset
    (h.modCtl b (fun c => { c with shiftRef := some n })).modGear (fun g => { g with speed := n })
  else h

/-- Steps 3 and 4: the actuator tile takes the speed reference, and SHIFT goes to the pre-engage position of the gear. -/
def Hw.seekGear (h : Hw) (gear : Nat) (step : ShiftStep) (offset : Int) : Hw :=
  let b := h.shiftBridge
  let n := h.gearSpeed gear + offset
  let h1 := if h.act.gear.target = 4 then h else h.startDrive 0 (if gear = 1 then 4 else 5) (h.driveLimit 0 0) none
  ((h1.modCtl b (fun c =>
    { c with state := .shiftSync, shiftRef := some n, speedRef := n, winAt := none, inWindow := false })).modGear (fun g =>
    { g with step := step, at' := h.time.clock, speed := n, offset := offset }))

/-- The speed window is reached (step 5): the drive goes into the gear. Engagement begins with the position that passes the
pre-engage position, for a reconnect with the motion (DESIGN CHOICE: DISC has none). -/
def Hw.engage (h : Hw) : Hw :=
  let g := h.act.gear
  let h1 := if g.target = 4 then h.startDrive 2 1 (h.driveLimit 2 0) none
    else h.startDrive 0 (if g.goal = 1 then 0 else 2) (h.driveLimit 0 0) none
  h1.modGear (fun g => { g with step := .engage, at' := h.time.clock, begun := g.target == 4 })

/-- The torque is out (step 2): SHIFT goes to neutral, or DISC opens. -/
def Hw.disengage (h : Hw) : Hw :=
  let g := h.act.gear
  let x := h.outputOf h.shiftBridge g.old
  (if g.target = 3 then h.startDrive 2 0 (h.driveLimit 2 0) none else h.startDrive 0 1 (h.driveLimit 0 0) none).modGear
    (fun g => { g with step := .toNeutral, at' := h.time.clock, out := x.1, slope := x.2, outAt := h.time.clock })

/-- A shift's drive has confirmed its target (R251, R252). -/
def Hw.shiftConfirmed (h : Hw) (i : Nat) : Hw :=
  let g := h.act.gear
  let b := h.shiftBridge
  match g.step with
  | .toNeutral =>
    if g.target = 3 then
      (if i = 2 then
        (((h.modCtl b (fun c => { c with target := c.target.map (fun sp => { sp with speed := false, value := 0, ramp := 0 })
                                         ramped := 0 })).gearEvent 3).count 0x070 1).endShift .done
       else h)
    else if i = 0 then h.seekGear g.goal .sync 0 else h
  | .back => if i = (if g.target = 3 then 2 else 0) then h.rampBack else h
  | .engage =>
    if (g.target = 4 && i = 2) || (g.target != 4 && i = 0) then
      (let h1 := h.gearEvent (if g.reverting then g.old else g.target)
       if g.lost then (h1.count 0x071 1).endShift .hwFault else h1.rampBack)
    else h
  | .none => h
  | .unload => h
  | .sync => h
  | .retry => h
  | .ramp => h

/-- The bridge has left torque service (R252): before engagement SHIFT is held in neutral, after it the engagement is
completed without a ramp back. -/
def Hw.shiftLost (h : Hw) : Hw :=
  if h.act.gear.lost then h
  else if h.act.gear.step == .ramp then (h.count 0x071 1).endShift .hwFault
  else if h.act.gear.begun then h.modGear (fun g => { g with lost := true })
  else h.neutralHeld

/-- The fast-plane link at a control boundary of the shifted bridge (R251, R252). -/
def Hw.shiftBoundary (h : Hw) (b : Bridge) : Hw :=
  let g := h.act.gear
  let c := h.ctl b
  if g.step == .none || b != h.shiftBridge then h
  else if !(c.state.inService || c.state == .shiftSync) then h.shiftLost
  else match g.step with
    | .unload => if c.applied = 0 || 100 * absI c.applied < 2 * h.peak b then h.disengage else h
    | .sync => if c.inWindow then h.engage else h
    | .retry => if c.inWindow then h.engage else h
    | .ramp =>
      if g.at' + h.parTicks 0x091A ≤ h.time.clock then
        (if g.reverting then (h.count 0x071 1).endShift .aborted else (h.count 0x070 1).endShift .done)
      else h
    | .none => h
    | .toNeutral => h
    | .engage => h
    | .back => h

/-- The torque of the shifted bridge while the shift holds it (R251): ramped out, zero, or ramped back. -/
def Hw.shiftTorque (h : Hw) (b : Bridge) (goal : Int) : Option Int :=
  let g := h.act.gear
  let full := max (h.parTicks 0x091A) 1
  let t : Int := min (h.time.clock - g.at') full
  if !h.shiftHolds b then none
  else match g.step with
    | .unload => some (g.from' * (full - t) / full)
    | .ramp => some (goal * t / full)
    | _ => some 0

end Sys2Proof.Machine
end

