-- ==== Sys2Proof/Machine/Sources.lean ====
section
/-!
DEFINITION. Machine/Sources.lean: the position sources of a bridge at its control boundary: the sensor's angle (R89, R99, R104),
fusion with the observer (R104), the back-EMF window and the judgement (R106, R107, R144), and the return of a source (R108).
-/
namespace Sys2Proof.Machine

/-! ## The sensor -/

/-- A signed angle of 2^32 to the turn. -/
def angleDiff (a b : W32) : Int := (a - b).toInt

/-- Degrees of angle in 2^32 to the turn. -/
abbrev deg4 : Int := 47721859
abbrev deg8 : Int := 95443718
abbrev deg10 : Int := 119304647

/-- Half a harmonic table's sum at a mechanical angle (R93), 0.01 arcmin x 2^15: harmonics `first` to `first + 7`. -/
def harmSum (c : BitVec 256) (first : Nat) (theta : W32) : Int :=
  (List.range 8).foldl (fun s k =>
    let word (i : Nat) : Int := (c.extractLsb' i 16).toInt
    let x := theta * BitVec.ofNat 32 (first + k)
    s + word (32 * k) * Config.sine x + word (32 * k + 16) * Config.sine (x + 0x40000000)) 0

/-- A resolver's angle corrected by its table (R93): 0.01 arcmin is 2^32 / 2 160 000. -/
def harmCorrected (t : HarmTable) (theta : W32) : W32 :=
  match t.low, t.high with
  | some l, some u =>
    let s := (harmSum l 1 theta + harmSum u 9 theta) / 32768
    theta - BitVec.ofInt 32 (s * 4294967296 / 2160000)
  | _, _ => theta

/-- The way of a speed in 0.01 rpm over some ticks, 2^32 to the turn. -/
def wayOf (n ticks : Int) : Int := n * ticks * 4294967296 / (6000 * sTicks)

/-- A resolver's mechanical angle when it was built: its own turn within the mechanical turn, and its angle (R89). -/
def Resolver.mech (r : Resolver) (poles : Nat) : W32 := BitVec.ofNat 32 ((r.lap * 4294967296 + r.angle.toNat) / max poles 1)

/-- Ticks since a module time. -/
def Hw.ticksSince (h : Hw) (t : W64) : Int := (h.time.now.toNat : Int) - t.toNat

/-- An encoder's mechanical angle now: its count, moved on from the last edge by the measured speed within that count. -/
def Hw.encMech (h : Hw) (n : Nat) : W32 :=
  let e := h.enc n
  let turn : Int := 4 * max (h.par (0x040F + n)) 1
  let step := 4294967296 / turn
  BitVec.ofInt 32 (e.count * 4294967296 / turn + clampI (-step) step (wayOf e.speed (h.ticksSince e.last)))

/-- The resolver of a POS_SOURCE code, none for an encoder. -/
def resolverOf (src : Nat) : Option Nat := if src = 0x10 then some 0 else if src = 0x11 then some 1 else none

/-- The sensor's mechanical angle, extrapolated with its measured speed to now (R89, R104). -/
def Hw.sensorMech (h : Hw) (b : Bridge) : W32 :=
  let src := h.par (perBridge 0x0401 b)
  match resolverOf src with
  | some k =>
    let r := h.res k
    r.mech (h.par (0x040B + k)) + BitVec.ofInt 32 (wayOf r.speed (h.ticksSince r.angleAt))
  | none => h.encMech (src - 0x20)

/-- The sensor's speed in 0.01 rpm. -/
def Hw.sensorSpeed (h : Hw) (b : Bridge) : Int :=
  let src := h.par (perBridge 0x0401 b)
  match resolverOf src with
  | some k => (h.res k).speed
  | none => (h.enc (src - 0x20)).speed

/-- The sensor angle theta_s of a bridge (R104): corrected for harmonics, times POS_POLE_PAIRS, offset; BASE_CAMP uses no
table (R109). -/
def Hw.sensorElec (h : Hw) (b : Bridge) (mech : W32) : W32 :=
  let m := match resolverOf (h.par (perBridge 0x0401 b)) with
    | some k => if h.mode.mode != .baseCamp then harmCorrected (h.res k).table mech else mech
    | none => mech
  m * BitVec.ofNat 32 (h.par (perBridge 0x0403 b)) + BitVec.ofNat 32 (h.par (perBridge 0x0405 b))

/-! ## Fusion (R104) -/

/-- The bridge's sensor is in use. -/
def Fusion.onSensor (f : Fusion) : Bool := !f.sensorLost && !f.noSource

/-- Fusion is done in this mode (R45, R109, R148). -/
def Hw.fusing (h : Hw) : Bool :=
  match h.mode.mode with
  | .baseCamp => false | .charge => !h.boosting | .bivouac => false | .ready => true | .drive => true | .belay => true
  | .arrest => true | .workshop => true

/-- What fusion adds to the sensor angle (R104): k x (theta_o - theta_s), with k = OBS_WEIGHT / 256 x (n / OBS_MIN_SPEED - 1)
from OBS_MIN_SPEED to twice that, and nothing while the observer is not locked. -/
def Hw.pullOf (h : Hw) (f : Fusion) (locked : Bool) (n diff : Int) : Int :=
  let m := h.obsMin
  if !h.fusing || f.observerLost || !locked then 0
  else clampI 0 m (absI n - m) * h.par 0x0425 * diff / (256 * m)

/-- The source byte of R147. -/
def Hw.sourceByte (h : Hw) (f : Fusion) : Nat :=
  if f.noSource then 3 else if f.sensorLost then 2 else if f.observerLost || !h.fusing then 1 else 0

/-- Lock, fused angle and speed at a boundary (R104). -/
def Hw.fuse (h : Hw) (b : Bridge) (m : BoundaryInput) : Hw :=
  let f := h.fus b
  let n := if f.onSensor then h.sensorSpeed b else m.obsSpeed
  let lock := if m.residual * 100 < 5 * m.emf then min (f.lockCount + 1) 16 else 0
  let mech := h.sensorMech b
  let s := h.sensorElec b mech
  let locked : Bool := lock == 16 && h.obsMin ≤ absI n
  let angle := if f.onSensor then s + BitVec.ofInt 32 (h.pullOf f locked n (angleDiff m.obsAngle s)) else m.obsAngle
  (h.modFus b (fun f => { f with lockCount := lock, angle := angle, speed := n, source := h.sourceByte f, mech := mech
                                 travel := f.travel + angleDiff angle f.angle })).modCtl b (fun c =>
    { c with speed := n, stillAt := heldSince c.stillAt (decide (absI n < 100)) h.time.clock })

/-! ## What the tile measures (R113, R131) -/

/-- The record of the window that closed last for an input on the bridge's time base (R113): a PERIOD window with one update to
the period, a HALF window with two. -/
def Hw.windowOf (h : Hw) (b : Bridge) (input : Nat) : Option AccRecord :=
  let closure := if h.par (perBridge 0x0501 b) = 2 then 1 else 0
  (h.sen.accs.find? (fun x => match x.2.cfg with
    | some c => c.input == input && c.base == b.code && c.closure == closure && c.gate == 0 && c.run
    | none => false)).bind (·.2.last)

/-- The period-true phase currents of a bridge in mA. -/
def Hw.phaseCurrents (h : Hw) (b : Bridge) : Int × Int × Int :=
  let i (k : Nat) : Int := match h.windowOf b (3 * b.code + k) with | some r => r.reading | none => 0
  (i 0, i 1, i 2)

/-- Three phase quantities as a vector: along phase U, and 90 degrees ahead of it (R5). -/
def clarke (x : Int × Int × Int) : Int × Int := ((2 * x.1 - x.2.1 - x.2.2) / 3, (x.2.1 - x.2.2) * 577350269 / 1000000000)

/-- A vector seen from a frame turned forward by an angle. -/
def rotate (x : Int × Int) (theta : W32) : Int × Int :=
  let s := Config.sine theta
  let c := Config.sine (theta + 0x40000000)
  ((x.1 * c + x.2 * s) / 32768, (x.2 * c - x.1 * s) / 32768)

/-- Length of a bridge's control period in ticks, by the measured length of its present PWM period (R113). -/
def Hw.ctrlPeriod (h : Hw) (b : Bridge) : Nat := (h.ctl b).periodLen / max (h.par (perBridge 0x0501 b)) 1

/-- The fused angle so many half control periods from now (R113). -/
def Hw.angleAhead (h : Hw) (b : Bridge) (halves : Int) : W32 :=
  let f := h.fus b
  f.angle + BitVec.ofInt 32 (wayOf (f.speed * h.poles b) (halves * h.ctrlPeriod b / 2))

/-- Integer length of a vector. -/
def sizeOf' (x : Int × Int) : Int := isqrt (x.1 * x.1 + x.2 * x.2).toNat

/-- The d/q flux of a bridge at two currents in 0.1 uVs (R131): the FLUX map scaled by FLUX_CORR, with psi_d shifted from the map's
temperature to the magnets'; without a map the magnet flux and free inductances. -/
def Hw.fluxDQ (h : Hw) (b : Bridge) (id iq : Int) : Int × Int :=
  match (h.ctl b).flux with
  | some t =>
    let k := h.par (perBridge 0x0528 b)
    let f := fluxAt t id iq
    (f.1 * (k % 65536 : Nat) / 32768 + (h.psiAt b (h.magEst b) - h.psiAt b t.mapTemp) / 100000000,
     f.2 * (k / 65536 : Nat) / 32768)
  | none => (h.psiAt b (h.magEst b) / 100000000 + Config.creepInductance.1 * id / 100000, Config.creepInductance.2 * iq / 100000)

/-- Incremental inductances (L_d, L_q) of a bridge in nH at its present currents (R114). -/
def Hw.inductances (h : Hw) (b : Bridge) : Int × Int :=
  match (h.ctl b).flux with
  | some t => slopesAt t (h.ctl b).idCur (h.ctl b).iqCur
  | none => Config.creepInductance

/-- Electrical angular speed times a flux in 0.1 uVs, in uV. -/
def Hw.omegaPsi (h : Hw) (b : Bridge) (psi : Int) : Int := (h.fus b).speed * h.poles b * psi * 1047197551 / 10 ^ 13

/-- Reactance in micro-ohm of an inductance in nH at the present speed. -/
def Hw.reactance (h : Hw) (b : Bridge) (l : Int) : Int := (h.fus b).speed * h.poles b * l * 1047197551 / 10 ^ 15

/-- The short-circuit current in mA peak that the model of the motor gives (R145): (i_d, i_q) from R_s, the reactances and the
back-EMF. -/
def Hw.shortCircuit (h : Hw) (b : Bridge) : Int × Int :=
  let l := h.inductances b
  let rs := h.rsHot b
  let xd := h.reactance b l.1
  let xq := h.reactance b l.2
  let e := h.omegaPsi b (h.psiAt b (h.magEst b) / 100000000)
  let z := rs * rs + xd * xq
  (-(xq * e * 1000 / z), -(rs * e * 1000 / z))

/-- The rotation of the current vector agrees with the model within 2 %, and its size within 10 % (R145). -/
def Hw.vectorAgrees (h : Hw) (b : Bridge) : Bool :=
  let c := h.ctl b
  let n := (h.fus b).speed
  let i := sizeOf' (c.idCur, c.iqCur)
  let model := sizeOf' (h.shortCircuit b)
  absI (c.vecSpeed - n) * 50 ≤ absI n && absI (i - model) * 10 ≤ model

/-- Currents at the boundary: the vector of the phase windows in the rotor frame at the middle of the control period that ended,
its angle and rotation, since when it exceeds 100 A rms (R166), and while the observer re-acquires since when it agrees with the model
(R113, R145). -/
def Hw.measure (h : Hw) (b : Bridge) : Hw :=
  let i := clarke (h.phaseCurrents b)
  let dq := rotate i (h.angleAhead b (-1))
  let vec := Config.atan2 i.2 i.1
  let dt : Int := max (h.time.clock - (h.ctl b).boundaryAt) 1
  let h1 := h.modCtl b (fun c =>
    { c with idCur := dq.1, iqCur := dq.2, iRms := isqrt ((dq.1 * dq.1 + dq.2 * dq.2) / 2).toNat, vecAngle := vec
             vecSpeed := angleDiff vec c.vecAngle * 6000 * sTicks / (4294967296 * dt * maxI (h.poles b) 1)
             boundary := some h.time.now, boundaryAt := h.time.clock })
  h1.modCtl b (fun c => { c with agreeAt := heldSince c.agreeAt (c.reacqAt.isSome && c.state.asc && h1.vectorAgrees b) h.time.clock
                                 loadedAt := heldSince c.loadedAt (100000 < c.iRms) h.time.clock })

/-! ## Judgement (R106, R107) -/

/-- The angle of the back-EMF vector (R106): the applied voltage less R_s x i and the voltages of the inductances, in the rotor
frame at the middle of the control period, turned to the boundary. -/
def Hw.emfAngle (h : Hw) (b : Bridge) (m : BoundaryInput) : W32 :=
  let c := h.ctl b
  let v := rotate (m.vAlpha, m.vBeta) (h.angleAhead b (-1))
  let psi := h.fluxDQ b c.idCur c.iqCur
  let own := h.psiAt b (h.magEst b) / 100000000
  let rs := h.rsHot b
  let ed := 1000 * v.1 - rs * c.idCur / 1000 + h.omegaPsi b psi.2
  let eq := 1000 * v.2 - rs * c.iqCur / 1000 - h.omegaPsi b (psi.1 - own)
  (h.fus b).angle + Config.atan2 eq ed

/-- A source lies within 4 degrees of the back-EMF window (R106). -/
def inWindow (emf src : W32) : Bool := absI (angleDiff emf (src + 0x40000000)) ≤ deg4

/-- Consistency, deviation and speed difference at a boundary (R106, R107). -/
def Hw.watchSources (h : Hw) (b : Bridge) (m : BoundaryInput) : Hw :=
  let f := h.fus b
  let s := h.sensorElec b f.mech
  let emf := h.emfAngle b m
  let valid : Bool := h.obsMin ≤ absI f.speed
  let sBad := valid && !inWindow emf s
  let oBad := valid && !inWindow emf m.obsAngle
  let push (old : Nat) (x : Bool) : Nat := (2 * old + (if x then 1 else 0)) % 8
  let both := valid && f.onSensor && !f.observerLost
  let dev : Bool := both && decide (deg8 < absI (angleDiff m.obsAngle s))
  let n := h.sensorSpeed b
  let diff : Bool := both && h.obsLocked b && decide (absI n * 2 / 100 + 3000 < absI (m.obsSpeed - n))
  let now := h.time.clock
  h.modFus b (fun f =>
    { f with sensorBad := push f.sensorBad sBad, observerBad := push f.observerBad oBad
             devCount := if dev then min (f.devCount + 1) 3 else 0
             diffAt := heldSince f.diffAt diff now
             sensorOkAt := heldSince f.sensorOkAt (h.sensorOk b && !sBad) now
             observerOkAt := heldSince f.observerOkAt (h.obsLocked b && !oBad) now })

/-- POS_OBSERVER_LOST (R107, R144): the bridge goes on on the sensor. -/
def Hw.loseObserver (h : Hw) (b : Bridge) : Hw :=
  (h.modFus b (fun f => { f with observerLost := true, observerOkAt := none, devCount := 0, diffAt := none })).raiseOnce
    fltPosObserverLost (BitVec.ofNat 8 b.code)

/-- POS_SENSOR_LOST (R107, R144): the bridge goes on on the observer. -/
def Hw.loseSensor (h : Hw) (b : Bridge) : Hw :=
  (h.modFus b (fun f => { f with sensorLost := true, sensorOkAt := none, devCount := 0, diffAt := none })).raiseOnce
    fltPosSensorLost (BitVec.ofNat 8 b.code)

/-- POS_NO_SOURCE (R107, R112, R144): the safe pattern by speed within one control period; from an active short circuit the
observer re-acquires (R145). -/
def Hw.loseBoth (h : Hw) (b : Bridge) : Hw :=
  let h1 := (h.modFus b (fun f => { f with noSource := true, sensorOkAt := none, devCount := 0, diffAt := none })).orderSafe b
  let h2 := h1.modCtl b (fun c => { c with reacqAt := if c.state.asc then some h.time.clock else none, agreeAt := none })
  if h2.faultActive fltPosNoSource.code (BitVec.ofNat 8 b.code) then h2
  else h2.raiseAs fltPosNoSource (h.bridgeClass b) (BitVec.ofNat 8 b.code) 0 true

/-- On the observer alone below OBS_MIN_SPEED: the safe pattern, until the sensor returns (R144). -/
def Hw.awaitSensor (h : Hw) (b : Bridge) : Hw :=
  let h1 := h.modFus b (fun f => { f with waitSensor := true })
  if (h.ctl b).ordered then h1 else h1.orderSafe b

/-- The judgement of R107, in DRIVE and BELAY (R109). -/
def Hw.judge (h : Hw) (b : Bridge) : Hw :=
  let f := h.fus b
  let own := h.sensorOk b
  let sOk := own && f.sensorBad == 0
  let oIn := f.observerBad == 0
  let oOk := h.obsLocked b && oIn && !f.observerLost
  if !(h.mode.mode == .drive || h.mode.mode == .belay) || f.noSource then h
  else if f.sensorLost then
    (if absI f.speed < h.obsMin then h.awaitSensor b
     else if oOk || f.waitSensor then h else h.loseBoth b)
  else if !(!own || 3 ≤ f.devCount || heldFor f.diffAt (10 * msTicks) h.time.clock) then h
  else if sOk then
    (if oIn then h.modFus b (fun f => { f with agreed := f.agreed + 1, devCount := 0, diffAt := none }) else h.loseObserver b)
  else if oOk then h.loseSensor b
  else h.loseBoth b

/-- The host has acknowledged the newest entry of a fault (R108, R360). -/
def Hw.acked (h : Hw) (code : W16) (src : Byte) : Bool :=
  !h.flt.loss && (match h.latest code src with | some e => e.acked | none => true)

/-- The sensor may return (R108): after POS_NO_SOURCE only once the observer has re-acquired, or below OBS_MIN_SPEED, where
R145 has the bridge wait for it. -/
def Hw.sensorMayReturn (h : Hw) (b : Bridge) : Bool :=
  let f := h.fus b
  (f.sensorLost && !f.noSource) || (f.noSource && absI f.speed < h.obsMin)

/-- A lost source that has been consistent for 1 s returns once the host has acknowledged (R108). -/
def Hw.returnSources (h : Hw) (b : Bridge) : Hw :=
  let f := h.fus b
  let src := BitVec.ofNat 8 b.code
  let now := h.time.clock
  let h1 := if f.observerLost && heldFor f.observerOkAt sTicks now then
      (let x := h.clearFault fltPosObserverLost.code src
       if x.acked fltPosObserverLost.code src then x.modFus b (fun f => { f with observerLost := false }) else x)
    else h
  if h.sensorMayReturn b && heldFor f.sensorOkAt sTicks now then
    (let x := (h1.clearFault fltPosSensorLost.code src).clearFault fltPosNoSource.code src
     if x.acked fltPosSensorLost.code src && x.acked fltPosNoSource.code src then
       x.modFus b (fun f => { f with sensorLost := false, noSource := false, waitSensor := false }) else x)
  else h1

end Sys2Proof.Machine
end

