-- ==== Sys2Proof/Machine/Regulator.lean ====
section
/-!
DEFINITION. Machine/Regulator.lean: the current references of a bridge (R121, R124, R142, R148) and its current regulator (R113,
R114).
-/
namespace Sys2Proof.Machine

/-! ## Current references -/

/-- Magnet flux of a bridge at the estimate in 0.1 uVs. -/
def Hw.psiNow (h : Hw) (b : Bridge) : Int := h.psiAt b (h.magEst b) / 100000000

/-- The power in mW that a bridge has to burn (R142): what its applied torque returns beyond its part of the returnable power, up
to RAPPEL_P_MAX. -/
def Hw.toBurn (h : Hw) (b : Bridge) : Int :=
  let back := -(mechPower (h.ctl b).applied (h.ctl b).speed)
  match h.mayReturn b with
  | some may => clampI 0 (1000 * (h.par 0x0515 : Int)) (back - may)
  | none => 0

/-- The d-axis current in mA peak with loss braking (R142): made more negative, within rank 2 and the flux limit, until copper and
switching losses take the power to burn. Copper losses are 1.5 x R_s x i^2. -/
def Hw.lossBraking (h : Hw) (b : Bridge) (t : MotorTable) (id iq : Int) : Int :=
  let burn := h.toBurn b
  if burn ≤ 0 then id
  else
    let copper := burn - Config.switchLoss (sizeOf' (id, iq)) h.pwr.vdc
    let goal : Int := isqrt (maxI 0 (copper * 2000000000 / (3 * maxI (h.rsHot b) 1) - iq * iq)).toNat
    let amps := minI (h.accountAmps b) (h.dieDerated b (h.accountAmps b))
    let fits (x : Int) : Bool :=
      decide (x ≤ goal) && decide (x * x + iq * iq ≤ 2 * amps * amps) && decide (sizeOf' (h.fluxDQ b (-x) iq) ≤ h.psiOn b t)
    0 - largest fits 31 (absI id)

/-- Current references (i_d, i_q) in mA peak for the applied torque (R121, R124, R148): the MTPA table at the flux limit, i_q with
the sign of the torque, d-axis current alone below psi_MIN; in BASE_CAMP i_d = 0 and i_q from the CONFIG nominal flux. -/
def Hw.currentRef (h : Hw) (b : Bridge) : Int × Int :=
  let x := (h.ctl b).applied
  match h.mtpaOn b with
  | some t =>
    let i := mtpaAt t x (h.psiOn b t)
    let below : Bool := match h.psiLimit b with | some p => decide (p < t.lim2) | none => false
    let iq := if below then 0 else if x < 0 then -i.2 else i.2
    (h.lossBraking b t i.1 iq, iq)
  | none => (0, x * 200000000 / maxI (3 * h.poles b * h.psiNominal b) 1)

/-! ## The regulator (R114) -/

/-- Effective bandwidth of the current loop in Hz (R114): CUR_BW, a twelfth of the control rate, 3000 Hz. -/
def Hw.bandwidth (h : Hw) (b : Bridge) : Nat :=
  let rate := h.par (perBridge 0x0501 b) * sTicks / max (h.nominalPeriod b) 1
  min (min (h.par (perBridge 0x0503 b)) (rate / 12)) 3000

/-- A voltage vector in uV within V_max, and whether it had to be limited (R114). -/
def Hw.limitVolts (h : Hw) (v : Int × Int) : (Int × Int) × Bool :=
  let most := 1000 * h.vmax
  let size := sizeOf' v
  if most < size then ((v.1 * most / size, v.2 * most / size), true) else (v, false)

/-- The regulator's demand in uV for a current error in mA (R114): Kp = 2 pi f L, the integrators, and the fed forward
cross-coupling omega L i and back-EMF omega psi. -/
def Hw.voltDemand (h : Hw) (b : Bridge) (err : Int × Int) : Int × Int :=
  let c := h.ctl b
  let l := h.inductances b
  let kp (l e : Int) : Int := 6283185307 * h.bandwidth b * l * e / 10 ^ 15
  (kp l.1 err.1 + c.intD - h.reactance b l.2 * c.iqCur / 1000,
   kp l.2 err.2 + c.intQ + h.reactance b l.1 * c.idCur / 1000 + h.omegaPsi b (h.psiNow b))

/-- What an integrator gains in uV on an error in mA over some ticks (R114): Ki = 2 pi f R_s at the winding temperature. -/
def Hw.integralStep (h : Hw) (b : Bridge) (err : Int) (ticks : Nat) : Int :=
  6283185307 * h.bandwidth b * h.rsHot b * err * ticks / (10 ^ 12 * sTicks)

/-- Voltages of the three legs against the middle of the DC link, of a vector along and ahead of phase U. The two null vectors share
what the vector leaves (DESIGN CHOICE: no rule divides it), which centres the three voltages. -/
def legVolts (x : Int × Int) : List Int :=
  let y := x.2 * 866025404 / 1000000000
  let l := [x.1, y - x.1 / 2, -y - x.1 / 2]
  let mid := (l.foldl maxI x.1 + l.foldl minI x.1) / 2
  l.map (fun v => v - mid)

/-- The command in effect adds its volt-seconds of the control period that begins to those of the PWM period (R154). -/
def Hw.commandVolts (h : Hw) (b : Bridge) : Hw :=
  h.modGate b (fun g =>
    { g with vsCommand := (g.vsCommand.zip (h.ctl b).legs).map (fun p => p.1 + p.2 * h.ctrlPeriod b) })

/-- One step of the current regulator toward references (R113, R114): while the vector is limited both integrators hold; the
command takes effect at the next control boundary, turned by the angle in the middle of the period in which it applies, 1.5
control periods from now. -/
def Hw.regulateCurrent (h : Hw) (b : Bridge) (ticks : Nat) (ref : Int × Int) : Hw :=
  let c := h.ctl b
  let err := (ref.1 - c.idCur, ref.2 - c.iqCur)
  let r := h.limitVolts (h.voltDemand b err)
  let v := r.1
  let frame := rotate v (0 - h.angleAhead b 3)
  (h.modCtl b (fun c =>
    { c with refD := ref.1, refQ := ref.2, vD := v.1, vQ := v.2, vLimited := r.2
             intD := if r.2 then c.intD else c.intD + h.integralStep b err.1 ticks
             intQ := if r.2 then c.intQ else c.intQ + h.integralStep b err.2 ticks
             voltBad := if r.2 then min (c.voltBad + 1) 4 else 0
             legs := c.legsNext, legsNext := legVolts frame })).commandVolts b

/-- The regulator rests: no reference and no command; the command still in effect ends at this boundary. -/
def Hw.restCurrent (h : Hw) (b : Bridge) : Hw :=
  h.modCtl b (fun c => { c with refD := 0, refQ := 0, intD := 0, intQ := 0, vD := 0, vQ := 0, vLimited := false, voltBad := 0
                                legs := [0, 0, 0], legsNext := [0, 0, 0] })

/-- The voltage loop of R124: after four control periods above V_max it lowers the flux limit, by up to 10 %, and restores it as
margin returns. -/
def Hw.voltageLoop (h : Hw) (b : Bridge) : Hw :=
  let c := h.ctl b
  if c.voltBad = 4 || 0 < c.fluxCut then (h.modCtl b (fun c => { c with fluxCut := Config.fluxLoop h.free % 101 })).drawn else h

/-- The current error exceeds 10 % of I_PEAK while the voltage is not limited (R151): peak against rms. -/
def Hw.currentAstray (h : Hw) (b : Bridge) : Bool :=
  let c := h.ctl b
  let d := c.refD - c.idCur
  let q := c.refQ - c.iqCur
  let most := h.parI (perBridge 0x050C b)
  !c.vLimited && 2 * most * most < 100 * (d * d + q * q)

end Sys2Proof.Machine
end

