-- ==== Sys2Proof/Machine/Boundary.lean ====
section
/-!
DEFINITION. Machine/Boundary.lean: what a bridge's tile does at a control boundary: fusion and judgement of the position
sources (R104-R108, R144), targets that take effect (R116, R123, R94, R322), regulation within the limits (R119, R120,
R126, R140), the torque and magnet estimates (R131, R132), and the status record (R147).
-/
namespace Sys2Proof.Machine

/-! ## What takes effect at the boundary -/

/-- Motor tables that wait become active and their loads complete (R123). -/
def Hw.takeMaps (h : Hw) (b : Bridge) : Hw :=
  let c := h.ctl b
  let c1 := match c.mtpaNext with | some t => c.activateMap t | none => c
  let c2 := match c1.fluxNext with | some t => c1.activateMap t | none => c1
  Hw.completeAll c.mapReqs .done (h.modCtl b (fun _ => { c2 with mapReqs := [] }))

/-- The resolver table of the bridge's sensor (R94). -/
def Hw.takeTable (h : Hw) (b : Bridge) : Hw :=
  let s := h.par (perBridge 0x0401 b)
  if s = 0x10 || s = 0x11 then h.harmActivate (s - 0x10) else h

/-- The setpoint that waits becomes the target (R116); one that a cinch's setpoint takes over is superseded (R330). -/
def Hw.takeSetpoint (h : Hw) (b : Bridge) : Hw :=
  match (h.ctl b).pending with
  | none => h
  | some p =>
    let h1 := h.modCtl b (fun c => { c with pending := none })
    if h.cinchTakes b then h1.completeOpt p.req .superseded
    else if (h.ctl b).state.safe || (h.ctl b).state == .sync then h1.storeSetpoint b p
    else if h.shiftHolds b then h1.holdSetpoint b p
    else (h1.modCtl b (fun c => c.retarget p.sp)).completeOpt p.req .done

/-- Control periods of step 3 (R138): one at zero current from OPEN; from ASC one at the present short-circuit current and one at
the zero-torque point of the flux limit, which takes the step no time that its 5 ms allow beyond these (DESIGN CHOICE). -/
def Ctl.syncPeriods (c : Ctl) : Nat := if c.syncAsc then 2 else 1

/-- The current reference of step 3 (R138). -/
def Hw.syncReference (h : Hw) (b : Bridge) : Int × Int :=
  let c := h.ctl b
  if !c.syncAsc then (0, 0) else if c.syncStep = 1 then (c.idCur, c.iqCur) else h.currentRef b

/-- Step 3 begins: from OPEN the integrators are preloaded, so that with what is fed forward the first command is the back-EMF
that was measured (R138). -/
def Hw.preload (h : Hw) (b : Bridge) : Hw :=
  let fed := h.omegaPsi b (h.psiNow b)
  h.modCtl b (fun c => { c with intD := 0, intQ := if c.syncAsc then 0 else c.syncEmf.getD fed - fed, syncStep := 1 })

/-- SYNC at a control boundary (R138): step 3 begins or goes on, and once it has passed the bridge runs, from zero torque toward
the stored setpoint. -/
def Hw.syncAdvance (h : Hw) (b : Bridge) : Hw :=
  let c := h.ctl b
  if c.state == .sync && c.syncReady then
    match c.stored with
    | some p =>
      if c.syncStep = 0 then h.preload b
      else if c.syncStep < c.syncPeriods then h.modCtl b (fun c => { c with syncStep := c.syncStep + 1 })
      else h.modCtl b (fun c =>
        { c.retarget p.sp with stored := none, ramped := 0, applied := 0, ordered := false, faulted := false, ackNeeded := false
                               reentry := c.reentry, syncReady := false, syncStep := 0, syncEmf := none })
    | none => h.orderSafe b
  else h

/-- The CONTROL_AB boundary is now (R332, R444): the fixed time is here, or both bridges are at a boundary after it. -/
def Hw.abNow (h : Hw) : Bool :=
  match h.sh.fixedAB with
  | some t => t == h.time.now || (h.atAB && decide (t.toNat ≤ h.time.now.toNat))
  | none => h.atAB

/-- A setpoint that waits for the boundary at which a pair takes its bridge is superseded (R116). -/
def Hw.supersedePending (h : Hw) (b : Bridge) : Hw :=
  (h.modCtl b (fun c => { c with pending := none })).completeOpt ((h.ctl b).pending.bind (·.req)) .superseded

/-- A TORQUE_PAIR takes effect on both bridges, or completes MODE_DENIED (R120); a cinch's setpoint supersedes it. -/
def Hw.takePair (h : Hw) : Hw :=
  match h.sh.pair with
  | none => h
  | some (x, y, q) =>
    let h1 : Hw := { h with sh := { h.sh with pair := none } }
    if h.cinchTakes .brA || h.cinchTakes .brB then h1.completeOpt q .superseded
    else if !h.ctlA.state.inService || !h.ctlB.state.inService then h1.completeOpt q .modeDenied
    else
      ((((h1.supersedePending .brA).supersedePending .brB).modCtl .brA (fun c => c.retarget x)).modCtl .brB (fun c =>
        c.retarget y)).completeOpt q .done

/-- A SYSCAL overlay takes effect at the boundary (R347). -/
def Hw.takeSyscal (h : Hw) : Hw :=
  match h.otp.syscalNext with
  | none => h
  | some (body, q) => (({ h with otp := { h.otp with syscalNext := none } } : Hw).applySyscal body).completeOpt q .done

/-- What takes effect at the CONTROL_AB boundary; one that has passed is fixed anew while it is asked for (R120, R322, R444). -/
def Hw.takeAB (h : Hw) : Hw :=
  if h.abNow then
    let h1 := (h.takePair.applyWaiting [.controlAB]).takeSyscal
    { h1 with sh := { h1.sh with fixedAB := none } }
  else match h.sh.fixedAB with
    | some t =>
      if t.toNat < h.time.now.toNat then
        (let h1 : Hw := { h with sh := { h.sh with fixedAB := none } }
         if h1.wantsAB then h1.fixAB 0 else h1)
      else h
    | none => if h.wantsAB then h.fixAB 0 else h

/-! ## Regulation (R119, R120, R126, R140, R392) -/

/-- The share of a motor's torque in % that a bridge applies (R392, R394, R401, R403). -/
def Hw.shareOf (h : Hw) (b : Bridge) : Int :=
  if !h.roped then 100
  else if h.mode.mode == .baseCamp then (if h.pair.holder then 100 else 0)
  else if (match b with | .brA => h.pair.takenA | .brB => h.pair.takenB) then 100
  else if h.pair.lead then h.pair.share else 100 - (h.pair.share : Int)

/-- The partner's bridge on the same motor is out of torque service. -/
def Hw.taken (h : Hw) (b : Bridge) : Bool := match b with | .brA => h.pair.takenA | .brB => h.pair.takenB

/-- A value moved toward a goal by at most a step. -/
def toward (x goal step : Int) : Int := if goal < x then maxI goal (x - step) else minI goal (x + step)

/-- The setpoint ramp in 0.01 Nm/ms (R116, R126 rank 8, R394): DRAIN_RAMP in a drain, a timeout or a re-entry. -/
def Hw.rampRate (h : Hw) (b : Bridge) (sp : Setpoint) : Nat :=
  let c := h.ctl b
  if c.draining || c.stale || c.reentry then h.par 0x0507
  else if sp.ramp = 0 || h.taken b then h.par (perBridge 0x0505 b) else sp.ramp

/-- The speed loop's torque within the setpoint's own limits (R119): motoring and generating by the rotation. -/
def speedTorque (sp : Setpoint) (n t : Int) : Int :=
  if 0 ≤ n then clampI (-sp.rev) sp.fwd t else clampI (-sp.fwd) sp.rev t

/-- The share that a loop-running bridge applies: 100 % while no pair frame shows that its partner gets the loop torque
(R393). -/
def Hw.loopShare (h : Hw) (b : Bridge) : Int := if h.roped && h.pair.partner && h.pair.linkLost then 100 else h.shareOf b

/-- Torque in 0.01 Nm that accelerates an inertia in 10^-6 kg m^2 by a change of speed in 0.01 rpm over some ticks (R140). -/
def trajectoryTorque (inertia : Nat) (dn : Int) (ticks : Nat) : Int :=
  if ticks = 0 then 0 else (inertia : Int) * dn * 41887902048 / (1000000000 * (ticks : Int))

/-- The ramped setpoint, or the speed loop's output, `ticks` after the last boundary. -/
def Hw.demand (h : Hw) (b : Bridge) (ticks : Nat) : Hw :=
  let c := h.ctl b
  let inertia := h.par (perBridge 0x052A b)
  let loop (ref : Int) : Int := Config.speedLaw (ref - c.speed) (h.par 0x0517) inertia
  match c.state with
  | .runTorque =>
    (match c.target with
     | some sp =>
       let goal := if c.draining || c.stale then 0 else sp.value * h.shareOf b / 100
       let owed := h.rampRate b sp * ticks + c.rampRem
       let x := (h.shiftTorque b goal).getD (toward c.ramped goal ((owed / msTicks : Nat) : Int))
       h.modCtl b (fun c => { c with ramped := x, rampRem := owed % msTicks, reentry := c.reentry && x != goal, loopOut := none })
     | none => h)
  | .runSpeed =>
    (match c.target with
     | some sp =>
       if c.draining then
         let owed := h.par 0x0507 * ticks + c.rampRem
         h.modCtl b (fun c => { c with ramped := toward c.ramped 0 ((owed / msTicks : Nat) : Int)
                                       rampRem := owed % msTicks, loopOut := none })
       else
         let owed := sp.ramp * ticks + c.rampRem
         let ref := if sp.ramp = 0 then sp.value else toward c.speedRef sp.value ((owed / msTicks : Nat) : Int)
         let t := speedTorque sp c.speed (loop ref)
         let goal := t * h.loopShare b / 100
         let x := if c.reentry then toward c.ramped goal ((h.par 0x0507 * ticks / msTicks : Nat) : Int) else goal
         h.modCtl b (fun c => { c with speedRef := ref, rampRem := owed % msTicks, ramped := x, loopOut := some t
                                       reentry := c.reentry && x != goal })
     | none => h)
  | .shiftSync =>
    (match c.shiftRef with
     | some ref =>
       let t := loop ref + trajectoryTorque inertia (ref - c.speedRef) ticks
       h.modCtl b (fun c => { c with speedRef := ref, ramped := t * h.loopShare b / 100, loopOut := some t })
     | none => h)
  | .ident => h
  | .openAll => h
  | .ascLow => h
  | .ascHigh => h
  | .sync => h

/-- The policy that binds the two bridges, while both targets are of one pair. -/
def Hw.pairPolicy (h : Hw) : Option Nat :=
  match h.ctlA.target, h.ctlB.target with
  | some x, some y => (match x.pair, y.pair with
    | some p, some q => if p.1 == q.1 && p.2 == y.value && q.2 == x.value then some p.1 else none
    | _, _ => none)
  | _, _ => none

/-- The torque after the limits, with the bits of R147: a pair by its policy (R120), any other bridge on its own (R126). -/
def Hw.limited (h : Hw) (b : Bridge) : Int × W16 :=
  let c := h.ctl b
  let s := h.span b
  let alone := s.clamp c.ramped
  match h.pairPolicy with
  | none => alone
  | some p =>
    if p = 0 then alone
    else match fitPair p (h.span .brA) (h.span .brB) h.ctlA.ramped h.ctlB.ramped with
      | some (x, y) =>
        let t := match b with | .brA => x | .brB => y
        (t, if t == c.ramped then 0 else alone.2)
      | none => (alone.1, alone.2 ||| 0x4000)

/-- The ramp binds (R126 rank 8): the setpoint's ramp, or DRAIN_RAMP in a drain or re-entry of either loop. -/
def Hw.ramping (h : Hw) (b : Bridge) : Bool :=
  let c := h.ctl b
  match c.target with
  | some sp => (c.state == .runTorque && c.ramped != (if c.draining then 0 else sp.value * h.shareOf b / 100)) ||
      (c.state == .runSpeed && ((c.draining && c.ramped != 0) || c.reentry))
  | none => false

/-- The expected torque of R146 follows the applied torque up to now, by a first-order lag at the effective bandwidth. -/
def Hw.lagTo (h : Hw) (b : Bridge) : Hw :=
  let now := h.time.clock
  let gain (c : Ctl) : Nat := lagGain (h.bandwidth b) (now - c.expectedAt)
  h.modCtl b (fun c => { c with expected := c.expected + (c.applied * 65536 - c.expected) * gain c / 2 ^ 48, expectedAt := now })

/-- Regulation at a boundary: applied torque and limit bits, and the step of the current regulator. -/
def Hw.regulate (h : Hw) (b : Bridge) (ticks : Nat) : Hw :=
  let c := h.ctl b
  if c.state.inService || c.state == .shiftSync then
    let h1 := (h.lagTo b).demand b ticks
    let r := h1.limited b
    let bits := r.2 ||| (if h1.ramping b then 0x1000 else 0) ||| (if c.inWindow then 0x8000 else 0)
    let h2 := (h1.modCtl b (fun c => { c with applied := r.1, limits := bits })).voltageLoop b
    h2.regulateCurrent b ticks (h2.currentRef b)
  else
    let h1 := h.modCtl b (fun c => { c with applied := 0, limits := 0, loopOut := none, expected := 0, expectedAt := h.time.clock })
    if c.state == .sync && 0 < c.syncStep then h1.regulateCurrent b ticks (h1.syncReference b) else h1.restCurrent b

/-- Since when the setpoint of a bridge in torque service has been below 1 % of peak (R136). -/
def Hw.watchLow (h : Hw) (b : Bridge) : Hw :=
  let low : Bool := match (h.ctl b).target with
    | some sp => decide (100 * absI sp.value < h.peak b)
    | none => false
  h.modCtl b (fun c => { c with lowAt := heldSince c.lowAt (c.state == .runTorque && low) h.time.clock })

/-- IN_WINDOW (R140): the speed has been in the window around the shift's reference for SYNC_DWELL. -/
def Hw.windowCheck (h : Hw) (b : Bridge) : Hw :=
  let c := h.ctl b
  let inside : Bool := match c.shiftRef with
    | some r => decide (absI (c.speed - r) ≤ h.parI 0x0518) && c.state == .shiftSync
    | none => false
  let at' := heldSince c.winAt inside h.time.clock
  h.modCtl b (fun c => { c with winAt := at', inWindow := heldFor at' (h.parTicks 0x0519) h.time.clock })

/-! ## Estimates (R131, R132) -/

/-- The torque estimate in 0.01 Nm (R131): 1.5 x p x (psi_d i_q - psi_q i_d). -/
def Hw.torqueEstimate (h : Hw) (b : Bridge) (id iq : Int) : Int :=
  match (h.ctl b).flux with
  | none => Config.creepEstimate id iq
  | some _ =>
    let f := h.fluxDQ b id iq
    3 * h.poles b * (f.1 * iq - f.2 * id) / 200000000

/-- The first method of R132: at wake every assigned winding input agrees with the coolant inlet within 5 K. -/
def Hw.magnetStart (h : Hw) (b : Bridge) : Option Int :=
  let w := h.windings b
  if !w.isEmpty && w.all (fun t => absI (t - h.pwr.coolant) ≤ 500) then some (w.foldl (· + ·) 0 / (w.length : Int)) else none

/-- Change of the magnet temperature in 0.01 K that a change of the magnet flux in 0.1 uVs stands for (R132), by MAG_ALPHA; none where
PSI_M or MAG_ALPHA is 0. -/
def Hw.fluxToKelvin (h : Hw) (b : Bridge) (dpsi : Int) : Option Int :=
  let d := h.parI (perBridge 0x0521 b) * h.parI (perBridge 0x0523 b)
  if d = 0 then none else some (dpsi * 100000000 / d)

/-- The second method of R132: the observer's d-axis flux residual, filtered with 2 s; the first value is taken as it is. -/
def Hw.magnetObserved (h : Hw) (b : Bridge) (residual : Int) (ticks : Nat) : Hw :=
  match h.fluxToKelvin b residual with
  | none => h
  | some d =>
    let tau : Int := 2 * sTicks
    h.modCtl b (fun c => match c.magTemp with
      | none => { c with magTemp := some (h.magEst b + d), magAt := h.time.clock, magRem := 0 }
      | some t =>
        let owed := c.magRem + d * ticks
        { c with magTemp := some (t + Int.tdiv owed tau), magRem := owed - tau * Int.tdiv owed tau, magAt := h.time.clock })

/-- The third method of R132, below 1000 rpm: a thermal model, valid for MAG_HOLD after the last observer update. -/
def Hw.magnetModelled (h : Hw) (b : Bridge) : Hw :=
  let c := h.ctl b
  match c.magTemp with
  | none => h
  | some t =>
    if c.magAt + h.parTicks 0x0527 < h.time.clock then h.modCtl b (fun c => { c with magTemp := none, magCold := false })
    else if absI c.speed < 100000 then
      h.modCtl b (fun c => { c with magTemp := some (Config.magnetModel t ((hottest (h.windings b)).getD t) (h.rsHot b * c.iRms * c.iRms)) })
    else h

/-- The magnet temperature of a bridge at a boundary (R132). -/
def Hw.magnet (h : Hw) (b : Bridge) (residual : Int) (ticks : Nat) : Hw :=
  let c := h.ctl b
  let src := BitVec.ofNat 8 b.code
  let start := if c.status.isNone && c.magTemp.isNone then h.magnetStart b else none
  let h1 := match start with
    | some t => h.modCtl b (fun c => { c with magTemp := some t, magAt := h.time.clock, magCold := true })
    | none => if 100000 < absI c.speed && h.obsLocked b then h.magnetObserved b residual ticks else h.magnetModelled b
  match (h1.ctl b).magTemp with
  | some t => if h.parI 0x0526 < t then h1.raiseOnce fltTrqMagnetHot src else h1.clearFault fltTrqMagnetHot.code src
  | none => h1.clearFault fltTrqMagnetHot.code src

/-- Energies over some ticks (R351): mechanical by direction, and loss braking beyond what the link may take (R142). -/
def Hw.bridgeEnergy (h : Hw) (b : Bridge) (ticks : Nat) : Hw :=
  let c := h.ctl b
  let p := mechPower c.est c.speed
  let h1 := h.addEnergy (0x020 + 2 * b.code + (if 0 ≤ p then 0 else 1)) (p.natAbs * ticks)
  let back := -(mechPower c.applied c.speed)
  let may := (h.mayReturn b).getD back
  if may < back then h1.addEnergy (0x024 + b.code) ((back - may).toNat * ticks) else h1

/-- The DC overload account (R130) and the DC link's energy (0x02F, 0x030), by the current in the CH6 shunt, which is the sum of both
bridges' currents. -/
def Hw.dcAccount (h : Hw) (ticks : Nat) : Hw :=
  let i := (h.sen.reading.find 6).getD 0
  let p := i * h.pwr.vdc / 1000
  ({ h with sh := { h.sh with dcDrawn := accountStep h.sh.dcDrawn 1100000 720000 i ticks } } : Hw).addEnergy
    (if 0 ≤ p then 0x02F else 0x030) (p.natAbs * ticks)

/-- TRQ_REGULATION and TRQ_OVERSPEED (R151). -/
def Hw.torqueFaults (h : Hw) (b : Bridge) : Hw :=
  let c := h.ctl b
  let now := h.time.clock
  let src := BitVec.ofNat 8 b.code
  let l := h.speedLimits b c.target
  let fast : Bool := decide (l.1 * 105 < c.speed * 100) || decide (c.speed * 100 < -(l.2 * 105))
  let err := heldSince c.curErrAt (h.currentAstray b && c.state.inService) now
  let fastFor := heldSince c.overAt fast now
  let h1 := h.modCtl b (fun c => { c with curErrAt := err, overAt := fastFor })
  let h2 := if heldFor err (5 * msTicks) now then h1.raiseOnce fltTrqRegulation src
    else if err.isNone then h1.clearFault fltTrqRegulation.code src else h1
  if heldFor fastFor (100 * msTicks) now then h2.raiseOnce fltTrqOverspeed src
  else if fastFor.isNone then h2.clearFault fltTrqOverspeed.code src else h2

/-- A drain whose torque has reached zero ends in the safe pattern (R50). -/
def Hw.drainEnd (h : Hw) (b : Bridge) : Hw :=
  let c := h.ctl b
  if c.draining && c.ramped == 0 && c.applied == 0 then h.orderSafe b else h

/-- The status record of the boundary (R147). -/
def Hw.statusOf (h : Hw) (b : Bridge) : StatusRec :=
  let c := h.ctl b
  let f := h.fus b
  { est := c.est, speed := c.speed, id := c.idCur, iq := c.iqCur, magTemp := c.magTemp, state := c.state, source := f.source
    limits := c.limits, applied := c.applied, time := h.time.now }

/-- The 32 bytes of a status record (R147). -/
def StatusRec.bytes (r : StatusRec) : List Byte :=
  leBytes 4 (ofInt 4 r.est) ++ leBytes 4 (ofInt 4 r.speed) ++ leBytes 2 (ofInt 2 (r.id / 50)) ++
  leBytes 2 (ofInt 2 (r.iq / 50)) ++ leBytes 2 (match r.magTemp with | some t => ofInt 2 t | none => 0x8000) ++
  [BitVec.ofNat 8 r.state.code, BitVec.ofNat 8 r.source] ++ leBytes 2 r.limits.toNat ++ [0, 0] ++
  leBytes 4 (ofInt 4 r.applied) ++ leBytes 8 r.time.toNat

/-! ## Encoder emulation (R103) -/

/-- The shorter way round from one count to another, with `n` counts to the turn. -/
def shortWay (n : Nat) (a b : Int) : Int :=
  let d := (b - a) % (n : Int)
  if (n : Int) < 2 * d then d - n else d

/-- Counts to the turn of an output: four for each line of R103. -/
def Hw.outCounts (h : Hw) (k : Nat) : Nat :=
  let src := h.par (0x0420 + k)
  let ratio := h.par (0x0422 + k)
  let base := if src = 3 then h.par 0x040F else if src = 4 then h.par 0x0410 else 4096
  4 * (base * (ratio % 65536) / max (ratio / 65536) 1)

/-- An output follows its source to a count of the turn at up to 10 M edges/s (R103), or holds its last state while the
source is lost; on return it runs the shorter way round. -/
def Hw.outFollow (h : Hw) (k : Nat) (count rate : Int) (healthy : Bool) : Hw :=
  let o := h.pos.out.get k {}
  let n := h.outCounts k
  let src := BitVec.ofNat 8 (0x50 + k)
  let now := h.time.clock
  let put (h : Hw) (o : EncOut) : Hw := { h with pos := { h.pos with out := h.pos.out.set k o } }
  if n = 0 then h
  else if !healthy then put h { o with held := true, rate := 0, lastAt := now }
  else
    let want := if o.held then o.out + shortWay n o.out count else o.demand + shortWay n o.demand count
    let most : Int := ((now - o.lastAt) / 40 : Nat)
    let out := toward o.out want most
    let late := out != want
    let h1 := put h { o with out := out, demand := want, held := false, overrun := late, rate := rate
                             lastAt := if late then now - (now - o.lastAt) % 40 else now }
    if late && !o.overrun then h1.occur fltEncoutOverrun src else h1

/-- Quadrature edges that an output has emitted at a `clock` after its source was last seen (R103): between control boundaries
they are spaced by interpolation with the measured speed. -/
def EncOut.outAt (o : EncOut) (clock : Nat) : Int := o.out + Int.tdiv (o.rate * ((clock : Int) - o.lastAt)) (6000 * sTicks)

/-- The levels A, B and Z of an output of `n` counts to the turn (R103): A leads B forward, and Z is high for the one quadrant at
mechanical angle 0. -/
def EncOut.levels (o : EncOut) (n : Nat) (clock : Nat) : Bool × Bool × Bool :=
  let q := (o.outAt clock) % max (n : Int) 4
  (q % 4 == 1 || q % 4 == 2, q % 4 == 2 || q % 4 == 3, q == 0)

/-- The outputs fed by a fused bridge angle follow it (R103): the mechanical angle the sensor gives, moved by what fusion
added. -/
def Hw.outFused (h : Hw) (b : Bridge) : Hw :=
  let f := h.fus b
  let add := angleDiff f.angle (h.sensorElec b f.mech) / h.poles b
  let mech : Int := ((f.mech + BitVec.ofInt 32 add).toNat : Int)
  (List.range 2).foldl (fun x k =>
    if x.par (0x0420 + k) = 1 + b.code then
      x.outFollow k (mech * x.outCounts k / 4294967296) (f.speed * x.outCounts k) (x.posHealthy b) else x) h

/-! ## The boundary -/

/-- TRQ_DC_CEILING ends, and the rank-3 interval opens again, once VDC is back at DC_CEIL (R143). -/
def Hw.ceilingEnd (h : Hw) : Hw :=
  if h.sh.dcCeil && h.pwr.vdc ≤ h.parI 0x0513 then
    ({ h with sh := { h.sh with dcCeil := false } } : Hw).clearFault fltTrqDcCeiling.code 0xFF
  else h

/-- A new share of a rope team applies at the first control boundary at or after its time (R392). -/
def Hw.takeShare (h : Hw) : Hw :=
  match h.pair.shareNext with
  | some (v, t) => if t.toNat ≤ h.time.now.toNat then { h with pair := { h.pair with share := v, shareNext := none } } else h
  | none => h

/-- The tile writes ASC_ARM (R175). -/
def Hw.armAsc (h : Hw) (b : Bridge) : Hw :=
  let n := absI (h.ctl b).speed
  let nx := h.nxSafe b
  let arm := if nx ≤ n then true else if 256 * n < h.par 0x0610 * nx then false else (h.gate b).ascArm
  (h.modGate b (fun g => { g with ascArm := arm, ascArmAt := h.time.clock })).refreshSafe b

/-- A control boundary of a bridge (R113). -/
def Hw.controlBoundary (h : Hw) (b : Bridge) (m : BoundaryInput) : Hw :=
  if h.mode.phase != .up then h
  else
    let ticks := if (h.ctl b).boundary.isSome then h.time.clock - (h.ctl b).boundaryAt else 0
    let h1 := ((((h.ceilingEnd.fuse b m).measure b).watchSources b m).judge b).returnSources b
    let h2 := ((((h1.takeMaps b).takeTable b).applyWaiting [if b == .brA then .controlA else .controlB]).takeShare.syncAdvance
      b).takeAB.takeSetpoint b
    let drawn (c : Ctl) : Nat :=
      accountStep c.overload (h.parI (perBridge 0x050C b)) (h.parI (perBridge 0x050E b)) c.iRms ticks
    let h3 := h2.modCtl b (fun c => { c with overload := drawn c })
    let h4 := (((((if b == .brA then h3.dcAccount ticks else h3).trailSpeed b).trackShift b).windowCheck b).regulate b ticks).watchLow b
    let h5 := (h4.magnet b m.fluxResidual ticks).modCtl b (fun c => { c with est := h4.torqueEstimate b c.idCur c.iqCur })
    let h6 := (((((h5.bridgeEnergy b ticks).torqueFaults b).coolantHot.drainEnd b).refreshSafe b).armAsc b).outFused b
      |>.shiftBoundary b |>.offstateLook b
    h6.modCtl b (fun c => { c with status := some (h6.statusOf b) })

/-- CONTROL_BOUNDARY (R113). -/
def execControlBoundary (b : Bridge) (m : BoundaryInput) (s : State) : Host.Outcome State Fault Refusal :=
  onHw (fun h => h.controlBoundary b m) s

end Sys2Proof.Machine
end

