-- ==== Sys2Proof/Machine/Torque.lean ====
section
/-!
DEFINITION. Machine/Torque.lean: the torque-control commands and events beside the control boundary: setpoints and tables
(R116-R123), synchronised start (R118, R138, R139), re-acquisition (R145), plausibility (R146) and the DC ceiling (R143).
-/
namespace Sys2Proof.Machine

/-! ## Setpoints and tables -/

/-- The first setpoint accepted over CAN, in a wake or after the host was lost, is CAN_FALLBACK_ACTIVE (R387). -/
def Hw.noteFallback (h : Hw) (d : Desc) : Hw :=
  if d.path == .can && !h.net.fallback then
    ({ h with net := { h.net with fallback := true } } : Hw).occur fltCanFallbackActive (BitVec.ofNat 8 (h.fbChannel.getD 0))
  else h

/-- TORQUE_SET or SPEED_SET past the checks of R296. -/
def Hw.setpoint (h : Hw) (speed : Bool) (d : Desc) (q : Req) : Hw :=
  match h.setpointCheck speed d with
  | .inl st => h.complete q st
  | .inr b =>
    (h.noteFallback d).acceptSetpoint b
      { sp := if speed then speedSp d else torqueSp d, req := some q }

/-- TORQUE_SET (R116). -/
def execTorqueSet (d : Desc) (s : State) : Host.Outcome State Fault Refusal :=
  onHw (fun h => h.descriptor 0x0501 d (fun q h => h.setpoint false d q)) s

/-- SPEED_SET (R116, R119). -/
def execSpeedSet (d : Desc) (s : State) : Host.Outcome State Fault Refusal :=
  onHw (fun h => h.descriptor 0x0502 d (fun q h => h.setpoint true d q)) s

/-- TORQUE_PAIR past the checks of R296 (R116, R120). -/
def Hw.pairSet (h : Hw) (d : Desc) (q : Req) : Hw :=
  match h.pairCheck d with
  | some st => h.complete q st
  | none => h.acceptPair d q

/-- TORQUE_PAIR (R120). -/
def execTorquePair (d : Desc) (s : State) : Host.Outcome State Fault Refusal :=
  onHw (fun h => h.descriptor 0x0503 d (fun q h => h.pairSet d q)) s

/-- MOTOR_MAP_LOAD past the checks of R296 (R121-R123). -/
def Hw.mapLoad (h : Hw) (d : Desc) (q : Req) : Hw :=
  match h.mapCheck d false with
  | .inl st => (h.mapReject d st).complete q st
  | .inr (b, t) => h.modCtl b (fun c => c.stageMap t q)

/-- MOTOR_MAP_LOAD (R121). -/
def execMotorMapLoad (d : Desc) (s : State) : Host.Outcome State Fault Refusal :=
  onHw (fun h => h.descriptor 0x0504 d (fun q h => h.mapLoad d q)) s

/-- Zero torque as a target, keeping the session and the speed limits (R117, R313). -/
def zeroSp (sp : Setpoint) : Setpoint :=
  { speed := false, value := 0, ramp := 0, fwd := if sp.speed then 0 else sp.fwd, rev := if sp.speed then 0 else sp.rev
    session := sp.session, pair := none, viaCan := sp.viaCan }

/-- The bridge ramps to zero torque at DRAIN_RAMP and holds it until a fresh setpoint (R117, R313); what is stored goes. -/
def Hw.toZero (h : Hw) (b : Bridge) : Hw :=
  h.modCtl b (fun c =>
    let c1 := match c.target with | some sp => if c.state.inService then c.retarget (zeroSp sp) else c | none => c
    { c1 with stored := none, stale := true })

/-- SETPOINT_TIMEOUT (R117). -/
def Hw.setpointTimeout (h : Hw) (b : Bridge) : Hw :=
  let c := h.ctl b
  if (c.target.isSome || c.stored.isSome) && !c.stale && c.renewedAt + h.parTicks 0x051E ≤ h.time.clock then
    (h.toZero b).raiseOnce fltTrqSetpointStale (BitVec.ofNat 8 b.code)
  else h

/-- SETPOINT_TIMEOUT (R117). -/
def execSetpointTimeout (b : Bridge) (s : State) : Host.Outcome State Fault Refusal := onHw (fun h => h.setpointTimeout b) s

/-! ## Synchronised start (R118, R138, R139) -/

/-- A setpoint that starts a bridge: a non-zero torque, or a speed. -/
def Setpoint.starts (sp : Setpoint) : Bool := sp.speed || sp.value != 0

/-- After POS_NO_SOURCE, opened below n_x,safe, the bridge re-acquires by the node sense at or above OBS_MIN_SPEED (R145). -/
def Hw.nodeSense (h : Hw) (b : Bridge) : Bool :=
  (h.fus b).noSource && (h.ctl b).state == .openAll && decide (h.obsMin ≤ absI (h.ctl b).speed)

/-- The conditions of R118, with closed STO channels (R174) and no LATCH inhibit (R39). -/
def Hw.maySync (h : Hw) (b : Bridge) : Bool :=
  let c := h.ctl b
  c.state.safe && h.mode.mode.torque && h.mode.phase == .up && !h.bridgeArrested b &&
  (h.posHealthy b || h.nodeSense b) && (match c.stored with | some p => p.sp.starts | none => false) &&
  (!c.ackNeeded || h.acknowledged) && !h.stoOpen && !h.bridgeInhibited b && h.hasMotorData b && !h.boosting

/-- SYNC takes its speed, direction and angle from the sensor alone (R138): below 30 rpm, or below 400 rpm where the back-EMF is
too small to be measured. -/
def Hw.sensorStart (h : Hw) (b : Bridge) : Bool :=
  let n := absI (h.ctl b).speed
  n < 3000 || (n < 40000 && !Config.emfMeasurable (absI (h.omegaPsi b (h.psiNow b))))

/-- SYNC begins (R138), from OPEN or from the active short circuit that stands. -/
def Hw.syncStart (h : Hw) (b : Bridge) : Hw :=
  if h.maySync b then
    let direct := h.sensorStart b
    h.modCtl b (fun c =>
      { c with state := .sync, ordered := false, syncReady := direct, syncAsc := c.state.asc, syncStep := 0, syncEmf := none
               reacqAt := none, agreeAt := none
               reentry := c.reentry || (h.fus b).noSource })
  else h

/-- SYNC_START (R118, R138). -/
def execSyncStart (b : Bridge) (s : State) : Host.Outcome State Fault Refusal := onHw (fun h => h.syncStart b) s

/-- The measured values agree with the position source (R139): 10 degrees, 3 % + 30 rpm. A bridge that re-acquires by the
node sense has no source to agree with, and takes what it measures (R145). -/
def Hw.syncAgrees (h : Hw) (b : Bridge) (angle : W32) (speed : Int) : Bool :=
  let n := (h.ctl b).speed
  (h.fus b).noSource ||
  (decide (absI (angleDiff angle (h.fus b).angle) ≤ deg10) && decide (absI (speed - n) ≤ absI n * 3 / 100 + 3000))

/-- The observer alone is the source again after POS_NO_SOURCE (R145); the sensor stays out until R108 returns it. -/
def Hw.onObserver (h : Hw) (b : Bridge) : Hw :=
  (h.modFus b (fun f => { f with noSource := false, sensorLost := true, observerLost := false, waitSensor := false
                                 lockCount := 16 })).clearFault
    fltPosNoSource.code (BitVec.ofNat 8 b.code)

/-- SYNC step 2 ends (R138, R139), with the back-EMF in mV that an OPEN bridge measured. -/
def Hw.syncMeasured (h : Hw) (b : Bridge) (angle : W32) (speed emf : Int) : Hw :=
  let c := h.ctl b
  if c.state == .sync && !c.syncReady then
    if h.syncAgrees b angle speed then
      let h1 := if (h.fus b).noSource then h.onObserver b else h
      h1.modCtl b (fun c => { c with syncReady := true, syncEmf := if c.syncAsc then none else some (1000 * emf) })
    else h.occurThen fltTrqSyncMismatch fltTrqSyncMismatch.cls (BitVec.ofNat 8 b.code)
      (fun x => (x.modCtl b (fun c => { c with ordered := true })).refreshSafe b)
  else h

/-- SYNC_MEASURE_DONE (R139). -/
def execSyncMeasureDone (b : Bridge) (angle : W32) (speed emf : Int) (s : State) : Host.Outcome State Fault Refusal :=
  onHw (fun h => h.syncMeasured b angle speed emf) s

/-! ## Re-acquisition (R145) -/

/-- Ticks of two electrical periods at the present speed; none at standstill. -/
def Hw.twoPeriods (h : Hw) (b : Bridge) : Option Nat :=
  let e := (absI (h.fus b).speed * h.poles b).toNat
  if e = 0 then none else some (12000 * sTicks / e)

/-- The rotor angle behind a short-circuit current vector (R145): the vector lags the back-EMF it works against by
atan(omega L_q / R_s), and that EMF lies 90 degrees behind the d-axis in the direction of rotation. -/
def Hw.vectorAngle (h : Hw) (b : Bridge) : W32 :=
  let c := h.ctl b
  let lag := Config.atan2 (absI (h.reactance b (h.inductances b).2)) (h.rsHot b)
  if 0 ≤ c.vecSpeed then c.vecAngle + 0x40000000 + lag else c.vecAngle - 0x40000000 - lag

/-- REACQUIRE_LOCK (R145): rotation and size of the current vector have agreed with the model for two electrical periods; speed,
direction and angle come from the vector, and the bridge starts on the observer alone. -/
def Hw.reacquired (h : Hw) (b : Bridge) : Hw :=
  let c := h.ctl b
  let held := match h.twoPeriods b with | some t => heldFor c.agreeAt t h.time.clock | none => false
  if c.reacqAt.isSome && c.state.asc && held then
    let h1 := (h.onObserver b).modFus b (fun f => { f with angle := h.vectorAngle b, speed := c.vecSpeed })
    (h1.modCtl b (fun c => { c with reacqAt := none, agreeAt := none, reentry := true, speed := c.vecSpeed })).syncStart b
  else h

/-- REACQUIRE_LOCK (R145). -/
def execReacquireLock (b : Bridge) (s : State) : Host.Outcome State Fault Refusal := onHw (fun h => h.reacquired b) s

/-- TRQ_REACQUIRE_FAIL (R145): the bridge keeps its safe pattern. -/
def Hw.reacquireFail (h : Hw) (b : Bridge) : Hw :=
  if heldFor (h.ctl b).reacqAt (h.parTicks 0x052E) h.time.clock then
    (h.modCtl b (fun c => { c with reacqAt := none, agreeAt := none })).occur fltTrqReacquireFail (BitVec.ofNat 8 b.code)
  else h

/-- TRQ_REACQUIRE_FAIL (R145). -/
def execTrqReacquireFail (b : Bridge) (s : State) : Host.Outcome State Fault Refusal := onHw (fun h => h.reacquireFail b) s

/-! ## Plausibility and the DC ceiling -/

/-- The tolerance of R146: 5 % of the CONFIG peak torque or 10 Nm, whichever is larger. -/
def Hw.torqueTolerance (h : Hw) (b : Bridge) : Int := maxI (h.peak b * 5 / 100) 1000

/-- The estimate is beyond the expected torque in magnitude, or of the opposite sign, by more than the tolerance (R146). -/
def unintended (est expected tol : Int) : Bool :=
  decide (tol < absI est - absI expected) || ((decide (est < 0 ∧ 0 < expected) || decide (0 < est ∧ expected < 0)) && decide (tol < absI est))

/-- One comparison of the safety controller (R146). -/
def Hw.plausibility (h : Hw) (b : Bridge) : Hw :=
  let c := h.ctl b
  if !(c.state.inService || c.state == .shiftSync) then
    h.modCtl b (fun c => { c with expected := 0, expectedAt := h.time.clock, implausible := 0 })
  else
    let h1 := h.lagTo b
    let n := if unintended c.est ((h1.ctl b).expected / 65536) (h.torqueTolerance b) then c.implausible + 1 else 0
    if 3 ≤ n then
      (h1.modCtl b (fun c => { c with implausible := 0 })).occurThen fltTrqUnintended (h.bridgeClass b)
        (BitVec.ofNat 8 b.code) (fun x => x.faultSafe b false)
    else h1.modCtl b (fun c => { c with implausible := n })

/-- TORQUE_PLAUSIBILITY (R146). -/
def execTorquePlausibility (b : Bridge) (s : State) : Host.Outcome State Fault Refusal := onHw (fun h => h.plausibility b) s

/-- TRQ_DC_CEILING (R143): VDC has been above DC_CEIL for 1 ms, and the rank-3 interval of each bridge closes to motoring only. -/
def Hw.dcCeiling (h : Hw) : Hw :=
  if h.parI 0x0513 < h.pwr.vdc && heldFor h.sh.ceilAt msTicks h.time.clock then
    ({ h with sh := { h.sh with dcCeil := true } } : Hw).raiseOnce fltTrqDcCeiling 0xFF
  else h

/-- TRQ_DC_CEILING (R143). -/
def execTrqDcCeiling (s : State) : Host.Outcome State Fault Refusal := onHw Hw.dcCeiling s

end Sys2Proof.Machine
end

