-- ==== Sys2Proof/Machine/Converter.lean ====
section
/-!
DEFINITION. Machine/Converter.lean: the HV-to-LV converter (R19, R179-R201): LV_CONTROL, soft start, failed attempts, current
limit, phases and cells, temperature, overvoltage and pre-charge.
-/
namespace Sys2Proof

/-- Index of a sensor in the masks. -/
def LvSensor.index : LvSensor → Nat
  | .phase n => n.val | .cellHeatsink => 8 | .stageHeatsink => 9

/-- Source byte of a sensor: a converter phase, or none (R358). -/
def LvSensor.source : LvSensor → Byte
  | .phase n => BitVec.ofNat 8 (0x40 + n.val) | .cellHeatsink => 0xFF | .stageHeatsink => 0xFF

/-- Warning and shutdown temperatures, 0.01 degC. -/
def LvSensor.levels : LvSensor → Int × Int
  | .phase _ => (11500, 13500) | .cellHeatsink => (10000, 12000) | .stageHeatsink => (9500, 11000)

end Sys2Proof

namespace Sys2Proof.Machine

/-! ## Ratings and limits (R179, R180, R185, R192) -/

/-- Share of one phase at eight phases, mA (R179). -/
def Hw.phaseShare (h : Hw) : Int := if h.otp.ident.is48 then 26250 else 56250

/-- Rated output current, mA. -/
def Hw.lvRated (h : Hw) : Int := if h.otp.ident.is48 then 210000 else 450000

/-- The short threshold during soft start, mV (R1, R179). -/
def Hw.lvShortLevel (h : Hw) : Int := if h.otp.ident.is48 then 8000 else 2000

/-- The least LV_OUT in pre-charge, mV (R179). -/
def Hw.lvFloor (h : Hw) : Int := if h.otp.ident.is48 then 33000 else 10500

/-- Capacity of one cell in W at the present DC link voltage (R180). -/
def Hw.cellPower (h : Hw) : Int :=
  if 400000 ≤ h.pwr.vdc then 2500 else if h.pwr.vdc ≤ 250000 then 1500 else 1500 + (h.pwr.vdc - 250000) * 1000 / 150000

/-- Cells not taken out of service. -/
def Lv.healthyCells (l : Lv) : Nat := 4 - popcount 4 l.cellsFailed.toNat

/-- The available output power in W (R180): the smallest bound, the heatsink's derating (R191), and the cap of a hand-over
(R231); in LV top-up the setup's. BASE_CAMP has one cell (R198). -/
def Hw.lvAvail (h : Hw) : Int :=
  let cells : Int := if h.mode.mode == .baseCamp then min h.lv.healthyCells 1 else h.lv.healthyCells
  let p := minI (minI (h.par 0x0703) h.lvPower) (minI (cells * h.cellPower) (h.lv.allowance.getD h.lvDefault))
  let p := p * h.lv.limPow / 1000
  let p := if h.topupPhase.isSome then minI p h.topupWatts else p
  match h.chg.capPower with
  | some w => if h.time.clock < h.chg.capBy then minI p w else p
  | none => p

/-- The output target in mV: CONFIG's in BASE_CAMP (R198), the charge phase's in LV top-up, else LV_VSET. -/
def Hw.lvTarget (h : Hw) : Int :=
  if h.mode.mode == .baseCamp then (h.otp.config.get 0x0701 0 : Nat)
  else match h.topupPhase with
    | some p => h.phaseVolts p
    | none => h.parI 0x0701

/-- A current limit folded back by f(x), for the output `v` as a fraction x of the setpoint (R185); between 0.2 and 0.8 of
it, f = 4 x / 3 - 1 / 15. -/
def foldBack (i v vset : Int) : Int :=
  if 0 < vset && 4 * vset ≤ 5 * v then i
  else if 5 * v ≤ vset || vset ≤ 0 then i / 5
  else i * (20 * v - vset) / (15 * vset)

/-- The current limit before fold-back: LV_I_LIMIT, or that of top-up in its place (R185, R226). -/
def Hw.lvBase (h : Hw) : Int :=
  match h.topupPhase with
  | some p => h.topupAmps p
  | none => h.parI 0x0702

/-- The output current limit in mA (R185), derated by the phases' temperature (R191). -/
def Hw.lvLimit (h : Hw) (v : Int) : Int :=
  let fold := foldBack h.lvBase v h.lvTarget
  let i := if v ≤ 0 then fold else minI fold (h.lvAvail * 1000000 / v)
  i * h.lv.limCur / 1000

/-! ## Start, stop, failed attempts (R182-R184, R194) -/

/-- Everyone who waits for forward service. -/
def Hw.lvAnswer (h : Hw) (st : Status) : Hw :=
  let l := h.lv
  Hw.completeAll l.slewReqs st (({ h with lv := { l with req := none, slewReqs := [] } } : Hw).completeOpt l.req st)

/-- In BASE_CAMP with auto-start in CONFIG, in top-up, or where a FORWARD or a shutdown has left service waiting, the stopped
converter starts on its own while the DC link is at or above 255 V (R180, R191, R198). -/
def Hw.lvAutoStart (h : Hw) : Hw :=
  let l := h.lv
  let auto := h.mode.mode == .baseCamp && h.par 0x0103 == 1 && l.autoDue
  if l.state == .stopped && l.shut == 0 && !h.lvInhibited && h.awake && h.powered 9 && 255000 ≤ h.pwr.vdc && !l.closed &&
      (l.resume || l.req.isSome || auto || h.topupFlows) then h.lvStart
  else h

/-- Pre-charge or its hold ends (R19, R196, R197): its request completes, and the switch opens below 5 A. -/
def Hw.preStop (h : Hw) (st : Status) : Hw :=
  let q := h.lv.preReq
  let f := h.lv.fwdInHold
  let h1 := ((({ h with lv := { h.lv with preReq := none, fwdInHold := none } } : Hw).completeOpt q st).completeOpt f .aborted)
  if h1.lv.closed && 5000 ≤ absI h1.lv.load then { h1 with lv := { h1.lv with draining := true, drainAt := h.time.clock } }
  else (h1.lvRest .stopped .aborted).lvAutoStart

/-- The stage latches off after the fifth failed attempt, or where its isolation switch has failed (R184): everyone who waits is
answered. -/
def Hw.lvLatch (h : Hw) (f : FaultId) : Hw :=
  let l := h.lv
  let h1 := (({ h with lv := { h.lv.stageOff.cellsOff with stopReqs := [], preReq := none, fwdInHold := none } } : Hw).lvGo
    .latchedOff).raiseOnce f 0xFF
  ((Hw.completeAll l.stopReqs .done (h1.lvAnswer .hwFault)).completeOpt l.preReq .aborted).completeOpt l.fwdInHold .aborted

/-- A failed attempt (R184), in pre-charge as in forward service: the stage stops and waits 200 ms, or is latched off after the
fifth. -/
def Hw.lvFailed (h : Hw) (short : Bool) : Hw :=
  let n := h.lv.attempts + 1
  let pre := h.lv.state == .precharge || h.lv.state == .hold || (h.lv.state == .waiting && h.lv.waitPre)
  let h1 : Hw := { h with lv := { h.lv.stageOff with attempts := n, waitAt := h.time.clock, waitPre := pre } }
  let h2 := h1.count 0x099 1
  if n < 5 then h2.lvGo .waiting else h2.lvLatch (if short then fltLvoutShort else fltLvStartFailed)

/-- LV_ISOSW_CHECK failed (R184): in a start a failed attempt; twice in succession raises LV_ISOSW_FAIL, which inhibits the
converter. -/
def Hw.isoswFailed (h : Hw) : Hw :=
  let n := h.lv.isoFails + 1
  let h1 : Hw := { h with lv := { h.lv with isoFails := n } }
  let starts := !h.lv.closed && (h.lv.state == .starting || h.lv.state == .precharge)
  let h2 := if starts then h1.lvFailed false else h1
  if n < 2 then h2 else if h2.lv.state == .waiting then h2.lvLatch fltLvIsoswFail else h2.raiseOnce fltLvIsoswFail 0xFF

/-- A drained converter rests (R50, R191, R194): STOP completes DONE; after a shutdown by temperature forward service waits for its
resume condition. -/
def Hw.lvDrained (h : Hw) : Hw :=
  let forward := h.lv.state == .starting || h.lv.state == .running || (h.lv.state == .waiting && !h.lv.waitPre)
  if h.lv.shut != 0 && h.lv.stopReqs.isEmpty && forward then
    let h1 := h.lvOff
    ({ h1 with lv := { h1.lv with resume := true } } : Hw).lvGo .stopped
  else if h.lv.stopReqs.isEmpty then (h.lvRest .stopped .aborted).lvAutoStart
  else h.lvRest .stopped .aborted

/-! ## LV_CONTROL (R181) -/

/-- Voltage or current of a FORWARD fits the variant, or is 0 (R181). -/
def Hw.lvFits (h : Hw) (id v : Nat) : Bool :=
  v == 0 || (match paramRow id with | some r => h.fits r v | none => false)

/-- LV battery top-up has the converter (R181). -/
def Hw.lvToppingUp (h : Hw) : Bool := h.mode.mode == .charge && h.chgFn == .topup && h.chg.active

/-- FORWARD writes what it carries. -/
def Hw.lvWrite (h : Hw) (d : Desc) : Hw :=
  let h1 := if d.num 20 4 = 0 then h else h.putPar 0x0701 (d.num 20 4)
  if d.num 24 4 = 0 then h1 else h1.putPar 0x0702 (d.num 24 4)

/-- LV_CONTROL FORWARD past the checks of R296; a reversed LV battery keeps the stage off (R411). -/
def Hw.lvForward (h : Hw) (d : Desc) (q : Req) : Hw :=
  if !h.lvFits 0x0701 (d.num 20 4) || !h.lvFits 0x0702 (d.num 24 4) || decide (h.lv.vout < -500) then h.complete q .range
  else if h.lvToppingUp || h.lv.state == .precharge || (h.lv.state == .waiting && h.lv.waitPre) || h.lv.draining ||
      h.lv.fwdInHold.isSome then h.complete q .busy
  else if h.lv.state == .latchedOff || h.lvInhibited then h.complete q .hwFault
  else
    let h1 := h.lvWrite d
    match h.lv.state with
    | .stopped =>
      if h.lv.req.isSome then { h1 with lv := { h1.lv with slewReqs := h1.lv.slewReqs ++ [q] } }
      else
        let h2 : Hw := { h1 with lv := { h1.lv with req := some q } }
        if 255000 ≤ h.pwr.vdc && h.lv.shut == 0 && !h.lv.closed then h2.lvStart else h2
    | .hold =>
      if 255000 ≤ h.pwr.vdc then h1.lvFromHold (some q)
      else { h1 with lv := { h1.lv with fwdInHold := some q } }
    | .starting => { h1 with lv := { h1.lv with slewReqs := h1.lv.slewReqs ++ [q] } }
    | .running => { h1 with lv := { h1.lv with slewReqs := h1.lv.slewReqs ++ [q] } }
    | .waiting => { h1 with lv := { h1.lv with slewReqs := h1.lv.slewReqs ++ [q] } }
    | .precharge => h1.complete q .busy
    | .latchedOff => h1.complete q .hwFault

/-- LV_CONTROL FORWARD (R181). -/
def execLvControlForward (d : Desc) (s : State) : Host.Outcome State Fault Refusal :=
  onHw (fun h => h.descriptor 0x0701 (d.withByte16 1) (fun q h => h.lvForward d q)) s

/-- The modes of a pre-charge (R195, R198). -/
def Mode.precharges : Mode → Bool
  | .baseCamp => true | .ready => true | .workshop => true | .bivouac => false | .drive => false | .charge => false
  | .belay => false | .arrest => false

/-- Pre-charge begins (R195): one cell in BASE_CAMP, else ISO0 and ISO1 or what takes their place; the switch closes by pre-bias. -/
def Hw.preStart (h : Hw) (target : Int) (q : Option Req) : Hw :=
  let h1 := h.lvBegin (h.lv.firstCells (if h.mode.mode == .baseCamp then 1 else 2)) .precharge
  { h1 with lv := { h1.lv with target := target, preReq := q, preAt := none, reduced := 0, drawLimit := 2200 } }

/-- LV_CONTROL PRECHARGE past the checks of R296; a converter shut down by temperature aborts it (DESIGN CHOICE: R181 names no case);
in a rope team the next pair frame passes it to the partner (R398). -/
def Hw.lvPrecharge (h : Hw) (d : Desc) (q : Req) : Hw :=
  let v := d.int 20 4
  if v < 250000 || 950000 < v || d.num 24 4 != 0 then h.complete q .range
  else if !h.mode.mode.precharges then h.complete q .modeDenied
  else if h.lv.state == .latchedOff || h.lvInhibited then h.complete q .hwFault
  else if h.lv.state != .stopped || h.lv.req.isSome || h.lv.closed then h.complete q .busy
  else if h.lv.shut != 0 then h.complete q .aborted
  else if absI (h.pwr.vdc - v) ≤ 10000 then h.complete q .done
  else
    h.preStart v (some q)

/-- LV_CONTROL PRECHARGE (R195). -/
def execLvControlPrecharge (d : Desc) (s : State) : Host.Outcome State Fault Refusal :=
  onHw (fun h => h.descriptor 0x0701 (d.withByte16 2) (fun q h => h.lvPrecharge d q)) s

/-- LV_CONTROL STOP past the checks of R296 (R181, R50): with the stage stopped on an overvoltage no current is left to drain. -/
def Hw.lvStop (h : Hw) (q : Req) : Hw :=
  let h1 : Hw := { h with lv := { h.lv with resume := false, autoDue := false } }
  match h.lv.state with
  | .stopped => (h1.lvAnswer .aborted).complete q .done
  | .latchedOff => h1.complete q .done
  | .waiting => (h1.lvRest .stopped .aborted).complete q .done
  | _ =>
    let h2 : Hw := { h1 with lv := { h1.lv with stopReqs := h1.lv.stopReqs ++ [q] } }
    if h.lv.ovStop then h2.lvDrained
    else if h.lv.draining then h2 else if h.lv.closed then h2.drainLv else h2.lvDrained

/-- LV_CONTROL STOP (R181). -/
def execLvControlStop (d : Desc) (s : State) : Host.Outcome State Fault Refusal :=
  onHw (fun h => h.descriptor 0x0701 (d.withByte16 0) (fun q h => h.lvStop q)) s

/-! ## Soft start and failures -/

/-- The soft start ends in regulation (R182, step 6). -/
def Hw.softStartDone (h : Hw) : Hw :=
  let l := h.lv
  if l.state == .starting && l.closed && !l.ovStop && l.rampAt + l.rampLen ≤ h.time.clock then
    let h1 : Hw := { h with lv := { l with regSince := some h.time.clock, ref := h.lvTarget, isoFails := 0
                                           rampAt := h.time.clock } }
    (h1.lvGo .running).lvAnswer .done
  else h

/-- LV_SOFT_START_DONE (R182). -/
def execLvSoftStartDone (s : State) : Host.Outcome State Fault Refusal := onHw Hw.softStartDone s

/-- A short is declared (R183): the output has stayed below the short threshold for 1 ms after the reference passed it, or the limit
has held for 2 ms with the output below half of LV_VSET. -/
def Lv.shorted (l : Lv) (clock : Nat) : Bool :=
  l.state == .starting && l.closed && (heldFor l.shortAt msTicks clock || heldFor l.foldAt (2 * msTicks) clock)

/-- LV_SHORT (R183): the limit falls to 20 % of LV_I_LIMIT at once, the stage current to zero, and the attempt has failed. -/
def execLvShort (s : State) : Host.Outcome State Fault Refusal :=
  onHw (fun h => if h.lv.shorted h.time.clock then ({ h with lv := { h.lv with limit := h.lvBase / 5 } } : Hw).lvFailed true else h) s

/-- LV_RESTART_TIMER (R184): 200 ms after a failed attempt, with the switch open, at step 3 of R182 with a new LV_ISOSW_CHECK, or at
step 1; a shutdown by temperature goes first (R191), and an inhibited converter stays stopped (R201). -/
def Hw.lvRestart (h : Hw) : Hw :=
  let l := h.lv
  if l.state == .waiting && l.waitAt + 200 * msTicks ≤ h.time.clock && !l.clamp && !l.closed then
    (if h.lvInhibited then h.lvRest .stopped .hwFault
     else if l.waitPre then
       (let h1 := h.lvBegin (l.firstCells (if h.mode.mode == .baseCamp then 1 else 2)) .precharge
        { h1 with lv := { h1.lv with waitPre := false } })
     else if l.shut == 0 && (255000 ≤ h.pwr.vdc || (l.cellsUp && 245000 ≤ h.pwr.vdc)) then h.lvStart
     else h.lvGo .stopped)
  else h

/-- LV_RESTART_TIMER (R184). -/
def execLvRestartTimer (s : State) : Host.Outcome State Fault Refusal := onHw Hw.lvRestart s

/-- LV_BUS_FAULT (R180): the bus has stayed outside 40 to 60 V for 50 us; all switching stops, the switch opens; a failed attempt. -/
def Hw.lvBusFault (h : Hw) : Hw :=
  if h.lv.active && heldFor h.lv.busBadAt (50 * usTicks) h.time.clock then
    h.occurThen fltLvBusFault fltLvBusFault.cls 0xFF (fun x => ({ x with lv := x.lv.cellsOff } : Hw).lvFailed false)
  else h

/-- LV_BUS_FAULT (R180). -/
def execLvBusFault (s : State) : Host.Outcome State Fault Refusal := onHw Hw.lvBusFault s

/-- A cell in service whose primary current CH8-CH11 differs by more than 15 % from the mean of the cells in service, at more than
30 % load (R180). -/
def Hw.cellDiffers (h : Hw) (k : Nat) : Bool :=
  let l := h.lv
  let on := (List.range 4).filter (fun c => l.cellSet.getLsbD c)
  let i (c : Nat) : Int := absI (h.sen.reading.get (8 + c) 0)
  let n : Int := on.length
  let sum := on.foldl (fun s c => s + i c) 0
  on.contains k && 30 * (n * h.cellPower) < 100 * (l.vout * l.load / 1000000) && 15 * sum < 100 * absI (n * i k - sum)

/-- A cell is taken out of service (R180). -/
def Hw.cellOut (h : Hw) (cell : Nat) : Hw :=
  if h.lv.cellsFailed.getLsbD cell then h
  else
    ({ h with lv := { h.lv with cellsFailed := h.lv.cellsFailed ||| BitVec.ofNat 4 (2 ^ cell)
                                cellSet := h.lv.cellSet &&& ~~~ BitVec.ofNat 4 (2 ^ cell) } } : Hw).raiseOnce fltLvCellFail
      (BitVec.ofNat 8 (0x60 + cell))

/-- LV_CELL_FAIL (R180): the cell's current has differed for 1 s. -/
def Hw.lvCellFail (h : Hw) (cell : Nat) : Hw :=
  if h.lv.active && heldFor (h.lv.cellBadAt.find cell) sTicks h.time.clock then h.cellOut cell else h

/-- LV_CELL_FAIL (R180). -/
def execLvCellFail (cell : Fin 4) (s : State) : Host.Outcome State Fault Refusal := onHw (fun h => h.lvCellFail cell.val) s

/-! ## A switching period (R185-R190) -/

/-- Phases whose high side has locked off leave at this period, without the four-period shed (R190); the others take their share as if
a phase had been added. -/
def Hw.dropPhases (h : Hw) : Hw :=
  let l := h.lv
  let keep := (List.range 8).filter (fun k => l.phaseSet.getLsbD k && l.phaseFit h.time.clock k)
  let set := BitVec.ofNat 8 (maskOf keep)
  if set == l.phaseSet then h
  else { h with lv := { l with phaseSet := set, shedding := if set.getLsbD l.shedPhase then l.shedding else 0 } }

/-- Phases are added above 0.80 N C (R186) and up to LV_PHASE_MIN: the first one that may run. -/
def Hw.addPhases (h : Hw) (load : Int) : Hw :=
  let l := h.lv
  match (List.range 8).find? (fun k => !l.phaseSet.getLsbD k && l.phaseFit h.time.clock k) with
  | some k =>
    if l.phases < h.par 0x0709 || 80 * (l.phases * h.phaseShare) < 100 * load then
      ({ h with lv := { l with phaseSet := l.phaseSet ||| BitVec.ofNat 8 (2 ^ k), shedding := 0 } } : Hw).count 0x09A 1
    else h
  | none => h

/-- The first healthy cell out of service, and the last one in service. -/
def Lv.nextCell (l : Lv) : Option Nat := (List.range 4).find? (fun k => !l.cellSet.getLsbD k && !l.cellsFailed.getLsbD k)
def Lv.lastCell (l : Lv) : Nat := ((List.range 4).reverse.find? (fun k => l.cellSet.getLsbD k)).getD 0

/-- Cells are added above 85 % of the capacity in service, and removed after 100 ms below 60 % of one fewer (R180). -/
def Hw.adjustCells (h : Hw) (power : Int) : Hw :=
  let l := h.lv
  let cap := h.cellPower
  let most := if h.mode.mode == .baseCamp then 1 else 4
  let low := heldSince l.cellLowAt (decide (1 < l.cells) && decide (100 * power < 60 * ((l.cells - 1 : Nat) * cap))) h.time.clock
  match l.nextCell with
  | some k =>
    if l.cells < most && 85 * (l.cells * cap) < 100 * power then
      { h with lv := { l with cellSet := l.cellSet ||| BitVec.ofNat 4 (2 ^ k), cellLowAt := none } }
    else if heldFor low (100 * msTicks) h.time.clock then
      { h with lv := { l with cellSet := l.cellSet &&& ~~~ BitVec.ofNat 4 (2 ^ l.lastCell), cellLowAt := none } }
    else { h with lv := { l with cellLowAt := low } }
  | none =>
    if heldFor low (100 * msTicks) h.time.clock then
      { h with lv := { l with cellSet := l.cellSet &&& ~~~ BitVec.ofNat 4 (2 ^ l.lastCell), cellLowAt := none } }
    else { h with lv := { l with cellLowAt := low } }

/-- Since when the load has stayed below 0.65 (N - 1) C (R186). -/
def Hw.watchLoad (h : Hw) (load : Int) : Hw :=
  let l := h.lv
  { h with lv := { l with lowAt := heldSince l.lowAt (decide (1 < l.phases) &&
      decide (100 * load < 65 * ((l.phases - 1 : Nat) * h.phaseShare))) h.time.clock } }

/-- A shed in progress moves on by a period: 75, 50, 25 % of its share, and its end (R186). -/
def Hw.shedStep (h : Hw) : Hw :=
  let l := h.lv
  if l.shedding = 0 then h
  else if 3 ≤ l.shedding then
    ({ h with lv := { l with phaseSet := l.phaseSet &&& ~~~ BitVec.ofNat 8 (2 ^ l.shedPhase), shedding := 0, lowAt := none } } : Hw).count
      0x09B 1
  else { h with lv := { l with shedding := l.shedding + 1 } }

/-- A share factor one step of 100 ms later (R188): by at most 1 % toward what is wanted within LV_BALANCE_MAX. -/
def stepShare (old want most : Int) : Int := clampI (old - 100) (old + 100) (clampI (-most) most want)

/-- Balancing of the phases in service (R188), every 100 ms: the hottest gives to the coolest; the amount is the tile's. -/
def Hw.lvBalance (h : Hw) : Hw :=
  let l := h.lv
  let ps := (List.range 8).filter (fun k => l.phaseSet.getLsbD k && (l.temp.find k).isSome)
  if h.mode.mode == .baseCamp || h.time.clock < l.shareAt + 100 * msTicks || ps.length < 2 then h
  else
    let t (k : Nat) : Int := l.temp.get k 0
    let hot := ps.foldl (fun a k => if t a < t k then k else a) (ps.headD 0)
    let cool := ps.foldl (fun a k => if t k < t a then k else a) (ps.headD 0)
    let x : Int := if hot = cool then 0 else (Config.balance h.free % 101 : Nat)
    let want (k : Nat) : Int := l.share.get k 0 + (if k = cool then x else if k = hot then -x else 0)
    ({ h with lv := { l with share := ps.foldl (fun s k => s.set k (stepShare (l.share.get k 0) (want k) (100 * h.par 0x070B))) l.share
                             shareAt := h.time.clock } } : Hw).drawn

/-- What a phase weighs in the load current (R186, R188): its factor, and in a shed 75, 50 or 25 % of it. -/
def Lv.weight (l : Lv) (k : Nat) : Int :=
  if !l.phaseSet.getLsbD k then 0
  else (10000 + l.share.get k 0) * (if l.shedding != 0 && k = l.shedPhase then 4 - (l.shedding : Int) else 4)

/-- Shares and period starts of the phases (R186, R188): the shares sum to the load current, and the N phases in service start 1/N of
a switching period apart. -/
def Hw.spreadPhases (h : Hw) (load : Int) : Hw :=
  let l := h.lv
  let on := (List.range 8).filter (fun k => l.phaseSet.getLsbD k)
  let total := on.foldl (fun s k => s + l.weight k) 0
  let part (k : Nat) : Int := if total = 0 then 0 else load * l.weight k / total
  let first := on.headD 0
  let rest := load - on.foldl (fun s k => s + part k) 0
  let period := sTicks / max (h.par 0x0708) 1
  { h with lv := { l with currents := (List.range 8).map (fun k => part k + (if k = first && !on.isEmpty then rest else 0))
                          offsets := (List.range 8).map (fun k => (on.filter (fun j => decide (j < k))).length * period / max on.length 1) } }

/-- What LV_SLEW owes in a period, in units per ms x ticks (R182). -/
def Hw.lvOwed (h : Hw) (ticks : Nat) : Nat := h.par 0x0705 * ticks + h.lv.slewRem

/-- The reference: along the ramp in a soft start, to a target that a FORWARD may replace but an end that stays (R181, R182); toward
the target at LV_SLEW in regulation. -/
def Hw.lvReference (h : Hw) (ticks : Nat) : Int :=
  let l := h.lv
  let target := h.lvTarget
  match l.state with
  | .starting =>
    let left := l.rampAt + l.rampLen - h.time.clock
    if left = 0 then target else l.ref + (target - l.ref) * ticks / ((left + ticks : Nat) : Int)
  | .running => toward l.ref target ((h.lvOwed ticks / msTicks : Nat) : Int)
  | _ => l.ref

/-- The reference of the output terminal (R200): with LV_SENSE_POINT at 1 it stands above the reference by what is lost to LVB_SENSE,
at most 0.5 V or 1.5 V by variant. -/
def Hw.terminalRef (h : Hw) (ref : Int) : Int :=
  if h.par 0x070C = 1 then ref + clampI 0 (if h.otp.ident.is48 then 1500 else 500) (h.lv.vout - h.pwr.lvb) else ref

/-- Refreshes of bootstraps that report BOOT_LOW, every 16 periods of a leg, and how many begin (R169). -/
def bootStep (t : Tab Boot) (clock : Nat) : Tab Boot × Nat :=
  (t.mapv (fun _ b => if b.low && 15 ≤ b.since then { b with since := 0, refreshAt := some clock }
                      else { b with since := min (b.since + 1) 16 }),
   (t.filter (fun p => p.2.low && 15 ≤ p.2.since)).length)

/-- What a soft start is watched by (R183). -/
def Hw.watchShort (h : Hw) (ref limit load : Int) : Hw :=
  let l := h.lv
  let level := h.lvShortLevel
  let passed : Bool := l.state == .starting && decide (level ≤ ref)
  let rose := l.rose || (passed && decide (level < l.vout))
  { h with lv := { l with rose := rose, shortAt := heldSince l.shortAt (passed && !rose) h.time.clock
                          foldAt := heldSince l.foldAt (l.state == .starting && decide (limit ≤ load) && decide (2 * l.vout < h.lvTarget))
                            h.time.clock } }

/-- A load step (R187): a shed is aborted, the phase returns to its full share, and none begins for 50 ms. -/
def Hw.lvStep (h : Hw) : Hw :=
  if h.lv.state != .running then h
  else
    let h1 : Hw := { h with lv := { h.lv with shedding := 0, lowAt := none, noShedBy := h.time.clock + 50 * msTicks } }
    if 0 < h.lv.shedding then h1.count 0x09C 1 else h1

/-- The regulator's demand has risen by more than 25 % of N C within a period (R187). -/
def Hw.demandStep (h : Hw) (old new : Int) : Hw :=
  if 25 * (h.lv.phases * h.phaseShare) < 100 * (new - old) then h.lvStep else h

/-- Forward service in a period: reference, limit, phases and their shares, cells, diode emulation (R189), and the energy
delivered. -/
def Hw.lvForwardPeriod (h : Hw) (load : Int) (ticks : Nat) (fell : BitVec 8) : Hw :=
  let ref := h.lvReference ticks
  let falls : Bool := decide (ref < h.lv.ref)
  let running := h.lv.state == .running
  let limit := if h.lv.draining then 0 else h.lvLimit h.lv.vout
  let reg := heldSince h.lv.regSince (running && decide (load < limit)) h.time.clock
  let h1 : Hw := { h with lv := { h.lv with
    ref := ref, termRef := h.terminalRef ref, slewRem := h.lvOwed ticks % msTicks, limit := limit, avail := h.lvAvail, regSince := reg
    attempts := if heldFor reg sTicks h.time.clock then 0 else h.lv.attempts
    diode := running && !falls && h.par 0x070A == 1 && decide (4 * load < h.phaseShare)
    syncOff := if h.lv.diode then fell &&& h.lv.phaseSet else 0 } }
  let h2 := (((h1.watchShort ref limit load).shedStep.addPhases load).watchLoad load).lvBalance.spreadPhases load
    |>.adjustCells (h.lv.vout * load / 1000000)
  let h3 := h2.addEnergy 0x026 ((h.lv.vout * load / 1000).natAbs * ticks)
  let h4 := if running && ref == h.lvTarget && !h.lv.slewReqs.isEmpty then
      (let reqs := h3.lv.slewReqs
       Hw.completeAll reqs .done { h3 with lv := { h3.lv with slewReqs := [] } })
    else h3
  if h.lv.draining && absI load < 5000 then h4.lvDrained else h4

/-- The charge current of top-up in a period (R207, R208): the first completes START. -/
def Hw.topupPeriod (h : Hw) (load : Int) : Hw :=
  if !h.topupFlows then h
  else
    let h1 : Hw := { h with chg := { h.chg with current := load } }
    if 0 < load then ({ h1 with chg := { h1.chg with startReq := none } } : Hw).completeOpt h.chg.startReq .done else h1

/-- The current into the DC link in pre-charge, mA (R19, R179): up to 10 A below 200 V, a constant 2.0 kW above, nothing above the
target (R197), and within the bound on the draw from LV_OUT. -/
def Hw.preCurrent (h : Hw) (bound : Int) : Int :=
  let v := maxI h.pwr.vdc 1
  let i := if v < 200000 then 10000 else 2000 * 1000000 / v
  if h.lv.target ≤ v then 0 else minI i (bound * 1000000 / v)

/-- A period of pre-charge: the draw is at most 2.2 kW, and is reduced while LV_OUT stands at its floor (R196); by how much at a time
no rule says, the model takes 1/16 of it and gives as much back (DESIGN CHOICE). -/
def Hw.lvPrePeriod (h : Hw) (load : Int) (ticks : Nat) : Hw :=
  let l := h.lv
  let step := maxI (l.drawLimit / 16) 1
  let bound := if l.vout ≤ h.lvFloor then maxI (l.drawLimit - step) 0 else minI (l.drawLimit + step) 2200
  let h1 : Hw := { h with lv := { l with drawLimit := bound, preAmps := if l.draining then 0 else h.preCurrent bound
                                         reduced := if bound < 2200 then l.reduced + ticks else l.reduced } }
  if l.draining && absI load < 5000 then h1.lvDrained else h1

/-- The bus is up (R180): within 48.0 V by 2 V. -/
def busUp (mv : Int) : Bool := 46000 ≤ mv && mv ≤ 50000

/-- LV_ISOSW_CHECK in a start (R182, step 2): 1 V above LV_OUT and, from 1 V on, 1 V below it, for 100 us each with the stage current
below 2 A. The position counts as taken within the 200 mV of step 4 (DESIGN CHOICE). -/
def Hw.isoswStep (h : Hw) (load : Int) : Hw :=
  let l := h.lv
  let want := if l.check = 0 then l.vout + 1000 else l.vout - 1000
  let at' := heldSince l.checkAt (decide (absI (l.ch13 - want) ≤ 200)) h.time.clock
  if at'.isSome && 2000 ≤ absI load then h.isoswFailed
  else if heldFor at' (100 * usTicks) h.time.clock then
    { h with lv := { l with checkAt := none, check := if l.check = 0 && 1000 ≤ l.vout then 1 else 2
                            isoFails := if l.check = 0 && 1000 ≤ l.vout then l.isoFails else 0 } }
  else { h with lv := { l with checkAt := at' } }

/-- Steps 2 to 4 of R182, in forward starts and in pre-charge (R195): the bus, the check, and the switch once CH13 has stayed within
200 mV of CH14 for 100 us. -/
def Hw.lvApproach (h : Hw) (load : Int) : Hw :=
  let l := h.lv
  if !busUp l.bus then h
  else if l.check < 2 then h.isoswStep load
  else
    let at' := heldSince l.biasAt (decide (absI (l.ch13 - l.vout) ≤ 200)) h.time.clock
    if !heldFor at' (100 * usTicks) h.time.clock then { h with lv := { l with biasAt := at' } }
    else if l.state == .precharge then
      { h with lv := { l with closed := true, biasAt := none, preAt := some (l.preAt.getD h.time.clock) } }
    else h.lvRamp l.vout

/-- What the tile watches in every period: the bus (R180), the cells' currents (R180), and the end of an overvoltage (R193). -/
def Hw.lvWatch (h : Hw) : Hw :=
  let l := h.lv
  let now := h.time.clock
  let ok := l.cellsUp && (l.busOk || busUp l.bus)
  let level := codeVolts h.overCode - h.parI 0x0707
  let calm : Bool := if l.clamp then decide (l.ch13 < 1000) else decide (l.ch13 < level) && decide (l.vout < level)
  let cells := (List.range 4).foldl (fun t k =>
    match heldSince (l.cellBadAt.find k) (h.cellDiffers k) now with | some c => Tab.set t k c | none => Tab.del t k) l.cellBadAt
  { h with lv := { l with busOk := ok, busBadAt := heldSince l.busBadAt (ok && (decide (l.bus < 40000) || decide (60000 < l.bus))) now
                          cellBadAt := cells, ovLowAt := heldSince l.ovLowAt ((l.ovStop || l.clamp) && calm) now } }

/-- The switch opens once the stage current is below 5 A (R194). -/
def Hw.lvOpen (h : Hw) (load : Int) : Hw :=
  if h.lv.opening && absI load < 5000 then { h with lv := { h.lv with closed := false, opening := false } } else h

/-- A switching period of the conversion tile (R182-R190). -/
def Hw.lvPeriod (h : Hw) (inner vout load bus demand : Int) (fell : BitVec 8) : Hw :=
  let b := bootStep h.lv.boot h.time.clock
  let ticks := h.time.clock - h.lv.periodAt
  let h1 := ({ h with lv := { h.lv with ch13 := inner, vout := vout, load := load, bus := bus, demand := demand, boot := b.1
                                        periodAt := h.time.clock } } : Hw).count 0x09D b.2
  let h2 := ((h1.lvMonitors.lvWatch.lvOpen load).dropPhases).demandStep h.lv.demand demand
  if h2.lv.ovStop || h2.lv.clamp then h2
  else match h2.lv.state with
    | .starting => if h2.lv.closed then (h2.lvForwardPeriod load ticks fell).topupPeriod load else h2.lvApproach load
    | .running => (h2.lvForwardPeriod load ticks fell).topupPeriod load
    | .precharge => if h2.lv.closed then h2.lvPrePeriod load ticks else h2.lvApproach load
    | .hold => h2.lvPrePeriod load ticks
    | .stopped => h2
    | .waiting => h2
    | .latchedOff => h2

/-- LV_SWITCHING_PERIOD (R185). -/
def execLvSwitchingPeriod (inner vout load bus demand : Int) (fell : BitVec 8) (s : State) : Host.Outcome State Fault Refusal :=
  onHw (fun h => (h.lvPeriod inner vout load bus demand fell).periodLatch 2) s

/-- LV_PHASE_SHED (R186): after 2 ms of low load a shed of the last phase begins, at 75 % of its share. -/
def Hw.lvShed (h : Hw) (load : Int) : Hw :=
  let l := h.lv
  if l.state == .running && l.closed && l.shedding = 0 && l.noShedBy ≤ h.time.clock && max (h.par 0x0709) 1 < l.phases &&
      heldFor l.lowAt (2 * msTicks) h.time.clock && 100 * load < 65 * ((l.phases - 1 : Nat) * h.phaseShare) then
    ({ h with lv := { l with shedding := 1, load := load
                             shedPhase := ((List.range 8).reverse.find? (fun k => l.phaseSet.getLsbD k)).getD 0 } } : Hw).spreadPhases load
  else h

/-- LV_PHASE_SHED (R186). -/
def execLvPhaseShed (load : Int) (s : State) : Host.Outcome State Fault Refusal := onHw (fun h => h.lvShed load) s

/-- LV_LOAD_STEP (R187): monitor 24 sees LV_OUT below its threshold. -/
def execLvLoadStep (mv : Int) (s : State) : Host.Outcome State Fault Refusal :=
  onHw (fun h => if mv < codeVolts h.stepCode then h.lvStep else h) s

/-! ## Overvoltage and reverse current (R193, R194) -/

/-- The switch is open and the clamp enabled (R193): start-up before the switch closes, the wait of R184, and LV_OV_CLAMP. -/
def Hw.clampReady (h : Hw) : Bool :=
  !h.lv.closed && (h.lv.state == .starting || h.lv.state == .waiting || h.lv.state == .precharge ||
    (h.lv.state == .stopped && h.tests.any (fun t => t.id == 0x0702)))

/-- LV_OVERVOLTAGE (R193): the stage waits with the switch closed; with the switch open the clamp latches on a crossing of CH13, the
cells stop, and an attempt has failed. -/
def Hw.lvOver (h : Hw) (onCh14 : Bool) (mv : Int) : Hw :=
  let l := h.lv
  if mv ≤ codeVolts h.overCode then h
  else if l.closed then
    (if l.active then ({ h with lv := { l with ovStop := true, ovLowAt := none, regSince := none } } : Hw).raiseOnce fltLvoutOv 0xFF else h)
  else if !onCh14 && h.clampReady then
    let h1 : Hw := { h with lv := { l.cellsOff with clamp := true, ovLowAt := none } }
    (if l.state == .stopped then h1 else h1.lvFailed false).raiseOnce fltLvoutOvStart 0xFF
  else h

/-- LV_OVERVOLTAGE (R193). -/
def execLvOvervoltage (onCh14 : Bool) (mv : Int) (s : State) : Host.Outcome State Fault Refusal := onHw (fun h => h.lvOver onCh14 mv) s

/-- LV_OV_RESUME (R193), once its condition has held for 1 ms: step 5 of R182 from the measured voltage, or the clamp releases. -/
def Hw.lvOvResume (h : Hw) : Hw :=
  let l := h.lv
  if !heldFor l.ovLowAt msTicks h.time.clock then h
  else
    let h1 := if l.clamp then ({ h with lv := { l with clamp := false, ovLowAt := none } } : Hw).clearFault fltLvoutOvStart.code 0xFF else h
    if l.ovStop then
      let h2 := ({ h1 with lv := { h1.lv with ovStop := false, ovLowAt := none } } : Hw).clearFault fltLvoutOv.code 0xFF
      if l.state == .starting || l.state == .running then (h2.lvRamp l.vout).lvGo .starting else h2
    else h1

/-- LV_OV_RESUME (R193). -/
def execLvOvResume (s : State) : Host.Outcome State Fault Refusal := onHw Hw.lvOvResume s

/-- LVOUT_REVERSE (R194): in forward service above 10 % of the rated current; the switch opens at any current, and the attempt has
failed. -/
def Hw.lvReverse (h : Hw) (amps : Int) : Hw :=
  if h.lv.closed && (h.lv.state == .starting || h.lv.state == .running) && h.lvRated < 10 * amps then
    h.occurThen fltLvoutReverse fltLvoutReverse.cls 0xFF
      (fun x => ({ x with lv := { x.lv with closed := false, opening := false } } : Hw).lvFailed false)
  else h

/-- LVOUT_REVERSE (R194). -/
def execLvoutReverse (amps : Int) (s : State) : Host.Outcome State Fault Refusal := onHw (fun h => h.lvReverse amps) s

/-! ## Temperature (R188, R191) -/

/-- Limits by temperature (R191): current by the phases, power by the cells' heatsink. -/
def Lv.derate (l : Lv) : Lv :=
  { l with limCur := (minI 1000 (((List.range 8).filterMap (fun k => l.temp.find k)).foldl
             (fun a t => minI a (fall 1000 300 11500 13000 t)) 1000)).toNat
           limPow := (match l.temp.find 8 with | some t => fall 1000 300 10000 11500 t | none => 1000).toNat }

/-- The sensors whose resume conditions a shutdown waits for: all phases for a phase (R191). -/
def resumeMask (shut : BitVec 10) : BitVec 10 :=
  (if shut &&& 0x0FF == 0 then 0 else 0x0FF) ||| (shut &&& 0x300)

/-- Resume after all resume conditions have held for 5 s (R191). -/
def Hw.lvResume (h : Hw) : Hw :=
  let l := h.lv
  if l.shut == 0 then h
  else
    let cool := heldSince l.coolSince (l.warned &&& resumeMask l.shut == 0) h.time.clock
    let h1 : Hw := { h with lv := { l with coolSince := cool } }
    if heldFor cool (5 * sTicks) h.time.clock then
      ((List.range 10).foldl (fun (x : Hw) k => if k < 8 then x.clearFault fltLvOvertemp.code (BitVec.ofNat 8 (0x40 + k))
        else x.clearFault fltLvOvertemp.code 0xFF) { h1 with lv := { h1.lv with shut := 0, coolSince := none } }).lvAutoStart
    else h1

/-- A shutdown by temperature (R191) drains; pre-charge ends ABORTED. -/
def Hw.lvShutdown (h : Hw) : Hw :=
  if h.lv.draining then h
  else match h.lv.state with
    | .precharge => h.preStop .aborted
    | .hold => h.preStop .aborted
    | .starting => if h.lv.closed && !h.lv.ovStop then h.drainLv else h.lvDrained
    | .running => if h.lv.closed && !h.lv.ovStop then h.drainLv else h.lvDrained
    | .waiting => if h.lv.waitPre then h.preStop .aborted else h.lvDrained
    | .stopped => h
    | .latchedOff => h

/-- LV_OVERTEMP (R191): warning, derating, shutdown with its drain, resume. -/
def Hw.lvTemp (h : Hw) (sensor : LvSensor) (t : Int) : Hw :=
  let k := sensor.index
  let bit : BitVec 10 := BitVec.ofNat 10 (2 ^ k)
  let hot : Bool := decide (sensor.levels.1 ≤ t)
  let was := h.lv.warned &&& bit != 0
  let h1 : Hw := { h with lv := ({ h.lv with temp := h.lv.temp.set k t
                                             warned := if hot then h.lv.warned ||| bit else h.lv.warned &&& ~~~ bit }).derate }
  let h2 := if hot && !was then h1.occur fltLvOvertempWarn sensor.source else h1
  let h3 := if sensor.levels.2 ≤ t && h2.lv.shut &&& bit == 0 then
      (({ h2 with lv := { h2.lv with shut := h2.lv.shut ||| bit, coolSince := none } } : Hw).raiseOnce fltLvOvertemp
         sensor.source).lvShutdown
    else h2
  h3.lvResume

/-- LV_OVERTEMP (R191). -/
def execLvOvertemp (sensor : LvSensor) (temp : Int) (s : State) : Host.Outcome State Fault Refusal :=
  onHw (fun h => h.lvTemp sensor temp) s

/-! ## Pre-charge (R19, R195-R197) -/

/-- The DC link's voltage in pre-charge: the energy delivered into 640 uF is counted (0x027), 128 mW x ticks for each mV^2. -/
def Hw.preVdc (h : Hw) (vdc : Int) : Hw :=
  (h.addEnergy 0x027 (128 * (vdc * vdc - h.pwr.vdc * h.pwr.vdc)).toNat).setVdc vdc

/-- PRECHARGE_DONE (R19): within 10 V of the target, the hold begins. -/
def Hw.preDone (h : Hw) (vdc : Int) : Hw :=
  if h.lv.state == .precharge then
    let h1 := h.preVdc vdc
    if absI (vdc - h.lv.target) ≤ 10000 && !h.lv.draining then
      let q := h1.lv.preReq
      (({ h1 with lv := { h1.lv with preReq := none, holdBy := h.time.clock + h.parTicks 0x070D } } : Hw).lvGo .hold).completeOpt q
        .done
    else h1
  else h

/-- PRECHARGE_DONE (R19). -/
def execPrechargeDone (vdc : Int) (s : State) : Host.Outcome State Fault Refusal := onHw (fun h => h.preDone vdc) s

/-- PRECHARGE_TIMEOUT (R19, R196): 400 ms, extended by the time of reduced draw up to 2.0 s in all. -/
def Hw.preTimeout (h : Hw) : Hw :=
  let l := h.lv
  if (l.state == .precharge || (l.state == .waiting && l.waitPre)) && !l.draining &&
      heldFor l.preAt (min (400 * msTicks + l.reduced) (2 * sTicks)) h.time.clock then h.preStop .aborted
  else h

/-- PRECHARGE_TIMEOUT (R19, R196). -/
def execPrechargeTimeout (s : State) : Host.Outcome State Fault Refusal := onHw Hw.preTimeout s

/-- LV_PRECHARGE_FAULT (R196): below 20 V after 20 ms. -/
def Hw.preFault (h : Hw) (vdc : Int) : Hw :=
  if h.lv.state == .precharge && !h.lv.draining && heldFor h.lv.preAt (20 * msTicks) h.time.clock then
    (let h1 := h.preVdc vdc
     if vdc < 20000 then h1.occurThen fltLvPrechargeFault fltLvPrechargeFault.cls 0xFF (fun x => x.preStop .aborted) else h1)
  else h

/-- LV_PRECHARGE_FAULT (R196). -/
def execLvPrechargeFault (vdc : Int) (s : State) : Host.Outcome State Fault Refusal := onHw (fun h => h.preFault vdc) s

/-- PRECHARGE_HOLD_EXPIRY (R197): the converter stops; a FORWARD that has waited in vain completes ABORTED. -/
def Hw.holdExpiry (h : Hw) : Hw :=
  if h.lv.state == .hold && !h.lv.draining && h.lv.holdBy ≤ h.time.clock then h.preStop .aborted else h

/-- PRECHARGE_HOLD_EXPIRY (R197). -/
def execPrechargeHoldExpiry (s : State) : Host.Outcome State Fault Refusal := onHw Hw.holdExpiry s

/-- DC_LINK_LOW (R180, R197, R198): below 245 V forward conversion stops; from 255 V it may start: what waits for it, or the
auto-start of BASE_CAMP, or a top-up in FLOW. -/
def Hw.dcLinkChange (h : Hw) (vdc : Int) : Hw :=
  let h1 := h.setVdc vdc
  let l := h1.lv
  if vdc < 245000 then
    (if l.state == .starting || l.state == .running || (l.state == .waiting && !l.waitPre) then h1.lvOff.lvGo .stopped else h1)
  else if 255000 ≤ vdc && h1.awake then
    match l.fwdInHold with
    | some q => if l.state == .hold && !l.draining then h1.lvFromHold (some q) else h1
    | none => h1.lvAutoStart
  else h1

/-- DC_LINK_LOW (R180). -/
def execDcLinkLow (vdc : Int) (s : State) : Host.Outcome State Fault Refusal := onHw (fun h => h.dcLinkChange vdc) s

end Sys2Proof.Machine
end

