-- ==== Sys2Proof/Machine/Actuators.lean ====
section
/-!
DEFINITION. Machine/Actuators.lean: ACT_MOVE and GEAR_SHIFT (R248, R249, R251) and the events of the actuator tile (R237-R252).
-/
namespace Sys2Proof.Machine

/-! ## ACT_MOVE (R248, R249) -/

/-- The target of an ACT_MOVE exists, and its fields are in range. -/
def actFieldsOk (d : Desc) : Bool :=
  let i := d.num 16 1
  let t := d.num 17 1
  i ≤ 2 && t ≤ (if i = 0 then 2 else 1) && (d.num 20 4 == 0 || (1000 ≤ d.num 20 4 && d.num 20 4 ≤ 45000)) &&
  (d.num 24 4 == 0 || (i == 1 && t == 1))

/-- The speed computed from the SHIFT_BRIDGE motor is at or below 3 km/h, or is not to be judged (R249). -/
def Hw.slowEnough (h : Hw) : Bool :=
  let a := h.act
  if a.disc.confirmed && a.disc.code = 1 && a.inGear then
    absI (h.fus h.shiftBridge).speed * h.par 0x0918 ≤ 5000 * h.ratio a.gearNow
  else true

/-- The shifted bridge is in OPEN below 30 rpm (R248). -/
def Hw.shiftBridgeIdle (h : Hw) : Bool :=
  let c := h.ctl h.shiftBridge
  c.state == .openAll && absI c.speed < 3000

/-- The modes refuse an ACT_MOVE (R18, R45, R248), a module of a rope team that is not the holder (R389), and a drive without positions. -/
def Hw.actDenied (h : Hw) (i t : Nat) : Bool :=
  (h.roped && !h.pair.holder) || h.posUnset i ||
  (if i = 1 then t = 0 && (h.boosting || h.mode.mode == .arrest || h.mode.mode == .baseCamp)
   else h.mode.mode == .baseCamp || !h.shiftBridgeIdle)

/-- PARK_INHIBITED (R249) and its counter. -/
def Hw.parkInhibited (h : Hw) : Hw := (h.count 0x074 1).occur fltParkInhibited 0xFF

/-- The drive already holds the target, confirmed. -/
def Drive.at (d : Drive) (code : Nat) : Bool := d.confirmed && d.code = code && d.state == .hold

/-- ACT_MOVE (R248). -/
def Hw.actMove (h : Hw) (d : Desc) (q : Req) : Hw :=
  let i := d.num 16 1
  let t := d.num 17 1
  let v := h.act.drive i
  if !actFieldsOk d then h.complete q .range
  else if h.actDenied i t then h.complete q .modeDenied
  else if i = 1 && t = 1 && !(decide (d.num 24 4 ≤ 300) && h.slowEnough) then (h.complete q .modeDenied).parkInhibited
  else if v.busy || (h.act.gear.step != .none && i != 1) then h.complete q .busy
  else if h.vsBad || v.hallBad then h.complete q .hwFault
  else if v.at t && !h.posBad i then h.complete q .done
  else
    let h1 := if i = 1 then { h with act := { h.act with parkEnable := t == 1, parkOn := false } } else h
    (h1.startWaiting .actu).startDrive i t (h.driveLimit i (d.num 20 4)) (some q)

/-- ACT_MOVE (R248). -/
def execActMove (d : Desc) (s : State) : Host.Outcome State Fault Refusal :=
  onHw (fun h => h.descriptor 0x0901 d (fun q h => h.actMove d q)) s

/-! ## GEAR_SHIFT (R251) -/

/-- The motor speed of the new gear at the present output speed (R141): for reconnect at the output speed of R251. -/
def Hw.shiftTarget (h : Hw) (t : Nat) : Int :=
  let b := h.shiftBridge
  let old := h.act.gearNow
  if t = 4 then Config.outputSpeed h.free * h.ratio old / 1000000
  else (h.ctl b).speed * h.ratio (if t = 3 then old else t) / h.ratio old

/-- SHIFT and DISC are confirmed as the target asks: DISC closed for a shift or disconnect, open for a reconnect. -/
def Hw.shiftReady (h : Hw) (t : Nat) : Bool :=
  let a := h.act
  a.inGear && a.disc.confirmed && (a.disc.code = 0) == (t = 4) && !h.posBad 0 && !h.posBad 2

/-- The conditions of R251, with the synchronisation time in us where they hold. -/
def Hw.shiftAllowed (h : Hw) (t : Nat) : Option Nat :=
  let b := h.shiftBridge
  if h.mode.mode == .drive && (h.ctl b).state == .runTorque && h.posHealthy b && h.shiftReady t && !h.posUnset 0 &&
     !h.posUnset 2 && h.mode.granted.isNone && !(h.roped && !h.pair.holder) then
    match (if t = 3 then some 0 else h.syncTime b (h.shiftTarget t)) with
    | some us => if us ≤ h.par 0x091C then some us else none
    | none => none
  else none

/-- A shift begins (R251): torque ramps out, or, for a reconnect, synchronisation starts at once. -/
def Hw.shiftBegin (h : Hw) (t us : Nat) (q : Req) : Hw :=
  let b := h.shiftBridge
  let old := h.act.gearNow
  let h1 := (h.startWaiting .actu).modGear (fun _ =>
    { step := .unload, target := t, old := old, req := some q, at' := h.time.clock, syncTime := us
      from' := (h.ctl b).applied, out := if t = 4 then Config.outputSpeed h.free else 0, outAt := h.time.clock })
  if t = 4 then h1.drawn.seekGear old .sync 0 else h1

/-- GEAR_SHIFT (R251). -/
def Hw.gearShift (h : Hw) (d : Desc) (q : Req) : Hw :=
  let t := d.num 16 1
  if t = 0 || 4 < t then h.complete q .range
  else if h.act.gear.step != .none then h.complete q .busy
  else match h.shiftAllowed t with
    | none => h.complete q .modeDenied
    | some us =>
      if h.act.shift.busy || h.act.disc.busy then h.complete q .busy
      else if h.vsBad || h.act.shift.hallBad || h.act.disc.hallBad then h.complete q .hwFault
      else h.shiftBegin t us q

/-- GEAR_SHIFT (R251). -/
def execGearShift (d : Desc) (s : State) : Host.Outcome State Fault Refusal :=
  onHw (fun h => h.descriptor 0x0902 d (fun q h => h.gearShift d q)) s

/-! ## Positions (R238, R250) -/

/-- PARK confirmed engaged begins or ends with a confirmation (R250). -/
def Hw.parkNow (h : Hw) : Hw :=
  let on := h.act.park.confirmed && h.act.park.code == 1
  let h1 : Hw := { h with act := { h.act with parkOn := on } }
  if on then h1.clearFault fltParkConfirmLost.code 0xFF else h1

/-- Counters of confirmed motions (R351): PARK engagements, DISC openings and closings. -/
def Hw.countMotion (h : Hw) (i code : Nat) : Hw :=
  if i = 1 && code = 1 then h.count 0x073 1
  else if i = 2 then h.count (if code = 0 then 0x075 else 0x076) 1
  else h

/-- The position has stood in the window for 20 ms (R238): a motion reaches its target and is over, or a resting mechanism stands at a
named position. -/
def Hw.confirmAt (h : Hw) (i code : Nat) : Hw :=
  let busy := (h.act.drive i).busy
  let h1 := h.modDrive i (fun d => { d with confirmed := true, code := code, target := if d.busy then d.target else h.drivePos i code })
  let h2 := if busy then h1.endDrive i .hold .done else h1
  let h3 := if i = 1 then h2.parkNow else h2
  if busy then (h3.countMotion i code).shiftConfirmed i else h3

/-- ACT_POSITION_CONFIRMED (R238), at a position that the tile reads now. -/
def Hw.posConfirmed (h : Hw) (i position : Nat) : Hw :=
  if h.posBad i || 65535 < position then h
  else
    let h1 := h.seePosition i position
    let d := h1.act.drive i
    match d.place with
    | some code => if d.placeAt + 20 * msTicks ≤ h.time.clock then h1.confirmAt i code else h1
    | none => h1

/-- ACT_POSITION_CONFIRMED (R238). -/
def execActPositionConfirmed (drive : Fin 3) (position : Nat) (s : State) : Host.Outcome State Fault Refusal :=
  onHw (fun h => h.posConfirmed drive.val position) s

/-- PARK_CONFIRM_LOST (R250): the position has been out of the window for 20 ms, or is invalid. -/
def Hw.parkOut (h : Hw) : Hw :=
  let d := h.act.park
  if h.act.parkOn && (h.posBad 1 || (d.place.isNone && d.placeAt + 20 * msTicks ≤ h.time.clock)) then
    (h.modDrive 1 (fun d => { d with confirmed := false })).parkLost
  else h

/-- PARK_CONFIRM_LOST (R250). -/
def execParkConfirmLost (s : State) : Host.Outcome State Fault Refusal := onHw Hw.parkOut s

/-! ## Stalls (R245, R249) -/

/-- Magnitude of a drive's current in mA: the largest phase current. -/
def Drive.amps (d : Drive) : Int := maxI (absI d.iU) (maxI (absI d.iV) (absI d.iW))

/-- A commanded drive is stalled (R245): it carries at least 20 % of its current limit, and no commutation event has occurred within
ACT_LOCK_TIME. -/
def Hw.stalled (h : Hw) (i : Nat) : Bool :=
  let d := h.act.drive i
  let lock := h.parTicks (0x090A + i)
  let event : Bool := match h.hallOf i with
    | some k => (match (h.pos.halls.get k {}).events with
      | t :: _ => decide (h.time.now.toNat < t.toNat + lock)
      | [] => false)
    | none => false
  (d.state == .moving || d.state == .returning) && d.startAt + lock ≤ h.time.clock && !event && d.limit ≤ 5 * d.amps

/-- The position of a drive has stood in the window of its target for 20 ms (R238). -/
def Hw.atTarget (h : Hw) (i : Nat) : Bool :=
  let d := h.act.drive i
  d.place == some d.code && d.placeAt + 20 * msTicks ≤ h.time.clock && !h.posBad i

/-- ACT_LOCKED (R245): an end stop where the position is confirmed, a tooth for PARK on its way in, else a fault. In a
shift the failure table of R252 states the outcome. -/
def Hw.actLocked (h : Hw) (i : Nat) : Hw :=
  let d := h.act.drive i
  if !h.stalled i then h
  else
    let h1 := h.count 0x077 1
    if h.atTarget i then h1.confirmAt i d.code
    else if i = 1 && d.code = 1 && d.state == .moving then
      h1.modDrive 1 (fun d => { d with state := .tooth, toothAt := h.time.clock })
    else if h.act.gear.step != .none && i != 1 then h1
    else h1.occurThen fltActLocked fltActLocked.cls (BitVec.ofNat 8 i) (fun x => x.endDrive i .off .hwFault)

/-- ACT_LOCKED (R245). -/
def execActLocked (drive : Fin 3) (s : State) : Host.Outcome State Fault Refusal := onHw (fun h => h.actLocked drive.val) s

/-- PARK_TOOTH_TIMEOUT (R249): two seconds on a tooth. -/
def Hw.toothEnd (h : Hw) : Hw :=
  let d := h.act.park
  if d.state == .tooth && d.toothAt + 2 * sTicks ≤ h.time.clock then 
    h.occurThen fltActLocked fltActLocked.cls 1 (fun x => x.endDrive 1 .off .hwFault) else h

/-- PARK_TOOTH_TIMEOUT (R249). -/
def execParkToothTimeout (s : State) : Host.Outcome State Fault Refusal := onHw Hw.toothEnd s

/-- PARK_SPEED_CHECK (R249): too fast before PARK is confirmed, the enable is withdrawn and the drive returns. -/
def Hw.parkSpeed (h : Hw) : Hw :=
  let d := h.act.park
  if d.busy && d.code = 1 && !d.confirmed && !h.slowEnough then
    let h1 : Hw := { h with act := { h.act with parkEnable := false } }
    let h2 := (h1.endDrive 1 .hold .aborted).startDrive 1 0 d.limit none
    (h2.modDrive 1 (fun d => { d with state := if d.state == .moving then .returning else d.state })).parkInhibited
  else h

/-- PARK_SPEED_CHECK (R249). -/
def execParkSpeedCheck (s : State) : Host.Outcome State Fault Refusal := onHw Hw.parkSpeed s

/-! ## Supply, sensing and commutation (R237, R239-R243) -/

/-- The ceiling of ACT_VS for a drive that brakes (R243). -/
def Hw.vsCeiling (h : Hw) (d : Drive) : Int := minI 58000 (d.vsBefore + h.parI 0x091E)

/-- What holds ACT_VS while a drive brakes (R243): within 0.5 V of the ceiling negative d-axis current, within the drive's limit; at
the ceiling all three low sides, until the speed falls below 100 rpm or ACT_VS lies 1 V below it. -/
def Hw.rappelHold (h : Hw) (i : Nat) : Hw :=
  let top := h.vsCeiling (h.act.drive i)
  let slow : Bool := decide (absI (h.motorSpeed i) < 10000)
  let low (d : Drive) : Bool := !slow && (if top ≤ h.act.vs then true else if h.act.vs ≤ top - 1000 then false else d.lowOn)
  h.modDrive i (fun d =>
    if d.state == .braking then
      { d with lowOn := low d, burn := if top - 500 ≤ h.act.vs then 0 - minI d.limit (Config.actBurn h.free) else 0 }
    else { d with lowOn := false, burn := 0 })

/-- ACT_VS_OUT_OF_RANGE (R237): CH43 at this voltage. -/
def Hw.actVs (h : Hw) (mv : Int) : Hw :=
  let h1 : Hw := { h with act := { h.act with vs := mv, vsLow := decide (mv < 9000), vsHigh := decide (58000 < mv) } }
  let h2 := if mv < 9000 then h1.raiseOnce fltActVsLow 0xFF else h1.clearFault fltActVsLow.code 0xFF
  let h3 := if 58000 < mv then h2.raiseOnce fltActVsHigh 0xFF else h2.clearFault fltActVsHigh.code 0xFF
  let h4 := if h3.vsBad then ((h3.brakeDrive 0).brakeDrive 1).brakeDrive 2 else h3
  ((h4.rappelHold 0).rappelHold 1).rappelHold 2 |>.drawn

/-- ACT_VS_OUT_OF_RANGE (R237). -/
def execActVsOutOfRange (mv : Int) (s : State) : Host.Outcome State Fault Refusal := onHw (fun h => h.actVs mv) s

/-- ACT_SENSE_LOST (R241): four consecutive periods with a missed vector. -/
def Hw.senseLost (h : Hw) (i : Nat) : Hw :=
  if (h.act.drive i).missed < 4 then h
  else h.occurThen fltActSenseLost fltActSenseLost.cls (BitVec.ofNat 8 i)
      (fun x => (x.brakeDrive i).modDrive i (fun d => { d with missed := 0 }))

/-- ACT_SENSE_LOST (R241). -/
def execActSenseLost (drive : Fin 3) (s : State) : Host.Outcome State Fault Refusal := onHw (fun h => h.senseLost drive.val) s

/-- Two angles differ by more than 30° electrical (R242). -/
def farApart (a b : W32) : Bool := decide (357913941 < absI (a - b).toInt)

/-- ACT_HALL_OBSERVER (R242): above 1000 rpm, Hall and observer differ at three consecutive commutation events. -/
def Hw.hallCompare (h : Hw) (i : Nat) (obs : List W32) (speed : Int) : Hw :=
  match h.hallOf i with
  | none => h
  | some k =>
    let hall := (h.pos.halls.get k {}).angles
    if 100000 < absI speed && hall.length == 3 && (hall.zip obs).all (fun p => farApart p.1 p.2) then h.hallObserver i speed else h

/-- ACT_HALL_OBSERVER (R242). -/
def execActHallObserver (drive : Fin 3) (a1 a2 a3 : W32) (speed : Int) (s : State) : Host.Outcome State Fault Refusal :=
  onHw (fun h => h.hallCompare drive.val [a1, a2, a3] speed) s

/-- ACT_RAPPEL_END (R243): 20 ms without a commutation event. -/
def Hw.rappelEnd (h : Hw) (i : Nat) : Hw :=
  let d := h.act.drive i
  if d.state != .braking || h.turning i then h
  else if d.failing then h.endDrive i .hold .hwFault
  else h.modDrive i (fun d => { d with state := .moving, lowOn := false, startAt := h.time.clock })

/-- ACT_RAPPEL_END (R243). -/
def execActRappelEnd (drive : Fin 3) (s : State) : Host.Outcome State Fault Refusal := onHw (fun h => h.rappelEnd drive.val) s

/-- Which phase the shunt carries in an active vector (U V W high sides as bits 2, 1, 0), with its sign (R239). -/
def shuntPhase : Nat → Option (Nat × Int)
  | 4 => some (0, 1)
  | 2 => some (1, 1)
  | 1 => some (2, 1)
  | 6 => some (2, -1)
  | 5 => some (1, -1)
  | 3 => some (0, -1)
  | _ => none

/-- The phase currents from two vectors' means; the third phase makes the sum zero (R239). -/
def reconstruct (d : Drive) (x y : Option (Nat × Int)) : Drive :=
  match x, y with
  | some (p, i), some (q, j) =>
    let get (k : Nat) : Int := if k = p then i else if k = q then j else -(i + j)
    if p = q then d else { d with iU := get 0, iV := get 1, iW := get 2 }
  | _, _ => d

/-- A vector's current: measured, or that of the previous period (R241). -/
def Drive.vectorCurrent (d : Drive) (v : Nat) (m : Option Int) : Option (Nat × Int) :=
  (shuntPhase v).map (fun p => (p.1, p.2 * m.getD (d.means.get v 0)))

/-- The drive switches (R237, R243, R246): it moves, brakes or holds, and neither ACT_VS nor its low sides forbid it. -/
def Hw.switching (h : Hw) (d : Drive) : Bool :=
  !h.act.vsHigh && (d.busy || (d.state == .hold && d.confirmed)) && !d.lowOn && d.lowUntil ≤ h.time.clock

/-- A leg of the three by its on-time: the first of the longest, the last of the shortest. Legs of equal on-time are taken in the order
U, V, W (DESIGN CHOICE: no rule orders them). -/
def longest (on : List Nat) : Nat := on.findIdx (· == on.foldl max 0)
def shortest (on : List Nat) : Nat := 2 - on.reverse.findIdx (· == on.foldl min (on.headD 0))

/-- By how much phase-shift insertion lengthens an active vector of so many ticks in the first half-period: to 1.2 us (R240). -/
def insertion (length : Int) : Int := maxI 0 (480 - length)

/-- The edges of the high sides of legs U, V, W in a period of `n` ticks (R240). On-times are centred in the period, so that the
first half-period holds the rising edges. The legs of longest and shortest on-time bound the two active vectors on the side
where the other does not: the first turns on and off earlier by the insertion of its vector, the last later. -/
def shiftedEdges (n : Nat) (on : List Nat) : List (Int × Int) :=
  let first := longest on
  let last := shortest on
  let rise (k : Nat) : Int := ((n - on.getD k 0) / 2 : Nat)
  let mid := rise (3 - first - last)
  let move (k : Nat) : Int :=
    if k = first then 0 - insertion (mid - rise first) else if k = last then insertion (rise last - mid) else 0
  (List.range 3).map (fun k => (rise k + move k, rise k + move k + on.getD k 0))

/-- The active vector between two legs' rising edges, and between their falling edges in the second half-period; its request lies
900 ns after its start edge and the BURST ends 1050 ns after it (R239). -/
def vectorBetween (code : Nat) (a b : Int × Int) : ActVector :=
  { code := code, start := a.1, first := b.1 - a.1, second := a.2 - b.2, request := a.1 + 360, burstEnd := a.1 + 420 }

/-- The two active vectors of a period by its edges (R239): the leg of longest on-time alone, then with the middle one. -/
def activeVectors (on : List Nat) (edges : List (Int × Int)) : List ActVector :=
  let first := longest on
  let last := shortest on
  let mid := 3 - first - last
  let bit (k : Nat) : Nat := 4 / 2 ^ k
  let edge (k : Nat) : Int × Int := edges.getD k (0, 0)
  [vectorBetween (bit first) (edge first) (edge mid), vectorBetween (bit first + bit mid) (edge mid) (edge last)]

/-- The electrical angle of a drive's motor (R242): the last Hall angle and, within the sector, what the speed of R100 adds since; the
observer's while the motion runs on it. -/
def Hw.driveAngle (h : Hw) (i : Nat) (obs : W32) : W32 :=
  if (h.act.drive i).onObserver then obs
  else match h.hallOf i with
    | none => obs
    | some k =>
      let x := h.pos.halls.get k {}
      let since : Int := match x.events with | t :: _ => (h.time.now - t).toNat | [] => 0
      let most : Int := 4294967296 / 6
      x.angles.headD 0 + BitVec.ofInt 32 (clampI (-most) most (4294967296 * x.speed * since / (6000 * sTicks)))

/-- The current reference of a drive in mA toward its target (R246, R249): ACT_HOLD_CURRENT while it holds a confirmed position or
leans on a tooth, in a motion what the motion asks within its limit. -/
def Hw.driveRef (h : Hw) (i : Nat) : Int :=
  let d := h.act.drive i
  let way : Int := if d.position ≤ d.target then 1 else -1
  if d.state == .tooth || (d.state == .hold && d.confirmed) then way * h.parI (0x0907 + i)
  else if d.busy then clampI (-d.limit) d.limit (Config.actDemand h.free)
  else 0

/-- What the period that ended told of a drive (R239, R241): phase currents from the two vectors, and the run of missed ones. -/
def Drive.measured (d : Drive) (m1 m2 : Option Int) : Drive :=
  let v1 := match d.vectors with | v :: _ => v.code | [] => 0
  let v2 := match d.vectors with | _ :: v :: _ => v.code | _ => 0
  let miss := (m1.isNone && (shuntPhase v1).isSome) || (m2.isNone && (shuntPhase v2).isSome)
  let keep (t : Tab Int) (v : Nat) (m : Option Int) : Tab Int := match m with | some x => t.set v x | none => t
  let d1 := reconstruct d (d.vectorCurrent v1 m1) (d.vectorCurrent v2 m2)
  { d1 with missed := if miss then min (d.missed + 1) 4 else 0, means := keep (keep d.means v1 m1) v2 m2 }

/-- Ticks of a drive's PWM period by ACT_PWM_FREQ (R237). -/
def Hw.actPeriodTicks (h : Hw) (i : Nat) : Nat := sTicks / max (h.par (0x0901 + i)) 1

/-- A drive whose bootstraps are refreshed by the period (R169). -/
def Hw.actRefresh (h : Hw) (i : Nat) : Hw :=
  let mine := h.act.boot.filter (fun p => decide (0x20 + 3 * i ≤ p.1 ∧ p.1 < 0x23 + 3 * i))
  let b := bootStep mine h.time.clock
  ({ h with act := { h.act with boot := b.1.foldl (fun t p => Tab.set t p.1 p.2) h.act.boot } } : Hw).count 0x09D b.2

/-- ACT_PWM_PERIOD (R239-R241): the currents of the period that ended; the edges, active vectors and urgent requests of the period
that begins; bootstraps refreshed (R169). -/
def Hw.actPeriod (h : Hw) (i : Nat) (m1 m2 : Option Int) (on : List Nat) (obs : W32) : Hw :=
  let h0 := h.rappelHold i
  let d := h0.act.drive i
  if h.mode.phase != .up || !h.powered 10 || !h0.switching d then h0.modDrive i (fun d => { d with edges := [], vectors := [], ref := 0 })
  else
    let n := h.actPeriodTicks i
    let asked := on.map (fun t => min t n)
    let edges := shiftedEdges n asked
    let next (d : Drive) : Drive :=
      { d.measured m1 m2 with edges := edges, vectors := activeVectors asked edges, angle := h.driveAngle i obs, ref := h0.driveRef i }
    let h1 := (h0.modDrive i next).actRefresh i
    ((h1.addEnergy (0x02C + i) (Config.actWork h.free)).periodLatch (3 + i)).drawn

/-- ACT_PWM_PERIOD (R239). -/
def execActPwmPeriod (drive : Fin 3) (m1 m2 : Option Int) (onU onV onW : Nat) (obs : W32) (s : State) :
    Host.Outcome State Fault Refusal := onHw (fun h => h.actPeriod drive.val m1 m2 [onU, onV, onW] obs) s

/-! ## Failures of a shift (R252) -/

/-- The old gear is sought again, and the shift will complete ABORTED. -/
def Hw.revertShift (h : Hw) : Hw :=
  let h1 := h.modGear (fun g => { g with reverting := true, begun := false })
  h1.seekGear h1.act.gear.goal .sync 0

/-- SHIFT_TIMEOUT (R252): the branch of the failure table for the step whose bound has passed. -/
def Hw.shiftTimeout (h : Hw) : Hw :=
  let g := h.act.gear
  let late (us : Nat) : Bool := decide (g.at' + us * usTicks ≤ h.time.clock)
  let move := late (h.par 0x091B)
  let sync := late (g.syncTime + h.par 0x091D)
  let disc := g.target == 3
  match g.step with
  | .unload =>
    if late (h.par 0x091A + 20000) then
      ((h.modGear (fun g => { g with reverting := true })).rampBack).occur fltActShiftAborted 0xFF
    else h
  | .toNeutral =>
    if !move then h
    else if g.reverting then h.neutralHeld
    else
      let h1 := if disc then h.startDrive 2 1 (h.driveLimit 2 0) none
        else h.startDrive 0 (if g.old = 1 then 0 else 2) (h.driveLimit 0 0) none
      h1.occurThen fltActShiftStuck fltActShiftStuck.cls 0xFF
        (fun x => x.modGear (fun g => { g with step := .back, reverting := true, at' := h.time.clock }))
  | .back => if move then h.neutralHeld else h
  | .sync =>
    if !sync then h else if g.reverting then h.neutralHeld else h.revertShift.occur fltActShiftAborted 0xFF
  | .retry => if sync then h.revertShift else h
  | .engage =>
    if !move then h
    else if g.lost then ((h.count 0x071 1).endShift .hwFault).occur fltActShiftStuck 0xFF
    else if g.reverting then h.neutralHeld
    else if g.retried then h.revertShift
    else
      ((h.modGear (fun g => { g with retried := true, begun := false })).seekGear g.goal .retry ((h.par 0x0518 / 2 : Nat) : Int)).occur
        fltActShiftAborted 0xFF
  | .none => h
  | .ramp => h

/-- SHIFT_TIMEOUT (R252). -/
def execShiftTimeout (s : State) : Host.Outcome State Fault Refusal := onHw Hw.shiftTimeout s

end Sys2Proof.Machine
end

