-- ==== Sys2Proof/Machine/Charging.lean ====
section
/-!
DEFINITION. Machine/Charging.lean: the charging commands and events (R202-R236).
-/
namespace Sys2Proof

/-- States C and D: the vehicle asks for current (R210). -/
def CpState.asks (c : CpState) : Bool := c == .cpC || c == .cpD

/-- The battery is missing, rather than shorted, by some evidence (R227). -/
def BattFault.missing : BattFault → Bool
  | .rise _ _ _ => true | .over _ => true | .lvOpen _ => true | .low _ _ _ => false | .drop _ _ _ _ => false

end Sys2Proof

namespace Sys2Proof.Machine

/-! ## Descriptors -/

/-- In BASE_CAMP the charging commands come on ring 0 or over CAN (R234). -/
def Hw.reducedPath (h : Hw) (d : Desc) : Bool := h.mode.mode == .baseCamp && (d.path == .ring 0 || d.path == .can)

/-- The setup a CHARGE_SETUP stages. -/
def setupOf (f : ChgFn) (d : Desc) : ChgSetup :=
  let flags := d.byte 17
  { fn := f, permit := flags.getLsbD 0, hlc := flags.getLsbD 1, stateD := flags.getLsbD 2, auto := flags.getLsbD 3,
    current := d.int 20 4, power := d.num 24 4 }

/-- The own checks of CHARGE_SETUP (R204, R234, R389). -/
def Hw.setupCheck (h : Hw) (d : Desc) : Status ⊕ ChgFn :=
  match ChgFn.ofCode (d.num 16 1) with
  | none => .inl .range
  | some f =>
    let idle := h.chg.state == .unplugged || h.chg.state == .plugWait ||
      (h.chg.state == .suspended && (h.chg.suspendedBy == fltChgBattMissing.code || h.chg.suspendedBy == fltChgBattShorted.code))
    if d.int 20 4 < 0 then .inl .range
    else if h.roped && !h.pair.holder then .inl .modeDenied
    else if h.mode.mode == .ready || (h.reducedPath d && f == .ac) || (h.mode.mode == .charge && idle && h.chgFn == f) then .inr f
    else .inl .modeDenied

/-- A setup is staged and confirmed (R204, R213); it lifts a suspension by a battery fault (R227). -/
def Hw.chargeSetup (h : Hw) (d : Desc) (q : Req) : Hw :=
  match h.setupCheck d with
  | .inl st => h.complete q st
  | .inr f =>
    let h1 : Hw := { h with chg := { h.chg with setup := some (setupOf f d), confirmed := true, fresh := true, outage := false
                                                missing := false, shorted := false } }
    let h2 := h1.clearAll [fltChgBattMissing.code, fltChgBattShorted.code]
    let h3 := if h.chg.state == .suspended then h2.chgGo .plugWait 0 0 else h2
    (h3.complete q .done).chgSettle

/-- CHARGE_SETUP (R204). -/
def execChargeSetup (d : Desc) (s : State) : Host.Outcome State Fault Refusal :=
  onHw (fun h => h.descriptor 0x0801 d (fun q h => h.chargeSetup d q)) s

/-- CHARGE_PROFILE (R205, R206): a phase is written, for its next entry. -/
def Hw.chargeProfile (h : Hw) (d : Desc) (q : Req) : Hw :=
  let t := d.num 16 1
  let k := d.num 17 1
  let p : ProfPhase := { volts := d.int 20 4, amps := d.int 24 4, timer := d.num 28 4 }
  if 1 < t || k = 0 || 5 < k || !profOk h.otp.ident.is48 t k p.volts p.amps p.timer then h.complete q .range
  else if h.mode.mode == .baseCamp then h.complete q .modeDenied
  else ({ h with chg := { h.chg with prof := h.chg.prof.set (8 * t + k) p } } : Hw).complete q .done

/-- CHARGE_PROFILE (R206). -/
def execChargeProfile (d : Desc) (s : State) : Host.Outcome State Fault Refusal :=
  onHw (fun h => h.descriptor 0x0802 d (fun q h => h.chargeProfile d q)) s

/-- The modes in which a session is commanded (R207, R234): CHARGE, BELAY entered from it, and BASE_CAMP on its paths. -/
def Hw.chgCommanded (h : Hw) (d : Desc) : Bool :=
  h.mode.mode == .charge || (h.mode.mode == .belay && h.mode.belayFrom == .charge) || h.reducedPath d

/-- DC boost starts only with its providers (R17, R18). -/
def Hw.boostReady (h : Hw) : Bool :=
  h.act.parkOn && h.ctlA.state.safe && h.ctlB.state.safe && h.gateSupplied .brA && h.gateSupplied .brB && !h.boostInhibited

/-- START and RESUME (R207, R216, R234): FLOW at once. -/
def Hw.chargeStart (h : Hw) (d : Desc) (q : Req) (resume : Bool) : Hw :=
  let f := h.chgFn
  let reduced := h.mode.mode != .baseCamp || (h.acConditions h.chgPermit 370000)
  let able := h.chgCommanded d && h.chg.state == .armed && (!resume || h.chg.paused) && h.chgPermit && reduced &&
    !(h.chg.draining) && (f != .boost || (h.chg.dcb == .inletClosed && h.boostReady))
  if able then h.startFlow (some q) 0 else h.complete q .modeDenied

/-- CHARGE_CONTROL START (R207). -/
def execChargeControlStart (d : Desc) (s : State) : Host.Outcome State Fault Refusal :=
  onHw (fun h => h.descriptor 0x0803 (d.withByte16 1) (fun q h => h.chargeStart d q false)) s

/-- CHARGE_CONTROL RESUME (R207). -/
def execChargeControlResume (d : Desc) (s : State) : Host.Outcome State Fault Refusal :=
  onHw (fun h => h.descriptor 0x0803 (d.withByte16 3) (fun q h => h.chargeStart d q true)) s

/-- STOP (R207, R224, R233): the drain begins; DONE at once where nothing runs. -/
def Hw.chargeStop (h : Hw) (d : Desc) (q : Req) : Hw :=
  if !(h.chgCommanded d || (h.mode.mode == .ready && h.chg.active)) then h.complete q .modeDenied
  else
    if h.chg.active then ({ h with chg := { h.chg with stopReqs := h.chg.stopReqs ++ [q] } } : Hw).drainCharge
    else h.complete q .done

/-- CHARGE_CONTROL STOP (R207). -/
def execChargeControlStop (d : Desc) (s : State) : Host.Outcome State Fault Refusal :=
  onHw (fun h => h.descriptor 0x0803 (d.withByte16 0) (fun q h => h.chargeStop d q)) s

/-- PAUSE in FLOW (R207): DONE at zero current, and for top-up, which leaves plain LV service, at once. -/
def Hw.chargePause (h : Hw) (d : Desc) (q : Req) : Hw :=
  if !h.chgCommanded d || h.chg.state != .flow then h.complete q .modeDenied
  else if h.chg.pauseReq.isSome || h.chg.draining then h.complete q .busy
  else
    let h1 : Hw := { h with chg := { h.chg with pauseReq := some q } }
    if (h.chg.current = 0 && !h.chg.boosting) || h.chgFn == .topup then h1.chgAtZero else h1

/-- CHARGE_CONTROL PAUSE (R207). -/
def execChargeControlPause (d : Desc) (s : State) : Host.Outcome State Fault Refusal :=
  onHw (fun h => h.descriptor 0x0803 (d.withByte16 2) (fun q h => h.chargePause d q)) s

/-- SET_LIMITS (R207): values within the function's rating govern at once. -/
def Hw.chargeLimits (h : Hw) (d : Desc) (q : Req) : Hw :=
  let f := h.chgFn
  let r := h.rating f
  let keepI := d.num 20 4 == 0xFFFFFFFF
  let keepP := d.num 24 4 == 0xFFFFFFFF
  let i := d.int 20 4
  let v := d.int 28 4
  if h.mode.mode == .baseCamp || f == .none then h.complete q .modeDenied
  else if (!keepI && (i < 0 || r.1 < i)) || (!keepP && r.2 < d.num 24 4) ||
    (f == .boost && v != 0 && (v < 200000 || 500000 < v)) then h.complete q .range
  else
    let h1 : Hw := { h with chg := { h.chg with limCur := if keepI then h.chg.limCur else some i
                                                limPow := if keepP then h.chg.limPow else some (d.num 24 4)
                                                station := if v = 0 then h.chg.station else v } }
    (h1.complete q .done).chgSettle

/-- CHARGE_CONTROL SET_LIMITS (R207). -/
def execChargeControlSetLimits (d : Desc) (s : State) : Host.Outcome State Fault Refusal :=
  onHw (fun h => h.descriptor 0x0803 (d.withByte16 4) (fun q h => h.chargeLimits d q)) s

/-- INLET_MATCH (R207, R220): DC boost in ARMED with the inlet contactors open; SPA and SPB close and time base B is
realigned to A (R334). -/
def Hw.inletMatch (h : Hw) (d : Desc) (q : Req) : Hw :=
  let v := if d.int 28 4 = 0 then h.chg.station else d.int 28 4
  let able := h.mode.mode == .charge && h.chgFn == .boost && h.chg.state == .armed && h.chg.dcb == .off && h.boostConditions
  if !able then h.complete q .modeDenied
  else if v < 200000 || 500000 < v then h.complete q .range
  else
    ({ h with chg := { h.chg with station := v, dcb := .matching, spA := true, spB := true, matchReq := some q
                                  dcbAt := h.time.clock } } : Hw).fixAB 0

/-- CHARGE_CONTROL INLET_MATCH (R220). -/
def execChargeControlInletMatch (d : Desc) (s : State) : Host.Outcome State Fault Refusal :=
  onHw (fun h => h.descriptor 0x0803 (d.withByte16 5) (fun q h => h.inletMatch d q)) s

/-- RESTART_PHASE (R230): the expired phase once again, with its timer reloaded. -/
def Hw.restartPhase (h : Hw) (q : Req) : Hw :=
  match h.chg.left with
  | none => h.complete q .modeDenied
  | some p =>
    let key := 8 * p.target + p.phase
    if h.mode.mode == .baseCamp || h.chg.state != .suspended || h.chg.suspendedBy != fltChgTimer.code ||
       2 ≤ (h.chg.expired.filter (fun k => k == key)).length then h.complete q .modeDenied
    else
      let h1 := (h.clearFault fltChgTimer.code 0xFF).complete q .done
      ({ h1 with chg := { h1.chg with left := some { p with equiv := 0, restarted := true } } } : Hw).chgUnsuspend

/-- CHARGE_CONTROL RESTART_PHASE (R230). -/
def execChargeControlRestartPhase (d : Desc) (s : State) : Host.Outcome State Fault Refusal :=
  onHw (fun h => h.descriptor 0x0803 (d.withByte16 6) (fun q h => h.restartPhase q)) s

/-- CHG_BATT_STATUS (R208). -/
def Hw.battStatus (h : Hw) (d : Desc) (q : Req) : Hw :=
  let valid := d.byte 17
  let s : BattStatus :=
    { volts := if valid.getLsbD 0 then some (d.int 20 4) else none, amps := if valid.getLsbD 1 then some (d.int 24 4) else none
      temp := if valid.getLsbD 2 then some (d.int 18 2) else none, at' := h.time.clock }
  if d.num 16 1 = 0 then ({ h with chg := { h.chg with battHv := some s } } : Hw).complete q .done
  else if d.num 16 1 = 1 then ({ h with chg := { h.chg with battLv := some s } } : Hw).complete q .done
  else h.complete q .range

/-- CHG_BATT_STATUS (R208). -/
def execChgBattStatus (d : Desc) (s : State) : Host.Outcome State Fault Refusal :=
  onHw (fun h => h.descriptor 0x0804 d (fun q h => h.battStatus d q)) s

/-! ## Plug and pilot -/

/-- The PP class of a resistance under PP_MODE (R209); unset, it is INVALID. -/
def Hw.ppClass (h : Hw) (ohms : Nat) : PpClass :=
  if h.unset 0x0801 then .invalid
  else if 4500 < ohms then .noPlug
  else if h.par 0x0801 = 0 then
    (if 1100 ≤ ohms && ohms ≤ 2000 then .plug 13000 else if 400 ≤ ohms && ohms ≤ 936 then .plug 20000
     else if 164 ≤ ohms && ohms ≤ 300 then .plug 32000 else if 75 ≤ ohms && ohms ≤ 136 then .plug 63000 else .invalid)
  else if 100 ≤ ohms && ohms ≤ 200 then .plug 80000
  else if 330 ≤ ohms && ohms ≤ 700 then .noPlug else .invalid

/-- PP leaves its PLUG class in a charge state (R213, R216, R225, R231). -/
def Hw.plugLeft (h : Hw) : Hw :=
  let f := h.chgFn
  let away (x : Hw) : Hw := ({ x with chg := x.chg.unplug } : Hw)
  if f == .topup then away h
  else match h.chg.state with
    | .flow =>
      if f == .ac then away (h.handOver true)
      else if f == .boost then away h.boostLost
      else away (h.chgStopTo 3 .unplugged 2 0)
    | .handOver => away { h with chg := { h.chg with handUnplugged := true } }
    | .suspended => (away (h.chgStopTo 3 .unplugged 2 0)).chgOpen
    | .armed => (away (h.chgStopTo 3 .unplugged 2 0)).chgOpen
    | .plugWait => away (h.chgGo .unplugged 2 0)
    | .unplugged => away h

/-- PP is in a PLUG class: a plug cycle ends where it had left one (R216, 0x07D). -/
def Hw.plugBack (h : Hw) : Hw :=
  let h1 := if h.chg.leftPlug then
      (({ h with chg := { h.chg with leftPlug := false } } : Hw).count 0x07D 1).clearAll plugFaults
    else h
  h1.chgSettle

/-- The proximity class changes (R209, R213). -/
def Hw.ppChange (h : Hw) (ohms : Nat) : Hw :=
  let c := h.ppClass ohms
  let h1 : Hw := if h.chg.pp == c then h else { h.busyNow with chg := { h.chg with pp := c } }
  if h.chg.pp.plugged && !c.plugged then h1.plugLeft
  else if c.plugged then (if h.chg.pp.plugged then h1 else h1.plugBack) else h1

/-- PP_CLASS_CHANGE (R209): a class holds once the resistance has stayed in it for 10 ms. -/
def execPpClassChange (ohms held : Nat) (s : State) : Host.Outcome State Fault Refusal :=
  onHw (fun h => if h.mode.phase == .up && 10 * msTicks ≤ held then h.ppChange ohms else h) s

/-- The pilot state of a positive plateau in mV (R210), none outside every row. -/
def pilotState (mv : Int) : Option CpState :=
  if 10500 ≤ mv && mv ≤ 13500 then some .cpA else if 7500 ≤ mv && mv ≤ 10500 then some .cpB
  else if 4500 ≤ mv && mv ≤ 7500 then some .cpC else if 1500 ≤ mv && mv ≤ 4500 then some .cpD
  else if (-1500 : Int) ≤ mv && mv ≤ 1500 then some .cpE else if (-13500 : Int) ≤ mv && mv ≤ -10500 then some .cpF else none

/-- What a duty in 0.1 % offers (R211): mA, or digital communication, or neither. -/
def dutyOffer (duty : Nat) : Option (Int × Bool) :=
  if duty < 30 then none else if duty ≤ 70 then some (0, true) else if duty < 80 then none
  else if duty ≤ 100 then some (6000, false) else if duty ≤ 850 then some (((duty * 60 : Nat) : Int), false)
  else if duty ≤ 960 then some ((((duty - 640) * 250 : Nat) : Int), false) else if duty ≤ 970 then some (80000, false) else none

/-- The pilot's PWM is as R210 asks: negative plateau and frequency in 0.1 Hz. -/
def pwmOk (negMv : Int) (freq : Nat) : Bool := (-13500 : Int) ≤ negMv && negMv ≤ -10500 && 9800 ≤ freq && freq ≤ 10200

/-- S2 stayed closed while the EVSE had stopped PWM: its return in C with an offer starts FLOW again under AUTO_START (R213). -/
def Hw.pwmReturn (h : Hw) : Hw :=
  let offers : Bool := decide (0 < h.chg.offer) || (h.chg.digital && h.chgHlc)
  if h.chg.state == .armed && h.chg.s2 && h.chg.cp.asks && h.chg.pwm && offers && h.chgLive && h.chgPermit &&
     h.chg.setup.any (·.auto) then h.startFlow none 0
  else h

/-- What a pilot change does to the charge state (R213, R217, R225, R231); `was` is the state it leaves. -/
def Hw.cpActs (h : Hw) (was : CpState) : Hw :=
  let f := h.chgFn
  let gone := h.chg.cp == .cpA || h.chg.cp == .cpE || h.chg.cp == .cpF
  if h.chg.state == .flow then
    if f == .ac && gone then h.handOver false
    else if f == .grid && gone then h.chgOutage 3
    else if (f == .ac || f == .grid) && h.chg.cp == .cpC && !h.chg.pwm then
      (({ h with chg := { h.chg with current := 0, limit := 0 } } : Hw).chgGo .armed 0 0).chgCompleteAll .aborted .done
    else if f == .boost && h.chg.boosting && !h.chg.cp.asks && (was.asks || gone) then h.boostLost
    else h
  else h.pwmReturn.chgSettle

/-- The plateau has held for three PWM periods, or for 3 ms without PWM (R210). -/
def pilotHeld (freq : Option Nat) (held : Nat) : Bool :=
  match freq with | some f => 30 * sTicks ≤ held * f | none => 3 * msTicks ≤ held

/-- The pilot changes (R210, R211): its state, whether it carries PWM, and what it offers. A PWM beyond its limits counts once it has been so
for 10 ms. -/
def Hw.cpChange (h : Hw) (posMv negMv : Int) (freq : Option Nat) (duty held : Nat) : Hw :=
  let st := (pilotState posMv).getD h.chg.cp
  let offer : Option (Int × Bool) := match freq with
    | none => some (0, false)
    | some f => if pwmOk negMv f then dutyOffer duty
      else if held < 10 * msTicks then some (h.chg.offer, h.chg.digital) else none
  let c := { h.chg with cp := st, pwm := freq.isSome }
  match offer with
  | some (a, dig) =>
    (({ h with chg := { c with offer := a, digital := dig } } : Hw).clearFault fltChgPilotInvalid.code 0xFF).cpActs h.chg.cp
  | none => (({ h with chg := { c with offer := 0, digital := false } } : Hw).raiseOnce fltChgPilotInvalid 0xFF).cpActs h.chg.cp

/-- CP_STATE_CHANGE (R210). -/
def execCpStateChange (posMv negMv : Int) (freq : Option Nat) (duty held : Nat) (s : State) : Host.Outcome State Fault Refusal :=
  onHw (fun h => if h.mode.phase == .up && pilotHeld freq held then h.cpChange posMv negMv freq duty held else h) s

/-! ## Hand-over and outage -/

/-- HAND_OVER_END (R231, R232): the record closes, and PLUG_WAIT or UNPLUGGED follows. -/
def Hw.handOverEnd (h : Hw) : Hw :=
  if h.chg.state != .handOver || h.time.clock < h.chg.handAt + 20 * msTicks then h
  else
    let h1 := h.chgEndPhase 3
    if h.chg.handUnplugged then
      let h2 := (({ h1 with chg := { h1.chg with handUnplugged := false, left := none } } : Hw).chgGo .unplugged 2 0)
      h2.chgSettle
    else
      let h2 := h1.chgGo .plugWait 1 0
      { h2 with chg := { h2.chg with outage := true, mainsAt := none, handAt := h.time.clock } }

/-- HAND_OVER_END (R231). -/
def execHandOverEnd (s : State) : Host.Outcome State Fault Refusal := onHw Hw.handOverEnd s

/-- OUTAGE_HOLDOFF_EXPIRY (R217, R232): charging goes on as on START. -/
def Hw.outageEnd (h : Hw) : Hw :=
  match h.chg.mainsAt with
  | none => h
  | some t =>
    let hold := if h.chgFn == .grid then h.parTicks 0x0815 else h.parTicks 0x0807
    if h.chg.state == .plugWait && h.chg.outage && max t h.chg.handAt + hold ≤ h.time.clock && h.chgLive && h.chg.confirmed &&
       h.chgPermit && h.armable then h.startFlow none 0
    else h

/-- OUTAGE_HOLDOFF_EXPIRY (R232). -/
def execOutageHoldoffExpiry (s : State) : Host.Outcome State Fault Refusal := onHw Hw.outageEnd s

/-! ## Mains half-cycles -/

/-- The least voltage in mV at which a half-cycle counts as present (R205). -/
abbrev acPresent : Int := 30000

/-- The voltages of the phases in use (R214), of the three that a half-cycle measures. -/
def Hw.usedPhases (h : Hw) (volts : List Int) : List Int := volts.take h.acPhases

/-- The reference measurement of R214: six half-cycles of each phase in use before the first current. -/
def Hw.measureRef (h : Hw) (v : List Int) : Hw :=
  let c := h.chg
  let n := c.refCycles + 1
  let before := if c.refCycles = 0 then v.map (fun _ => 0) else c.refSum
  let sum := (v.zip before).map (fun p => (p.1 * p.1).toNat + p.2)
  if v.all h.inputOk then
    (if n < 6 then { h with chg := { c with refCycles := n, refSum := sum } }
     else { h with chg := { c with refCycles := n, refSum := sum, vref := sum.map (fun s => ((isqrt (s / 6) : Nat) : Int))
                                   limitAt := h.time.clock } })
  else { h with chg := { c with refCycles := 0, refSum := [] } }

/-- A phase's voltage is below a bound in 0.1 % of its V_ref; one whose V_ref has been measured is. -/
def Hw.belowRef (h : Hw) (v : List Int) (bound : Nat) : Bool :=
  (v.zip h.chg.vref).any (fun p => decide (p.1 * 1000 < bound * p.2))

/-- The export windows are left (R217): each phase's voltage against V_ref, frequency in 10 mHz. -/
def Hw.offGrid (h : Hw) (v : List Int) (freq : Nat) : Bool :=
  let vw := h.par 0x0812
  let fw := h.par 0x0813
  h.belowRef v (vw % 65536) || (v.zip h.chg.vref).any (fun p => decide ((vw / 65536 : Nat) * p.2 < p.1 * 1000)) ||
  freq < fw % 65536 || fw / 65536 < freq

/-- The factor of R215 for AC: by the phase that has fallen furthest. -/
def Hw.acFactor (h : Hw) (v : List Int) : Nat :=
  (v.zip h.chg.vref).foldl (fun a p => min a (vregFactor p.1 p.2 (h.par 0x0804) (h.par 0x0805))) 1000

/-- A trip of grid-parallel export (R217). -/
def Hw.gridTrip (h : Hw) : Hw := (h.occur fltChgGridTrip 0xFF).chgOutage 3

/-- Energy of a half-cycle (R351, 0x028 and 0x029). -/
def Hw.acEnergy (h : Hw) (v : List Int) (freq : Nat) (amps : Int) : Hw :=
  if freq = 0 then h
  else h.addEnergy (if h.chgFn.exports then 0x029 else 0x028)
    ((v.foldl (· + ·) 0 * amps / 1000).toNat * (20000000000 / freq))

/-- An islanded load above rated current, and above 110 % of it, since when (R218). -/
def Hw.islandLoad (h : Hw) (amps : Int) : Hw :=
  let r := (h.rating .island).1
  let rated := h.chgFn == .island && decide (r < amps)
  let peak := h.chgFn == .island && decide (r * 11 < amps * 10)
  { h with chg := { h.chg with overAt := heldSince h.chg.overAt rated h.time.clock, peakAt := heldSince h.chg.peakAt peak h.time.clock } }

/-- A half-cycle in FLOW with the reference measured: current, regulation, limit (R212, R214, R215). -/
def Hw.flowCycle (h : Hw) (v : List Int) (freq : Nat) (amps : Int) : Hw :=
  let c := h.chg
  let low := h.belowRef v (h.par 0x0805) || !v.all h.inputOk
  let h1 : Hw := { h with chg := { c with current := amps, vreg := h.acFactor v
                                          lowAt := heldSince c.lowAt low h.time.clock
                                          gridAt := heldSince c.gridAt (h.chgFn == .grid && h.offGrid v freq) h.time.clock } }
  let full := (h.phaseValues 0 4).volts * 103 < h.pwr.vdc * 100 && !h.chgFn.exports
  let h2 := if c.draining || c.pauseReq.isSome || full || (h.chgFn == .grid && c.cp != .cpC) then
      { h1 with chg := { h1.chg with limit := 0, outLimit := 0, limitAt := h.time.clock } }
    else
      let h2 := h1.rampLimit h1.acLimit (h.par 0x0803) sTicks
      { h2 with chg := { h2.chg with outLimit := h1.obcOut } }
  let h3 := (h2.islandLoad amps).acEnergy v freq amps
  let h4 := if 0 < amps then
      ({ h3 with chg := { h3.chg with startReq := none } } : Hw).completeOpt h3.chg.startReq .done
    else h3.chgAtZero
  if h4.chg.state == .flow && h4.chgFn != .island && heldFor h4.chg.lowAt sTicks h.time.clock then
    (h4.raiseOnce fltChgInputLow 0xFF).chgSuspend fltChgInputLow.code 5
  else h4

/-- The coolant stops the OBC (R219): SUSPENDED above 85 degC without an allowance, until it is below 80 degC. -/
def Hw.coolantStop (h : Hw) : Hw :=
  if h.chg.state == .flow && h.chgFn.isAc && h.chg.allowance.isNone && 8500 < h.pwr.coolant then h.chgSuspend 0 5
  else if h.chg.state == .suspended && h.chg.suspendedBy == 0 && h.chgFn.isAc && h.pwr.coolant < 8000 then h.chgUnsuspend
  else h

/-- A half-cycle of an AC function (R214, R215, R217, R231), with the voltages of its three input phases. -/
def Hw.acCycle (h : Hw) (volts : List Int) (freq : Nat) (amps : Int) : Hw :=
  let c := h.chg
  let v := h.usedPhases volts
  let present : Bool := v.all (fun x => decide (acPresent ≤ x))
  let h1 : Hw := { h with chg := { c with acHighAt := if volts.any (fun x => decide (acPresent ≤ x)) then some h.time.clock else c.acHighAt
                                          mainsAt := heldSince c.mainsAt (v.all h.inputOk) h.time.clock } }
  match c.state with
  | .flow =>
    if !h.chgFn.isAc then h1
    else if h.chgFn == .island then
      h1.flowCycle v freq amps
    else if c.vref.isEmpty then (if c.draining || c.pauseReq.isSome then h1.chgAtZero else (h1.measureRef v).coolantStop)
    else if h.chgFn == .ac && h1.belowRef v 500 then h1.handOver false
    else if h.chgFn == .grid && (!present || heldFor (heldSince c.gridAt (h.offGrid v freq) h.time.clock) (h.parTicks 0x0814)
      h.time.clock) then h1.gridTrip
    else (h1.flowCycle v freq amps).coolantStop
  | .suspended =>
    let above := !c.vref.isEmpty && (v.zip c.vref).all (fun p => decide (h.par 0x0804 * p.2 < p.1 * 1000))
    let good := heldSince c.goodAt above h.time.clock
    let h2 : Hw := { h1 with chg := { h1.chg with goodAt := good } }
    if c.suspendedBy == fltChgInputLow.code && heldFor h2.chg.goodAt (10 * sTicks) h.time.clock then
      (h2.clearFault fltChgInputLow.code 0xFF).chgUnsuspend
    else h2.coolantStop
  | .unplugged => h1
  | .plugWait => h1
  | .armed => h1
  | .handOver => h1

/-- DC boost's regulation by the inlet voltage (R215): SUSPENDED after 1 s below the floor, FLOW after 10 s above the
start. -/
def Hw.boostCycle (h : Hw) (v amps : Int) : Hw :=
  let c := h.chg
  let live := c.state == .flow && c.dcb == .running
  let low := live && (v * 1000 < h.par 0x0805 * c.station || v < 200000 || 500000 < v)
  let good := c.state == .suspended && h.par 0x0804 * c.station < v * 1000
  let h1 := h.boostStep v amps
  let h2 : Hw := { h1 with chg := { h1.chg with lowAt := heldSince c.lowAt low h.time.clock
                                                goodAt := heldSince c.goodAt good h.time.clock
                                                halfAt := heldSince c.halfAt (live && v * 2 < c.station) h.time.clock } }
  if live && heldFor h2.chg.lowAt sTicks h.time.clock then
    (h2.raiseOnce fltChgInputLow 0xFF).chgSuspend fltChgInputLow.code 5
  else if good && c.suspendedBy == fltChgInputLow.code && heldFor h2.chg.goodAt (10 * sTicks) h.time.clock then
    (h2.clearFault fltChgInputLow.code 0xFF).chgUnsuspend
  else h2

/-- MAINS_HALF_CYCLE (R214, R215, R217, R220, R224). -/
def execMainsHalfCycle (v1 v2 v3 : Int) (freq : Nat) (amps : Int) (s : State) : Host.Outcome State Fault Refusal :=
  onHw (fun h => if h.mode.phase != .up then h else if h.chgFn == .boost then h.boostCycle v1 amps
    else h.acCycle [v1, v2, v3] freq amps) s

/-- CHG_NO_SOURCE (R207): ten seconds of FLOW without a source. -/
def Hw.noSource (h : Hw) : Hw :=
  if h.chg.state == .flow && h.chgFn.isAc && h.chg.vref.isEmpty && h.chg.refCycles = 0 && h.chg.current = 0 &&
     h.chg.startAt + 10 * sTicks ≤ h.time.clock then
    let h1 := h.occurThen fltChgNoSource fltChgNoSource.cls 0xFF (fun x => x.chgStopTo 3 .armed 3 fltChgNoSource.code)
    { h1 with chg := { h1.chg with left := none } }
  else h

/-- CHG_NO_SOURCE (R207). -/
def execChgNoSource (s : State) : Host.Outcome State Fault Refusal := onHw Hw.noSource s

/-! ## Protection of the AC side -/

/-- CHG_RESIDUAL (R216): 30 mA rms stops at once, 6 mA dc held for 1 s, a PE-to-N voltage above 50 V held for 100 ms. -/
def Hw.residual (h : Hw) (acMa dcMa peMv : Int) : Hw :=
  let now := h.time.clock
  let watched := h.chgFn.isAc && (h.chg.state == .armed || h.chg.state == .flow)
  let h1 : Hw := { h with chg := { h.chg with dcResAt := heldSince h.chg.dcResAt (watched && decide (6 ≤ dcMa)) now
                                              peAt := heldSince h.chg.peAt (watched && decide (50000 < peMv)) now } }
  if watched && (30 ≤ acMa || heldFor h1.chg.dcResAt sTicks now) then (h1.raiseOnce fltChgResidual 0xFF).chgSuspend fltChgResidual.code 5
  else if heldFor h1.chg.peAt (100 * msTicks) now then (h1.raiseOnce fltChgPeFault 0xFF).chgSuspend fltChgPeFault.code 5
  else h1

/-- CHG_RESIDUAL (R216). -/
def execChgResidual (acMa dcMa peMv : Int) (s : State) : Host.Outcome State Fault Refusal :=
  onHw (fun h => h.residual acMa dcMa peMv) s

/-- CHG_GRID_TRIP (R217): grid-parallel export stops once a window has been left for EXPORT_TRIP_TIME. -/
def execChgGridTrip (s : State) : Host.Outcome State Fault Refusal :=
  onHw (fun h => if h.chgFn == .grid && h.chg.state == .flow && heldFor h.chg.gridAt (h.parTicks 0x0814) h.time.clock then h.gridTrip
    else h) s

/-- CHG_ISLAND_OVERLOAD (R218): 110 % is carried for 5 s, more for 100 ms; then the OBC stops and enters ARMED. -/
def Hw.islandOverload (h : Hw) : Hw :=
  if h.chgFn == .island && h.chg.state == .flow &&
     (heldFor h.chg.overAt (5 * sTicks) h.time.clock || heldFor h.chg.peakAt (100 * msTicks) h.time.clock) then
    h.occurThen fltChgIslandOverload fltChgIslandOverload.cls 0xFF
      (fun x => x.chgStopTo 4 .armed 3 fltChgIslandOverload.code)
  else h

/-- CHG_ISLAND_OVERLOAD (R218). -/
def execChgIslandOverload (s : State) : Host.Outcome State Fault Refusal := onHw Hw.islandOverload s

/-- CHG_BACKFEED (R218): a phase voltage more than 10 % off the formed one for 2 ms with the current within limits; SUSPENDED until a
new plug cycle. -/
def Hw.backfeed (h : Hw) (volts : List Int) (held : Nat) : Hw :=
  let off := ((h.usedPhases volts).zip h.acVolts).any (fun p => decide (p.2 < 10 * absI (p.1 - p.2)))
  if h.chgFn == .island && h.chg.state == .flow && off && 2 * msTicks ≤ held && h.chg.current ≤ h.acLimit then
    (h.raiseOnce fltChgBackfeed 0xFF).chgSuspend fltChgBackfeed.code 5
  else h

/-- CHG_BACKFEED (R218). -/
def execChgBackfeed (v1 v2 v3 : Int) (held : Nat) (s : State) : Host.Outcome State Fault Refusal :=
  onHw (fun h => h.backfeed [v1, v2, v3] held) s

/-- OBC_OVERTEMP (R219): warning at 100 degC, fold-back to 30 % at 115 degC, stop at 120 degC, resumed after 5 s below
100 degC. -/
def Hw.obcHeat (h : Hw) (t : Int) : Hw :=
  let limit := (fall 1000 300 10000 11500 t).toNat
  let h1 : Hw := { h with chg := { h.chg with obcLimit := limit } }
  if 12000 ≤ t then
    (({ h1 with chg := { h1.chg with obcShut := true, obcCoolAt := none, limit := 0 } } : Hw).raiseOnce fltObcOvertemp 0xFF)
  else if 10000 ≤ t then
    let h2 : Hw := { h1 with chg := { h1.chg with obcCoolAt := none, obcWarned := true } }
    if h.chg.obcWarned then h2 else h2.occur fltObcOvertempWarn 0xFF
  else
    let since := h.chg.obcCoolAt.getD h.time.clock
    let h2 : Hw := { h1 with chg := { h1.chg with obcCoolAt := some since, obcWarned := false } }
    if since + 5 * sTicks ≤ h.time.clock && h.chg.obcShut then
      ({ h2 with chg := { h2.chg with obcShut := false } } : Hw).clearFault fltObcOvertemp.code 0xFF
    else h2

/-- OBC_OVERTEMP (R219). -/
def execObcOvertemp (temp : Int) (s : State) : Host.Outcome State Fault Refusal := onHw (fun h => h.obcHeat temp) s

/-! ## Phases, timers and the battery -/

/-- The phase that follows one whose exit condition holds at a voltage and current (R226), none where it does not. -/
def Hw.nextPhase (h : Hw) (p : ChgPhase) (v i : Int) : Option Nat :=
  if p.phase = 1 then (if p.prof.volts ≤ v then some 2 else none)
  else if p.phase = 2 then (if p.prof.volts ≤ v then some 3 else none)
  else if p.phase = 3 then (if (h.phaseValues p.target 4).volts ≤ v then some 4 else none)
  else if p.phase = 4 then (if i < p.prof.amps then some 5 else none)
  else if p.phase = 5 then (if p.prof.volts != 0 && v < p.prof.volts then some 3 else none)
  else none

/-- How long the exit condition of a phase must hold, in ticks (R226). -/
def exitHold (phase : Nat) : Nat := if phase = 1 || phase = 2 then 10 * sTicks else if phase = 4 then 60 * sTicks else 0

/-- Since when the exit condition of a phase holds, seen with a charge current of the module's own channel (R208, R226). -/
def Hw.exitSeen (h : Hw) (p : ChgPhase) (own : Int) : ChgPhase :=
  let left := (h.nextPhase p (h.battVolts p.target) (h.battAmps p.target own).1).isSome && h.chg.state == .flow
  { p with exitAt := heldSince p.exitAt left h.time.clock }

/-- CHARGE_PHASE_CHANGE (R226): the record, and the next phase, once the exit condition has held for its time. -/
def Hw.phaseChange (h : Hw) (amps : Int) : Hw :=
  match h.chg.phase with
  | none => h
  | some p =>
    let p1 := h.exitSeen p amps
    let h1 : Hw := { h with chg := { h.chg with phase := some p1 } }
    match h.nextPhase p (h.battVolts p.target) (h.battAmps p.target amps).1 with
    | none => h1
    | some k => if heldFor p1.exitAt (exitHold p.phase) h.time.clock then (h1.chgEndPhase 0).enterPhase p.target k 0 false else h1

/-- CHARGE_PHASE_CHANGE (R226). -/
def execChargePhaseChange (amps : Int) (s : State) : Host.Outcome State Fault Refusal := onHw (fun h => h.phaseChange amps) s

/-- Time with the source withdrawn does not count (R229). -/
def Hw.timerRuns (h : Hw) : Bool :=
  h.chg.state == .flow && (if h.chgFn == .ac then h.chg.cp.asks && h.chg.pwm else h.chgFn != .boost || h.chg.dcb == .running)

/-- What some milliseconds add to a phase (R229, R233). -/
def Hw.phaseTime (h : Hw) (p : ChgPhase) (ms : Nat) (amps : Int) (bms : Bool) : ChgPhase :=
  let v := h.battVolts p.target
  let reduced := h.chg.vreg < 1000
  { p with equiv := if h.timerRuns then p.equiv + ms * timerRate p.phase amps (h.progCurrent p) else p.equiv
           elapsed := p.elapsed + ms, vreg := if reduced then p.vreg + ms else p.vreg
           thermal := if h.chgWarm then p.thermal + ms else p.thermal, charge := p.charge + ms * amps.toNat
           energy := p.energy + ms * (v * amps / 1000).toNat, fromBms := p.fromBms || bms }

/-- CHG_TIMER (R229, R230): the phase's time runs by the whole milliseconds since the last look, and its timer may expire. -/
def Hw.chgTime (h : Hw) (own : Int) : Hw :=
  match h.chg.phase with
  | none => h
  | some p =>
    let ms := (h.time.clock - p.countedAt) / msTicks
    let a := h.battAmps p.target own
    let p1 := { h.phaseTime (h.exitSeen p own) ms a.1 a.2 with countedAt := p.countedAt + ms * msTicks }
    let h1 : Hw := { h with chg := { h.chg with phase := some p1 } }
    if p.phase = 0 || p1.equiv < p1.prof.timer * 1000000 || h.chg.state != .flow then h1
    else if p.phase = 5 then h1.sessionComplete
    else
      let h2 := (h1.count 0x07F 1).raiseOnce fltChgTimer 0xFF
      ({ h2 with chg := { h2.chg with expired := (8 * p.target + p.phase) :: h2.chg.expired } } : Hw).chgSuspend
        fltChgTimer.code 1

/-- CHG_TIMER (R229). -/
def execChgTimer (amps : Int) (s : State) : Host.Outcome State Fault Refusal := onHw (fun h => h.chgTime amps) s

/-- The evidence meets a condition of R227. A constant current is one that has moved by no more than 2 % (DESIGN CHOICE). -/
def Hw.battFaulty (h : Hw) (f : BattFault) : Bool :=
  let t := h.chgFn.target
  let trickle := h.phaseValues t 1
  match f with
  | .rise a b i => a * 102 < b * 100 && i < trickle.amps
  | .over v => (h.phaseValues t 4).volts * 103 < v * 100
  | .lvOpen v => t = 1 && v < 1000 && h.lv.regSince.isSome
  | .low v i held => v * 2 < trickle.volts && trickle.amps ≤ i && 60 * sTicks ≤ held
  | .drop a b i j => b * 100 < a * 90 && 50 * absI (j - i) ≤ absI i

/-- CHG_BATT_FAULT (R227): suspension, or reduction. -/
def Hw.battFault (h : Hw) (f : BattFault) : Hw :=
  if h.chg.state != .flow || h.chgFn.exports || !h.battFaulty f then h
  else if f.missing then
    (let h1 := h.raiseOnce fltChgBattMissing 0xFF
     if h.par 0x0808 = 0 then h1.chgSuspend fltChgBattMissing.code 4 else { h1 with chg := { h1.chg with missing := true } })
  else
    let h1 := h.raiseOnce fltChgBattShorted 0xFF
    if h.par 0x0809 = 0 then h1.chgSuspend fltChgBattShorted.code 4
    else
      let h2 : Hw := { h1 with chg := { h1.chg with shorted := true } }
      match h2.chg.phase with
      | some p => if p.phase = 1 then h2 else (h2.chgEndPhase 4).enterPhase p.target 1 0 false
      | none => h2

/-- CHG_BATT_FAULT (R227). -/
def execChgBattFault (f : BattFault) (s : State) : Host.Outcome State Fault Refusal := onHw (fun h => h.battFault f) s

/-- The band of a battery temperature with its thresholds moved inwards by `inner` (R228). -/
def tempBand (window : Nat) (inner : Int) (t : Option Int) : Nat :=
  let th (i : Nat) : Int := asInt 2 (window / 2 ^ (16 * i) % 2 ^ 16)
  match t with
  | none => 2
  | some x => if x < th 0 + inner || th 3 - inner < x then 2 else if x < th 1 + inner || th 2 - inner < x then 1 else 0

/-- The battery temperature of a target (R208): from the BMS, or for the LV battery from the input of CHG_LV_TEMP_INPUT; one that has
been missing for 5 s is unknown. -/
def Hw.battTemp (h : Hw) (target : Nat) : Option Int :=
  if target = 1 && h.par 0x080E != 0 then h.chg.probe.bind (fun p => if h.time.clock < p.2 + 5 * sTicks then some p.1 else none)
  else (if target = 0 then h.chg.battHv else h.chg.battLv).bind (fun s =>
    if h.time.clock < s.at' + 6 * sTicks then s.temp else none)

/-- The reading of the LV battery's temperature input is kept with its time. -/
def Hw.seeProbe (h : Hw) (probe : Option Int) : Hw :=
  match probe with
  | some t => { h with chg := { h.chg with probe := some (t, h.time.clock) } }
  | none => h

/-- CHG_TEMP_WINDOW (R228): a worse band acts at once; the return waits for 10 s at 2 K inside the next band. -/
def Hw.tempWindow (h : Hw) (t : Option Int) : Hw :=
  let w := if h.chgFn == .topup then h.par 0x080C else h.par 0x080B
  let now := tempBand w 0 t
  let inner := tempBand w 200 t
  if !((h.chg.state == .flow && !h.chgFn.exports) || (h.chg.state == .suspended && h.chg.suspendedBy == fltChgTempWindow.code))
  then h
  else if h.chg.band < now then
    let h1 := ({ h with chg := { h.chg with band := now, bandAt := none } } : Hw).occur fltChgTempWindow 0xFF
    if now = 2 && h.par 0x080A = 0 then h1.chgSuspend fltChgTempWindow.code 5 else h1
  else if inner < h.chg.band then
    let since := h.chg.bandAt.getD h.time.clock
    if since + 10 * sTicks ≤ h.time.clock then
      let h1 : Hw := { h with chg := { h.chg with band := inner, bandAt := none } }
      if h.chg.state == .suspended then h1.chgUnsuspend else h1
    else { h with chg := { h.chg with bandAt := some since } }
  else { h with chg := { h.chg with bandAt := none } }

/-- CHG_TEMP_WINDOW (R228). -/
def execChgTempWindow (probe : Option Int) (s : State) : Host.Outcome State Fault Refusal :=
  onHw (fun h => (h.seeProbe probe).tempWindow ((h.seeProbe probe).battTemp h.chgFn.target)) s

/-! ## DC boost -/

/-- A winding's inductance reaches DCB_L_MIN (R222): V D T / dI in mV, 0.1 %, ticks and mA against nH. -/
def inductanceOk (v : Int) (duty period lmin : Nat) (span : Int) : Bool := 400 * (lmin : Int) * span ≤ v * duty * period

/-- DCB_INDUCTANCE_CHECK (R220, R222). -/
def Hw.inductance (h : Hw) (spans : List Int) (duty : Nat) : Hw :=
  if h.chg.dcb != .testing || h.time.clock < h.chg.dcbAt + 10 * msTicks then h
  else if spans.all (inductanceOk h.chg.inlet duty (pwmPeriod (h.par 0x080F)) (h.par 0x0810)) then
    ({ h with chg := { h.chg with dcb := .running, startReq := none, limitAt := h.time.clock } } : Hw).completeOpt
      h.chg.startReq .done
  else
    let h1 := h.raiseOnce fltDcbInductance 0xFF
    ({ h1 with chg := { h1.chg with startReq := none, limit := 0 } } : Hw).boostEnding.completeOpt
      h.chg.startReq .aborted

/-- DCB_INDUCTANCE_CHECK (R222). -/
def execDcbInductanceCheck (spans : List Int) (duty : Nat) (s : State) : Host.Outcome State Fault Refusal :=
  onHw (fun h => h.inductance spans duty) s

/-- Current that makes torque in DC boost (R225): beyond zero-sequence by more than 5 % of the star point's, or a torque estimate above 2 %
of the CONFIG peak, for 10 ms. -/
def Hw.boostTorque (h : Hw) (b : Bridge) (stray star torque : Int) (held : Nat) : Bool :=
  10 * msTicks ≤ held && (5 * absI star < 100 * absI stray || 2 * h.peak b < 100 * absI torque)

/-- DCB_END_EVENT (R225, R397): an event whose condition holds ends the boost as its row states. -/
def Hw.dcbEnd (h : Hw) (e : DcbEvent) : Hw :=
  let live := h.chg.dcb == .testing || h.chg.dcb == .running || h.chg.dcb == .inletClosed
  if !live then h
  else match e with
    | .sourceLow => if heldFor h.chg.halfAt msTicks h.time.clock then
        h.occurThen fltDcbSourceLost fltDcbSourceLost.cls 0xFF Hw.boostLost else h
    | .ratio => if h.pwr.vdc - 50000 < h.chg.inlet then h.occurThen fltDcbRatio fltDcbRatio.cls 0xFF Hw.boostLost else h
    | .pilotOrPlug => if h.chg.cp.asks && h.chg.pp.plugged then h else h.boostLost
    | .torque b stray star torque held => if h.boostTorque b stray star torque held then
        h.occurThen fltDcbTorque .arrest 0xFF (fun x => x.boostAbort fltDcbTorque.code) else h
    | .bridgeArrest b => h.faultSafe b false
    | .partnerLeftOpen => h.boostAbort 0

/-- DCB_END_EVENT (R225). -/
def execDcbEndEvent (e : DcbEvent) (s : State) : Host.Outcome State Fault Refusal := onHw (fun h => h.dcbEnd e) s

/-- DCB_CONTACTOR_WELD (R224): the inlet has not fallen below 60 V within 100 ms. -/
def Hw.contactorWeld (h : Hw) (ch33 : Int) : Hw :=
  let h1 : Hw := { h with chg := { h.chg with inlet := ch33 } }
  if h.chg.dcb != .checking || h.time.clock < h.chg.dcbAt + 100 * msTicks then h
  else if ch33 < 60000 then h1.boostDone
  else
    let h2 := h1.raiseOnce fltDcbContactorWeld 0xFF
    h2.boostDone

/-- DCB_CONTACTOR_WELD (R224). -/
def execDcbContactorWeld (ch33 : Int) (s : State) : Host.Outcome State Fault Refusal := onHw (fun h => h.contactorWeld ch33) s

/-- BASE_CAMP_CHARGE_HOLD_EXPIRY (R234): a BASE_CAMP charge that no MODE_REQUEST took over drains. -/
def Hw.chargeHoldEnd (h : Hw) : Hw :=
  match h.mode.chargeHoldBy with
  | none => h
  | some t =>
    if h.time.clock < t then h
    else ({ h with mode := { h.mode with chargeHoldBy := none } } : Hw).drainCharge

/-- BASE_CAMP_CHARGE_HOLD_EXPIRY (R234). -/
def execBaseCampChargeHoldExpiry (s : State) : Host.Outcome State Fault Refusal := onHw Hw.chargeHoldEnd s

end Sys2Proof.Machine
end

