-- ==== Sys2Proof/Machine/Learn.lean ====
section
/-!
DEFINITION. Machine/Learn.lean: HARMONIC_LEARN (R93): the revolutions of a resolver, the fit of each, the acceptance of their average and
the table it gives.
-/
namespace Sys2Proof.Machine

/-- The 16 pairs (a_k, b_k) of a table in 0.01 arcmin, zeros where none is in force (R93). -/
def HarmTable.coefficients (t : HarmTable) : List Int :=
  let half (c : Option (BitVec 256)) : List Int :=
    (List.range 16).map (fun i => match c with | some x => (x.extractLsb' (16 * i) 16).toInt | none => 0)
  half t.low ++ half t.high

/-- Sines and cosines of harmonics 1 to 16 of an angle, in the order of the coefficients, times 2^15. -/
def harmonics (theta : W32) : List Int :=
  (List.range 16).flatMap (fun k =>
    let x := theta * BitVec.ofNat 32 (k + 1)
    [Config.sine x, Config.sine (x + 0x40000000)])

/-- Sum of products of two lists. -/
def dot (x y : List Int) : Int := (x.zip y).foldl (fun s p => s + p.1 * p.2) 0

/-- Angle and deviation in 0.01 arcmin of the points of a revolution of `d` ticks from the straight line in module time through its
ends (R93). -/
def deviations (points : List (Int × Int)) (d : Int) : List (W32 × Int) :=
  points.map (fun p =>
    let line := (if p.1 < 0 then -4294967296 else 4294967296) * p.2 / d
    (BitVec.ofInt 32 p.1, (p.1 - line) * 2160000 / 4294967296))

/-- The fit of a revolution (R93): for each harmonic twice the mean of deviation times sine and cosine, in 0.01 arcmin x 2^15. -/
def fitOf (points : List (W32 × Int)) : List Int :=
  let n : Int := max points.length 1
  (points.foldl (fun (s : List Int) p => (s.zip (harmonics p.1)).map (fun q => q.1 + p.2 * q.2)) (List.replicate 32 0)).map
    (fun s => 2 * s / n)

/-- A revolution qualifies (R93): 500 to 6000 rpm, and a duration within 0.2 % of the one before. -/
def qualifies (before : Option Nat) (d : Nat) : Bool :=
  4000000 ≤ d && d ≤ 48000000 &&
  (match before with | some p => absI ((d : Int) - p) * 1000 < 2 * (p : Int) | none => false)

/-- A revolution of some ticks ends. -/
def Learn.revolution (l : Learn) (d : Nat) : Learn :=
  if qualifies l.before d && l.count < 64 then
    let p := deviations l.points d
    let sums := if l.sums.isEmpty then List.replicate 32 0 else l.sums
    { l with before := some d, count := l.count + 1, sums := (sums.zip (fitOf p)).map (fun q => q.1 + q.2)
             kept := (p :: l.kept).take 16 }
  else { l with before := some d }

/-- One more built angle of a resolver, corrected and mechanical, with the one before it (R93): a passage through 0 ends a revolution
and begins the next. -/
def Learn.step (l : Learn) (old new : W32) (oldAt newAt : W64) : Learn :=
  let d := angleDiff new old
  let back : Bool := d < 0
  let dt : Int := (newAt - oldAt).toNat
  let rest : Int := if back then old.toNat else 4294967296 - old.toNat
  let crossed : Bool := d != 0 && rest ≤ absI d
  let at0 : W64 := if crossed then oldAt + BitVec.ofInt 64 (dt * rest / absI d) else newAt
  let l1 := if crossed then
      (match l.start with
       | some s => { (l.revolution (at0 - s).toNat) with start := some at0, points := [] }
       | none => { l with start := some at0, points := [] })
    else l
  match l1.start with
  | some s =>
    let way : Int := if back then (new.toNat : Int) - 4294967296 else new.toNat
    { l1 with points := l1.points ++ [(way, ((newAt - s).toNat : Int))] }
  | none => l1

/-- The average fit of 64 revolutions, in 0.01 arcmin. -/
def Learn.average (l : Learn) : List Int := l.sums.map (fun s => s / (64 * 32768))

/-- The result is accepted (R93): over the last 16 qualifying revolutions the residual after correction is at most 1.0 arcmin rms. -/
def Learn.accepted (l : Learn) : Bool :=
  let c := l.average
  let points := l.kept.flatten
  let left (p : W32 × Int) : Int := p.2 - dot c (harmonics p.1) / 32768
  points.foldl (fun s p => s + left p * left p) 0 ≤ 10000 * (points.length : Int)

/-- Coefficients of 16 bits each, the first lowest. -/
def packHalf (l : List Int) : BitVec 256 :=
  BitVec.ofNat 256 ((l.map (fun c => (BitVec.ofInt 16 (clampI (-32768) 32767 c)).toNat)).foldr (fun c s => c + 65536 * s) 0)

/-- The learned table (R93): what the correction in force leaves is added to it. -/
def Learn.table (l : Learn) (old : HarmTable) : HarmTable :=
  let c := (old.coefficients.zip l.average).map (fun p => p.1 + p.2)
  { low := some (packHalf (c.take 16)), high := some (packHalf (c.drop 16)) }

end Sys2Proof.Machine
end

