-- ==== Sys2Proof/Machine/Gate.lean ====
section
/-!
DEFINITION. Machine/Gate.lean: the PWM period, dead time and slope of the traction bridges, and what the drivers and the leg
interlock report (R152-R175), with the bootstrap drives of the converter and the actuators (R169, R170, R190, R246).
-/
namespace Sys2Proof.Machine

/-! ## The PWM period (R152-R155, R160, R162, R163, R332) -/

/-- A nanosecond in steps of 78.125 ps, times 5: 12.8 steps. -/
abbrev nsSteps5 : Nat := 64

/-- A dead time after one more edge (R155): toward t_off + DT_MARGIN by at most 2.5 ns, within 40 to 400 ns. -/
def nextDead (dead target : Nat) : Nat :=
  max 512 (min 5120 (if dead < target then min target (dead + 32) else max target (dead - 32)))

/-- Drive strength after one more edge (R162): a step down above the band, a step up below it. -/
def nextStrength (s slope low high : Nat) : Nat := if high < slope then max 1 (s - 1) else if slope < low then min 8 (s + 1) else s

/-- The slope is out of the band with the strength at that end (R163). -/
def outAtEnd (s slope low high : Nat) : Bool := (s = 1 && high < slope) || (s = 8 && slope < low)

/-- One edge kind after one more edge of it: at the sixteenth that would take longer than 400 ns the dead time is held there (R155). -/
def EdgeKind.step (k : EdgeKind) (target slope low high : Nat) : EdgeKind :=
  let long := if 5120 < target then min (k.long + 1) 16 else 0
  { k with dead := if long = 16 then 5120 else nextDead k.dead target
           strength := nextStrength k.strength slope low high, long := long
           off := if outAtEnd k.strength slope low high then min (k.off + 1) 1000 else 0 }

/-- The current bin of a phase current in mA (R155). -/
def currentBin (i : Int) : Nat :=
  ([2000, 10000, 40000, 100000, 250000, 500000, 1000000].filter (fun x => decide (x ≤ absI i))).length

/-- Current bins of the legs of a bridge, by the phase currents of the period that has ended (R155). -/
def Hw.currentBins (h : Hw) (b : Bridge) : List Nat :=
  let i := h.phaseCurrents b
  [currentBin i.1, currentBin i.2.1, currentBin i.2.2]

/-- The edge kind of an edge of the period that ended: leg, direction, and the bin set when that period began. -/
def Hw.edgeIndex (h : Hw) (b : Bridge) (e : EdgeMeas) : Nat :=
  16 * e.leg.val + (if e.rising then 8 else 0) + (h.gate b).bins.getD e.leg.val 0

/-- The dead time an edge kind has (R155, R156, R176): 200 ns in BASE_CAMP, DT_FIXED, or adapted; the output stage's own delay of 40
to 46 ns governs where it is longer. -/
def Hw.deadTime (h : Hw) (b : Bridge) (k : EdgeKind) : Nat :=
  let fixed := h.par (perBridge 0x0606 b)
  let dead := if h.mode.mode == .baseCamp then 2560 else if fixed = 0 then k.dead else fixed * nsSteps5 / 5
  max dead (512 + Config.stageDelay h.free % 77)

/-- The S2-S5 strength an edge kind has in A (R162, R176). -/
def Hw.driveStrength (h : Hw) (k : EdgeKind) : Nat := if h.mode.mode == .baseCamp then 4 else k.strength

/-- The eight segments of a transition of an edge kind (R162), as the step after the command at which each ends and its strength in
A, from the timing of the previous edge of the kind: S0 and S1 to the start of the voltage transition and S6 and S7 after it at 8 A,
S2-S5 over it at the kind's strength. How S0 and S1, S2 to S5, and S6 and S7 divide their stretches is the model's (DESIGN CHOICE). -/
def Hw.segments (h : Hw) (k : EdgeKind) : List (Nat × Nat) :=
  let s := h.driveStrength k
  [(k.start / 2, 8), (k.start, 8), (k.start + k.width / 4, s), (k.start + k.width / 2, s), (k.start + 3 * k.width / 4, s),
   (k.start + k.width, s), (k.start + 3 * k.width / 2, 8), (k.start + 2 * k.width, 8)]

/-- The slope of an edge in 0.01 V/ns (R162): 0.8 x VDC over t_10-90. -/
def Hw.slopeOf (h : Hw) (e : EdgeMeas) : Nat := h.pwr.vdc.toNat * 1024 / (1000 * max e.rise 1)

/-- A fault of a leg follows whether some edge kind of the leg asks for it. -/
def Hw.kindFault (h : Hw) (b : Bridge) (leg : Nat) (f : FaultId) (bad : EdgeKind → Bool) : Hw :=
  let src := BitVec.ofNat 8 (3 * b.code + leg)
  if (h.gate b).edges.any (fun p => p.1 / 16 = leg && bad p.2) then h.raiseOnce f src else h.clearFault f.code src

/-- What an edge kind becomes with one more edge: with DT_FIXED only the strength adapts, in BASE_CAMP neither (R155, R162, R176). -/
def Hw.edgeNext (h : Hw) (b : Bridge) (k : EdgeKind) (e : EdgeMeas) : EdgeKind :=
  let band := h.par (perBridge 0x0608 b)
  let k0 := { k with usedDead := h.deadTime b k, usedStrength := h.driveStrength k, start := e.start, width := e.rise * 5 / 4 }
  let k1 := k0.step (e.tOff + h.par 0x0605 * nsSteps5 / 5) (h.slopeOf e) (band % 256 * 100) (band / 256 * 100)
  if h.mode.mode == .baseCamp then k0
  else if h.par (perBridge 0x0606 b) = 0 then k1 else { k1 with dead := k.dead, long := 0 }

/-- One edge of the period that ended. -/
def Hw.edgeStep (h : Hw) (b : Bridge) (e : EdgeMeas) : Hw :=
  let n := h.edgeIndex b e
  let k := h.edgeNext b ((h.gate b).edges.get n {}) e
  let h1 := h.modGate b (fun g => { g with edges := g.edges.set n k })
  (h1.kindFault b e.leg.val fltDeadtimeLimit (fun x => 16 ≤ x.long)).kindFault b e.leg.val fltDvdtOutOfBand
    (fun x => 1000 ≤ x.off)

/-- Every edge of the period that ended. -/
def Hw.edgeSteps (h : Hw) (b : Bridge) (edges : List EdgeMeas) : Hw := edges.foldl (fun x e => x.edgeStep b e) h

/-! ## Volt-seconds (R154) -/

/-- Steps for which a leg's node was high in a period of so many, by its transitions; none where it made none. -/
def highSteps (leg steps : Nat) (edges : List EdgeMeas) : Option Nat :=
  match edges.filter (fun e => e.leg.val == leg) with
  | [] => none
  | e :: l =>
    let last := (e :: l).foldl (fun (x : Bool × Nat × Nat) y => (y.rising, y.at', if x.1 then x.2.2 + (y.at' - x.2.1) else x.2.2))
      (!e.rising, 0, 0)
    some (if last.1 then last.2.2 + (steps - last.2.1) else last.2.2)

/-- What the command of a leg exceeds the applied volt-seconds of the period that ended by, uV x ticks (R154); a leg without a
transition has timed none and owes nothing. -/
def Hw.voltSeconds (h : Hw) (b : Bridge) (leg : Nat) (edges : List EdgeMeas) : Int :=
  let steps := 32 * (h.ctl b).periodLen
  match highSteps leg steps edges with
  | some n => if (h.ctl b).state.inService then (h.gate b).vsCommand.getD leg 0 - h.pwr.vdc * 1000 * (2 * (n : Int) - steps) / 64 else 0
  | none => 0

/-- A PWM-class write may take effect at this period start: no fixed CONTROL_AB boundary lies ahead (R153, R444). -/
def Hw.pwmFree (h : Hw) : Bool := match h.sh.fixedAB with | some t => decide (t.toNat ≤ h.time.now.toNat) | none => true

/-- The length of the period that starts now: stretched, placed ahead, drawn, or nominal. -/
def Hw.nextLength (h : Hw) (b : Bridge) : Nat :=
  let g := h.gate b
  match g.stretch with
  | some (_, l) => l
  | none => match g.plan with
    | l :: _ => l
    | [] => if h.randomOn b then (h.drawMany b 0 1).headD (h.nominalPeriod b) else h.nominalPeriod b

/-- The channels whose offset a run of a bridge finds, as `offsetNext` lists them: CH6 stands at 6 for A and at 22 for B. -/
def offsetChannels (b : Bridge) : List Nat := if b == .brA then [0, 1, 2, 6] else [3, 4, 5, 22]

/-- The traction legs of a bridge. -/
def bridgeLegs (b : Bridge) : List Nat := if b == .brA then [0, 1, 2] else [3, 4, 5]

/-- Corrections of R70 and R71 that wait for the PWM boundary of their bridge. -/
def Hw.takeCorrections (h : Hw) (b : Bridge) : Hw :=
  let s := h.sen
  let chans := offsetChannels b
  let legs := bridgeLegs b
  let offs := s.offsetNext.filter (fun p => chans.contains p.1)
  let gains := s.gainNext.filter (fun p => legs.contains p.1)
  { h with sen := { s with offset := offs.foldl (fun a p => Tab.set a (if p.1 = 22 then 6 else p.1) p.2) s.offset
                           offsetNext := s.offsetNext.filter (fun p => !chans.contains p.1)
                           gain := gains.foldl (fun a p => Tab.set a p.1 p.2) s.gain
                           gainNext := s.gainNext.filter (fun p => !legs.contains p.1) } }

/-- The carrier interleave is kept (R396): on the SECOND, with PAIR_INTERLEAVE at 1, outside DC boost. -/
def Hw.interleaved (h : Hw) : Bool :=
  h.roped && h.pair.partner && !h.pair.lead && h.par 0x0F04 == 1 && !h.boosting && (h.mode.mode == .drive || h.mode.mode == .belay)

/-- A PWM period starts (R152-R154): the volt-seconds owed join the command of the period that begins; an interleaved SECOND corrects its carrier by at most one tick (R396). -/
def Hw.pwmPeriod (h : Hw) (b : Bridge) (edges : List EdgeMeas) : Hw :=
  if h.mode.phase != .up || !h.powered (5 + b.code) then h
  else
    let h1 := h.edgeSteps b edges
    let vs := (List.range 3).map (fun k => h.voltSeconds b k edges)
    let h2 := if h1.pwmFree then
        (h1.modGate b (fun g => { g with plan := [] })).applyWaiting [if b == .brA then .pwmA else .pwmB]
      else h1
    let trim : Int := if b == .brA && h2.interleaved then (if 0 < h2.pair.ilv then 1 else if h2.pair.ilv < 0 then -1 else 0) else 0
    let len := ((h2.nextLength b : Int) - trim).toNat
    let drew := (h2.gate b).stretch.isNone && (h2.gate b).plan.isEmpty && h2.randomOn b
    let h3 := h2.modGate b (fun g => { g with vs := vs, vsCommand := vs, bins := h.currentBins b, stretch := none, plan := g.plan.drop 1 })
    let h4 := ((h3.modCtl b (fun c => { c with periodStart := h.time.now, periodLen := len })).takeCorrections b).periodLatch b.code
    let h5 := if trim = 0 then h4
      else ({ h4 with pair := { h4.pair with ilv := h4.pair.ilv - trim } } : Hw).count 0x0C6 1
    if drew then h5.drawn else h5

/-- PWM_PERIOD_START (R152). -/
def execPwmPeriodStart (b : Bridge) (edges : List EdgeMeas) (s : State) : Host.Outcome State Fault Refusal :=
  onHw (fun h => h.pwmPeriod b edges) s

/-! ## Leg interlock (R157, R158) -/

/-- Times of cross-commands within the last millisecond with one more; the third within it. -/
def xcmdTimes (old : List Nat) (clock : Nat) : List Nat := clock :: (old.filter (fun t => decide (clock < t + msTicks))).take 2

/-- Ticks to the end of the half-period in progress on a time base (R157). -/
def Hw.halfLeftOn (h : Hw) (base : Nat) : Nat :=
  let p : W64 × Nat := if base = 0 then (h.ctlA.periodStart, h.ctlA.periodLen)
    else if base = 1 then (h.ctlB.periodStart, h.ctlB.periodLen) else h.sen.starts.get base (0, 0)
  halfLeft p.1 p.2 h.time.now

/-- A leg has both switches forced off (R157). -/
def legForced (forced : Tab Nat) (leg clock : Nat) : Bool := decide (clock < forced.get leg 0)

/-- A traction leg. -/
def Hw.xcmdTraction (h : Hw) (leg : Nat) : Hw :=
  let b : Bridge := if leg < 3 then .brA else .brB
  let src := BitVec.ofNat 8 leg
  let times := xcmdTimes (h.gate b).xcmdAt h.time.clock
  let third : Bool := decide (3 ≤ times.length)
  let g (g : Gate) : Gate :=
    { g with forced := g.forced.set (leg % 3) (h.time.clock + h.halfLeftOn b.code), legXcmd := true, xcmdAt := if third then [] else times }
  let h1 := ((h.modGate b g).count (0x05C + leg) 1).occur fltModLegXcmd src
  if third then h1.occurThen fltModLegXcmdRepeat (h1.bridgeClass b) src (fun x => x.faultSafe b false) else h1

/-- A converter or isolated-cell leg: the third event stops every leg of the converter, a failed attempt (R158, R184). -/
def Hw.xcmdConverter (h : Hw) (leg : Nat) : Hw :=
  let src := BitVec.ofNat 8 leg
  let times := xcmdTimes h.lv.xcmdAt h.time.clock
  let third : Bool := decide (3 ≤ times.length)
  let forced := h.lv.forced.set leg (h.time.clock + h.halfLeftOn 2)
  let h1 := ({ h with lv := { h.lv with xcmdAt := if third then [] else times, forced := forced } } : Hw).count 0x062 1
    |>.occur fltModLegXcmd src
  if !third then h1
  else
    h1.occurThen fltModLegXcmdRepeat .warn src (fun x => if x.lv.active then
      ({ x with lv := { x.lv with cellsUp := false } } : Hw).lvFailed false else x)

/-- An actuator leg: the third event turns the drive off (R247). -/
def Hw.xcmdActuator (h : Hw) (leg : Nat) : Hw :=
  let src := BitVec.ofNat 8 leg
  let i := (leg - 0x20) / 3
  let times := xcmdTimes (h.act.xcmdAt.get i []) h.time.clock
  let third : Bool := decide (3 ≤ times.length)
  let forced := h.act.forced.set leg (h.time.clock + h.halfLeftOn (3 + i))
  let h1 := ({ h with act := { h.act with xcmdAt := h.act.xcmdAt.set i (if third then [] else times), forced := forced } } : Hw).count 0x063 1
    |>.occur fltModLegXcmd src
  if third then h1.occurThen fltModLegXcmdRepeat .warn src (fun x => x.endDrive i .off .hwFault) else h1

/-- LEG_CROSS_COMMAND (R157), by the source byte of the leg (R358). -/
def execLegCrossCommand (leg : Fin 64) (s : State) : Host.Outcome State Fault Refusal :=
  onHw (fun h =>
    let n := leg.val
    if n < 6 then h.xcmdTraction n
    else if (0x10 ≤ n && n < 0x20) || 0x30 ≤ n then h.xcmdConverter n
    else if 0x20 ≤ n && n < 0x29 then h.xcmdActuator n
    else h) s

/-! ## Desaturation (R164, R165) -/

/-- Bridge and place in it of a switch position. -/
def posBridge (p : Nat) : Bridge := if p < 6 then .brA else .brB
def posBit (p : Nat) : BitVec 6 := 1#6 <<< (p % 6)

/-- A high side of a bridge counts as shorted: ASC_INHIBIT (R175). -/
def Hw.checkInhibit (h : Hw) (b : Bridge) : Hw :=
  let g := h.gate b
  if g.shorts &&& highSides != 0 && !g.ascInhibit then
    (h.modGate b (fun g => { g with ascInhibit := true })).occur fltStoAscInhibit (BitVec.ofNat 8 b.code)
  else h

/-- Gate voltage in mV of a position in soft turn-off (R164): SOFT_OFF_LEVEL for SOFT_OFF_HOLD, then -4 V. -/
def Gate.softLevel (g : Gate) (place clock : Nat) : Option Int :=
  (g.soft.find place).map (fun x => if clock < x.2 then x.1 else -4000)

/-- DESAT_REPORT (R164, R165): the switch is turned off softly, its partner is suspect, the bridge takes its ARREST pattern, and a
second report on one position in a wake is GATE_DESAT_REPEAT. -/
def Hw.desatReport (h : Hw) (p : Nat) : Hw :=
  let b := posBridge p
  let src := BitVec.ofNat 8 p
  let n := (h.gate b).desat.get (p % 6) 0 + 1
  let partner := posBit (if p % 2 = 0 then p + 1 else p - 1)
  let hold := h.time.clock + h.par 0x060D * 2 / 5
  let g (g : Gate) : Gate := { g with suspect := g.suspect ||| partner, desat := g.desat.set (p % 6) n
                                      soft := g.soft.set (p % 6) (h.parI 0x060C, hold) }
  let h1 := (((h.modGate b g).count (0x050 + p) 1).checkInhibit b)
  let h2 := h1.occurThen fltGateDesat (h1.bridgeClass b) src (fun x => x.faultSafe b false)
  if 2 ≤ n then h2.raiseOnce fltGateDesatRepeat src else h2

/-- DESAT_REPORT (R164, R165). -/
def execDesatReport (pos : Fin 12) (s : State) : Host.Outcome State Fault Refusal := onHw (fun h => h.desatReport pos.val) s

/-! ## Gate rails (R161) -/

/-- A rail is under voltage after a report (R161): +18 V below 15.0 V until it reaches 16.0 V, -4 V weaker than -2.5 V until it
reaches -3.0 V. -/
def railLow (neg was : Bool) (mv : Int) : Bool :=
  if neg then (if was then -3000 < mv else -2500 < mv) else (if was then mv < 16000 else mv < 15000)

/-- A rail is over voltage (R161): +18 V above 20.0 V, -4 V beyond -6.0 V. -/
def railHigh (neg : Bool) (mv : Int) : Bool := if neg then mv < -6000 else 20000 < mv

/-- A bit of a mask set or cleared. -/
def putBit (m bit : BitVec 6) (on : Bool) : BitVec 6 := if on then m ||| bit else m &&& ~~~ bit

/-- The UVLO comparators of a position's rails after a report. -/
def Gate.seeUvlo (g : Gate) (bit : BitVec 6) (neg : Bool) (mv : Int) : Gate :=
  if neg then { g with uvloNeg := putBit g.uvloNeg bit (railLow true (g.uvloNeg &&& bit != 0) mv) }
  else { g with uvloPos := putBit g.uvloPos bit (railLow false (g.uvloPos &&& bit != 0) mv) }

/-- GATE_UVLO_REPORT (R161): with a rail under voltage the position counts as open, and the bridge takes its ARREST pattern. -/
def Hw.gateUvlo (h : Hw) (p : Nat) (neg : Bool) (mv : Int) : Hw :=
  let b := posBridge p
  let src := BitVec.ofNat 8 p
  let h1 := h.modGate b (fun g => g.seeUvlo (posBit p) neg mv)
  if (h1.gate b).uvlo &&& posBit p == 0 then (h1.clearFault fltGateUvlo.code src).refreshSafe b
  else
    let h2 := h1.faultSafe b false
    if h2.faultActive fltGateUvlo.code src then h2 else h2.raiseAs fltGateUvlo (h2.bridgeClass b) src 0 true

/-- GATE_UVLO_REPORT (R161). -/
def execGateUvloReport (pos : Fin 12) (neg : Bool) (mv : Int) (s : State) : Host.Outcome State Fault Refusal :=
  onHw (fun h => h.gateUvlo pos.val neg mv) s

/-- GATE_RAIL_OV_REPORT (R161): GATE_RAIL_OV follows the rails of the position. -/
def Hw.gateOver (h : Hw) (p : Nat) (neg : Bool) (mv : Int) : Hw :=
  let b := posBridge p
  let src := BitVec.ofNat 8 p
  let bit := posBit p
  let h1 := h.modGate b (fun g => if neg then { g with ovNeg := putBit g.ovNeg bit (railHigh true mv) }
    else { g with ovPos := putBit g.ovPos bit (railHigh false mv) })
  if ((h1.gate b).ovPos ||| (h1.gate b).ovNeg) &&& bit == 0 then h1.clearFault fltGateRailOv.code src
  else h1.raiseOnce fltGateRailOv src

/-- GATE_RAIL_OV_REPORT (R161). -/
def execGateRailOvReport (pos : Fin 12) (neg : Bool) (mv : Int) (s : State) : Host.Outcome State Fault Refusal :=
  onHw (fun h => h.gateOver pos.val neg mv) s

/-! ## Die temperatures (R166) -/

/-- The hottest of the dies that read, and the report with every excluded die replaced by it + 5 K. -/
def substituted (l : List (Option Int)) : List (Option Int) :=
  match hottest (l.filterMap id) with
  | some t => l.map (fun x => some (x.getD (t + 500)))
  | none => l

/-- A die lies more than a limit above the mean of the others of its position. -/
def spreads (l : List (Option Int)) (limit : Int) (d : Nat) : Bool :=
  match l.getD d none with
  | none => false
  | some t =>
    let others := ((List.range l.length).filter (fun k => k != d)).filterMap (fun k => l.getD k none)
    !others.isEmpty && limit * (others.length : Int) < t * (others.length : Int) - others.foldl (· + ·) 0

/-- A die fault of a position follows its dies: each that is newly bad raises it, with its place as the argument, and it clears
when none is (R166). -/
def Hw.dieFault (h : Hw) (f : FaultId) (p : Nat) (old bad : List Nat) : Hw :=
  let src := BitVec.ofNat 8 p
  if bad.isEmpty then h.clearFault f.code src
  else bad.foldl (fun x d => if old.contains d && x.faultActive f.code src then x else x.raiseAs f f.cls src (BitVec.ofNat 32 d) true) h

/-- The dies of a position among the places of a bridge's list, and the list with those of the position replaced. -/
def diesAt (l : List Nat) (place : Nat) : List Nat := (l.filter (fun d => d / 8 == place)).map (· % 8)
def putDies (l : List Nat) (place : Nat) (bad : List Nat) : List Nat :=
  l.filter (fun d => d / 8 != place) ++ bad.map (fun d => 8 * place + d)

/-- The position's current has exceeded 100 A rms for 1 s (R166): its leg's, which is that of the bridge's current vector. -/
def Hw.positionLoaded (h : Hw) (p : Nat) : Bool := heldFor (h.ctl (posBridge p)).loadedAt sTicks h.time.clock

/-- DIE_TEMP_REPORT (R166): the temperatures, thermal cycles, and the three faults. -/
def Hw.dieTemps (h : Hw) (p : Nat) (raw : List (Option Int)) : Hw :=
  let b := posBridge p
  let src := BitVec.ofNat 8 p
  let dies := List.range 8
  let seen := substituted raw
  let open' := dies.filter (fun d => (raw.getD d none).isNone)
  let far := if h.positionLoaded p then dies.filter (spreads raw (h.parI 0x060F)) else []
  let store (g : Gate) : Gate :=
    { g with dies := dies.foldl (fun t d => Tab.set t (8 * (p % 6) + d) (seen.getD d none)) g.dies
             badSensor := putDies g.badSensor (p % 6) open', badSpread := putDies g.badSpread (p % 6) far }
  let h1 := dies.foldl (fun x d => match raw.getD d none with | some t => x.rainflow (8 * p + d) t | none => x) (h.modGate b store)
  let h2 := h1.dieFault fltDieSensor p (diesAt (h.gate b).badSensor (p % 6)) open'
  let h3 := h2.dieFault fltDieSpread p (diesAt (h.gate b).badSpread (p % 6)) far
  if raw.any (fun t => match t with | some t => decide (h.parI 0x060E < t) | none => false) then
    let h4 := h3.faultSafe b false
    if h4.faultActive fltDieOvertemp.code src then h4 else h4.raiseAs fltDieOvertemp (h4.bridgeClass b) src 0 true
  else h3.clearFault fltDieOvertemp.code src

/-- DIE_TEMP_REPORT (R166). -/
def execDieTempReport (pos : Fin 12) (t0 t1 t2 t3 t4 t5 t6 t7 : Option Int) (s : State) :
    Host.Outcome State Fault Refusal := onHw (fun h => h.dieTemps pos.val [t0, t1, t2, t3, t4, t5, t6, t7]) s

/-- Positions of bridges at zero current with a die beyond 4 K of the substrate temperature CH73-CH78 of their leg (R168); zero
current is taken as below 1 A, the bound of R70 (DESIGN CHOICE). -/
def Hw.diesAstray (h : Hw) : List Nat :=
  (List.range 12).filter (fun p =>
    let b := posBridge p
    let sub := h.sen.reading.find (73 + p / 2)
    (h.ctl b).iRms < 1000 && (List.range 8).any (fun d =>
      match (h.gate b).dies.get (8 * (p % 6) + d) none, sub with
      | some t, some s => decide (400 < absI (t - s))
      | _, _ => false))

/-! ## Bootstrap drives (R169, R170) -/

/-- Converter legs and actuator legs by source byte. -/
def isConvLeg (n : Nat) : Bool := 0x10 ≤ n && n < 0x20
def isActLeg (n : Nat) : Bool := 0x20 ≤ n && n < 0x29

/-- A bootstrap that reports BOOT_LOW or no longer does (R169); the leg's periods since its last refresh run on. -/
def Boot.report (b : Boot) (low : Bool) (clock : Nat) : Boot :=
  if low && 16 ≤ b.since then { low := true, since := 0, refreshAt := some clock } else { b with low := low }

/-- Commanded states of the high and the low side in a refresh, by ticks since it began (R169): 40 ns off, the low side on for 150 ns,
40 ns off. -/
def refreshSides (ticks : Nat) : Option (Bool × Bool) :=
  if ticks < 16 then some (false, false) else if ticks < 76 then some (false, true) else if ticks < 92 then some (false, false) else none

/-- BOOT_LOW_REPORT (R169): at 10.5 V or below a refresh comes now, or as soon as 16 periods of the leg have passed since its last. -/
def Hw.bootLow (h : Hw) (n : Nat) (mv : Int) : Hw :=
  let low : Bool := mv ≤ 10500
  let t := if isConvLeg n then h.lv.boot else h.act.boot
  let old := t.get n {}
  let new := old.report low h.time.clock
  let h1 : Hw := if isConvLeg n then { h with lv := { h.lv with boot := t.set n new } } else { h with act := { h.act with boot := t.set n new } }
  let h2 := if low && 16 ≤ old.since then h1.count 0x09D 1 else h1
  if low && !old.low then h2.occur fltBootLow (BitVec.ofNat 8 n) else h2

/-- BOOT_LOW_REPORT (R169). -/
def execBootLowReport (leg : Fin 64) (mv : Int) (s : State) : Host.Outcome State Fault Refusal :=
  onHw (fun h => if isConvLeg leg.val || isActLeg leg.val then h.bootLow leg.val mv else h) s

/-- A drive whose high side locks recharges with all low sides on, and holds them on at the second event in 10 ms (R246). -/
def Hw.bootDrive (h : Hw) (i : Nat) : Hw :=
  let d := h.act.drive i
  let second := match d.uvloAt with | some t => decide (h.time.clock ≤ t + 10 * msTicks) | none => false
  let h1 := h.modDrive i (fun d => { d with uvloAt := some h.time.clock, lowUntil := h.time.clock + 20 * usTicks })
  if second && (d.busy || d.state == .hold) then 
    h1.occurThen fltActBoot fltActBoot.cls (BitVec.ofNat 8 i) (fun x => x.endDrive i .lowSides .hwFault) else h1

/-- The high side of a leg is locked off after a report (R170): from 8.5 V until the bootstrap is above 9.5 V. -/
def bootLocks (was : Bool) (mv : Int) : Bool := if was then mv ≤ 9500 else mv ≤ 8500

/-- The lock of a converter leg; the time its bootstrap is back runs from the release (R190). -/
def Hw.lockConv (h : Hw) (n : Nat) (on : Bool) : Hw :=
  let bit := 1#16 <<< (n - 0x10)
  let was := h.lv.locked.getLsbD (n - 0x10)
  { h with lv := { h.lv with locked := if on then h.lv.locked ||| bit else h.lv.locked &&& ~~~ bit
                             bootOkAt := if on then h.lv.bootOkAt.del n else if was then h.lv.bootOkAt.set n h.time.clock else h.lv.bootOkAt } }

/-- The lock of an actuator leg. -/
def Hw.lockAct (h : Hw) (n : Nat) (on : Bool) : Hw :=
  let bit := 1#9 <<< (n - 0x20)
  { h with act := { h.act with locked := if on then h.act.locked ||| bit else h.act.locked &&& ~~~ bit } }

/-- BOOT_UVLO_REPORT (R170): the driver's lock, and the owning tile's reaction: the converter takes the phase out at its next
period (R190), a drive recharges (R246). -/
def Hw.bootUvlo (h : Hw) (n : Nat) (mv : Int) : Hw :=
  let src := BitVec.ofNat 8 n
  let was := if isConvLeg n then h.lv.locked.getLsbD (n - 0x10) else h.act.locked.getLsbD (n - 0x20)
  let on := bootLocks was mv
  let h1 := if on then h.raiseOnce fltBootUvlo src else h.clearFault fltBootUvlo.code src
  let h2 := if isConvLeg n then h1.lockConv n on else h1.lockAct n on
  if isActLeg n && on && !was then h2.bootDrive ((n - 0x20) / 3) else h2

/-- BOOT_UVLO_REPORT (R170). -/
def execBootUvloReport (leg : Fin 64) (mv : Int) (s : State) : Host.Outcome State Fault Refusal :=
  onHw (fun h => if isConvLeg leg.val || isActLeg leg.val then h.bootUvlo leg.val mv else h) s

/-! ## STO hardware and comparators (R168, R175) -/

/-- ASC_ARM_TIMEOUT (R175): without a write for 1 ms the hardware sets ASC_ARM. -/
def Hw.ascTimeout (h : Hw) (b : Bridge) : Hw :=
  if (h.gate b).ascArmAt + msTicks ≤ h.time.clock then (h.modGate b (fun g => { g with ascArm := true })).refreshSafe b else h

/-- ASC_ARM_TIMEOUT (R175). -/
def execAscArmTimeout (b : Bridge) (s : State) : Host.Outcome State Fault Refusal := onHw (fun h => h.ascTimeout b) s

/-- A comparator of a bridge has failed (R168): COMPARATOR_FAIL with its number, for each comparator once. -/
def Hw.comparatorFail (h : Hw) (src : Byte) (arg : W32) : Hw :=
  let b := posBridge src.toNat
  if (h.gate b).compFail.contains (src, arg) && h.faultActive fltComparatorFail.code src then h
  else (h.modGate b (fun g => { g with compFail := (src, arg) :: g.compFail.filter (· != (src, arg)) })).raiseAs fltComparatorFail
    fltComparatorFail.cls src arg true

/-- UVLO_COMPARATOR (R168): a failed copy is COMPARATOR_FAIL, with 1 or 2 as its argument. -/
def execUvloComparator (pos : Fin 12) (neg pass : Bool) (s : State) : Host.Outcome State Fault Refusal :=
  onHw (fun h => if pass then h else h.comparatorFail (BitVec.ofNat 8 pos.val) (if neg then 2 else 1)) s

end Sys2Proof.Machine
end

