-- ==== Sys2Proof/Machine/Sensing.lean ====
section
/-!
DEFINITION. Machine/Sensing.lean: accumulators, urgent requests, pair matching, offset and gain tracking, system calibration
and window monitors (R55-R85).
-/
namespace Sys2Proof.Machine

/-! ## Inputs (R56, R57, R59) -/

/-- Block of an input, an accumulator and a monitor: 0 traction, 1 conversion, 2 general (R59). -/
def inputBlock (i : Nat) : Nat := if i < 8 then 0 else if i < 40 then 1 else 2
def accBlock (a : Nat) : Nat := if a < 48 then 0 else if a < 80 then 1 else 2
def monBlock (m : Nat) : Nat := if m < 24 then 0 else if m < 36 then 1 else 2

/-- A core serves an input (R56, R57): both cores of the pair of a traction input, the core that a conversion input is listed
for and, interleaved, its partner, and the general cores. -/
def serves (core input : Nat) (paired : Bool) : Bool :=
  if input < 8 then core / 2 = input
  else if input < 40 then
    let own := 16 + (input - 8) / 4
    core = own || (paired && core / 2 = own / 2)
  else 24 ≤ core

/-! ## ACC_SET (R60, R61) -/

/-- A configuration as ACC_SET writes it. -/
def accConfig (d : Desc) : AccCfg :=
  { input := d.num 17 1, closure := d.num 18 1, base := d.num 19 1, gate := d.num 20 1, gateArg := d.byte 21,
    paired := d.num 22 1 == 1 || d.num 17 1 < 8, length := d.num 24 4, delay := d.int 28 2, run := d.num 30 1 == 1 }

/-- Ticks between samples: 50 ns interleaved, 100 ns from one core (R55, R56). -/
def AccCfg.spacing (c : AccCfg) : Nat := if c.paired then 20 else 40

/-- The length suits the closure, with at least four samples to a window (R60, R61). -/
def AccCfg.lengthOk (c : AccCfg) : Bool :=
  if c.closure = 2 then 4 * c.spacing ≤ c.length
  else if c.closure = 3 then 4 ≤ c.length && c.length ≤ 16777215
  else c.length == 0

/-- The gate argument suits the gate (R61). -/
def AccCfg.gateOk (c : AccCfg) : Bool :=
  if c.gate = 1 then c.gateArg.toNat ≤ 5 else if c.gate = 2 then c.gateArg &&& 0x78 == 0 else c.gate = 0

/-- The own checks of ACC_SET. A PWM closure needs a PWM time base, a BURST the general block (R60, R64). -/
def accOk (d : Desc) : Bool :=
  let c := accConfig d
  let a := d.num 16 1
  a ≤ 127 && c.input ≤ 95 && accBlock a == inputBlock c.input && c.closure ≤ 4 && c.base ≤ 6 &&
  !(c.closure ≤ 1 && c.base = 6) && !(c.closure = 4 && accBlock a != 2) && c.gateOk && c.lengthOk &&
  (c.input < 8 || d.num 22 1 ≤ 1) && (-1000 : Int) ≤ c.delay && c.delay ≤ 1000 && d.num 30 1 ≤ 1

/-- An accumulator. -/
def Hw.acc (h : Hw) (n : Nat) : Acc := h.sen.accs.get n {}

/-- An accumulator replaced. -/
def Hw.setAcc (h : Hw) (n : Nat) (a : Acc) : Hw := { h with sen := { h.sen with accs := h.sen.accs.set n a } }

/-- The subsystem converts: awake, with P4 and CK5 there (R21, R83). In BIVOUAC only the wake monitors run. -/
def Hw.senses (h : Hw) : Bool := h.mode.phase == .up && h.powered 4 && !h.pwr.senseLost

/-- BASE_CAMP offers no service of sensing or position (R45): such a request completes MODE_DENIED. -/
def Hw.unlessCamp (h : Hw) (q : Req) (own : Hw → Hw) : Hw :=
  if h.mode.mode == .baseCamp then h.complete q .modeDenied else own h

/-- A window is open: configured, running, and a one-shot not yet done. -/
def Acc.open' (a : Acc) : Bool := match a.cfg with | some c => c.run && !a.done | none => false

/-- ACC_SET (R61): at the close of the open window, at once where none is open. -/
def Hw.accSet (h : Hw) (d : Desc) (q : Req) : Hw :=
  if !accOk d then h.complete q .range
  else
    let n := d.num 16 1
    let a := h.acc n
    let c := accConfig d
    (h.setAcc n (if a.open' then { a with next := some c }
      else { a with cfg := some c, next := none, done := false, openAt := h.time.now, burst := false })).complete q .done

/-- ACC_SET (R61). -/
def execAccSet (d : Desc) (s : State) : Host.Outcome State Fault Refusal :=
  onHw (fun h => h.descriptor 0x0301 d (fun q h => h.unlessCamp q (fun h => h.accSet d q))) s

/-! ## Closing a window (R58, R60-R62, R65, R85) -/

/-- A corrected code saturates (R58). -/
def saturate (c : Int) : Int := clampI (-32768) 32767 c

/-- A quotient that falls between two codes takes one of them; which, no rule states. -/
def roundCode (num den : Int) : Int :=
  if num % den = 0 then num / den else if Config.codeUp num den then num / den + 1 else num / den

/-- Gain in units of 2^-30 and offset in 1/16 code of an input under SYSCAL or its overlay; none leaves the code as it is. -/
def syscalOf (body : Option (List Byte)) (input : Nat) : Int × Int :=
  match body with
  | some l => if input < 8 then ((field l (8 * input) 4 : Nat), asInt 2 (field l (8 * input + 4) 2)) else (2 ^ 30, 0)
  | none => (2 ^ 30, 0)

/-- The SYSCAL coefficients in force: the overlay, else the active generation (R58, R347). -/
def Hw.syscalBody (h : Hw) : Option (List Byte) :=
  match h.otp.syscal with
  | some l => some l
  | none => h.otp.body 3

/-- A sample's code with the corrections of R58: TRIM, and except in BASE_CAMP (R83) the matching of the odd core (R67),
SYSCAL, offset tracking and gain tracking; saturated. Matching adds its trims to the code: LSB, and 0.001 % of it. -/
def Hw.corrected (h : Hw) (input core : Nat) (raw : Int) : Int :=
  let x := Config.trim core input raw
  if h.mode.mode == .baseCamp then saturate x
  else
    let p := core / 2
    let odd := core % 2 = 1
    let tg := if odd then h.sen.trimGain.get p 0 else 0
    let tOff := if odd then h.sen.trimOff.get p 0 else 0
    let (gain, off) := syscalOf h.syscalBody input
    let track := if input < 8 then h.sen.offset.get input 0 else 0
    let fine := if input < 6 then h.sen.gain.get input 0 else 0
    saturate (roundCode ((16 * (x * (100000 + tg) + tOff * 100000) - (off + track) * 100000) * gain * (100000 + fine))
      (16 * 100000 * 2 ^ 30 * 100000))

/-- The bridge of a traction leg or phase input. -/
def legBridge (k : Nat) : Bridge := if k < 3 then .brA else .brB

/-- High sides of a bridge among the six legs: U in bit 2, W in bit 0, as the vector gate writes them (R61). -/
def vectorOf (highs : BitVec 6) (b : Bridge) : Nat :=
  let k := 3 * b.code
  bitIf 2 (highs.getLsbD k) + bitIf 1 (highs.getLsbD (k + 1)) + bitIf 0 (highs.getLsbD (k + 2))

/-- The bridge applies a null vector: all high sides alike. -/
def nullVector (highs : BitVec 6) (b : Bridge) : Bool := vectorOf highs b = 0 || vectorOf highs b = 7

/-- The gate of an accumulator is open at a sample (R61). -/
def AccCfg.gateOpen (c : AccCfg) (highs : BitVec 6) : Bool :=
  if c.gate = 1 then highs.getLsbD c.gateArg.toNat
  else if c.gate = 2 then vectorOf highs (if c.gateArg.getLsbD 7 then .brB else .brA) = c.gateArg.toNat % 8
  else true

/-- The odd core of a phase pair is switched to the sensor's reference: an offset run in a null vector of its bridge (R70). -/
def Hw.onReference (h : Hw) (input : Nat) (s : Sample) : Bool :=
  input < 6 && s.core.val % 2 = 1 && h.sen.offRun.getLsbD (legBridge input).code &&
    (h.ctl (legBridge input)).state.inService && nullVector s.highs (legBridge input)

/-- A sample is accumulated: taken by a core that serves the input and has not failed (R57, R68), on the input itself (R70),
with the gate open (R61). -/
def Hw.accumulates (h : Hw) (c : AccCfg) (s : Sample) : Bool :=
  serves s.core.val c.input c.paired && !(h.sen.halfRate.getLsbD (s.core.val / 2) && s.core.val % 2 = 1) &&
    !h.onReference c.input s && c.gateOpen s.highs

/-- The instant of a sample shifted by the alignment delay (R60). -/
def AccCfg.delayed (c : AccCfg) (s : Sample) : Int := (s.instant.toNat : Int) + c.delay

/-- Start in module time and length of the present PWM period of a time base (R61). -/
def Hw.baseStart (h : Hw) (base : Nat) : W64 × Nat :=
  if base = 0 then (h.ctlA.periodStart, h.ctlA.periodLen) else if base = 1 then (h.ctlB.periodStart, h.ctlB.periodLen)
  else h.sen.starts.get base (0, 0)

/-- The last PWM period start of a time base, or with `half` the last peak or valley of its counter (R60). -/
def Hw.lastEdge (h : Hw) (base : Nat) (half : Bool) : Nat :=
  let p := h.baseStart base
  if half && p.1.toNat + p.2 / 2 ≤ h.time.now.toNat then p.1.toNat + p.2 / 2 else p.1.toNat

/-- Samples that close a window at once: those asked for of ONE_SHOT, the four of a BURST, else the bound of R60. -/
def AccCfg.full (c : AccCfg) : Nat := if c.closure = 3 then c.length else if c.closure = 4 then 4 else 16777215

/-- The instant at which the open window closes by its closure (R60), none while it goes on; `n`: samples accumulated since it
opened. A stop closes it (R61), and so does the bound of R60. -/
def Hw.closesAt (h : Hw) (a : Acc) (c : AccCfg) (n : Nat) : Option Nat :=
  let edge (t : Nat) : Option Nat := if a.openAt.toNat < t && t ≤ h.time.now.toNat then some t else none
  let stop := match a.next with | some x => !x.run | none => false
  if stop || (c.closure != 4 && c.full ≤ n) then some h.time.now.toNat
  else if c.closure = 0 then edge (h.lastEdge c.base false)
  else if c.closure = 1 then edge (h.lastEdge c.base true)
  else if c.closure = 2 then edge (a.openAt.toNat + c.length)
  else if c.closure = 4 && a.burst && 4 ≤ n then some h.time.now.toNat
  else none

/-- Smallest and largest of a list. -/
def minimum (l : List Int) : Int := match l with | [] => 0 | x :: t => t.foldl (fun a y => if y < a then y else a) x
def maximum (l : List Int) : Int := match l with | [] => 0 | x :: t => t.foldl (fun a y => if a < y then y else a) x

/-- The samples came from one core only of their pairs (R62, R68). -/
def oneCore (l : List Sample) : Bool :=
  !l.isEmpty && (l.all (fun s => s.core.val % 2 = 0) || l.all (fun s => s.core.val % 2 = 1))

/-- The record of a window that closes at an instant over these samples (R62). -/
def Hw.accRecord (h : Hw) (n : Nat) (a : Acc) (c : AccCfg) (taken : List Sample) (close : W64) : AccRecord :=
  let l := taken.map (fun s => h.corrected c.input s.core.val s.code)
  let sat := l.any (fun x => x == -32768 || x == 32767)
  let stop := match a.next with | some x => !x.run | none => false
  { acc := n, input := c.input, sum := l.foldl (· + ·) 0, squares := (l.foldl (fun s x => s + x * x) 0).toNat, count := l.length
    flags := accFlags (16777215 ≤ l.length) sat stop (oneCore taken) (0 < a.aborts), min := minimum l, max := maximum l
    aborts := a.aborts, close := close }

/-- The 32 bytes of a record (R62). -/
def AccRecord.bytes (r : AccRecord) : List Byte :=
  leBytes 5 (ofInt 5 r.sum) ++ leBytes 7 r.squares ++ leBytes 3 r.count ++
  [r.flags, BitVec.ofNat 8 r.acc, BitVec.ofNat 8 r.input] ++ leBytes 2 (ofInt 2 r.min) ++ leBytes 2 (ofInt 2 r.max) ++
  leBytes 2 r.aborts ++ leBytes 8 r.close.toNat

/-- An analogue output position (R238): outside 0.20-4.80 V for 2 ms it is invalid. -/
def Hw.analogPos (h : Hw) (i : Nat) (mv : Int) : Hw :=
  let drive := i - 44
  if h.par (0x090D + drive) != 4 then h
  else if mv < 200 || 4800 < mv then
    let since := (h.sen.analogBad.find i).getD h.time.clock
    let h1 : Hw := { h with sen := { h.sen with analogBad := h.sen.analogBad.set i since } }
    if since + 2 * msTicks ≤ h.time.clock then h1.posInvalid drive else h1
  else
    let pos := clampI 0 65535 ((mv - 250) * 65535 / 4500)
    (({ h with sen := { h.sen with analogBad := h.sen.analogBad.del i } } : Hw).posGood drive).seePosition drive pos.toNat

/-- A reading reaches what reads it: the DC link, the inlet, ACT_VS, VSUP, LVB_SENSE, the temperatures of the OBC, the coolant and the board (R57). -/
def Hw.takeReading (h : Hw) (i : Nat) (x : Int) : Hw :=
  let h1 : Hw := { h with sen := { h.sen with reading := h.sen.reading.set i x } }
  let p := h1.pwr
  if i = 7 then h1.setVdc x
  else if i = 33 then { h1 with chg := { h1.chg with inlet := x } }
  else if i = 43 then h1.actVs x
  else if i = 53 then { h1 with pwr := { p with coolant := x } }
  else if i = 55 then { h1 with pwr := { p with vsup := x } }
  else if i = 56 then { h1 with pwr := { p with lvb := x } }
  else if i = 86 then { h1 with pwr := { p with board := x } }
  else if i = 81 then h1.obcHeat x
  else if 44 ≤ i && i ≤ 46 then h1.analogPos i x
  else h1

/-- The accumulator after its window closed: the waiting configuration, one shot done. -/
def Acc.after (a : Acc) (r : AccRecord) : Acc :=
  let shot := match a.cfg with | some c => c.closure == 3 | none => false
  { cfg := (match a.next with | some c => some c | none => a.cfg), next := none, last := some r, aborts := 0, burst := false
    saturated := r.flags.getLsbD 1, done := a.next.isNone && shot, openAt := r.close }

/-- ACC_WINDOW_CLOSE (R60-R62): the samples of the window that the accumulator takes make its record, and the next window
begins where this one ended. A window without samples gives a record and no reading. -/
def Hw.accClose (h : Hw) (n : Nat) (samples : List Sample) : Hw :=
  let a := h.acc n
  match a.cfg with
  | none => h
  | some c =>
    let since := samples.filter (fun s => (a.openAt.toNat : Int) ≤ c.delayed s && h.accumulates c s)
    if !a.open' || !h.senses then h
    else match h.closesAt a c since.length with
      | none => h
      | some t =>
        let inside := if c.closure ≤ 2 then since.filter (fun s => c.delayed s < (t : Int)) else since
        let r := h.accRecord n a c (inside.take c.full) (BitVec.ofNat 64 t)
        let h1 := h.setAcc n (a.after r)
        let h2 := if r.count = 0 then h1 else h1.takeReading c.input r.reading
        if n < 48 && a.saturated && r.flags.getLsbD 1 then h2.occur fltSenseSaturation 0xFF else h2

/-- ACC_WINDOW_CLOSE (R62). -/
def execAccWindowClose (acc : Fin 128) (samples : List Sample) (s : State) : Host.Outcome State Fault Refusal :=
  onHw (fun h => h.accClose acc.val samples) s

/-! ## Urgent requests (R64-R66) -/

/-- A conversion pair has scheduled work: the conversion tile runs, or a window is open on one of its inputs. -/
def Hw.convWork (h : Hw) (p : Nat) : Bool :=
  h.lv.active || h.chg.active ||
  h.sen.accs.any (fun x => x.2.open' && (match x.2.cfg with
    | some c => 8 ≤ c.input && c.input < 40 && 8 + (c.input - 8) / 8 = p
    | none => false))

/-- A sparse pair without scheduled work is powered down (R66), unless a WAKE route has raised it and it has not served since
(R78). `work`: a general pair has work. Traction pairs never power down. -/
def Hw.pairDown (h : Hw) (p : Nat) (work : Bool) : Bool :=
  8 ≤ p && (BitVec.ofNat 16 (h.par 0x0305)).getLsbD p && !h.sen.raised.getLsbD p && !(if p < 12 then h.convWork p else work)

/-- Ticks until a general pair is free for an urgent request: the rest of another urgent request, which is never aborted
(R64). -/
def Hw.urgentWait (h : Hw) (p : Nat) : Nat := h.sen.urgentBy.get p 0 - h.time.clock

/-- Order of choice among the general pairs for an urgent request (R64): the shorter wait, then an idle pair that is powered,
housekeeping, a resolver slot, and a pair that must power up. -/
def Hw.urgentCost (h : Hw) (p : Nat) (use : PairUse) : Nat :=
  5 * h.urgentWait p + (match use with
    | .idle => if h.pairDown p (h.urgentWait p != 0) then 3 else 0
    | .housekeeping _ => 1
    | .slot => 2)

/-- The general pair that serves an urgent request, with what it does. -/
def Hw.urgentPair (h : Hw) (uses : List PairUse) : Nat × PairUse :=
  (((List.range 4).map (fun k => (12 + k, uses.getD k .idle))).foldl
    (fun (best : Option (Nat × PairUse)) x => match best with
      | some y => if h.urgentCost x.1 x.2 < h.urgentCost y.1 y.2 then some x else best
      | none => some x) none).getD (12, .idle)

/-- The conversion an urgent request aborts is counted in the record of its accumulator and over the lifetime (R65). -/
def Hw.abortConversion (h : Hw) (use : PairUse) : Hw :=
  match use with
  | .housekeeping a => (h.setAcc a.val { h.acc a.val with aborts := (h.acc a.val).aborts + 1 }).count 0x080 1
  | .slot => h.count 0x080 1
  | .idle => h

/-- Accumulators with BURST closure on an input have their four samples coming (R60, R64). -/
def Hw.burstFor (h : Hw) (input : Nat) : Hw :=
  { h with sen := { h.sen with accs := h.sen.accs.mapv (fun _ a => match a.cfg with
      | some c => if c.closure = 4 && c.input = input && a.open' then { a with burst := true } else a
      | none => a) } }

/-- URGENT_REQUEST (R64-R66): served within URGENT_SLACK, late where its pair must power up, or missed. Four interleaved
samples span 150 ns and the last converts for 100 ns; a start-up takes 1.5 us. -/
def Hw.urgent (h : Hw) (input : Nat) (uses : List PairUse) : Hw :=
  if input < 40 || !h.senses then h
  else
    let (p, use) := h.urgentPair uses
    let wait := h.urgentWait p
    if h.par 0x0306 < wait then (h.count 0x081 1).occur fltSenseUrgentMiss 0xFF
    else
      let down := use == .idle && h.pairDown p (wait != 0)
      let h1 := (if wait = 0 then h.abortConversion use else h).burstFor input
      let h2 := if down then (h1.count 0x082 1).occur fltSenseUrgentLate 0xFF else h1
      { h2 with sen := { h2.sen with raised := h2.sen.raised &&& ~~~ (1#16 <<< p)
                                     urgentBy := h2.sen.urgentBy.set p (h.time.clock + wait + (if down then 600 else 0) + 100) } }

/-- URGENT_REQUEST (R64). -/
def execUrgentRequest (input : Fin 96) (p12 p13 p14 p15 : PairUse) (s : State) : Host.Outcome State Fault Refusal :=
  onHw (fun h => h.urgent input.val [p12, p13, p14, p15]) s

/-! ## Matching of pairs (R67, R68) -/

/-- INTERLEAVE_MATCH (R67, R68): the odd core is trimmed, or declared failed. -/
def Hw.matchPair (h : Hw) (p : Nat) (off gain : Int) : Hw :=
  if !h.senses || h.sen.halfRate.getLsbD p then h
  else if 64 < absI off || 500 < absI gain then
    let h1 : Hw := { h with sen := { h.sen with halfRate := h.sen.halfRate ||| (1#16 <<< p) } }
    h1.raiseOnce (if p < 8 then fltSenseCoreFail else fltSenseCoreDegraded) (BitVec.ofNat 8 (2 * p + 1))
  else { h with sen := { h.sen with trimOff := h.sen.trimOff.set p off, trimGain := h.sen.trimGain.set p gain } }

/-- INTERLEAVE_MATCH (R67). -/
def execInterleaveMatch (pair : Fin 16) (offsetTrim gainTrim : Int) (s : State) : Host.Outcome State Fault Refusal :=
  onHw (fun h => h.matchPair pair.val offsetTrim gainTrim) s

/-! ## Requested tests: what several chapters share (R51) -/

/-- A run answers for an instance: its own, or in turn where the request named every instance. -/
def TestRun.covers (t : TestRun) (id inst : Nat) : Bool :=
  t.id.toNat == id && (t.inst.toNat == inst || (t.inst == 0xFF && t.count == inst))

/-- The run of a test and instance. -/
def Hw.findTest (h : Hw) (id inst : Nat) : Option TestRun := h.tests.find? (fun t => t.covers id inst)

/-- A run changed by `f`. -/
def Hw.modTest (h : Hw) (id inst : Nat) (f : TestRun → TestRun) : Hw :=
  { h with tests := h.tests.map (fun t => if t.covers id inst then f t else t) }

/-- A run ends with a status. -/
def Hw.endTest (h : Hw) (id inst : Nat) (st : Status) : Hw :=
  match h.findTest id inst with
  | none => h
  | some t => ({ h with tests := h.tests.filter (fun x => !x.covers id inst) } : Hw).completeOpt t.req st

/-- An instance of a run has passed: the next one, or the run is DONE. -/
def Hw.stepTest (h : Hw) (id inst last : Nat) : Hw :=
  match h.findTest id inst with
  | none => h
  | some t => if t.inst == 0xFF && inst < last then h.modTest id inst (fun t => { t with count := t.count + 1 })
    else h.endTest id inst .done

/-! ## Offset tracking (R70) -/

/-- The mode tracks offsets and gains (R83): not BASE_CAMP, which uses TRIM alone, and not BIVOUAC. -/
def Hw.tracks (h : Hw) : Bool := h.mode.phase == .up && h.mode.mode != .baseCamp && h.mode.mode != .bivouac

/-- A run of a bridge begins. -/
def Hw.offsetRun (h : Hw) (b : Bridge) : Hw :=
  { h with sen := { h.sen with offRun := h.sen.offRun ||| (1#2 <<< b.code) } }

/-- OFFSET_TRACK_START (R70): OFFSET_TRACK_INTERVAL has passed, and it is the bridge's turn. -/
def Hw.offsetStart (h : Hw) (b : Bridge) : Hw :=
  if h.tracks && h.par 0x0302 != 0 && h.sen.offStartAt + h.parTicks 0x0302 ≤ h.time.clock && h.sen.offNext == b then
    let h1 := h.offsetRun b
    { h1 with sen := { h1.sen with offStartAt := h.time.clock, offNext := b.other } }
  else h

/-- OFFSET_TRACK_START (R70). -/
def execOffsetTrackStart (b : Bridge) (s : State) : Host.Outcome State Fault Refusal := onHw (fun h => h.offsetStart b) s

/-- Every phase accumulator of the bridge reads below 1 A (R70). -/
def Hw.phasesQuiet (h : Hw) (b : Bridge) : Bool :=
  h.sen.accs.all (fun x => match x.2.last with
    | some r => !(3 * b.code ≤ r.input && r.input < 3 * b.code + 3) || absI r.reading < 1000
    | none => true)

/-- The bridge gives windows for an offset run (R70): null vectors in modulation, or OPEN without current. A held active short
circuit gives none. -/
def Hw.offsetWindows (h : Hw) (b : Bridge) : Bool :=
  (h.ctl b).state.inService || (h.ctl b).state == .shiftSync || ((h.ctl b).state == .openAll && h.phasesQuiet b)

/-- The offset a channel shows, 1/16 code: the mean of its 256 samples (R70). -/
def offsetMean (l : List Int) : Int := (l.take 256).foldl (· + ·) 0 / 16

/-- OFFSET_TRACK_DONE (R70): with 256 samples on each channel, CH6 at instants at which the other bridge is OPEN or in a null
vector, the differences from SYSCAL wait for the next PWM boundary of the bridge, and a request for both bridges goes on. -/
def Hw.offsetDone (h : Hw) (b : Bridge) (phases : List (List Int)) (idc : List (Int × Bool)) : Hw :=
  let zero := (idc.filter (fun x => x.2 || (h.ctl b.other).state == .openAll)).map (·.1)
  let all := phases ++ [zero]
  if !h.sen.offRun.getLsbD b.code || !h.tracks || !h.offsetWindows b || all.any (fun l => l.length < 256) then h
  else
    let diff (ch : Nat) (l : List Int) : Int := offsetMean l - (syscalOf h.syscalBody (if ch = 22 then 6 else ch)).2
    let next := ((offsetChannels b).zip all).foldl (fun t p => Tab.set t p.1 (diff p.1 p.2)) h.sen.offsetNext
    let h1 := ({ h with sen := { h.sen with offsetNext := next, offRun := h.sen.offRun &&& ~~~ (1#2 <<< b.code) } } : Hw).stepTest
      0x0301 b.code 1
    if b == .brA && (h1.findTest 0x0301 1).any (fun t => t.inst == 0xFF) then h1.offsetRun .brB else h1

/-- OFFSET_TRACK_DONE (R70). -/
def execOffsetTrackDone (b : Bridge) (u v w : List Int) (idc : List (Int × Bool)) (s : State) :
    Host.Outcome State Fault Refusal :=
  onHw (fun h => h.offsetDone b [u, v, w] idc) s

/-! ## Gain tracking (R71, R72) -/

/-- A correction moves toward a fitted value by at most 0.002 % (R71), held at the limit (R72). -/
def Hw.trackGain (h : Hw) (leg : Nat) (fit : Int) : Hw :=
  if h.sen.gainHeld.getLsbD leg then h
  else
    let old := (h.sen.gainNext.find leg).getD (h.sen.gain.get leg 0)
    let limit : Int := h.par 0x0304
    let new := clampI (-limit) limit (clampI (old - 2) (old + 2) fit)
    let h1 : Hw := { h with sen := { h.sen with gainNext := h.sen.gainNext.set leg new } }
    if absI new = limit then
      ({ h1 with sen := { h1.sen with gainHeld := h1.sen.gainHeld ||| (1#6 <<< leg) } } : Hw).raiseOnce fltSenseGainDrift
        (BitVec.ofNat 8 leg)
    else h1

/-- The determinant of a square matrix of `n` rows, by its first row. -/
def det : Nat → List (List Int) → Int
  | 0, _ => 1
  | _ + 1, [] => 0
  | n + 1, row :: rest =>
    (List.range (n + 1)).foldl (fun s j =>
      s + (if j % 2 = 0 then 1 else -1) * row.getD j 0 * det n (rest.map (fun r => r.eraseIdx j))) 0

/-- What a leg carries of the shunt current in a window, and the shunt's, in uA (R71). -/
def legShare (w : GainWindow) (k : Nat) : Int :=
  match w.legs[k]? with
  | some l => if l.all = 0 then 0 else l.sum * fullScale k * 1000 / (32768 * (l.all : Int))
  | none => 0
def shuntOf (w : GainWindow) : Int := if w.count = 0 then 0 else w.idc * fullScale 6 * 1000 / (32768 * (w.count : Int))

/-- A leg's gated mean exceeds 40 A in a window. -/
def legStrong (w : GainWindow) (k : Nat) : Bool :=
  match w.legs[k]? with
  | some l => 40000 * 32768 * (l.gated : Int) < absI l.sum * fullScale k
  | none => false

/-- The sum of a product over the windows. -/
def gram (ws : List GainWindow) (f g : GainWindow → Int) : Int := ws.foldl (fun s w => s + f w * g w) 0

/-- The six factors of the least-squares fit of R71 as quotients, by Cramer's rule on its normal equations. -/
def leastSquares (ws : List GainWindow) (k : Nat) : Int × Int :=
  let share (i : Nat) (w : GainWindow) : Int := legShare w i
  let a : List (List Int) := (List.range 6).map (fun i => (List.range 6).map (fun j => gram ws (share i) (share j)))
  let y : List Int := (List.range 6).map (fun i => gram ws (share i) shuntOf)
  (det 6 ((a.zip y).map (fun p => p.1.set k p.2)), det 6 a)

/-- A leg's result is used (R71, step 3): a strong current in a fifth of the windows, and an electrical turn of its bridge. -/
def Hw.gainUsed (h : Hw) (ws : List GainWindow) (k : Nat) : Bool :=
  ws.length ≤ 5 * (ws.filter (fun w => legStrong w k)).length && (2 : Int) ^ 32 ≤ absI (h.fus (legBridge k)).travel

/-- The correction that the fit asks of a leg, 0.001 %: the present one times the factor, which multiplies codes that carry
it already. A fit that the windows leave open is a free value. -/
def Hw.gainAsked (h : Hw) (ws : List GainWindow) (k : Nat) : Int :=
  let q := leastSquares ws k
  if q.2 = 0 then Config.gainOpen h.free k else (100000 + h.sen.gain.get k 0) * q.1 / q.2 - 100000

/-- GAIN_TRACK_FIT (R71): each second, over 10 000 windows of 100 us, the used legs' corrections move. -/
def Hw.gainFit (h : Hw) (ws : List GainWindow) : Hw :=
  let m := h.mode.mode
  if h.par 0x0303 = 1 && (m == .drive || m == .belay || m == .charge) && ws.length = 10000 &&
     h.sen.fitAt + sTicks ≤ h.time.clock then
    let h1 := (List.range 6).foldl (fun x k => if h.gainUsed ws k then x.trackGain k (h.gainAsked ws k) else x) h
    ((({ h1 with sen := { h1.sen with fitAt := h.time.clock, gainLast := ws.getLast? } } : Hw).modFus .brA (fun f =>
      { f with travel := 0 })).modFus .brB (fun f => { f with travel := 0 })).drawn
  else h

/-- GAIN_TRACK_FIT (R71). -/
def execGainTrackFit (windows : List GainWindow) (s : State) : Host.Outcome State Fault Refusal :=
  onHw (fun h => h.gainFit windows) s

/-! ## System calibration (R73-R75) -/

/-- The value a point applies (R306): nothing at ZERO, 800 V, or the calibration current with its sign. -/
def Hw.calApplied (h : Hw) (point : Nat) : Int :=
  if point = 1 then 0 else if point = 2 then 800000 else if point % 2 = 1 then h.parI 0x0301 else -h.parI 0x0301

/-- The CAL_POINT event (R306). -/
def Hw.calPoint (h : Hw) (b : Bridge) (point : Nat) : Hw :=
  let kind := if point = 1 then 0 else if point = 2 then 1 else 2
  let phase := if point ≤ 2 then 0xFF else (point - 3) / 2
  h.postEvent 0x0302 h.time.now (leBytes 2 point ++ [BitVec.ofNat 8 kind, BitVec.ofNat 8 phase, BitVec.ofNat 8 b.code, 0, 0, 0] ++
    leBytes 4 (ofInt 4 (h.calApplied point)))

/-- A calibration goes to a point, with the current the bridge drives there (R74). -/
def Hw.calTo (h : Hw) (c : Cal) (point : Nat) : Hw :=
  { h with sen := { h.sen with cal := some { c with
      point := point, waiting := false, since := h.time.clock, drive := if point ≤ 2 then 0 else h.calApplied point
      linkAt := heldSince none (linkFits point h.pwr.vdc) h.time.clock } } }

/-- Step 1 of R74: the bridge is OPEN and the ZERO point is announced. -/
def Hw.calStart (h : Hw) (b : Bridge) (both : Bool) : Hw :=
  ((h.setPattern b .openAll).calTo { bridge := b, both := both, point := 1, waiting := false, since := 0, linkAt := none, drive := 0
                                     zero := [], means := [], readings := [], gated := [] } 1).calPoint b 1

/-- The conditions of R73 that the module measures: ten minutes in the mode, coolant at 20 to 30 degC, DC link at or below
60 V, converter and charger stopped. -/
def Hw.calReady (h : Hw) : Bool :=
  h.mode.since + 600 * sTicks ≤ h.time.clock && 2000 ≤ h.pwr.coolant && h.pwr.coolant ≤ 3000 && h.hvSafe &&
  !h.lv.active && !h.chg.active

/-- Ticks that 16 777 215 samples at 20 MSPS take (R74): 0.84 s. -/
abbrev calTicks : Nat := 336000000

/-- The accumulation of the present point can be done (R74): 0.84 s at ZERO with the link down, after a steady second at point
2, and at the current points with the rotor below 1 rpm for 200 ms. -/
def Hw.calDue (h : Hw) (c : Cal) : Bool :=
  let now := h.time.clock
  if c.point = 1 then heldFor c.linkAt calTicks now
  else if c.point = 2 then heldFor c.linkAt (sTicks + calTicks) now
  else c.since + 200 * msTicks + calTicks ≤ now && heldFor (h.ctl c.bridge).stillAt (200 * msTicks) now

/-- CAL_ACCUMULATION_DONE (R74): offsets at ZERO, else the point is ready for its reading. -/
def Hw.calMeans (h : Hw) (means : List Int) (gatedPhase gatedShunt : Int) : Hw :=
  match h.sen.cal with
  | none => h
  | some c =>
    if c.waiting || !h.calDue c then h
    else if c.point = 1 then
      (h.calTo { c with zero := means } 2).postEvent 0x0303 h.time.now ([BitVec.ofNat 8 c.bridge.code, 0, 0, 0] ++
        (List.range 8).flatMap (fun k => leBytes 2 (ofInt 2 (means.getD k 0))))
    else
      ({ h with sen := { h.sen with
        cal := some { c with waiting := true, since := h.time.clock, means := c.means ++ [(c.point, means)]
                             gated := c.gated ++ [(c.point, gatedPhase, gatedShunt)] } } } : Hw).calPoint c.bridge c.point

/-- CAL_ACCUMULATION_DONE (R74). -/
def execCalAccumulationDone (means : List Int) (gatedPhase gatedShunt : Int) (s : State) : Host.Outcome State Fault Refusal :=
  onHw (fun h => h.calMeans means gatedPhase gatedShunt) s

/-- Mean of an input at a point, less its offset, 1/16 code. -/
def Cal.net (c : Cal) (point input : Nat) : Int :=
  match c.means.find? (fun p => p.1 = point) with
  | some p => p.2.getD input 0 - c.zero.getD input 0
  | none => 0

/-- The reading entered for a point. -/
def Cal.reading (c : Cal) (point : Nat) : Int := match c.readings.find? (fun p => p.1 = point) with | some p => p.2 | none => 0

/-- A gain factor in units of 2^-30: reference in mA or mV over a measured difference in 1/16 code. -/
def gainFactor (input : Nat) (ref net : Int) : Int := if net = 0 then 0 else ref * 2 ^ 30 * 524288 / (net * fullScale input)

/-- The inputs a calibration of a bridge covers: its phases, the shunt and the DC link voltage. -/
def Cal.inputs (c : Cal) : List Nat := (if c.bridge == .brA then [0, 1, 2] else [3, 4, 5]) ++ [6, 7]

/-- The first current point of a phase input. -/
def Cal.firstPoint (_c : Cal) (input : Nat) : Nat := 3 + 2 * (input % 3)

/-- Means of the first phase and of the shunt under vector gate 100 at a point, less their offsets, 1/16 code. -/
def Cal.vector100 (c : Cal) (point : Nat) : Int × Int :=
  let u := if c.bridge == .brA then 0 else 3
  match c.gated.find? (fun p => p.1 = point) with
  | some p => (p.2.1 - c.zero.getD u 0, p.2.2 - c.zero.getD 6 0)
  | none => (0, 0)

/-- The gain a calibration finds for an input (R74). Under vector 100 the shunt carries the first phase's current, at both
signs of it. -/
def Cal.gain (c : Cal) (input : Nat) : Int :=
  let phase (i : Nat) : Int :=
    let p := c.firstPoint i
    gainFactor i (c.reading p - c.reading (p + 1)) (c.net p i - c.net (p + 1) i)
  let u := if c.bridge == .brA then 0 else 3
  if input < 6 then phase input
  else if input = 6 then
    let plus := c.vector100 3
    let minus := c.vector100 4
    gainFactor 6 ((plus.1 - minus.1) * fullScale u * phase u / (524288 * 2 ^ 30)) (plus.2 - minus.2)
  else gainFactor 7 (c.reading 2) (c.net 2 7)

/-- The checks of R75 for one input, the offset in 1/16 code of 524288 to the full scale. -/
def Cal.inputOk (c : Cal) (input : Nat) : Bool :=
  let z := c.zero.getD input 0 * fullScale input
  let p := c.firstPoint input
  absI (c.gain input - 2 ^ 30) * 50 ≤ 2 ^ 30 && absI z ≤ 500 * 524288 &&
  (6 ≤ input || absI ((c.reading p + c.reading (p + 1)) * 524288 - 2 * z) ≤ 200 * 524288)

/-- One 8-byte entry of a CAL_RESULT event (R306). -/
def Cal.entry (c : Cal) (input : Nat) : List Byte :=
  if c.inputs.contains input then leBytes 4 (ofInt 4 (c.gain input)) ++ leBytes 2 (ofInt 2 (c.zero.getD input 0)) ++ [0, 0]
  else leBytes 8 0

/-- The skew trims of pairs 0-7 as CAL_RESULT carries them, signed 8-bit: a trim beyond the byte shows its nearest end. -/
def skewBytes (skew : Tab Int) : List Byte :=
  (List.range 8).map (fun p => BitVec.ofInt 8 (clampI (-128) 127 (skew.get p 0)))

/-- The three CAL_RESULT events (R306). -/
def Hw.calResult (h : Hw) (c : Cal) (bad : Option Nat) : Hw :=
  let head (part : Nat) : List Byte :=
    [BitVec.ofNat 8 c.bridge.code, BitVec.ofNat 8 part, if bad.isSome then 1 else 0, BitVec.ofNat 8 (bad.getD 0xFF)]
  let h1 := h.postEvent 0x0304 h.time.now (head 0 ++ [0, 1, 2, 3].flatMap c.entry)
  let h2 := h1.postEvent 0x0304 h.time.now (head 1 ++ [4, 5, 6, 7].flatMap c.entry)
  h2.postEvent 0x0304 h.time.now (head 2 ++ skewBytes h.sen.skew)

/-- The SYSCAL body with the coefficients of a calibration: those of its inputs and the skew trims are new, what another
calibration found stands. -/
def Hw.calBody (h : Hw) (c : Cal) : List Byte :=
  let old := h.syscalBody.getD ((List.range 8).flatMap (fun _ => leBytes 4 (2 ^ 30) ++ leBytes 4 0))
  (List.range 8).flatMap (fun k => if c.inputs.contains k then c.entry k else slice old (8 * k) 8) ++
    (List.range 8).flatMap (fun p => leBytes 2 (ofInt 2 (h.sen.skew.get p 0)))

/-- Step 7 of R74: results, then the overlay or CAL_REJECTED, then the next bridge or the completion. -/
def Hw.calFinish (h : Hw) (c : Cal) : Hw :=
  let bad := c.inputs.find? (fun i => !c.inputOk i)
  let inst := if c.both then 0xFF else c.bridge.code
  let h1 := h.trimSkew.calResult c bad
  let h2 : Hw := { h1 with sen := { h1.sen with cal := none } }
  match bad with
  | some i =>
    (h2.endTest 0x0305 inst .range).raiseAs fltCalRejected .info 0xFF (BitVec.ofNat 32 i) false
  | none =>
    let h3 := h2.applySyscal (h2.calBody c)
    if c.both && c.bridge == .brA then h3.calStart .brB true else h3.endTest 0x0305 inst .done

/-- CAL_REFERENCE (R74): for the point that waits; the rule states no status for a reading that no calibration waits for, or
for another point, and the model answers RANGE (DESIGN CHOICE). -/
def Hw.calReference (h : Hw) (d : Desc) (q : Req) : Hw :=
  match h.sen.cal with
  | none => h.complete q .range
  | some c =>
    if !c.waiting || d.num 16 2 != c.point then h.complete q .range
    else
      let c1 := { c with readings := c.readings ++ [(c.point, d.int 20 4)], waiting := false, since := h.time.clock, drive := 0 }
      if c.point < 8 then (h.calTo c1 (c.point + 1)).complete q .done
      else (h.complete q .done).calFinish c1

/-- CAL_REFERENCE (R74). -/
def execCalReference (d : Desc) (s : State) : Host.Outcome State Fault Refusal :=
  onHw (fun h => h.descriptor 0x0304 d (fun q h => h.unlessCamp q (fun h => h.calReference d q))) s

/-- CAL_REFERENCE_TIMEOUT (R74): ten minutes without a reading. -/
def Hw.calTimeout (h : Hw) : Hw :=
  match h.sen.cal with
  | none => h
  | some c =>
    if c.waiting && c.since + 600 * sTicks ≤ h.time.clock then
      ({ h with sen := { h.sen with cal := none } } : Hw).endTest 0x0305 (if c.both then 0xFF else c.bridge.code) .aborted
    else h

/-- CAL_REFERENCE_TIMEOUT (R74). -/
def execCalReferenceTimeout (s : State) : Host.Outcome State Fault Refusal := onHw Hw.calTimeout s

/-! ## Window monitors (R76-R81) -/

/-- A monitor replaced. -/
def Hw.setMon (h : Hw) (n : Nat) (m : Monitor) : Hw := { h with sen := { h.sen with mons := h.sen.mons.set n m } }

/-- A configuration as MON_SET writes it; the latch is cleared, and what became of the comparator stands. -/
def monConfig (d : Desc) (old : Monitor) : Monitor :=
  { input := d.num 17 1, mode := d.num 18 1, inside := d.num 19 1 == 1, low := d.num 20 2, high := d.num 22 2, hyst := d.num 24 1
    filter := d.num 25 1, routes := (d.byte 26).setWidth 4, period := d.num 27 1 == 1, base := d.num 28 1, target := d.num 29 1
    retired := old.retired, dead := old.dead }

/-- The inputs of a wake monitor (R81). -/
def wakeInputs : List Nat := [56, 55, 53, 54, 47, 48, 49, 50, 51, 52]

/-- The own checks of MON_SET (R76, R78, R81). -/
def monOk (d : Desc) : Bool :=
  let n := d.num 16 1
  let input := d.num 17 1
  let mode := d.num 18 1
  let routes := d.byte 26
  let base := d.num 28 1
  let target := d.num 29 1
  n ≤ 51 && mode ≤ 3 && d.num 19 1 ≤ 1 && d.num 20 2 ≤ 1023 && d.num 22 2 ≤ 1023 && d.num 24 1 ≤ 15 && d.num 25 1 ≤ 7 &&
  (mode == 1 || d.num 25 1 == 0) && d.num 27 1 ≤ 1 && base ≤ 5 && routes &&& 0xF0 == 0 &&
  (if 48 ≤ n then wakeInputs.contains input && (mode == 0 || mode == 3) && routes &&& 7 == 0
   else input ≤ 95 && inputBlock input == monBlock n &&
     (if n < 24 then base ≤ 1 && !routes.getLsbD 3
      else !routes.getLsbD 0 && (!routes.getLsbD 3 || (8 ≤ target && target ≤ 15))))

/-- MON_SET (R76). -/
def Hw.monSet (h : Hw) (d : Desc) (q : Req) : Hw :=
  if monOk d then (h.setMon (d.num 16 1) (monConfig d (h.mon (d.num 16 1)))).complete q .done else h.complete q .range

/-- MON_SET (R76). -/
def execMonSet (d : Desc) (s : State) : Host.Outcome State Fault Refusal :=
  onHw (fun h => h.descriptor 0x0302 d (fun q h => h.unlessCamp q (fun h => h.monSet d q))) s

/-- MON_CLEAR (R79). -/
def Hw.monClear (h : Hw) (d : Desc) (q : Req) : Hw :=
  let n := d.num 16 1
  if 51 < n then h.complete q .range else (h.setMon n { h.mon n with flag := false, irq := false }).complete q .done

/-- MON_CLEAR (R79). -/
def execMonClear (d : Desc) (s : State) : Host.Outcome State Fault Refusal :=
  onHw (fun h => h.descriptor 0x0303 d (fun q h => h.unlessCamp q (fun h => h.monClear d q))) s

/-- The SAFE route (R78, R79): the bridge's safe pattern, and SENSE_MON_SAFE naming the monitor. -/
def Hw.monSafe (h : Hw) (n base : Nat) : Hw :=
  let b : Bridge := if base = 0 then .brA else .brB
  let h1 := h.count 0x08D 1
  h1.occurThen fltSenseMonSafe (h1.bridgeClass b) (BitVec.ofNat 8 n) (fun x => x.faultSafe b true)

/-- A crossing fires a monitor's routes (R78): CAPTURE latches module time and PWM counter, IRQ interrupts the owning tile, WAKE
raises its pair, SAFE orders the pattern. -/
def Hw.fire (h : Hw) (n pwm : Nat) : Hw :=
  let m := h.mon n
  let take := m.routes.getLsbD 1
  let h1 := h.setMon n { m with flag := true, capTime := if take then h.time.now else m.capTime
                                capPwm := if take then pwm else m.capPwm, irq := m.irq || m.routes.getLsbD 2 }
  let h2 : Hw := if m.routes.getLsbD 3 then { h1 with sen := { h1.sen with raised := h1.sen.raised ||| (1#16 <<< m.target) } }
    else h1
  if m.routes.getLsbD 0 then h2.monSafe n m.base else h2

/-- MONITOR_CROSSING (R76-R79): the comparators' state follows the level; a crossing fires the routes where the flag does not
hold one already. A comparator that has failed without a spare sees nothing (R80). WM0 is armed again once its input is back
beyond its hysteresis (R44); the other wake monitors act only in BIVOUAC. -/
def Hw.crossing (h : Hw) (n : Nat) (level : Int) (pwm : Nat) : Hw :=
  if 48 ≤ n then
    if n = 48 && !h.wakeCrosses 48 level true then { h with mode := { h.mode with wm0Armed := true } } else h
  else
    let m := h.mon n
    if m.mode = 0 || m.dead || !h.senses then h
    else
      let now := m.crosses level m.present
      let h1 := h.setMon n { m with present := now }
      if now && !m.flag then h1.fire n pwm else h1

/-- MONITOR_CROSSING (R78). -/
def execMonitorCrossing (mon : Fin 52) (level : Int) (pwmCount : Nat) (s : State) : Host.Outcome State Fault Refusal :=
  onHw (fun h => h.crossing mon.val level pwmCount) s

/-- A wake monitor is tested once in a wake, during bring-up (R81); P0 has no spare. -/
def Hw.wakeTest (h : Hw) (n : Nat) (pass : Bool) : Hw :=
  if h.mode.phase != .bringUp || h.sen.wakeTested.getLsbD (n - 48) then h
  else
    let h1 : Hw := { h with sen := { h.sen with wakeTested := h.sen.wakeTested ||| (1#4 <<< (n - 48)) } }
    if pass then h1 else h1.raiseAs fltSenseMonFail .warn (BitVec.ofNat 8 n) 0 true

/-- MONITOR_COMPARATOR_TEST (R80): a failed comparator is retired and its spare stays in service; without a spare left it is
out of service, and a fault. -/
def Hw.comparatorTest (h : Hw) (n : Nat) (pass : Bool) : Hw :=
  let m := h.mon n
  let k := monBlock n
  let left := h.sen.spares.getD k 0
  if 48 ≤ n then h.wakeTest n pass
  else if pass || m.mode = 0 || m.dead || !h.senses then h
  else if 0 < left then
    ({ h with sen := { h.sen with spares := h.sen.spares.set k (left - 1) } } : Hw).setMon n { m with retired := true }
  else
    (h.setMon n { m with retired := true, dead := true }).raiseAs fltSenseMonFail (if m.routes.getLsbD 0 then .belay else .warn)
      (BitVec.ofNat 8 n) 0 true

/-- MONITOR_COMPARATOR_TEST (R80). -/
def execMonitorComparatorTest (mon : Fin 52) (agreed toggled : Bool) (s : State) : Host.Outcome State Fault Refusal :=
  onHw (fun h => h.comparatorTest mon.val (agreed && toggled)) s

/-- REFERENCE_CHECK (R82, R85): two failures in succession raise SENSE_REFERENCE. -/
def Hw.reference (h : Hw) (pass : Bool) : Hw :=
  if !h.senses then h
  else
  let h1 : Hw := { h with sen := { h.sen with refFailed := !pass } }
  if pass then h1.clearFault fltSenseReference.code 0xFF
  else if h.sen.refFailed then h1.raiseOnce fltSenseReference 0xFF
  else h1

/-- REFERENCE_CHECK (R82). -/
def execReferenceCheck (pass : Bool) (s : State) : Host.Outcome State Fault Refusal := onHw (fun h => h.reference pass) s

end Sys2Proof.Machine
end

