-- ==== Sys2Proof/Machine/Tests.lean ====
section
/-!
DEFINITION. Machine/Tests.lean: TEST_REQUEST and how tests run, defer and end (R51, R52, R438), with the identifications
(R134-R137), HARMONIC_LEARN (R93), OFFSTATE_DIAG (R167) and STO_PATH (R265).
-/
namespace Sys2Proof.Machine

/-! ## The tests of the chapters -/

/-- What a test acts on. -/
inductive TestKind where
  | whole | bridge | resolver
  deriving DecidableEq, Repr

/-- A test: its ID, class, what it acts on, default deadline in us. -/
structure TestRow where
  id : Nat
  cls : Nat
  kind : TestKind
  deadline : Nat
  deriving DecidableEq, Repr

/-- The tests that the chapters list (R82, R93, R134-R136, R167, R168, R199, R254, R287). -/
def testRows : List TestRow := [
  ⟨0x0301, 1, .bridge, 10000⟩, ⟨0x0302, 0, .whole, 10000⟩, ⟨0x0303, 2, .whole, 10000⟩, ⟨0x0304, 0, .whole, 10000⟩,
  ⟨0x0305, 2, .bridge, 10000⟩, ⟨0x0306, 0, .whole, 10000⟩, ⟨0x0401, 0, .resolver, 10000⟩, ⟨0x0402, 0, .whole, 10000⟩,
  ⟨0x0501, 2, .bridge, 10000⟩, ⟨0x0502, 1, .bridge, 60000000⟩, ⟨0x0503, 2, .bridge, 10000⟩, ⟨0x0601, 2, .bridge, 10000⟩,
  ⟨0x0602, 1, .whole, 10000⟩, ⟨0x0603, 0, .whole, 10000⟩, ⟨0x0604, 1, .whole, 10000⟩, ⟨0x0605, 2, .whole, 10000⟩,
  ⟨0x0606, 0, .whole, 10000⟩, ⟨0x0701, 1, .whole, 10000⟩, ⟨0x0702, 2, .whole, 10000⟩, ⟨0x0703, 0, .whole, 10000⟩,
  ⟨0x0901, 1, .whole, 10000⟩, ⟨0x0A01, 0, .whole, 10000⟩, ⟨0x0A02, 2, .whole, 10000⟩, ⟨0x0A03, 0, .whole, 10000⟩,
  ⟨0x0A04, 0, .whole, 10000⟩, ⟨0x0A05, 2, .whole, 10000⟩]

/-- The row of a test. -/
def testRow (id : Nat) : Option TestRow := testRows.find? (fun r => r.id == id)

/-- An instance exists for the test: 0 where it names none. -/
def TestRow.instOk (r : TestRow) (inst : Nat) : Bool :=
  match r.kind with
  | .whole => inst = 0
  | .bridge => inst ≤ 1 || inst = 0xFF
  | .resolver => inst ≤ 1 || inst = 0xFF

/-- The instances a request names. -/
def instances (inst : Nat) : List Nat := if inst = 0xFF then [0, 1] else [inst]

/-- The bridge of an instance. -/
def instBridge (inst : Nat) : Bridge := if inst = 0 then .brA else .brB

/-! ## TEST_REQUEST (R51, R438) -/

/-- IDENT_STANDSTILL's conditions on a bridge (R134). With no TEMP input assigned to the bridge there is no winding temperature to
compare, and the model lets the condition pass (DESIGN CHOICE). -/
def Hw.identReady (h : Hw) (b : Bridge) : Bool :=
  h.standstill && h.act.parkOn && 400000 ≤ h.pwr.vdc && h.pwr.vdc ≤ 900000 &&
  (h.windings b).all (fun t => absI (t - h.pwr.coolant) ≤ 1000) && (h.ctl b).flux.isSome && h.posHealthy b

/-- A test's own conditions (R73, R93, R134, R135, R167, R287). -/
def Hw.testReady (h : Hw) (id inst : Nat) : Bool :=
  if id = 0x0305 then h.calReady
  else if id = 0x0401 then (instances inst).all (fun r => (h.servedBy (0x10 + r)).isSome)
  else if id = 0x0501 then (instances inst).all (fun i => h.identReady (instBridge i))
  else if id = 0x0503 then h.standstill
  else if id = 0x0601 then (instances inst).all (fun i => absI (h.ctl (instBridge i)).speed < 3000) && 50000 ≤ h.pwr.vdc
  else if id = 0x0702 then h.lv.state == .stopped && !h.lv.closed
  else if id = 0x0A05 then 50000 ≤ h.pwr.vdc
  else true

/-- The same test is running or waiting for an instance in common (R52). -/
def Hw.testBusy (h : Hw) (id inst : Nat) : Bool :=
  h.tests.any (fun t => t.id.toNat == id && (t.inst.toNat == inst || t.inst == 0xFF || inst == 0xFF)) ||
  (id = 0x0601 && (instances inst).any (fun i => (h.gate (instBridge i)).offRunning)) || (id = 0x0305 && h.sen.cal.isSome)

/-- The own checks of TEST_REQUEST, in order. No test is among the services of BASE_CAMP (R45). -/
def Hw.testCheck (h : Hw) (d : Desc) : Option Status :=
  let id := d.num 16 2
  let cls := d.num 18 1
  let inst := d.num 19 1
  match testRow id with
  | none => some .range
  | some r =>
    if 2 < cls || cls < r.cls || !r.instOk inst then some .range
    else if h.mode.mode == .baseCamp || (cls = 2 && h.mode.mode != .ready && h.mode.mode != .workshop) then some .modeDenied
    else if h.testBusy id inst then some .busy
    else if !h.testReady id inst then some .range
    else none

/-- A bridge leaves OPEN for an identification (R134, R135). -/
def Hw.startIdent (h : Hw) (b : Bridge) : Hw := h.modCtl b (fun c => { c with state := .ident, ordered := false })

/-- What the start of a test does beside its entry. -/
def Hw.testBegin (h : Hw) (id inst : Nat) : Hw :=
  let b := instBridge (if inst = 0xFF then 0 else inst)
  if id = 0x0301 then h.offsetRun b
  else if id = 0x0305 then h.calStart b (inst = 0xFF)
  else if id = 0x0401 then (instances inst).foldl (fun x r => x.modRes r (fun r => { r with learn := some {} })) h
  else if id = 0x0501 then (h.startIdent b).postEvent 0x0502 h.time.now [BitVec.ofNat 8 b.code, 1, 1]
  else if id = 0x0503 then h.startIdent b
  else if id = 0x0601 then h.modGate b (fun g => { g with offRunning := true })
  else h

/-- TEST_REQUEST accepted: it runs, or waits for its window until its deadline. -/
def Hw.testAccept (h : Hw) (d : Desc) (q : Req) : Hw :=
  let id := d.num 16 2
  let cls := d.num 18 1
  let wait := if d.num 20 4 = 0 then (match testRow id with | some r => r.deadline | none => 0) else d.num 20 4
  ({ h with tests := h.tests ++ [{ id := BitVec.ofNat 16 id, inst := d.byte 19, cls := cls, req := some q
                                   deadline := h.time.clock + wait * usTicks, running := cls != 1, count := 0 }] } : Hw).testBegin
    id (d.num 19 1)

/-- TEST_REQUEST (R51). -/
def execTestRequest (d : Desc) (s : State) : Host.Outcome State Fault Refusal :=
  onHw (fun h => h.descriptor 0x0202 d (fun q h => match h.testCheck d with
    | some st => h.complete q st
    | none => h.testAccept d q)) s

/-! ## How a test ends -/

/-- The fault a failed test raises (R93, R168, R199, R265, R287), with its source where the test names none. -/
def Hw.testFault (h : Hw) (id inst : Nat) : Hw :=
  let src := BitVec.ofNat 8 inst
  if id = 0x0602 then h.comparatorFail src 0
  else if id = 0x0603 then h.comparatorFail src 1
  else if id = 0x0604 then h.comparatorFail src 3
  else if id = 0x0606 then h.diesAstray.foldl (fun x p => x.raiseOnce fltDieSensor (BitVec.ofNat 8 p)) h
  else if id = 0x0701 then h.isoswFailed
  else if id = 0x0702 then h.raiseOnce fltLvClampFail 0xFF
  else if id = 0x0703 then (List.range 4).foldl (fun x k => if h.cellDiffers k then x.cellOut k else x) h
  else if id = 0x0A01 then h.raiseOnce fltCheckerInjectFail src
  else if id = 0x0A05 then h.occur fltDischargeFail 0xFF
  else h

/-- The instance a run is looked up by: tests that name none run as instance 0, whatever place a failure names. -/
def testKey (id inst : Nat) : Nat := match testRow id with | some r => if r.kind == .whole then 0 else inst | none => inst

/-! ## Identification (R134-R137) -/

/-- What an identification found: RS in micro-ohm at 20 degC, FLUX_CORR, PSI_M in 0.1 uVs at MAG_TREF, electrical offset. -/
structure IdentResult where
  rs : Nat := 0
  fluxCorr : Nat := 0
  psiM : Nat := 0
  offset : W32 := 0
  deriving DecidableEq, Repr

/-- RS from the difference of two d-axis levels, referred to 20 degC at 0.393 %/K (R134); 0 where the currents do not differ. -/
def Hw.identRs (h : Hw) (b : Bridge) (d : IdentData) : Nat :=
  if d.i1 = d.i2 then 0
  else
    let hot := (d.v2 - d.v1) * 1000000 / (d.i2 - d.i1)
    (hot * 1000000 / (1000000 + 3930 * ((hottest (h.windings b)).getD h.pwr.coolant - 2000) / 100)).toNat

/-- A factor of FLUX_CORR in 1/32768 from the pulses of an axis (R134): the least-squares factor between the flux increments of the map
and those measured; 0 where the map shows none. -/
def fluxFactor (model : Int → Int) (pulses : List IdentPulse) : Nat :=
  let inc (p : IdentPulse) : Int := model p.to' - model p.from'
  let s := pulses.foldl (fun a p => a + inc p * inc p) 0
  if s = 0 then 0 else (pulses.foldl (fun a p => a + inc p * p.flux) 0 * 32768 / s).toNat

/-- The pulses of R134: sixteen on an axis, with currents up to IDENT_CURRENT_MAX. -/
def Hw.pulsesOk (h : Hw) (l : List IdentPulse) : Bool :=
  l.length = 16 && l.all (fun p => absI p.from' ≤ h.parI 0x052C && absI p.to' ≤ h.parI 0x052C)

/-- What IDENT_STANDSTILL found (R134). -/
def Hw.standstillResult (h : Hw) (b : Bridge) (d : IdentData) : IdentResult :=
  match (h.ctl b).flux with
  | some t =>
    { rs := h.identRs b d
      fluxCorr := fluxFactor (fun i => (fluxAt t i 0).1) d.dPulses + 65536 * fluxFactor (fun i => (fluxAt t 0 i).2) d.qPulses }
  | none => { rs := h.identRs b d }

/-- The torque of a q pulse stays within IDENT_TORQUE_MAX (R134). -/
def Hw.pulseTorqueOk (h : Hw) (b : Bridge) (l : List IdentPulse) : Bool :=
  l.all (fun p => absI (h.torqueEstimate b 0 p.to') ≤ h.parI 0x052D)

/-- Mean electrical offset of some windows. -/
def meanOffset (l : List (Nat × W32)) : W32 :=
  match l with
  | [] => 0
  | p :: _ => p.2 + BitVec.ofInt 32 ((l.map (fun x => angleDiff x.2 p.2)).foldl (· + ·) 0 / (l.length : Int))

/-- What IDENT_MAGNET found in its eight windows (R136). -/
def magnetResult (l : List (Nat × W32)) : IdentResult :=
  { psiM := (l.map (·.1)).foldl (· + ·) 0 / max l.length 1, offset := meanOffset l }

/-- What an identification found (R134-R136). -/
def Hw.identResult (h : Hw) (id : Nat) (b : Bridge) (d : IdentData) (w : List (Nat × W32)) : IdentResult :=
  if id = 0x0501 then h.standstillResult b d else if id = 0x0502 then magnetResult w else { offset := d.offset }

/-- The limits of R137: RS within 30 % of CONFIG, each factor within 8 %, PSI_M within 5 % of its loaded value, each window's offset
within 0.5 degrees of their mean. -/
def Hw.identAccepted (h : Hw) (id : Nat) (b : Bridge) (d : IdentData) (w : List (Nat × W32)) : Bool :=
  let r := h.identResult id b d w
  if id = 0x0501 then
    let cfg : Int := (h.otp.config.get (perBridge 0x051F b) 0 : Nat)
    let factor (k : Nat) : Bool := 30147 ≤ k && k ≤ 35389
    h.pulsesOk d.dPulses && h.pulsesOk d.qPulses && h.pulseTorqueOk b d.qPulses && absI ((r.rs : Int) - cfg) * 10 ≤ 3 * cfg &&
      factor (r.fluxCorr % 65536) && factor (r.fluxCorr / 65536)
  else if id = 0x0502 then
    let loaded := h.parI (perBridge 0x0521 b)
    absI ((r.psiM : Int) - loaded) * 20 ≤ loaded && w.all (fun x => absI (angleDiff x.2 r.offset) ≤ 5965232)
  else true

/-- An identification's result waits for the next control boundary of its bridge (R137); INITIAL_ANGLE references an encoder (R135). -/
def Hw.identValues (h : Hw) (id : Nat) (b : Bridge) (r : IdentResult) : Hw :=
  let put (x : Hw) (p v : Nat) : Hw := x.paramWait (perBridge p b) v none
  if id = 0x0501 then put (put h 0x051F r.rs) 0x0528 r.fluxCorr
  else if id = 0x0502 then put (put h 0x0521 r.psiM) 0x0405 r.offset.toNat
  else match resolverOf (h.par (perBridge 0x0401 b)) with
    | some _ => put h 0x0405 r.offset.toNat
    | none => h.modEnc (h.par (perBridge 0x0401 b) - 0x20) (fun e => { e with referenced := true })

/-- The IDENT_RESULT event (R306): 0 for a value the test does not produce. -/
def Hw.identEvent (h : Hw) (id : Nat) (b : Bridge) (bad : Bool) (r : IdentResult) : Hw :=
  h.postEvent 0x0503 h.time.now ([BitVec.ofNat 8 b.code, BitVec.ofNat 8 id, if bad then 1 else 0, 0] ++ leBytes 4 r.rs ++
    leBytes 4 r.fluxCorr ++ leBytes 4 r.psiM ++ leBytes 4 r.offset.toNat)

/-- A learned harmonic table waits for the boundary of its bridge, and is posted (R93). -/
def Hw.harmLearned (h : Hw) (r : Nat) (l : Learn) : Hw :=
  let t := l.table (h.res r).table
  let half (k : Nat) (c : Option (BitVec 256)) : List Byte := [BitVec.ofNat 8 r, BitVec.ofNat 8 k, 0, 0] ++ leBytes 32 (c.getD 0).toNat
  ((h.modRes r (fun x => { x with next := t, learn := none })).postEvent 0x0401 h.time.now (half 0 t.low)).postEvent 0x0401
    h.time.now (half 1 t.high)

/-- A test's good end beside its completion. -/
def Hw.testPassed (h : Hw) (id inst : Nat) (d : IdentData) (w : List (Nat × W32)) : Hw :=
  let b := instBridge inst
  if id = 0x0401 then (match (h.res inst).learn with | some l => h.harmLearned inst l | none => h)
  else if id = 0x0501 || id = 0x0502 || id = 0x0503 then
    (let r := h.identResult id b d w
     ((h.identValues id b r).identEvent id b false r).endIdent b)
  else if id = 0x0303 then h.trimSkew
  else if id = 0x0701 then { h with lv := { h.lv with isoFails := 0 } }
  else h

/-- A rejected result (R93, R137). -/
def Hw.testRejected (h : Hw) (id inst : Nat) (d : IdentData) (w : List (Nat × W32)) : Hw :=
  let b := instBridge inst
  if id = 0x0501 || id = 0x0502 || id = 0x0503 then
    ((h.identEvent id b true (h.identResult id b d w)).endIdent b).occur fltTrqIdentRejected (BitVec.ofNat 8 inst)
  else if id = 0x0401 then h.modRes inst (fun r => { r with learn := none })
  else h

/-- Tests that end by commands of their own: OFFSET_TRACK, SYSTEM_CAL, OFFSTATE_DIAG, STO_PATH. -/
def ownEnd : List Nat := [0x0301, 0x0305, 0x0601, 0x0A02]

/-- The outcome of a test where the module finds it itself (R93, R137, R168): a learned table and an identification are accepted or not,
the dies of every position agree with their substrate,
the cells share their load (R199), and the discharge current is within 15 % of VDC / 600 ohm (R287). -/
def Hw.outcomeOf (h : Hw) (id inst : Nat) (out : TestOutcome) (d : IdentData) (w : List (Nat × W32)) : TestOutcome :=
  let judged (ok : Bool) : TestOutcome := if out == .fail then .fail else if ok then .pass else .reject
  if id = 0x0401 then judged (match (h.res inst).learn with | some l => l.accepted | none => false)
  else if id = 0x0501 || id = 0x0502 || id = 0x0503 then judged (h.identAccepted id (instBridge inst) d w)
  else if id = 0x0606 then (if h.diesAstray.isEmpty then .pass else .fail)
  else if id = 0x0703 then (if (List.range 4).any (fun k => h.cellDiffers k) then .fail else .pass)
  else if id = 0x0A05 then (if 100 * absI (600 * d.i1 - h.pwr.vdc) ≤ 15 * h.pwr.vdc then out else .fail)
  else out

/-- A test that runs ends with an outcome (R51). -/
def Hw.testEnd (h : Hw) (id inst : Nat) (out : TestOutcome) (d : IdentData) (w : List (Nat × W32)) : Hw :=
  let key := testKey id inst
  match h.outcomeOf id inst out d w with
  | .pass =>
    let h1 := (h.testPassed id inst d w).stepTest id key 1
    if (id = 0x0501 || id = 0x0503) && (h1.findTest id 1).isSome && key = 0 then h1.testBegin id 1 else h1
  | .reject => (h.testRejected id inst d w).endTest id key .range
  | .fail => (((h.endIdent (instBridge inst)).endTest id key .hwFault)).testFault id inst

/-- A test has come to its end (R93, R136): HARMONIC_LEARN has fitted 64 revolutions, IDENT_MAGNET has its eight windows, any other
runs. -/
def Hw.testRipe (h : Hw) (id inst : Nat) (t : TestRun) : Bool :=
  if id = 0x0502 then 8 ≤ t.windows.length
  else if id = 0x0401 then (match (h.res inst).learn with | some l => 64 ≤ l.count | none => true)
  else t.running

/-- TEST_COMPLETE (R51); a hardware fault ends a test at any time. -/
def Hw.testComplete (h : Hw) (id inst : Nat) (out : TestOutcome) (d : IdentData) : Hw :=
  match h.findTest id (testKey id inst) with
  | none => h
  | some t => if ownEnd.contains id || !(h.testRipe id inst t || out == .fail) then h else h.testEnd id inst out d t.windows

/-- TEST_COMPLETE (R51). -/
def execTestComplete (testId : W16) (inst : Byte) (outcome : TestOutcome) (data : IdentData) (s : State) :
    Host.Outcome State Fault Refusal :=
  onHw (fun h => h.testComplete testId.toNat inst.toNat outcome data) s

/-- The conditions of a window of IDENT_MAGNET (R136): torque service with a setpoint below 1 % of peak for 20 ms, 1000 rpm to
0.8 x n_x,safe, and a magnet estimate by the first method of R132. -/
def Hw.magnetWindow (h : Hw) (b : Bridge) : Bool :=
  let c := h.ctl b
  let n := absI c.speed
  c.state == .runTorque && heldFor c.lowAt (20 * msTicks) h.time.clock && 100000 ≤ n && 10 * n ≤ 8 * h.nxSafe b &&
    c.magCold && c.magTemp.isSome

/-- The bridge was open in a window and resumes by synchronised start toward its setpoint (R136). -/
def Hw.resumeGap (h : Hw) (b : Bridge) : Hw :=
  h.modCtl b (fun c =>
    { c.cease with state := .sync, ordered := false, stored := c.target.map (fun sp => { sp := sp, req := none }), syncReady := false
                   syncAsc := false, syncEmf := none, lowAt := none })

/-- A measured magnet flux in 0.1 uVs referred to MAG_TREF (R136). -/
def Hw.psiAtRef (h : Hw) (b : Bridge) (psi : Nat) : Nat :=
  ((psi : Int) * 100000000 / maxI (100000000 + h.parI (perBridge 0x0523 b) * (h.magEst b - h.parI 0x0525)) 1).toNat

/-- A window of IDENT_MAGNET (R136): one of the eight of the test; with none waiting the windows that run every MAG_HOLD / 2 refresh
the magnet temperature. -/
def Hw.magnetGap (h : Hw) (inst psiM : Nat) (elecOffset : W32) : Hw :=
  let b := instBridge inst
  if !h.magnetWindow b then h
  else match h.findTest 0x0502 inst with
    | some t =>
      if 8 ≤ t.windows.length then h
      else (h.modTest 0x0502 inst (fun t => { t with windows := t.windows ++ [(h.psiAtRef b psiM, elecOffset)] })).resumeGap b
    | none =>
      if (h.ctl b).magAt + h.parTicks 0x0527 / 2 ≤ h.time.clock then
        (match h.fluxToKelvin b ((psiM : Int) - h.parI (perBridge 0x0521 b)) with
         | some d => h.modCtl b (fun c => { c with magTemp := some (h.parI 0x0525 + d), magAt := h.time.clock, magRem := 0 })
         | none => h).resumeGap b
      else h

/-- GAP_WINDOW (R51): a waiting gap-class test runs in the window; IDENT_MAGNET gathers eight (R136), and LV_ISOSW_CHECK
needs the switch open (R199). -/
def Hw.gapWindow (h : Hw) (id inst : Nat) (out : TestOutcome) (psiM : Nat) (elecOffset : W32) : Hw :=
  if id = 0x0502 && out == .pass then h.magnetGap inst psiM elecOffset
  else match h.findTest id (testKey id inst) with
  | none => h
  | some t =>
    if t.running || (id = 0x0701 && h.lv.closed) || ownEnd.contains id || (id = 0x0502 && out == .reject) then h
    else h.testEnd id inst out {} []

/-- GAP_WINDOW (R51). -/
def execGapWindow (testId : W16) (inst : Byte) (outcome : TestOutcome) (psiM : Nat) (elecOffset : W32) (s : State) :
    Host.Outcome State Fault Refusal :=
  onHw (fun h => h.gapWindow testId.toNat inst.toNat outcome psiM elecOffset) s

/-- TEST_DEADLINE (R51). An offset run that the request started goes on for its own sake (DESIGN CHOICE: R70 does not say what
becomes of it). -/
def Hw.testDeadline (h : Hw) (id inst : Nat) : Hw :=
  let key := testKey id inst
  match h.tests.find? (fun t => t.id.toNat == id && (t.inst.toNat == key || t.covers id key)) with
  | none => h
  | some t =>
    if t.cls = 1 && t.deadline ≤ h.time.clock then h.endTest id (if t.inst == 0xFF then t.count else key) .deferred else h

/-- TEST_DEADLINE (R51). -/
def execTestDeadline (testId : W16) (inst : Byte) (s : State) : Host.Outcome State Fault Refusal :=
  onHw (fun h => h.testDeadline testId.toNat inst.toNat) s

/-! ## OFFSTATE_DIAG (R167) -/

/-- A finding belongs to the bridge. -/
def findingOn (f : OffstateFinding) (b : Bridge) : Bool :=
  match f with
  | .switchShorted p => posBridge p.val == b
  | .gateLoop p => posBridge p.val == b
  | .switchOpen p => posBridge p.val == b
  | .phaseOpen l => (if l.val < 3 then Bridge.brA else .brB) == b

/-- What a finding marks and raises. -/
def Hw.offstateFound (h : Hw) (b : Bridge) (f : OffstateFinding) : Hw :=
  match f with
  | .switchShorted p =>
    (((h.modGate b (fun g => { g with shorted := g.shorted ||| posBit p.val })).checkInhibit b).raiseOnce fltSwitchShorted
      (BitVec.ofNat 8 p.val)).refreshSafe b
  | .gateLoop p => h.raiseOnce fltGateLoop (BitVec.ofNat 8 p.val)
  | .switchOpen p =>
    ((h.modGate b (fun g => { g with opened := g.opened ||| posBit p.val })).raiseOnce fltSwitchOpen
      (BitVec.ofNat 8 p.val)).refreshSafe b
  | .phaseOpen l => h.raiseOnce fltPhaseOpen (BitVec.ofNat 8 l.val)

/-- A run on the bridge is under way (R167). -/
def Hw.offstateDue (h : Hw) (b : Bridge) : Bool := (h.gate b).offRunning

/-- OFFSTATE_DIAG (R167): the end of a run on a bridge with all it found; with nothing found the run is passed, and a
requested one goes on to the other bridge, or completes. -/
def Hw.offstate (h : Hw) (b : Bridge) (found : List OffstateFinding) : Hw :=
  if !h.offstateDue b || !found.all (fun f => findingOn f b) then h
  else if found.isEmpty then
    let h1 := (h.modGate b (fun g => { g with offRunning := false, offPassed := true })).stepTest 0x0601 b.code 1
    if b == .brA && (h1.findTest 0x0601 1).isSome then h1.modGate .brB (fun g => { g with offRunning := true }) else h1
  else
    (found.foldl (fun x f => x.offstateFound b f) (h.modGate b (fun g => { g with offRunning := false }))).endTest 0x0601
      b.code .hwFault

/-- OFFSTATE_DIAG (R167). -/
def execOffstateDiag (b : Bridge) (findings : List OffstateFinding) (s : State) : Host.Outcome State Fault Refusal :=
  onHw (fun h => h.offstate b findings) s

/-! ## STO_PATH (R265) -/

/-- OFFSTATE_DIAG, which waits at an entry to READY, follows STO_PATH (R167, R265). -/
def Hw.offstateBoth (h : Hw) : Hw := (h.offstateLook .brA).offstateLook .brB

/-- A channel's series switch opened both bridges' gate rails (R265): each fell below 3 V within 2 ms and recovered within 5 ms. -/
def seriesOpened (rails : List (Nat × Nat)) : Bool :=
  rails.length = 4 && rails.all (fun r => r.1 ≤ 2 * msTicks && r.2 ≤ 5 * msTicks)

/-- STO_PATH (R265): channel A, then channel B, with ASC_ARM clear; a failure raises STO_PATH_FAIL. -/
def Hw.stoPath (h : Hw) (chB : Bool) (rails : List (Nat × Nat)) : Hw :=
  match h.findTest 0x0A02 0 with
  | none => h
  | some t =>
    if chB != (t.count == 1) || h.gateA.ascArm || h.gateB.ascArm then h
    else if !seriesOpened rails then ((h.endTest 0x0A02 0 .hwFault).raiseOnce fltStoPathFail (if chB then 1 else 0)).offstateBoth
    else if chB then (h.endTest 0x0A02 0 .done).offstateBoth
    else h.modTest 0x0A02 0 (fun t => { t with count := 1 })

/-- STO_PATH (R265). -/
def execStoPath (chB : Bool) (rails : List (Nat × Nat)) (s : State) : Host.Outcome State Fault Refusal :=
  onHw (fun h => h.stoPath chB rails) s

end Sys2Proof.Machine
end

