-- ==== Sys2Proof/Machine/Position.lean ====
section
/-!
DEFINITION. Machine/Position.lean: the position interfaces: resolvers (R88-R94), encoders (R95-R99), Hall sets (R100), SENT
channels (R101, R102), and the encoder outputs that follow an encoder (R103).
-/
namespace Sys2Proof.Machine

/-- The position interfaces run: the module is awake and sensing is supplied (R109). -/
def Hw.posRuns (h : Hw) : Bool := h.powered 4 && !h.pwr.senseLost

/-! ## Resolvers (R88-R92) -/

/-- The general pair of a resolver's slot at a module time (R89): its own, and another while an urgent request takes that. -/
def Hw.slotPair (h : Hw) (n : Nat) (t : W64) : Nat :=
  let clock := h.time.clock - (h.time.now - t).toNat
  ([12 + n, 14, 15, 13 - n].find? (fun p => h.sen.urgentBy.get p 0 ≤ clock)).getD (12 + n)

/-- The interleaved samples of a BURST on a general pair (R56, R89): the cores take turns, the even one alone where the odd one
has failed (R68). -/
def Hw.burstSamples (h : Hw) (p : Nat) (codes : List Int) (t : W64) : List Sample :=
  let half := h.sen.halfRate.getLsbD p
  ((List.range 4).zip codes).map (fun x =>
    { core := ⟨(2 * p + (if half then 0 else x.1 % 2)) % 32, Nat.mod_lt _ (by decide)⟩, code := x.2, instant := t })

/-- The set-up of a BURST accumulator of a resolver (R89). -/
def slotConfig (input : Nat) : AccCfg :=
  { input := input, closure := 4, base := 6, gate := 0, gateArg := 0, paired := true, length := 0, delay := 0, run := true }

/-- One BURST goes into its accumulator (R89); one that an urgent request has aborted is counted there (R65). -/
def Hw.slotBurst (h : Hw) (acc input p : Nat) (codes : Option (List Int)) (t : W64) : Hw :=
  let a := h.acc acc
  match codes with
  | some l => h.setAcc acc { a with last := some (h.accRecord acc a (slotConfig input) (h.burstSamples p l t) t), aborts := 0 }
  | none => h.setAcc acc { a with aborts := a.aborts + 1 }

/-- The slots of one peak: SIN, COS and excitation feedback into accumulators 80-85 of RES0 or 86-91 of RES1, those of the
negative peak one behind those of the positive (R89). -/
def Hw.slotPeak (h : Hw) (n neg : Nat) (x : PeakSlots) : Hw :=
  let p := h.slotPair n x.instant
  let k := 80 + 6 * n + neg
  ((h.slotBurst k (62 + 2 * n) p x.sin x.instant).slotBurst (k + 2) (63 + 2 * n) p x.cos x.instant).slotBurst (k + 4) (66 + n) p
    x.exc x.instant

/-- The sum in corrected codes of the BURST an accumulator holds (R89), none where this period's was lost. -/
def Hw.slotSum (h : Hw) (acc : Nat) (codes : Option (List Int)) : Option Int :=
  codes.bind (fun _ => (h.acc acc).last.map (·.sum))

/-- Demodulated amplitude in 1/8 of a corrected code: of both peaks (R89), or of the one that is left (R91). -/
def demod (p n : Option Int) : Option Int :=
  match p, n with
  | some x, some y => some (x - y)
  | some x, none => some (2 * x)
  | none, some y => some (-2 * y)
  | none, none => none

/-- The sums of SIN and COS at a peak, none where either BURST was lost: an angle is built from whole peaks (R91). -/
def wholePeak (s c : Option Int) : Option (Int × Int) :=
  match s, c with
  | some x, some y => some (x, y)
  | _, _ => none

/-- A condition of so many consecutive periods. -/
def runOf (old : Nat) (bad : Bool) (most : Nat) : Nat := if bad then min (old + 1) most else 0

/-- The excitation lies outside 10 % of its setting (R88): peak in 1/8 code of +-20.48 V against mV rms. -/
def excOff (exc : Int) (setting : Nat) : Bool :=
  let e := exc * exc * 20480 * 20480 * 100
  let s : Int := 2 * (setting : Int) * setting * 262144 * 262144
  e < 81 * s || 121 * s < e

/-- The amplitude lies outside RES_AMPL_WINDOW (R92), in 0.1 % of the excitation. -/
def amplOff (s c exc : Int) (window : Nat) : Bool :=
  let a := (s * s + c * c) * 10240 * 10240 * 1000000
  let x := exc * 20480 * (exc * 20480)
  let lo : Int := window % 65536
  let hi : Int := window / 65536
  a < lo * lo * x || hi * hi * x < a

/-- A fault that follows a condition. -/
def Hw.followFault (h : Hw) (f : FaultId) (src : Byte) (bad : Bool) : Hw := if bad then h.raiseOnce f src else h.clearFault f.code src

/-- The module time an angle refers to: the midpoint between the peak instants (R89); an angle from one peak alone refers to that
peak (DESIGN CHOICE: R91 gives it no instant). -/
def angleInstant (pos neg : Bool) (p n : W64) : W64 :=
  if pos && neg then BitVec.ofNat 64 ((p.toNat + n.toNat) / 2) else if pos then p else n

/-- The way since the last angle in the resolver's turns, 2^32 each: the one nearest to what the speed predicts, so that it holds
over lost periods too. -/
def Resolver.advance (r : Resolver) (angle : W32) (dt : Int) (poles : Nat) : Int :=
  let way := wayOf (r.speed * poles) dt
  way + angleDiff angle (r.angle + BitVec.ofInt 32 way)

/-- A built angle: the speed from the way since the last one, and the resolver's turn within the mechanical turn (R89, R92). -/
def Resolver.turnTo (r : Resolver) (angle : W32) (t : W64) (poles : Nat) : Resolver :=
  if !r.valid then { r with angle := angle, angleAt := t, valid := true, speed := 0, lap := 0, missing := 0 }
  else
    let dt : Int := max ((t - r.angleAt).toNat : Int) 1
    let way := r.advance angle dt poles
    let turns := ((r.lap : Int) * 4294967296 + r.angle.toNat + way) / 4294967296
    { r with angle := angle, angleAt := t, missing := 0, lap := (turns % max (poles : Int) 1).toNat
             speed := way * 6000 * sTicks / (4294967296 * dt * max (poles : Int) 1) }

/-- The angle of a period (R89, R91): built from the peaks that are left, or missing and then extrapolated. -/
def Resolver.build (r : Resolver) (pos neg : Option (Int × Int)) (p n : W64) (poles : Nat) : Resolver :=
  match demod (pos.map (·.1)) (neg.map (·.1)), demod (pos.map (·.2)) (neg.map (·.2)) with
  | some s, some c =>
    ({ r with s := s, c := c } : Resolver).turnTo (Config.atan2 s c) (angleInstant pos.isSome neg.isSome p n) poles
  | _, _ => { r with missing := min (r.missing + 1) 3 }

/-- The carrier tracking of a period with shifted slots (R90): its demodulated amplitudes are the quadrature, and the delay moves
where the quadrature vector has reached 2 % of the in-phase vector, that of the last period with unshifted slots. Comparing the
lengths of the two vectors is the model's reading of "amplitude" (DESIGN CHOICE). -/
def Resolver.track (r : Resolver) (s c : Int) : Resolver :=
  let inPhase := r.s * r.s + r.c * r.c
  if inPhase ≤ 2500 * (s * s + c * c) then { r with delay := r.delay + Config.slotShift (r.s * s + r.c * c) inPhase } else r

/-- A learning resolver takes a built angle, corrected and mechanical (R93). -/
def Resolver.teach (r : Resolver) (old : Resolver) (poles : Nat) : Resolver :=
  let at' (x : Resolver) : W32 := harmCorrected r.table (x.mech poles)
  if old.valid && r.angleAt != old.angleAt then
    { r with learn := r.learn.map (fun l => l.step (at' old) (at' r) old.angleAt r.angleAt) }
  else r

/-- A period with slots at the peaks (R88, R89, R91, R92): angle, speed and the resolver's checks. -/
def Hw.peakPeriod (h : Hw) (n : Nat) (pos neg : Option (Int × Int)) (p m : W64) (exc : Option Int) : Hw :=
  let src := BitVec.ofNat 8 (0x10 + n)
  let freq := h.par (0x0407 + n)
  let poles := h.par (0x040B + n)
  let r := h.res n
  let r1 := r.build pos neg p m poles
  let excBad := match exc with | some x => runOf r.excBad (excOff x (h.par (0x0409 + n))) 8 | none => r.excBad
  let e := exc.getD r.exc
  let amplBad := if pos.isSome || neg.isSome then runOf r.amplBad (amplOff r1.s r1.c e (h.par (0x040D + n))) 2 else r.amplBad
  let fast : Bool := decide ((freq : Int) * 6000 < 5 * absI r1.speed * poles)
  let r2 := { r1 with exc := e, excBad := excBad, amplBad := amplBad, excFault := excBad == 8, signal := amplBad == 2
                      overspeed := fast, periods := r.periods + 1 }
  let h1 := h.modRes n (fun _ => r2.teach r poles)
  ((h1.followFault fltResExcFault src (excBad == 8)).followFault fltResSignal src (amplBad == 2)).followFault fltResOverspeed src fast

/-- A period whose slots stand a quarter of the excitation period behind the peaks (R90). It gives the quadrature; no angle is built
from it and its excitation is not judged, since its slots see neither at a peak (DESIGN CHOICE: R90 does not say). -/
def Hw.quarterPeriod (h : Hw) (n : Nat) (pos neg : Option (Int × Int)) : Hw :=
  h.modRes n (fun r =>
    match demod (pos.map (·.1)) (neg.map (·.1)), demod (pos.map (·.2)) (neg.map (·.2)) with
    | some s, some c => { r.track s c with periods := 0 }
    | _, _ => { r with periods := 0 })

/-- RESOLVER_PERIOD (R88-R92). -/
def Hw.resolverPeriod (h : Hw) (n : Nat) (pos neg : PeakSlots) : Hw :=
  if !h.posRuns then h
  else
    let k := 80 + 6 * n
    let h1 := (h.slotPeak n 0 pos).slotPeak n 1 neg
    let p := wholePeak (h1.slotSum k pos.sin) (h1.slotSum (k + 2) pos.cos)
    let m := wholePeak (h1.slotSum (k + 1) neg.sin) (h1.slotSum (k + 3) neg.cos)
    let exc := demod (h1.slotSum (k + 4) pos.exc) (h1.slotSum (k + 5) neg.exc)
    let lost := [pos.sin, neg.sin, pos.cos, neg.cos, pos.exc, neg.exc].any (·.isNone)
    let h2 := if lost then (h1.count 0x083 1).occur fltResSlotLost (BitVec.ofNat 8 (0x10 + n)) else h1
    if 63 ≤ (h.res n).periods then h2.quarterPeriod n p m else h2.peakPeriod n p m pos.instant neg.instant exc

/-- RESOLVER_PERIOD (R89). -/
def execResolverPeriod (r : Fin 2) (pos neg : PeakSlots) (s : State) : Host.Outcome State Fault Refusal :=
  onHw (fun h => h.resolverPeriod r.val pos neg) s

/-- POS_HARM_LOAD (R94): a half waits for the other and for the boundary of the bridge served. Where the
resolver serves no bridge a whole table takes effect at once (DESIGN CHOICE: R94 names no boundary then). -/
def Hw.harmLoad (h : Hw) (d : Desc) (q : Req) : Hw :=
  match h.harmCheck d false with
  | some st => h.complete q st
  | none =>
    let n := d.num 16 1
    let h1 := h.modRes n (fun r =>
      { r.loadHalf (d.num 17 1 == 1) (d.payload.extractLsb' 32 256) with reqs := r.reqs ++ [q] })
    if (h.servedBy (0x10 + n)).isSome then h1 else h1.harmActivate n

/-- POS_HARM_LOAD (R94). -/
def execPosHarmLoad (d : Desc) (s : State) : Host.Outcome State Fault Refusal :=
  onHw (fun h => h.descriptor 0x0402 d (fun q h => h.unlessCamp q (fun h => h.harmLoad d q))) s

/-! ## Encoders (R96-R99) -/

/-- Position of the levels in the quadrature sequence, A leading B forward: 00, 10, 11, 01. -/
def quadrature (a b : Bool) : Nat := match a, b with | false, false => 0 | true, false => 1 | true, true => 2 | false, true => 3

/-- Direction of a change of levels, +1 or -1; 0 for none, none for an illegal one (R96). -/
def quadStep (a b a' b' : Bool) : Option Int :=
  let d := (quadrature a' b' + 4 - quadrature a b) % 4
  if d = 0 then some 0 else if d = 1 then some 1 else if d = 3 then some (-1) else none

/-- An encoder's emulated outputs follow its count, and between its edges its speed (R103). -/
def Hw.outEncoder (h : Hw) (n : Nat) : Hw :=
  (List.range 2).foldl (fun x k =>
    let ratio := x.par (0x0422 + k)
    let e := x.enc n
    if x.par (0x0420 + k) = 3 + n then
      x.outFollow k (e.count * (ratio % 65536 : Nat) / (max (ratio / 65536) 1 : Nat)) (e.speed * x.outCounts k) e.healthy else x) h

/-- A level has been stable for the filter's ticks and one more (R95). -/
def encStable (cfg stable : Nat) : Bool := cfg / 128 % 32 + 1 ≤ stable

/-- One count in a direction: the count, the window's edges and reversals (R98, R99). -/
def Encoder.move (e : Encoder) (dir : Int) (now : W64) (irq : Bool) : Encoder :=
  let turned : Bool := e.dir = -dir
  { e with count := e.count + dir, dir := dir, edges := e.edges + 1, last := now
           first := if e.edges = 0 then now else e.first
           reversals := if turned then e.reversals + 1 else e.reversals
           dirIrq := e.dirIrq || (turned && irq) }

/-- ENC_EDGE (R95, R96): an encoder that is off counts nothing. "Within 4 x ENC_LINES counts" is taken as the net distance of the
counts at which the illegal transitions came (DESIGN CHOICE: R96 does not say whether counts to and fro add up). -/
def Hw.encEdge (h : Hw) (n : Nat) (a b : Bool) (stable : Nat) : Hw :=
  let cfg := h.par (0x0411 + n)
  let e := h.enc n
  if !h.posRuns || cfg % 4 = 0 || !encStable cfg stable then h
  else match quadStep e.a e.b a b with
    | some d =>
      let dir := if cfg / 8 % 2 = 1 then -d else d
      if d = 0 then h
      else (h.modEnc n (fun e => { e.move dir h.time.now (cfg / 64 % 2 == 1) with a := a, b := b })).outEncoder n
    | none =>
      let turn : Int := 4 * h.par (0x040F + n)
      let marks := e.count :: (e.illegalAt.filter (fun c => decide (absI (e.count - c) ≤ turn))).take 2
      let bad : Bool := decide (3 ≤ marks.length)
      let h1 := (h.modEnc n (fun e => { e with a := a, b := b, illegalAt := marks, illegal := e.illegal || bad })).count (0x084 + n) 1
      if bad then h1.raiseOnce fltEncIllegal (BitVec.ofNat 8 (0x20 + n)) else h1

/-- ENC_EDGE (R96). -/
def execEncEdge (e : Fin 2) (a b : Bool) (stable : Nat) (s : State) : Host.Outcome State Fault Refusal :=
  onHw (fun h => h.encEdge e.val a b stable) s

/-- The count becomes 0 at an index, with what refers to it (R97). -/
def Encoder.zero (e : Encoder) : Encoder :=
  { e with count := 0, startCount := e.startCount - e.count, illegalAt := e.illegalAt.map (fun c => c - e.count), referenced := true }

/-- ENC_INDEX (R97). -/
def Hw.encIndex (h : Hw) (n : Nat) (a b : Bool) (stable : Nat) : Hw :=
  let cfg := h.par (0x0411 + n)
  let e := h.enc n
  if !h.posRuns || cfg % 4 = 0 || !encStable cfg stable || !a || !b then h
  else if cfg / 16 % 2 = 1 then
    (if e.armed then
      ((h.modEnc n (fun e => { e.zero with armed := false })).postEvent 0x0402 h.time.now
        ([BitVec.ofNat 8 n, 0, 0, 0] ++ leBytes 4 (ofInt 4 e.count))).outEncoder n
     else h)
  else
    let off := shortWay (4 * h.par (0x040F + n)) 0 e.count
    let bad := runOf e.mismatches (decide (2 < absI off)) 2
    let h1 := h.modEnc n (fun e => { e.zero with mismatches := bad, mismatch := e.mismatch || bad == 2 })
    (if bad = 2 then h1.raiseOnce fltEncIndexMismatch (BitVec.ofNat 8 (0x20 + n)) else h1).outEncoder n

/-- ENC_INDEX (R97). -/
def execEncIndex (e : Fin 2) (a b : Bool) (stable : Nat) (s : State) : Host.Outcome State Fault Refusal :=
  onHw (fun h => h.encIndex e.val a b stable) s

/-- POS_INDEX_ARM (R97). -/
def execPosIndexArm (d : Desc) (s : State) : Host.Outcome State Fault Refusal :=
  onHw (fun h => h.descriptor 0x0401 d (fun q h => h.unlessCamp q (fun h =>
    let n := d.num 16 1
    if 1 < n then h.complete q .range else (h.modEnc n (fun e => { e with armed := true })).complete q .done))) s

/-- A quotient with the sign of its dividend, rounded toward zero. -/
def towardZero (a : Int) (b : Nat) : Int := if a < 0 then -((-a) / (b : Int)) else a / (b : Int)

/-- The speed of a window that ends, 0.01 rpm (R99). -/
def Encoder.windowSpeed (e : Encoder) (lines t : Nat) (now : W64) : Int :=
  let span := (e.last - e.first).toNat
  if e.edges = 0 then
    (if 1 ≤ e.empty then 0
     else
      let cap : Int := 6000 * sTicks / (4 * lines * max (now - e.last).toNat 1)
      clampI (-cap) cap e.speed)
  else if 3 ≤ e.edges && e.reversals = 0 && 0 < span then e.dir * (((e.edges - 1) * sTicks * 6000 / (4 * lines * span) : Nat) : Int)
  else towardZero ((e.count - e.startCount) * 6000000000) (4 * lines * max t 1)

/-- The encoder with its window closed. -/
def Encoder.close (e : Encoder) (lines t : Nat) (now : W64) : Encoder :=
  { e with speed := e.windowSpeed lines t now, dirChange := e.reversals != 0, lastReversals := e.reversals
           lastChange := e.count - e.startCount, lastEdges := e.edges, lastFirst := e.first, lastLast := e.last
           still := e.edges == 0 && 1 ≤ e.empty, empty := runOf e.empty (e.edges == 0) 2, edges := 0, reversals := 0
           startCount := e.count, dirIrq := false
           windowAt := if (now - e.windowAt).toNat < 800 * t then e.windowAt + BitVec.ofNat 64 (400 * t) else now }

/-- ENC_SPEED_WINDOW (R99): a window of T that has run its length ends, and the next begins there. -/
def execEncSpeedWindow (e : Fin 2) (s : State) : Host.Outcome State Fault Refusal :=
  onHw (fun h =>
    let n := e.val
    let t := h.par (0x0413 + n)
    if !h.posRuns || h.par (0x0411 + n) % 4 = 0 || (h.time.now - (h.enc n).windowAt).toNat < 400 * t then h
    else h.modEnc n (fun x => x.close (max (h.par (0x040F + n)) 1) t h.time.now)) s

/-! ## Hall sets (R100, R242) -/

/-- Place of a Hall state in forward rotation 1, 3, 2, 6, 4, 5. -/
def hallPlace (st : Nat) : Option Nat := [1, 3, 2, 6, 4, 5].findIdx? (· == st)

/-- The drive's Halls have been consistent for 1 s of movement in READY or WORKSHOP (R242). -/
def Hw.hallTrust (h : Hw) (i : Nat) (since : Nat) : Hw :=
  let d := h.act.drive i
  let idle := h.mode.mode == .ready || h.mode.mode == .workshop
  if !d.hallBad then h
  else
    let ok := if idle && since ≤ 20 * msTicks then some (d.hallOkAt.getD h.time.clock) else if idle then some h.time.clock else none
    let h1 := h.modDrive i (fun d => { d with hallOkAt := ok })
    if heldFor ok sTicks h.time.clock then
      (h1.modDrive i (fun d => { d with hallBad := false, hallOkAt := none })).clearFault fltActHallObserver.code (BitVec.ofNat 8 i)
    else h1

/-- Speed in 0.01 rpm electrical from commutation events, newest first (R100): six changes, which span one electrical period, are
those between seven events (DEDUCED); 0 before there are as many. -/
def hallSpeed (events : List W64) (forward : Bool) : Int :=
  match events[0]?, events[6]? with
  | some new, some old =>
    let n : Int := (6000 * sTicks : Int) / max ((new - old).toNat : Int) 1
    if forward then n else -n
  | _, _ => 0

/-- The electrical angle at which a Hall state begins in the direction of rotation; forward rotation enters state 1, or with the
sequence inverted state 5, at angle 0 (DESIGN CHOICE: the rules name no origin). -/
def hallBoundary (invert forward : Bool) (st : Nat) : W32 :=
  let p := (hallPlace st).getD 0
  let q := if invert then 5 - p else p
  BitVec.ofNat 32 ((if forward then q else q + 1) * 4294967296 / 6)

/-- A commutation event of a Hall set (R100). -/
def Hw.commute (h : Hw) (k : Nat) (st : Nat) (forward : Bool) : Hw :=
  let x := h.pos.halls.get k {}
  let since := match x.events with | [] => 0 | t :: _ => (h.time.now - t).toNat
  let events := (h.time.now :: x.events).take 7
  let angles := (hallBoundary (h.par (0x0415 + k) / 256 % 2 = 1) forward st :: x.angles).take 3
  let y := { x with st := st, forward := forward, events := events, speed := hallSpeed events forward, angles := angles }
  let i := h.par (0x0415 + k) / 512 % 4
  let h1 : Hw := { h with pos := { h.pos with halls := h.pos.halls.set k y } }
  if i < 3 then h1.hallTrust i since else h1

/-- HALL_CHANGE (R100): a state counts once it has persisted for the filter, in 80 ns. -/
def Hw.hallChange (h : Hw) (k st stable : Nat) : Hw :=
  let src := BitVec.ofNat 8 (0x30 + k)
  let x := h.pos.halls.get k {}
  let put (h : Hw) (y : HallSet) : Hw := { h with pos := { h.pos with halls := h.pos.halls.set k y } }
  if !h.posRuns || stable < 32 * (h.par (0x0415 + k) % 256) then h
  else match hallPlace st with
    | none => ((put h { x with invalid := true }).raiseOnce fltHallInvalid src).hallsLost (h.par (0x0415 + k) / 512 % 4)
    | some new =>
      let h1 := (put h { x with invalid := false }).clearFault fltHallInvalid.code src
      match hallPlace x.st with
      | none => put h1 { x with invalid := false, st := st }
      | some old =>
        let d := (new + 6 - old) % 6
        let invert := h.par (0x0415 + k) / 256 % 2 = 1
        if d = 0 then h1
        else if d = 1 then h1.commute k st (!invert)
        else if d = 5 then h1.commute k st invert
        else h1.count (0x086 + k) 1

/-- HALL_CHANGE (R100). -/
def execHallChange (k : Fin 3) (st : Fin 8) (stable : Nat) (s : State) : Host.Outcome State Fault Refusal :=
  onHw (fun h => h.hallChange k.val st.val stable) s

/-! ## SENT (R101, R102) -/

/-- One step of the CRC-4 of SAE J2716, polynomial x^4 + x^3 + x^2 + 1. -/
def crc4Step (c nibble : Nat) : Nat := ([0, 13, 7, 10, 14, 3, 9, 4, 1, 12, 6, 11, 15, 2, 8, 5].getD (c % 16) 0) ^^^ (nibble % 16)

/-- The CRC-4 over the data nibbles from seed 5; the recommended method takes one more zero nibble. -/
def crc4 (legacy : Bool) (data : List Nat) : Nat := (if legacy then data else data ++ [0]).foldl crc4Step 5

/-- The value of data nibbles, the first most significant. -/
def nibbleValue (data : List Nat) : Nat := data.foldl (fun a n => 16 * a + n % 16) 0

/-- A frame passes the checks of R102; `n` data nibbles, `prev` the previous synchronisation length. A pause pulse follows exactly
where the channel is set up for one; elsewhere it is a pulse too many. -/
def sentOk (cfg sync : Nat) (prev : Option Nat) (lengths nibbles : List Nat) (crc : Nat) (pause : Bool) : Bool :=
  let n := cfg / 1024 % 8
  pause == (cfg / 8192 % 2 == 1) && lengths.all (fun l => 12 ≤ l && l ≤ 27) && nibbles.length == n + 1 && lengths.length == n + 2 &&
  crc4 (cfg / 65536 % 2 == 1) (nibbles.drop 1) == crc &&
  (match prev with | some p => absI ((sync : Int) - p) * 64 ≤ p | none => true)

/-- Ticks of a frame from the falling edge that begins its synchronisation pulse, with its pause pulse (R102). -/
def sentTicks (cfg sync : Nat) (lengths : List Nat) (pause : Nat) : Nat :=
  cfg % 1024 * 40 * sync * (56 + lengths.foldl (· + ·) 0 + pause) / 3584

/-- A number from bits, the first most significant. -/
def bitsValue (l : List Bool) : Nat := l.foldl (fun a b => 2 * a + b.toNat) 0

/-- Remainder of bits by x^6 + x^4 + x^3 + 1 from seed 21, six zeros appended: the CRC-6 of an enhanced message. -/
def crc6 (bits : List Bool) : Nat :=
  (bits ++ List.replicate 6 false).foldl (fun c b =>
    let x := 2 * c + b.toNat
    if 64 ≤ x then (x ^^^ 0x59) % 64 else x) 21

/-- A short serial message from bit 2 of the status nibbles of 16 frames (R101): ID of 4 bits, 8 data bits, CRC-4. -/
def shortMessage (legacy : Bool) (l : List (Bool × Bool)) : Option (Nat × Nat) :=
  let v := bitsValue (l.map (·.2))
  if crc4 legacy [v / 4096, v / 256 % 16, v / 16 % 16] = v % 16 then some (v / 4096, v / 16 % 256) else none

/-- The status bits of 18 frames have the frame of an enhanced serial message in bit 3: six ones, and zeros in frames 7, 13 and
18. -/
def enhancedFrame (l : List (Bool × Bool)) : Bool :=
  let bit (k : Nat) : Bool := (l.getD k (false, false)).1
  l.length == 18 && (l.take 6).all (·.1) && !bit 6 && !bit 12 && !bit 17

/-- An enhanced serial message from 18 frames (R101): 12 data bits with an ID of 8 bits, or 16 with one of 4 bits. -/
def enhancedMessage (l : List (Bool × Bool)) : Option (Nat × Nat) :=
  let body := l.drop 6
  let crc := bitsValue ((l.take 6).map (·.2))
  let data := bitsValue (body.map (·.2))
  let high := bitsValue (((body.drop 2).take 4).map (·.1))
  let low := bitsValue (((body.drop 7).take 4).map (·.1))
  if crc6 (body.flatMap (fun x => [x.2, x.1])) != crc then none
  else if (body.getD 1 (false, false)).1 then some (high, low * 4096 + data) else some (high * 16 + low, data)

/-- The serial channel takes the status nibble of an accepted frame (R101); where the messages lie in bits 3 and 2 of the nibbles is
that of SAE J2716 (PRESUMED). -/
def SentCh.takeStatus (x : SentCh) (cfg status : Nat) : SentCh :=
  let bits := (status / 8 % 2 == 1, status / 4 % 2 == 1)
  let kind := cfg / 16384 % 4
  let note (m : Option (Nat × Nat)) (rest : List (Bool × Bool)) : SentCh :=
    match m with
    | some (id, data) => { x with serial := [], messages := x.messages.set id data }
    | none => { x with serial := rest }
  if kind = 1 then
    let l := if bits.1 then [bits] else if x.serial.isEmpty then [] else x.serial ++ [bits]
    if l.length = 16 then note (shortMessage (cfg / 65536 % 2 == 1) l) [] else { x with serial := l }
  else if kind = 2 then
    let l := (x.serial ++ [bits]).drop (x.serial.length - 17)
    note (if enhancedFrame l then enhancedMessage l else none) l
  else { x with serial := [] }

/-- A SENT position reaches its drives, scaled to 0-65535 (R238). -/
def Hw.sentPosition (h : Hw) (ch value nibbles : Nat) : Hw :=
  let p := value * 65535 / max (16 ^ nibbles - 1) 1
  (h.drivesOf ch).foldl (fun x i => (x.posGood i).seePosition i p) h

/-- SENT_FRAME (R101, R102). -/
def Hw.sentFrame (h : Hw) (ch sync : Nat) (lengths nibbles : List Nat) (crc : Nat) (pause : Option Nat) : Hw :=
  let src := BitVec.ofNat 8 (0x40 + ch)
  let cfg := h.par (0x0418 + ch)
  let x := h.pos.sent.get ch {}
  let put (h : Hw) (y : SentCh) : Hw := { h with pos := { h.pos with sent := h.pos.sent.set ch y } }
  if !h.posRuns || sync < 2688 || 4480 < sync then h
  else if sentOk cfg sync x.sync lengths nibbles crc pause.isSome then
    let v := nibbleValue (nibbles.drop 1)
    let status := nibbles.headD 0
    let y : SentCh := { x with sync := some sync, status := status, value := v, valid := true, acceptedAt := h.time.clock
                               at' := h.time.now - BitVec.ofNat 64 (sentTicks cfg sync lengths (pause.getD 0)) }
    ((put h (y.takeStatus cfg status)).clearFault fltSentTimeout.code src).sentPosition ch v (cfg / 1024 % 8)
  else ((put h { x with sync := some sync, serial := [] }).count (0x089 + ch) 1).occur fltSentFrameError src

/-- SENT_FRAME (R101). -/
def execSentFrame (ch : Fin 4) (sync : Nat) (lengths nibbles : List Nat) (crc : Nat) (pause : Option Nat) (s : State) :
    Host.Outcome State Fault Refusal := onHw (fun h => h.sentFrame ch.val sync lengths nibbles crc pause) s

/-- SENT_TIMEOUT (R102): the value is invalid, and so is the position of the drives it gives (R238). -/
def Hw.sentTimeout (h : Hw) (ch : Nat) : Hw :=
  let x := h.pos.sent.get ch {}
  if h.posRuns && x.acceptedAt + h.parTicks (0x041C + ch) ≤ h.time.clock then
    let h1 := ({ h with pos := { h.pos with sent := h.pos.sent.set ch { x with valid := false } } } : Hw).raiseOnce fltSentTimeout
      (BitVec.ofNat 8 (0x40 + ch))
    (h.drivesOf ch).foldl (fun x i => x.posInvalid i) h1
  else h

/-- SENT_TIMEOUT (R102). -/
def execSentTimeout (ch : Fin 4) (s : State) : Host.Outcome State Fault Refusal := onHw (fun h => h.sentTimeout ch.val) s

end Sys2Proof.Machine
end

