-- ==== Sys2Proof/Machine/Protect.lean ====
section
/-!
DEFINITION. Machine/Protect.lean: the Negoac safety controller (R257-R289): voting, tile checkers, memory errors, clocks and
supplies, STO, the safety outputs, FAULT_OUT, the safety parameter set, discharge, HVIL and debug.
-/
namespace Sys2Proof.Machine

/-! ## The safety parameter set (R269-R271, R442) -/

/-- The set that SAFETY_CHECK_READ lists (R442). -/
def Hw.listedSet (h : Hw) : Tab Nat :=
  if h.mode.mode == .workshop then h.saf.pending.getD h.activeSet else h.activeSet

/-- Body of the `k`-th SAFETY_CHECK event of `n` over the listed parameters (R306). -/
def checkEvent (set : Tab Nat) (written : List Nat) (k n : Nat) : List Byte :=
  let ids := (safetyIds.drop (4 * k)).take 4
  let mark := (List.range ids.length).foldl (fun a j => a + bitIf j (written.contains (ids.getD j 0))) 0
  leBytes 4 (checkValue set).toNat ++ [BitVec.ofNat 8 k, BitVec.ofNat 8 n, BitVec.ofNat 8 mark, 0] ++
    ids.flatMap (fun i => leBytes 2 i ++ leBytes 8 (set.get i 0))

/-- SAFETY_CHECK_READ (R270, step 3): every parameter of the set, in as many events as it takes. -/
def Hw.safetyCheckRead (h : Hw) (q : Req) : Hw :=
  let set := h.listedSet
  let marks := if h.mode.mode == .workshop then h.saf.written else []
  let n := (safetyIds.length + 3) / 4
  ((List.range n).foldl (fun x k => x.postEvent 0x0A01 h.time.now (checkEvent set marks k n)) h).complete q .done

/-- SAFETY_CHECK_READ (R270, R442). -/
def execSafetyCheckRead (d : Desc) (s : State) : Host.Outcome State Fault Refusal :=
  onHw (fun h => h.descriptor 0x0A01 d (fun q h => h.safetyCheckRead q)) s

/-- The check values differ (R270): the third time on one pending set its writes are discarded. A refused target 1 leaves
the set unconfirmed (R442). -/
def Hw.confirmMismatch (h : Hw) (target : Nat) : Hw :=
  let n := h.saf.mismatches + 1
  let h1 : Hw := if 3 ≤ n then
      { h with saf := { h.saf with pending := some h.activeSet, written := [], confirmed := false, mismatches := 0 } }
    else { h with saf := { h.saf with mismatches := n, confirmed := h.saf.confirmed && target == 0 } }
  h1.occur fltSafetyConfirmMismatch 0xFF

/-- A SAFETY generation is programmed (R442), or what keeps it from it. -/
def Hw.safetyProgram (h : Hw) (set : Tab Nat) (q : Req) : Hw :=
  let h0 : Hw := { h with saf := { h.saf with confirmed := false } }
  if !h.otpFit then h0.complete q .range
  else if h.otp.job.isSome then h0.complete q .busy
  else match h.otp.nextSlot 4, otpMap 4 with
    | some g, some (base, _, body) =>
      let j : OtpJob := { type := 4, offset := slotBase base body g, bytes := slotImage 4 g (safetyBody set), revoke := false
                          safety := true, req := q }
      { h0 with otp := { h.otp with job := some j } }
    | _, _ => (h0.occur fltOtpExhausted 0xFF).complete q .noResource

/-- SAFETY_CONFIRM past its authority (R270, R442). -/
def Hw.safetyConfirm (h : Hw) (d : Desc) (q : Req) : Hw :=
  let target := d.num 16 1
  let set := h.saf.pending.getD h.activeSet
  if 1 < target then h.complete q .range
  else if h.mode.mode != .workshop then h.complete q .modeDenied
  else if (checkValue set).toNat != d.num 20 4 then (h.confirmMismatch target).complete q .range
  else if target = 0 then ({ h with saf := { h.saf with confirmed := true } } : Hw).complete q .done
  else h.safetyProgram set q

/-- SAFETY_CONFIRM (R270, R442). -/
def execSafetyConfirm (d : Desc) (s : State) : Host.Outcome State Fault Refusal :=
  onHw (fun h => h.descriptor 0x0A02 d (fun q h => h.safetyConfirm d q)) s

/-! ## Voting (R259, R260) -/

/-- The primary core has left the vote to the debugger of a rope-team module (R284). -/
def Hw.splitCore (h : Hw) : BitVec 3 := if h.saf.dbgAttached && h.roped then 1 else 0

/-- No majority (R260): the series STO input and FAULT_OUT open, the bridges take their patterns, the module enters ARREST. -/
def Hw.loseMajority (h : Hw) : Hw :=
  let h1 : Hw := { h with saf := { h.saf with noMajority := true, seriesOpen := true } }
  (h1.orderBoth.boostAbort fltNegoacNoMajority.code).raiseOnce fltNegoacNoMajority 0xFF

/-- One core differs (R260): it is resynchronised; the third time within an hour it is left out; a second core within the
40 us of a resynchronisation, or a difference of the remaining pair, is no majority. -/
def Hw.oneDiffers (h : Hw) (c : Nat) : Hw :=
  let now := h.time.clock
  let out := h.saf.coresOut ||| h.splitCore
  let others := (List.range 3).any (fun k => k != c && (h.saf.resync.get k []).any (fun t => now < t + 40 * usTicks))
  if out.getLsbD c then h
  else if out != 0 || others then h.loseMajority
  else
    let times := now :: ((h.saf.resync.get c []).filter (fun t => now < t + 3600 * sTicks)).take 2
    let src := BitVec.ofNat 8 c
    let h1 := (({ h with saf := { h.saf with resync := h.saf.resync.set c times } } : Hw).count 0x092 1).occur fltNegoacResync src
    if 3 ≤ times.length then
      ({ h1 with saf := { h1.saf with coresOut := h1.saf.coresOut ||| (1#3 <<< c) } } : Hw).raiseOnce fltNegoacCoreFail src
    else h1

/-- NEGOAC_MISMATCH (R260). -/
def execNegoacMismatch (f : VoteFinding) (s : State) : Host.Outcome State Fault Refusal :=
  onHw (fun h => if !h.awake || h.saf.noMajority then h
    else match f with
      | .one c => h.oneDiffers c.val
      | .noMajority => h.loseMajority) s

/-- The cores run boot ROM again (R260, R340): the SAFE image runs no more and is asked for. -/
def Hw.safeRestart (h : Hw) : Hw :=
  ({ h with img := { h.img with running := h.img.running.del 1, requested := none } } : Hw).mailbox0.requestImage

/-- NEGOAC_RESTART (R260). -/
def Hw.negoacRestart (h : Hw) : Hw :=
  if !h.saf.noMajority then h
  else
    let h1 : Hw := { h with saf := { h.saf with noMajority := false, seriesOpen := h.pwr.senseLost || !h.pwr.clocksLost.isEmpty } }
    (h1.clearFault fltNegoacNoMajority.code 0xFF).safeRestart.refreshBoth

/-- NEGOAC_RESTART (R260). -/
def execNegoacRestart (s : State) : Host.Outcome State Fault Refusal := onHw Hw.negoacRestart s

/-- VOTER_TEST (R287): passed where each of the eight voters masked the core that it was made to see differ; a run that was asked for
ends with it, and no fault is listed for it. -/
def execVoterTest (masked : List Bool) (s : State) : Host.Outcome State Fault Refusal :=
  onHw (fun h => h.endTest 0x0A04 0 (if masked.length = 8 && masked.all id then .done else .hwFault)) s

/-! ## Checkers and memories (R13, R14, R261) -/

/-- CHECKER_MISMATCH (R13). -/
def Hw.checkerMismatch (h : Hw) (b : Bridge) : Hw :=
  h.occurThen fltTileCheckerMismatch (h.bridgeClass b) (BitVec.ofNat 8 b.code) (fun x => x.faultSafe b true)

/-- CHECKER_MISMATCH (R13). -/
def execCheckerMismatch (b : Bridge) (s : State) : Host.Outcome State Fault Refusal :=
  onHw (fun h => if h.awake then h.checkerMismatch b else h) s

/-- CHECKER_INJECT (R261): a field not flagged alone within 10 cycles is CHECKER_INJECT_FAIL of that bridge. -/
def execCheckerInject (b : Bridge) (field : Nat) (flagged : List Nat) (cycles : Nat) (s : State) : Host.Outcome State Fault Refusal :=
  onHw (fun h => if !h.awake then h
    else if flagged == [field] && cycles ≤ 10 then h.endTest 0x0A01 0 .done
    else (h.raiseOnce fltCheckerInjectFail (BitVec.ofNat 8 b.code)).endTest 0x0A01 0 .hwFault) s

/-- The conversion tile stops in its safe state (R14, R21): converter, charging and DC boost. -/
def Hw.stopConversion (h : Hw) : Hw :=
  let h1 := if h.lv.active || h.lv.state == .waiting then h.lvRest .stopped .aborted else h
  if h1.chg.active then h1.chgArrest 0 else h1

/-- The actuator tile stops in its safe state (R14, R21). -/
def Hw.stopActuators (h : Hw) : Hw :=
  let off (d : Drive) : Drive := { d with state := .off }
  let h1 := h.shiftArrest.actStop .aborted
  { h1 with act := { h1.act with shift := off h1.act.shift, park := off h1.act.park, disc := off h1.act.disc } }

/-- Counter of corrected errors of an owner (R351, R434). -/
def memCounter : MemOwner → Nat
  | .app c => 0x042 + c.val
  | .negoac _ => 0x046
  | .tile b => 0x047 + b.code
  | .conversion => 0x049
  | .actuator => 0x04A
  | .sensing => 0x04C
  | .ringEngine => 0x04D

/-- An uncorrectable error is a fault of the memory's owner (R14); the rule names none for sensing and the ring engine. -/
def Hw.memoryFault (h : Hw) (o : MemOwner) : Hw :=
  match o with
  | .app _ => h.appMiss
  | .negoac c => if h.saf.noMajority then h else h.oneDiffers c.val
  | .tile b => h.faultSafe b false
  | .conversion => h.stopConversion
  | .actuator => h.stopActuators
  | .sensing => h
  | .ringEngine => h

/-- MEMORY_ERROR (R14). -/
def execMemoryError (owner : MemOwner) (correctable : Bool) (s : State) : Host.Outcome State Fault Refusal :=
  onHw (fun h => if !h.awake then h else if correctable then h.count (memCounter owner) 1 else h.memoryFault owner) s

/-! ## Clocks and supplies (R21, R29) -/

/-- CLOCK_LOSS (R29): ARREST, the patterns held by the hardware path; each of the losses acts alike. -/
def Hw.clockLoss (h : Hw) (c : ClockLoss) : Hw :=
  let h1 : Hw := { h with pwr := { h.pwr with clocksLost := c :: h.pwr.clocksLost.filter (fun x => x != c) }
                          saf := { h.saf with seriesOpen := true } }
  (h1.orderBoth.boostAbort fltClockLoss.code).raiseOnce fltClockLoss 0xFF

/-- What still holds the STO series path open once a loss has ended (R9, R21, R29). -/
def Hw.seriesHeld (h : Hw) : Bool := h.saf.noMajority || h.pwr.senseLost || !h.pwr.clocksLost.isEmpty

/-- A clock is back: with the last of them the condition of CLOCK_LOSS ends (R439). -/
def Hw.clockBack (h : Hw) (c : ClockLoss) : Hw :=
  let h1 : Hw := { h with pwr := { h.pwr with clocksLost := h.pwr.clocksLost.filter (fun x => x != c) } }
  let h2 : Hw := { h1 with saf := { h1.saf with seriesOpen := h1.seriesHeld } }
  if h2.pwr.clocksLost.isEmpty then h2.clearFault fltClockLoss.code 0xFF else h2

/-- CLOCK_LOSS (R29), and the end of the loss (R439). -/
def execClockLoss (c : ClockLoss) (lost : Bool) (s : State) : Host.Outcome State Fault Refusal :=
  onHw (fun h => if !h.awake then h else if lost then h.clockLoss c else if h.pwr.clocksLost.contains c then h.clockBack c else h) s

/-- CK0_FALLBACK (R29). -/
def execCk0Fallback (s : State) : Host.Outcome State Fault Refusal :=
  onHw (fun h =>
    let h1 : Hw := { h with time := { h.time with ck0Rc := true } }
    if h.awake then h1.raiseOnce fltCk0Fallback 0xFF else h1) s

/-- SENSE_SUPPLY_LOST (R21): safe patterns through the STO path, conversion and actuators stop, ARREST. -/
def Hw.senseSupplyLost (h : Hw) : Hw :=
  let h1 : Hw := { h with pwr := { h.pwr with senseLost := true }, saf := { h.saf with seriesOpen := true } }
  (h1.orderBoth.stopConversion.stopActuators).raiseOnce fltSenseSupplyLost 0xFF

/-- P4 and CK5 are back: the condition of SENSE_SUPPLY_LOST ends (R439). -/
def Hw.senseSupplyBack (h : Hw) : Hw :=
  let h1 : Hw := { h with pwr := { h.pwr with senseLost := false } }
  ({ h1 with saf := { h1.saf with seriesOpen := h1.seriesHeld } } : Hw).clearFault fltSenseSupplyLost.code 0xFF

/-- SENSE_SUPPLY_LOST (R21), and the end of the loss (R439). -/
def execSenseSupplyLost (lost : Bool) (s : State) : Host.Outcome State Fault Refusal :=
  onHw (fun h => if !h.awake then h else if lost then h.senseSupplyLost else if h.pwr.senseLost then h.senseSupplyBack else h) s

/-! ## STO (R262-R264) -/

/-- A channel's level as the module sees it. -/
def Hw.setSto (h : Hw) (chB closed : Bool) : Hw :=
  if chB then { h with pwr := { h.pwr with stoB := closed, stoBAt := h.time.clock } }
  else { h with pwr := { h.pwr with stoA := closed, stoAAt := h.time.clock } }

/-- What R263 watches once a channel has opened: the other one, or that both have been seen open together. -/
def Hw.stoNote (h : Hw) (chB : Bool) : Hw :=
  if h.pwr.stoA || h.pwr.stoB then
    { h with saf := { h.saf with stoWatch := some (if chB then 1 else 0, h.time.clock) } }
  else { h with saf := { h.saf with stoWatch := none, bothOpenSeen := h.saf.stoBlock } }

/-- A channel opens (R174, R263): the hardware path at once, then ARREST. -/
def Hw.stoOpens (h : Hw) (chB : Bool) : Hw :=
  let src : Byte := if chB then 1 else 0
  let h1 := (((h.setSto chB false).stoNote chB).count 0x068 1).orderBoth
  ((h1.boostAbort fltStoOpen.code).occur fltStoOpen src).enterArrest fltStoOpen.code src

/-- An open level on an STO channel opens it (R262): one that lasts longer than 1 ms, or a pulse less than 20 ms after the last. -/
def Hw.stoActs (h : Hw) (chB : Bool) (held : Nat) : Bool :=
  msTicks < held || (match h.pwr.stoPulse.find (if chB then 1 else 0) with
    | some t => decide (h.time.clock < t + 20 * msTicks)
    | none => false)

/-- STO_OPEN (R262, R263): an input below 3.0 V. Outside service the pin alone changes; bring-up looks at it (R38). -/
def Hw.stoInput (h : Hw) (chB : Bool) (mv : Int) (held : Nat) : Hw :=
  let h1 : Hw := { h with pwr := { h.pwr with stoPulse := h.pwr.stoPulse.set (if chB then 1 else 0) h.time.clock } }
  if !(if chB then h.pwr.stoB else h.pwr.stoA) || 3000 ≤ mv then h
  else if !h.stoActs chB held then h1
  else if h.mode.phase == .up then h1.stoOpens chB
  else h1.setSto chB false

/-- STO_OPEN (R262, R263). -/
def execStoOpen (chB : Bool) (mv : Int) (held : Nat) (s : State) : Host.Outcome State Fault Refusal :=
  onHw (fun h => h.stoInput chB mv held) s

/-- Ticks between two readings of the clock. -/
def apart (a b : Nat) : Nat := (a - b) + (b - a)

/-- A channel closes (R263, R264): torque does not return by itself. -/
def Hw.stoCloses (h : Hw) (chB : Bool) : Hw :=
  let h1 := h.setSto chB true
  let both := h1.pwr.stoA && h1.pwr.stoB
  let good := h1.saf.bothOpenSeen && apart h1.pwr.stoAAt h1.pwr.stoBAt ≤ h1.parTicks 0x0A01
  let h2 : Hw := if both then
      { h1 with saf := { h1.saf with stoBlock := h1.saf.stoBlock && !good, bothOpenSeen := false } } else h1
  h2.refreshBoth

/-- An STO input reads closed (R262). -/
def stoClosed (mv ua : Int) : Bool := 7000 ≤ mv && mv ≤ 36000 && 2000 ≤ ua && ua ≤ 4000

/-- STO_CLOSE (R262, R263). -/
def execStoClose (chB : Bool) (mv ua : Int) (s : State) : Host.Outcome State Fault Refusal :=
  onHw (fun h => if (if chB then h.pwr.stoB else h.pwr.stoA) || !stoClosed mv ua then h else h.stoCloses chB) s

/-- STO_DISCREPANCY (R263), by the channel that has not opened. -/
def Hw.stoDiscrepancy (h : Hw) : Hw :=
  match h.saf.stoWatch with
  | none => h
  | some (c, t) =>
    if t + h.parTicks 0x0A01 ≤ h.time.clock && h.mode.phase == .up then
      ({ h with saf := { h.saf with stoWatch := none, stoBlock := true, bothOpenSeen := false } } : Hw).occur fltStoDiscrepancy
        (BitVec.ofNat 8 (1 - c))
    else h

/-- STO_DISCREPANCY (R263). -/
def execStoDiscrepancy (s : State) : Host.Outcome State Fault Refusal := onHw Hw.stoDiscrepancy s

/-! ## Safety outputs and FAULT_OUT (R267, R268) -/

/-- SO_OPEN_LOAD (R267): in DC boost it ends it by R224 from step 1. -/
def Hw.soOpenLoad (h : Hw) (out : Byte) : Hw :=
  let h1 := h.raiseOnce fltSoOpenLoad out
  (if h1.chg.boosting && !h1.chg.draining then { h1 with chg := { h1.chg with draining := true, drainAt := h.time.clock } }
   else h1).endTest 0x0A03 0 .hwFault

/-- A safety output passes its test (R267). -/
def Hw.soPass (h : Hw) (out : Byte) : Hw := (h.clearFault fltSoOpenLoad.code out).endTest 0x0A03 0 .done

/-- SO_SHORT (R267), to supply with argument 0, to ground with argument 1. -/
def Hw.soShort (h : Hw) (out : Byte) (arg : W32) : Hw :=
  (if h.faultActive fltSoShort.code out then h else h.raiseAs fltSoShort fltSoShort.cls out arg true).endTest 0x0A03 0 .hwFault

/-- The gap test of an output that is on (R267): its switches take turns, and the one that does not open the coil is named. -/
def Hw.soGap (h : Hw) (second collapsed : Bool) : Hw :=
  let out : Byte := if second then 2 else 1
  let low := if second then h.saf.so2Low else h.saf.so1Low
  let h1 : Hw := if second then { h with saf := { h.saf with so2Low := !low } } else { h with saf := { h.saf with so1Low := !low } }
  if collapsed then h1.soPass out
  else (h1.raiseOnce fltSoSwitchFail (BitVec.ofNat 8 (16 * out.toNat + (if low then 1 else 0)))).endTest 0x0A03 0 .hwFault

/-- A test of a safety output (R267) in the state that the test is for. -/
def Hw.soTest (h : Hw) (second : Bool) (f : SoFinding) : Hw :=
  let out : Byte := if second then 2 else 1
  let on := if second then h.saf.so2 else h.saf.so1
  match f with
  | .gap collapsed => if on then h.soGap second collapsed else h
  | .current ma held => if on && ma < 50 && 10 * msTicks ≤ held then h.soOpenLoad out else h
  | .off before during =>
    if on then h
    else if 2000 < before then h.soShort out 0
    else if during < 200 then h.soShort out 1
    else if 5000 < during then h.soOpenLoad out
    else h.soPass out

/-- SO_TEST (R267). -/
def execSoTest (second : Bool) (finding : SoFinding) (s : State) : Host.Outcome State Fault Refusal :=
  onHw (fun h => if h.mode.phase == .up then h.soTest second finding else h) s

/-- A service of the window watchdog of P1 comes neither sooner than 0.5 ms nor later than 1.5 ms after the previous one (R268). -/
def watchdogServed (since : Nat) : Bool := 500 * usTicks ≤ since && since ≤ 1500 * usTicks

/-- FAULT_OUT_WATCHDOG_EXPIRY (R268, R391): channel B and PARTNER_OK open. -/
def execFaultOutWatchdogExpiry (since : Nat) (s : State) : Host.Outcome State Fault Refusal :=
  onHw (fun h => if h.awake && !watchdogServed since then { h with saf := { h.saf with wdExpired := true } } else h) s

/-! ## Discharge (R25, R279, R280) -/

/-- Discharge has ended: the DC link is at or below 60 V. -/
def Hw.dischargeEnd (h : Hw) : Hw :=
  let h1 : Hw := { h with saf := { h.saf with dischargeOn := false, dischargeAuto := false, dischargeReqs := [], retryAt := none } }
  (Hw.completeAll h.saf.dischargeReqs .done h1).clearFault fltDischargeHeld.code 0xFF

/-- Discharge is asked for (R279, R399): by DISCHARGE, a transition to BIVOUAC, ARREST, or the partner's own. -/
def Hw.dischargeWanted (h : Hw) : Bool :=
  !h.saf.dischargeReqs.isEmpty || (match h.mode.granted with | some g => g.target == .bivouac | none => false) ||
  (h.mode.mode == .arrest && h.saf.dischargeAuto && h.saf.openSince + 100 * msTicks ≤ h.time.clock) ||
  (h.roped && h.pair.partner && !h.pair.lost && (match h.pair.last with | some f => f.discharge | none => false))

/-- Both bridges are in OPEN. -/
def Hw.bothOpen (h : Hw) : Bool := h.ctlA.state == .openAll && h.ctlB.state == .openAll

/-- The start of discharge is looked at (R25, R279): it waits for both bridges in OPEN and for the OBC and the converter,
which drain for it. -/
def Hw.dischargeLook (h : Hw) : Hw :=
  if !h.dischargeWanted || h.saf.dischargeOn || h.saf.retryAt.isSome || h.mode.phase != .up then h
  else if h.hvSafe then h.dischargeEnd
  else if h.chg.active then h.drainCharge
  else if h.lv.active || h.lv.state == .waiting then (if h.lv.draining then h else h.drainLv)
  else if !h.bothOpen || h.anyActive [fltDischargeFail.code] then h
  else { h with saf := { h.saf with dischargeOn := true, dischargeAt := h.time.clock, dischargeFrom := h.pwr.vdc } }

/-- DISCHARGE_START (R279). -/
def execDischargeStart (s : State) : Host.Outcome State Fault Refusal := onHw Hw.dischargeLook s

/-- DISCHARGE past its authority (R279). -/
def Hw.dischargeAsk (h : Hw) (q : Req) : Hw :=
  let m := h.mode.mode
  if !(m == .baseCamp || m == .ready || m == .workshop || m == .arrest) then h.complete q .modeDenied
  else ({ h with saf := { h.saf with dischargeReqs := h.saf.dischargeReqs ++ [q] } } : Hw).dischargeLook

/-- DISCHARGE (R279). -/
def execDischarge (d : Desc) (s : State) : Host.Outcome State Fault Refusal :=
  onHw (fun h => h.descriptor 0x0A03 d (fun q h => h.dischargeAsk q)) s

/-- Energy into the discharge resistor (0x02B) from the 640 uF of R281, in mW x ticks. -/
def Hw.dischargeEnergy (h : Hw) (vdc : Int) : Hw :=
  h.addEnergy 0x02B (128 * (h.saf.dischargeFrom * h.saf.dischargeFrom - vdc * vdc)).toNat

/-- DISCHARGE_HELD (R280): not below 90 % of the start within 200 ms. -/
def Hw.dischargeHeld (h : Hw) (vdc : Int) : Hw :=
  if !h.saf.dischargeOn || h.time.clock < h.saf.dischargeAt + 200 * msTicks then h
  else if 10 * vdc < 9 * h.saf.dischargeFrom then h.setVdc vdc
  else
    let h1 : Hw := { h with saf := { h.saf with dischargeOn := false, retryAt := some (h.time.clock + 10 * sTicks) } }
    ((h1.addEnergy 0x02B (vdc * vdc * 400 / 3).toNat).raiseOnce fltDischargeHeld 0xFF).setVdc vdc

/-- DISCHARGE_HELD (R280). -/
def execDischargeHeld (vdc : Int) (s : State) : Host.Outcome State Fault Refusal := onHw (fun h => h.dischargeHeld vdc) s

/-- DISCHARGE_RETRY (R280): ten seconds later, while the request stands. -/
def Hw.dischargeRetry (h : Hw) : Hw :=
  match h.saf.retryAt with
  | none => h
  | some t =>
    if t ≤ h.time.clock then ({ h with saf := { h.saf with retryAt := none } } : Hw).dischargeLook else h

/-- DISCHARGE_RETRY (R280). -/
def execDischargeRetry (s : State) : Host.Outcome State Fault Refusal := onHw Hw.dischargeRetry s

/-- DISCHARGE_FAIL (R280): no current within 5 ms; the bleed resistor is the only path. -/
def Hw.dischargeFail (h : Hw) (ma : Int) : Hw :=
  if h.saf.dischargeOn && h.saf.dischargeAt + 5 * msTicks ≤ h.time.clock && ma ≤ 0 then
    ({ h with saf := { h.saf with dischargeOn := false } } : Hw).raiseOnce fltDischargeFail 0xFF
  else h

/-- DISCHARGE_FAIL (R280). -/
def execDischargeFail (ma : Int) (s : State) : Host.Outcome State Fault Refusal := onHw (fun h => h.dischargeFail ma) s

/-- DISCHARGE_DONE (R279): at or below 60 V every request for discharge is over. -/
def Hw.dischargeDone (h : Hw) (vdc : Int) : Hw :=
  let h1 := (if h.saf.dischargeOn && vdc ≤ 60000 then h.dischargeEnergy vdc else h).setVdc vdc
  if h1.hvSafe && h1.mode.phase == .up then h1.dischargeEnd else h1

/-- DISCHARGE_DONE (R279). -/
def execDischargeDone (vdc : Int) (s : State) : Host.Outcome State Fault Refusal := onHw (fun h => h.dischargeDone vdc) s

/-! ## HVIL (R282) -/

/-- The loop's state: 0 closed, 1 open, 2 shorted. -/
def hvilState (mode : Nat) (ua : Int) : Nat :=
  let open' : Int := if mode = 1 then 5000 else 6000
  let short : Int := if mode = 1 then 15000 else 26000
  if mode = 0 then 0 else if ua < open' then 1 else if short < ua then 2 else 0

/-- The reaction to an open loop. -/
def Hw.hvilOpen (h : Hw) : Hw :=
  if h.par 0x0A0B = 0 then h.raiseOnce fltHvilOpen 0xFF
  else if h.mode.mode == .charge && h.chg.active then (h.raiseOnce fltHvilOpen 0xFF).drainCharge
  else if h.standstill then
    let h1 := (h.raiseOnce fltHvilOpen 0xFF).enterArrest fltHvilOpen.code 0xFF
    if h1.mode.mode == .arrest then { h1 with saf := { h1.saf with dischargeAuto := true } } else h1
  else if h.mode.mode == .drive || h.mode.mode == .belay then
    (if h.faultActive fltHvilOpen.code 0xFF then h else h.raiseAs fltHvilOpen .belay 0xFF 0 true)
  else h.raiseOnce fltHvilOpen 0xFF

/-- HVIL_LOOP_CHANGE (R282). -/
def Hw.hvilChange (h : Hw) (ua : Int) : Hw :=
  let st := hvilState (h.par 0x0A0A) ua
  let h1 : Hw := { h with saf := { h.saf with hvil := st, hvilCurrent := ua } }
  if h.mode.phase != .up then h1
  else if st = 1 then (h1.clearFault fltHvilShort.code 0xFF).hvilOpen
  else if st = 2 then (h1.clearFault fltHvilOpen.code 0xFF).raiseOnce fltHvilShort 0xFF
  else (h1.clearFault fltHvilOpen.code 0xFF).clearFault fltHvilShort.code 0xFF

/-- HVIL_LOOP_CHANGE (R282). -/
def execHvilLoopChange (microamps : HvilCurrent) (held : Nat) (s : State) : Host.Outcome State Fault Refusal :=
  onHw (fun h => if 10 * msTicks ≤ held then h.hvilChange microamps else h) s

/-! ## Debug (R283, R284) -/

/-- The debugger's next challenge. -/
def Hw.newChallenge (h : Hw) : Hw := { h.drawn with saf := { h.saf with dbgChallenge := Config.challenge h.free } }

/-- An authenticated debugger may halt, step and write in this mode (R283). -/
def Hw.debugMay (h : Hw) : Bool :=
  let m := h.mode.mode
  h.saf.dbgAttached && h.saf.dbgAuth && (m == .baseCamp || m == .ready || m == .workshop || m == .arrest)

/-- DEBUG_ATTACH (R283, R284): a challenge; in a rope team the primary core leaves the vote. -/
def Hw.debugAttach (h : Hw) : Hw :=
  if !h.awake || h.saf.dbgAttached then h
  else
    let h1 := ({ h with saf := { h.saf with dbgAttached := true, dbgAuth := false, dbgHalted := false } } : Hw).newChallenge
    if h.roped then ({ h1 with saf := { h1.saf with splitLimit := true } } : Hw).raiseOnce fltDebugSplit 0xFF else h1

/-- DEBUG_ATTACH (R284). -/
def execDebugAttach (s : State) : Host.Outcome State Fault Refusal := onHw Hw.debugAttach s

/-- The READY limit ends once DEBUG_SPLIT has cleared and been acknowledged (R284). -/
def Hw.splitEnd (h : Hw) : Hw :=
  if h.saf.splitLimit && h.clearedAndAcked fltDebugSplit.code 0xFF then { h with saf := { h.saf with splitLimit := false } } else h

/-- An ARREST-class fault raised while the cores were halted takes the module to ARREST once they run again. -/
def Hw.overdueArrest (h : Hw) : Hw :=
  match (h.flt.hist ++ h.flt.extra).find? (fun e => e.active && e.cls == .arrest) with
  | some e => h.enterArrest e.code e.source
  | none => if h.pwr.stoA && h.pwr.stoB then h else h.enterArrest fltStoOpen.code (if h.pwr.stoA then 1 else 0)

/-- DEBUG_DETACH (R284): the primary is resynchronised, and DEBUG_SPLIT clears. -/
def Hw.debugDetach (h : Hw) : Hw :=
  if !h.saf.dbgAttached then h
  else
    let h1 : Hw := { h with saf := { h.saf with dbgAttached := false, dbgAuth := false, dbgHalted := false } }
    let h2 := (h1.clearFault fltDebugSplit.code 0xFF).splitEnd
    if h.saf.dbgHalted then h2.overdueArrest else h2

/-- DEBUG_DETACH (R284). -/
def execDebugDetach (s : State) : Host.Outcome State Fault Refusal := onHw Hw.debugDetach s

/-- DEBUG_AUTHENTICATE (R283): the answer to the challenge; a challenge serves once. -/
def execDebugAuthenticate (sigOk : Bool) (s : State) : Host.Outcome State Fault Refusal :=
  onHw (fun h => if !h.saf.dbgAttached then h
    else (({ h with saf := { h.saf with dbgAuth := sigOk && (h.otp.active.find 6).isSome } } : Hw).newChallenge).emit
      (.debug (sigOk && (h.otp.active.find 6).isSome) 0)) s

/-- DEBUG_READ (R283): the IDCODE alone while unauthenticated. -/
def execDebugRead (addr : DebugAddr) (s : State) : Host.Outcome State Fault Refusal :=
  onHw (fun h => if !h.saf.dbgAttached then h
    else if !h.saf.dbgAuth then h.emit (.debug true Config.idcode)
    else match h.saf.dbgMem.find addr.toNat with
      | some w => h.emit (.debug true w)
      | none => h.drawn.emit (.debug true (Config.debugWord addr h.free))) s

/-- DEBUG_HALT (R283): the bridges hold their patterns by R172; refused in any other mode. -/
def execDebugHalt (s : State) : Host.Outcome State Fault Refusal :=
  onHw (fun h => if !h.saf.dbgAttached then h
    else if h.debugMay then
      ((({ h with saf := { h.saf with dbgHalted := true } } : Hw).orderBoth).occur fltDebugAttached 0xFF).emit (.debug true 0)
    else h.emit (.debug false 0)) s

/-- DEBUG_STEP (R283): a step of halted cores. -/
def execDebugStep (s : State) : Host.Outcome State Fault Refusal :=
  onHw (fun h => if !h.saf.dbgAttached then h
    else if h.debugMay && h.saf.dbgHalted then (h.occur fltDebugAttached 0xFF).emit (.debug true 0)
    else h.emit (.debug false 0)) s

/-- DEBUG_WRITE (R283). -/
def execDebugWrite (addr : DebugAddr) (value : W32) (s : State) : Host.Outcome State Fault Refusal :=
  onHw (fun h => if !h.saf.dbgAttached then h
    else if h.debugMay then
      (({ h with saf := { h.saf with dbgMem := h.saf.dbgMem.set addr.toNat value } } : Hw).occur fltDebugAttached 0xFF).emit
        (.debug true 0)
    else h.emit (.debug false 0)) s

end Sys2Proof.Machine
end

