-- ==== Sys2Proof/Machine/Rings.lean ====
section
/-!
DEFINITION. Machine/Rings.lean: the host interface (R290-R320, R423-R436): rings, sessions, doorbells, registers, MSI-X,
mailboxes, and the loss of the host.
-/
namespace Sys2Proof.Machine

/-! ## The state of a ring (R294) -/

/-- BAR0 and BAR2 answer (R423): the module is awake with P3 supplied and the link up. -/
def Hw.barUp (h : Hw) : Bool := h.powered 3 && h.host.linkUp

/-- A ring leaves ENABLED: its subscriptions end (R357), and a snapshot on it ends ABORTED (R355). -/
def Hw.ringStops (h : Hw) (n : Nat) : Hw :=
  let gone := h.cnt.subs.filter (fun p => p.2.ring == n)
  let h1 : Hw := { h with cnt := { h.cnt with subs := h.cnt.subs.filter (fun p => p.2.ring != n) } }
  let h2 := Hw.completeAll (gone.filterMap (fun p => p.2.req)) .aborted h1
  match h2.cnt.snap with
  | some s => if s.ring = n then h2.abortSnap else h2
  | none => h2

/-- The sessions that close look again whether work of theirs is still out (R313). -/
def Hw.settleClosing (h : Hw) : Hw :=
  ((h.host.sessions.filter (fun p => p.2.closing.isSome)).map (·.1)).foldl Hw.settleSession h

/-- A ring stops at once (R294): nothing further is fetched or posted, and a RING_DISABLE that waits completes ABORTED. -/
def Hw.ringError (h : Hw) (n cause : Nat) : Hw :=
  let r := h.ring n
  let h1 := h.setRing n { r with state := .error, cause := cause, buffer := [], outstanding := [], fenced := false, missed := none
                                 disable := none, unsignalled := 0 }
  ((h1.ringStops n).completeOpt r.disable .aborted).settleClosing

/-- The module's waiting events pass to a new EVT ring (R305). -/
def Hw.adoptEvents (h : Hw) (n : Nat) : Hw :=
  let r := h.ring n
  let h1 := h.setRing n { r with buffer := r.buffer ++ h.host.events, lost := h.host.evtLost }
  Hw.postWaiting 64 n { h1 with host := { h1.host with events := [], evtLost := false } }

/-! ## RING_CREATE, RING_DISABLE, RING_RESET -/

/-- The fields of RING_CREATE are in range (R292, R293). -/
def ringFields (d : Desc) : Bool :=
  let ty := d.num 17 1
  let vec := d.num 20 1
  let sq := d.num 24 8
  1 ≤ d.num 16 1 && d.num 16 1 ≤ 63 && ty ≤ 3 && 4 ≤ d.num 18 1 && d.num 18 1 ≤ 12 && d.num 19 1 ≤ 3 &&
  ((1 ≤ vec && vec ≤ 64) || vec = 0xFF) && 1 ≤ d.num 21 1 && d.num 22 2 ≤ 1000 && alignedTo (d.num 32 8) 4096 &&
  (if ty = 0 || ty = 3 then alignedTo sq 4096 else sq = 0)

/-- The own checks of RING_CREATE (R293). -/
def Hw.createCheck (h : Hw) (d : Desc) : Option Status :=
  if !ringFields d then some .range
  else if (h.ring (d.num 16 1)).state != .absent then some .busy
  else if d.num 17 1 = 1 && h.host.rings.any (fun p => p.2.type == 1 && p.2.state != .absent) then some .noResource
  else if d.num 17 1 = 0 && h.mode.mode == .baseCamp then some .modeDenied
  else none

/-- RING_CREATE past its authority (R293). -/
def Hw.ringCreate (h : Hw) (d : Desc) (q : Req) : Hw :=
  match h.createCheck d with
  | some st => h.complete q st
  | none =>
    let n := d.num 16 1
    let vec := d.num 20 1
    let r : Ring := { state := .enabled, type := d.num 17 1, size := d.num 18 1, prio := d.num 19 1
                      vector := if vec = 0xFF then none else some vec, count := d.num 21 1, time := d.num 22 2
                      sqBase := BitVec.ofNat 64 (d.num 24 8), cqBase := BitVec.ofNat 64 (d.num 32 8) }
    let h1 := h.setRing n r
    (if r.type = 1 then h1.adoptEvents n else h1).complete q .done

/-- RING_CREATE (R293). -/
def execRingCreate (d : Desc) (s : State) : Host.Outcome State Fault Refusal :=
  onHw (fun h => h.descriptor 0x0B01 d (fun q h => h.ringCreate d q)) s

/-- A ring begins to drain (R50, R294). -/
def Hw.drainRing (h : Hw) (n : Nat) (q : Option Req) : Hw :=
  let h1 := h.setRing n { h.ring n with state := .draining, drainAt := h.time.clock, disable := q }
  (h1.ringStops n).settleRing n

/-- RING_DISABLE past its authority (R294, R445). -/
def Hw.ringDisable (h : Hw) (n : Nat) (q : Req) : Hw :=
  if n = 0 || 63 < n then h.complete q .range
  else match (h.ring n).state with
    | .absent => h.complete q .range
    | .enabled => h.drainRing n (some q)
    | .draining => h.complete q .busy
    | .idle => h.complete q .done
    | .error => h.complete q .modeDenied

/-- RING_DISABLE (R445). -/
def execRingDisable (d : Desc) (s : State) : Host.Outcome State Fault Refusal :=
  onHw (fun h => h.descriptor 0x0B02 d (fun q h => h.ringDisable (d.num 16 1) q)) s

/-- RING_RESET past its authority (R294, R445); CAUSE is kept until the ring is next enabled (R429). -/
def Hw.ringReset (h : Hw) (n : Nat) (q : Req) : Hw :=
  if n = 0 || 63 < n then h.complete q .range
  else match (h.ring n).state with
    | .absent => h.complete q .range
    | .enabled => h.complete q .modeDenied
    | .draining => h.complete q .modeDenied
    | .idle => (h.setRing n { cause := (h.ring n).cause }).complete q .done
    | .error => (h.setRing n { cause := (h.ring n).cause }).complete q .done

/-- RING_RESET (R445). -/
def execRingReset (d : Desc) (s : State) : Host.Outcome State Fault Refusal :=
  onHw (fun h => h.descriptor 0x0B03 d (fun q h => h.ringReset (d.num 16 1) q)) s

/-! ## Sessions (R307-R313) -/

/-- Open sessions that satisfy `p`. -/
def Hw.sessionCount (h : Hw) (p : Session → Bool) : Nat := (h.host.sessions.filter (fun x => p x.2)).length

/-- The lowest session ID that is neither open nor closing (R308). -/
def Hw.freeSession (h : Hw) : Option Nat :=
  ((List.range 4095).map (· + 1)).find? (fun n => (h.session n).isNone)

/-- The base of the session table. -/
def Hw.tableBase (h : Hw) : W64 := h.host.tableHi.setWidth 64 <<< 32 ||| (h.host.tableLo &&& 0xFFFFF000).setWidth 64

/-- A session-table entry (R311). -/
def Hw.contextEntry (h : Hw) (n : Nat) (s : Session) : List Byte :=
  leBytes 2 n ++ [BitVec.ofNat 8 (match s.auth with | .observe => 0 | .operate => 1 | .motion => 2 | .workshop => 3),
    if s.closing.isSome then 2 else 1] ++ leBytes 4 s.source.toNat ++ leBytes 8 s.openedAt.toNat ++
    slice (Config.contextBytes h.free) 0 240

/-- A context is written back to its table entry and leaves the module (R311, 0x094). -/
def Hw.evict (h : Hw) (n : Nat) (s : Session) : Hw :=
  let h1 := h.emit (.dma (h.tableBase + BitVec.ofNat 64 (256 * n)) (h.contextEntry n s))
  (h1.drawn.setSession n { s with resident := false }).count 0x094 1

/-- The least recently used of some sessions. -/
def leastUsed (l : List (Nat × Session)) : Option (Nat × Session) :=
  l.foldl (fun a p => match a with | none => some p | some b => if p.2.usedAt < b.2.usedAt then some p else some b) none

/-- A slot for an unpinned context (R310, R311): where all are taken the least recently used one goes. -/
def Hw.makeRoom (h : Hw) : Hw :=
  let pinned := 1 + h.sessionCount (·.pinned)
  let live := h.host.sessions.filter (fun p => !p.2.pinned && p.2.resident)
  if live.length + pinned < 128 then h
  else match leastUsed live with
    | some (n, s) => h.evict n s
    | none => h

/-- The challenge that a credential block presents (R309). -/
def presentedChallenge (d : Desc) : BitVec 256 := BitVec.ofNat 256 (leNat (slice d.dma 0 32))

/-- The challenges that are not older than 60 s (R309). -/
def Hw.liveChallenges (h : Hw) : List (BitVec 256 × Nat) :=
  h.host.challenges.filter (fun p => decide (h.time.clock ≤ p.2 + 60 * sTicks))

/-- A credential block (R309): a challenge issued within 60 s and not used, signed by a key of the active KEYS generation. -/
def Hw.credentialOk (h : Hw) (d : Desc) : Bool :=
  h.liveChallenges.any (fun p => p.1 == presentedChallenge d) && d.sigOk && (h.otp.active.find 6).isSome

/-- The own checks of SESSION_OPEN (R308). -/
def Hw.openSessionCheck (h : Hw) (d : Desc) : Option Status :=
  let a := d.num 16 1
  let src := BitVec.ofNat 32 (d.num 20 4)
  let pin := d.num 17 1 = 1
  if 3 < a || !alignedTo (d.num 24 8) 16 || (a != 2 && src != 0) || (a != 3 && d.num 32 8 != 0) then some .range
  else if a = 2 && !h.sourceListed src then some .authDenied
  else if a = 3 && !h.credentialOk d then some .authDenied
  else if a = 3 && 1 ≤ h.sessionCount (fun s => s.auth == .workshop) then some .busy
  else if (a = 2 && 8 ≤ h.sessionCount (fun s => s.auth == .motion)) ||
      (pin && a != 2 && 7 ≤ h.sessionCount (fun s => s.pinned && s.auth != .motion)) || h.freeSession.isNone ||
      !h.host.tableLo.getLsbD 0 || (a != 2 && !pin && !h.appRuns) then some .noResource
  else none

/-- The authority class with a code (SESSION_OPEN byte 16). -/
def Auth.ofCode : Nat → Auth
  | 0 => .observe | 1 => .operate | 2 => .motion | _ => .workshop

/-- A session opens (R308, R310): its binding value is drawn, and its result block is made. -/
def Hw.openSession (h : Hw) (a : Auth) (pinned viaCan : Bool) (src : W32) : Hw × Option (List Byte) :=
  match h.freeSession with
  | none => (h, none)
  | some n =>
    let h1 := if pinned then h else h.makeRoom
    let bind := Config.binding h1.free
    let s : Session := { auth := a, pinned := pinned, resident := true, usedAt := h.time.clock, source := src, binding := bind
                         openedAt := h.time.now, lastSeq := none, fails := [], blocked := false, viaCan := viaCan, closing := none }
    (h1.drawn.setSession n s, some (leBytes 2 n ++ [0, 0] ++ leBytes 4 bind.toNat ++ leBytes 8 h.time.now.toNat))

/-- SESSION_OPEN past its authority (R308, R309): a challenge serves one open. -/
def Hw.sessionOpen (h : Hw) (d : Desc) (q : Req) : Hw :=
  let a := Auth.ofCode (d.num 16 1)
  let used : Hw := if d.num 16 1 = 3 then
      { h with host := { h.host with challenges := h.host.challenges.filter (fun p => p.1 != presentedChallenge d) } } else h
  match h.openSessionCheck d with
  | some st => used.complete q st
  | none =>
    let (h1, block) := used.openSession a (a == .motion || d.num 17 1 = 1) false (BitVec.ofNat 32 (d.num 20 4))
    match block with
    | some b => (h1.emit (.dma (BitVec.ofNat 64 (d.num 24 8)) b)).complete q .done
    | none => h1.complete q .noResource

/-- SESSION_OPEN (R308). -/
def execSessionOpen (d : Desc) (s : State) : Host.Outcome State Fault Refusal :=
  onHw (fun h => h.descriptor 0x0B04 d (fun q h => h.sessionOpen d q)) s

/-- SESSION_CHALLENGE past its authority (R309). -/
def Hw.sessionChallenge (h : Hw) (d : Desc) (q : Req) : Hw :=
  let c := Config.challenge h.free
  let h1 : Hw := { h.drawn with host := { h.host with challenges := h.liveChallenges ++ [(c, h.time.clock)] } }
  (h1.emit (.dma (BitVec.ofNat 64 (d.num 16 8)) (leBytes 32 c.toNat))).complete q .done

/-- SESSION_CHALLENGE (R309). -/
def execSessionChallenge (d : Desc) (s : State) : Host.Outcome State Fault Refusal :=
  onHw (fun h => h.descriptor 0x0B06 d (fun q h => h.sessionChallenge d q)) s

/-- The session of a bridge's latest setpoint. -/
def Hw.latestSession (h : Hw) (b : Bridge) : Option Nat :=
  let c := h.ctl b
  let pair := (h.sh.held.or h.sh.pair).map (fun p => p.1.session)
  (((c.held.map (·.sp.session)).or (c.pending.map (·.sp.session))).or pair).or
    ((c.stored.map (·.sp.session)).or (c.target.map (·.session)))

/-- A bridge whose latest setpoint came from a session that closes ramps to zero (R313). -/
def Hw.rampOut (h : Hw) (b : Bridge) (n : Nat) : Hw := if h.latestSession b == some n then h.toZero b else h

/-- The module leaves WORKSHOP with its session (R38, R306 cause 4). -/
def Hw.leaveWorkshop (h : Hw) : Hw :=
  if h.mode.mode == .workshop && h.mode.granted.isNone then h.grant .ready none 4 0 else h

/-- What the close of a session does at once (R313, R330, R357). -/
def Hw.closeEffects (h : Hw) (n : Nat) (s : Session) : Hw :=
  let h1 := if s.auth == .motion then (h.rampOut .brA n).rampOut .brB n else h
  let gone := h1.cnt.subs.filter (fun p => p.2.session == n)
  let h2 : Hw := { h1 with cnt := { h1.cnt with subs := h1.cnt.subs.filter (fun p => p.2.session != n) } }
  let h3 := (Hw.completeAll (gone.filterMap (fun p => p.2.req)) .aborted h2).dropCinches (fun c => c.session == n)
  if s.auth == .workshop then h3.leaveWorkshop else h3

/-- A session ends without a SESSION_CLOSE: the host is lost (R314), or its context was altered (R312). -/
def Hw.endSession (h : Hw) (n : Nat) : Hw :=
  match h.session n with
  | none => h
  | some s =>
    let h1 := h.closeEffects n s
    let h2 : Hw := { h1 with host := { h1.host with sessions := h1.host.sessions.del n } }
    let h3 := if s.blocked && !h2.host.sessions.any (fun p => p.2.blocked) then h2.clearFault fltSafetyPduRepeat.code 0xFF else h2
    h3.completeOpt s.closing .aborted

/-- SESSION_CLOSE past its authority (R313). -/
def Hw.sessionClose (h : Hw) (n : Nat) (q : Req) : Hw :=
  match h.session n with
  | none => h.complete q .range
  | some s =>
    if s.closing.isSome then h.complete q .range
    else
      let h1 := h.closeEffects n s
      match h1.session n with
      | some s1 => (h1.setSession n { s1 with closing := some q }).settleSession n
      | none => h1.complete q .done

/-- SESSION_CLOSE (R313). -/
def execSessionClose (d : Desc) (s : State) : Host.Outcome State Fault Refusal :=
  onHw (fun h => h.descriptor 0x0B05 d (fun q h => h.sessionClose (d.num 16 2) q)) s

/-! ## Doorbells and posting (R299-R303, R436) -/

/-- SQ indices from one tail to the next, published now (R273). -/
def publish (size : Nat) (clock : Nat) : Nat → Nat → Nat → Tab Nat → Tab Nat
  | 0, _, _, t => t
  | fuel + 1, i, tail, t => if i = tail then t else publish size clock fuel (if i + 1 = size then 0 else i + 1) tail (t.set i clock)

/-- A valid doorbell takes effect: the head frees entries, the tail publishes descriptors while ENABLED (R299, R300, R436). -/
def Ring.doorbell (r : Ring) (tail head freed clock : Nat) : Ring :=
  let size := 2 ^ r.size
  let r1 := { r with cqHead := head, posted := r.posted - freed
                     fullAt := if r.posted - freed < size then none else r.fullAt }
  if r.state == .enabled && (r.type == 0 || r.type == 3) && tail != r.sqTail then
    { r1 with sqTail := tail, doorbellAt := clock, published := publish size clock size r.sqTail tail r.published }
  else r1

/-- DOORBELL_WRITE (R299): a field beyond the queue, or a head past an entry not yet posted, is HOST_DOORBELL_INVALID. -/
def Hw.doorbell (h : Hw) (n : Nat) (value : W32) : Hw :=
  let r := h.ring n
  let size := 2 ^ r.size
  let tail := value.toNat % 2 ^ 16
  let head := value.toNat / 2 ^ 16
  let usesTail := (r.type == 0 || r.type == 3) && r.state == .enabled
  if !r.posts then h
  else
    let freed := (head + size - r.cqHead) % size
    if size ≤ head || (usesTail && size ≤ tail) || r.posted < freed then
      (h.ringError n 1).occurActed fltHostDoorbellInvalid (BitVec.ofNat 8 n)
    else h.setRing n (r.doorbell tail head freed h.time.clock)

/-- DOORBELL_WRITE (R299, R436): other widths and other offsets of a block are ignored. -/
def execDoorbellWrite (offset : BitVec 14) (width : Nat) (value : W32) (s : State) : Host.Outcome State Fault Refusal :=
  onHw (fun h => if h.barUp && width = 32 && offset.toNat % 256 = 0 then h.doorbell (offset.toNat / 256) value else h) s

/-- BUFFERED_ENTRY_POST (R300, R305). -/
def execBufferedEntryPost (ring : Fin 64) (s : State) : Host.Outcome State Fault Refusal :=
  onHw (fun h => if (h.ring ring.val).posts then ((Hw.postWaiting 64 ring.val h).settleRing ring.val).postSnap.settleSnap
    else h) s

/-- CQ_STALL (R300): no free entry for CQ_STALL_LIMIT. -/
def Hw.cqStall (h : Hw) (n : Nat) : Hw :=
  let r := h.ring n
  let due := match r.fullAt with | some t => t + h.parTicks 0x0B02 ≤ h.time.clock | none => false
  if r.posts && (r.type == 0 || r.type == 3) && !r.hasRoom && due then 
    (h.ringError n 2).occurActed fltHostCqStall (BitVec.ofNat 8 n)
  else h

/-- CQ_STALL (R300). -/
def execCqStall (ring : Fin 64) (s : State) : Host.Outcome State Fault Refusal := onHw (fun h => h.cqStall ring.val) s

/-- COALESCE_TIMEOUT (R303). -/
def execCoalesceTimeout (ring : Fin 64) (s : State) : Host.Outcome State Fault Refusal :=
  onHw (fun h =>
    let r := h.ring ring.val
    if 0 < r.unsignalled && r.oldestAt + r.time * usTicks ≤ h.time.clock then h.signalRing ring.val else h) s

/-- An MSI-X entry as it now stands sends what is pending (R303, R431). -/
def Hw.sendPending (h : Hw) (v : Nat) : Hw :=
  if h.host.msixPending.getLsbD v && h.host.msixOn && !h.host.msixMasked && !(h.host.msix.get v {}).ctrl.getLsbD 0 then
    ({ h with host := { h.host with msixPending := h.host.msixPending &&& ~~~ (1#65 <<< v) } } : Hw).emit (.msix v)
  else h

/-- MSIX_UNMASK (R303, R431). -/
def execMsixUnmask (vector : Fin 65) (s : State) : Host.Outcome State Fault Refusal :=
  onHw (fun h =>
    if !h.barUp then h
    else
      let e := h.host.msix.get vector.val {}
      let e1 : MsixEntry := { e with ctrl := e.ctrl &&& 0xFFFFFFFE }
      ({ h with host := { h.host with msix := h.host.msix.set vector.val e1 } } : Hw).sendPending vector.val) s

/-! ## Ring 0 and the session table (R427-R430) -/

/-- ENABLE of RING0_CTRL reads 1 (R427). -/
def Hw.ring0On (h : Hw) : Bool := (h.ring 0).posts

/-- The fields of RING0_CTRL that a write stores. -/
def ring0Fields (value : W32) : W32 := value &&& 0x03FFFF0F

/-- SIZE, COALESCE_COUNT, COALESCE_TIME. -/
def ring0Size (v : W32) : Nat := (v.extractLsb' 0 4).toNat
def ring0Count (v : W32) : Nat := (v.extractLsb' 8 8).toNat
def ring0Time (v : W32) : Nat := (v.extractLsb' 16 10).toNat

/-- RESET of ring 0 (R428): ABSENT, its cinches freed; sessions stay open. -/
def Hw.ring0Reset (h : Hw) : Hw :=
  ((h.setRing 0 { cause := (h.ring 0).cause }).dropCinches (fun c => c.path == .ring 0)).settleClosing

/-- A write of 1 to ENABLE (R428), its fields stored. While ENABLE reads 1 the write is without effect. -/
def Hw.ring0Enable (h : Hw) (value : W32) : Hw :=
  if h.ring0On then h
  else
    let v := ring0Fields value
    let h1 : Hw := { h with host := { h.host with ring0Ctrl := v } }
    let fit := (h.ring 0).state == .absent && h.host.ring0Sq.toNat % 4096 == 0 && h.host.ring0Cq.toNat % 4096 == 0 &&
      4 ≤ ring0Size v && ring0Size v ≤ 12 && ring0Time v ≤ 1000
    if fit then
      h1.setRing 0 { state := .enabled, size := ring0Size v, count := max 1 (ring0Count v), time := ring0Time v
                     sqBase := h.host.ring0Sq, cqBase := h.host.ring0Cq }
    else h1.setRing 0 { h1.ring 0 with cause := 5 }

/-- A write with ENABLE 0 and RESET 0 (R427, R428): the drain of ring 0 while it is ENABLED, else the fields alone. -/
def Hw.ring0Disable (h : Hw) (value : W32) : Hw :=
  if (h.ring 0).state == .enabled then h.drainRing 0 none
  else if h.ring0On then h
  else { h with host := { h.host with ring0Ctrl := ring0Fields value } }

/-- A write to RING0_CTRL (R427, R428). -/
def Hw.ring0Write (h : Hw) (value : W32) : Hw :=
  let h1 := if value.getLsbD 30 then h.ring0Reset else h
  if value.getLsbD 31 then h1.ring0Enable value else h1.ring0Disable value

/-- RING0_CTRL_ENABLE (R428). -/
def execRing0CtrlEnable (value : W32) (s : State) : Host.Outcome State Fault Refusal :=
  onHw (fun h => if h.barUp then h.ring0Write ((value &&& 0xBFFFFFFF) ||| 0x80000000) else h) s

/-- RING0_CTRL_DISABLE (R428). -/
def execRing0CtrlDisable (value : W32) (s : State) : Host.Outcome State Fault Refusal :=
  onHw (fun h => if h.barUp then h.ring0Write (value &&& 0x3FFFFFFF) else h) s

/-- RING0_CTRL_RESET (R428): the reset first, then the enable where the same write asks for it. -/
def execRing0CtrlReset (value : W32) (s : State) : Host.Outcome State Fault Refusal :=
  onHw (fun h => if h.barUp then h.ring0Write (value ||| 0x40000000) else h) s

/-- A write to SESSION_TABLE_LO (R430): no base change while ENABLE reads 1, and no disable while an unpinned session is
open. -/
def Hw.tableWrite (h : Hw) (value : W32) : Hw :=
  let v := value &&& 0xFFFFF001
  let on := h.host.tableLo.getLsbD 0
  let moves := (v ^^^ h.host.tableLo) &&& 0xFFFFF000 != 0
  if on && (moves || (!v.getLsbD 0 && 1 ≤ h.sessionCount (fun s => !s.pinned))) then h
  else { h with host := { h.host with tableLo := v } }

/-- SESSION_TABLE_ENABLE (R430). -/
def execSessionTableEnable (value : W32) (s : State) : Host.Outcome State Fault Refusal :=
  onHw (fun h => if h.barUp then h.tableWrite (value ||| 1) else h) s

/-- SESSION_TABLE_DISABLE (R430). -/
def execSessionTableDisable (value : W32) (s : State) : Host.Outcome State Fault Refusal :=
  onHw (fun h => if h.barUp then h.tableWrite (value &&& 0xFFFFFFFE) else h) s

/-- MODULE_TIME_LO_READ (R426): the high half of the same instant is latched. -/
def execModuleTimeLoRead (s : State) : Host.Outcome State Fault Refusal :=
  onHw (fun h => if h.barUp then
    ({ h with time := { h.time with hiLatch := h.time.now.extractLsb' 32 32 } } : Hw).emit
      (.read 0x0208 (h.time.now.extractLsb' 0 32)) else h) s

/-! ## Mailboxes (R316, R317, R433-R435, R446) -/

/-- A mailbox. -/
def Hw.mb (h : Hw) (m : Nat) : Mailbox := h.host.mailbox.get m {}

/-- A mailbox replaced. -/
def Hw.setMb (h : Hw) (m : Nat) (x : Mailbox) : Hw := { h with host := { h.host with mailbox := h.host.mailbox.set m x } }

/-- An agent reaches a mailbox: the host 0-3 while BAR0 answers, agents of the module while it is awake (R317, R423, R434). -/
def Hw.mbReach (h : Hw) (m agent : Nat) : Bool :=
  if agent = 1 then m ≤ 3 && h.barUp else 1 ≤ agent && agent ≤ 11 && h.awake

/-- A read of MB_LOCK (R316, R433): 0 to the read that takes a free mailbox, the owner's number to any other. -/
def Hw.mbLockRead (h : Hw) (m agent : Nat) : Hw :=
  let off := 0x100C + 0x40 * m
  if !h.mbReach m agent then (if agent = 1 && h.barUp then h.emit (.read off 0) else h)
  else if m = 0 then h.emit (.read off 6)
  else
    let x := h.mb m
    if x.lock = 0 then (h.setMb m { x with lock := agent, lockAt := h.time.clock }).emit (.read off 0)
    else h.emit (.read off (BitVec.ofNat 32 x.lock))

/-- MB_LOCK_READ (R316). -/
def execMbLockRead (mb : Fin 16) (agent : Fin 12) (s : State) : Host.Outcome State Fault Refusal :=
  onHw (fun h => h.mbLockRead mb.val agent.val) s

/-- The owner releases its lock (R316). -/
def Hw.mbRelease (h : Hw) (m agent : Nat) : Hw :=
  if h.mbReach m agent && m != 0 && (h.mb m).lock == agent then h.setMb m { h.mb m with lock := 0 } else h

/-- MB_LOCK_RELEASE (R316). -/
def execMbLockRelease (mb : Fin 16) (agent : Fin 12) (s : State) : Host.Outcome State Fault Refusal :=
  onHw (fun h => h.mbRelease mb.val agent.val) s

/-- The owner writes a word while FULL is 0 (R316, R433); any other write is ignored. -/
def Hw.mbWrite (h : Hw) (m agent : Nat) (word : W32) : Hw :=
  let x := h.mb m
  if h.mbReach m agent && m != 0 && x.lock == agent && !x.full then
    h.setMb m { x with data := word, full := true, sender := agent, valid := false, writtenAt := h.time.clock
                       lockAt := h.time.clock }
  else h

/-- MB_DATA_WRITE (R316). -/
def execMbDataWrite (mb : Fin 16) (agent : Fin 12) (word : W32) (s : State) : Host.Outcome State Fault Refusal :=
  onHw (fun h => h.mbWrite mb.val agent.val word) s

/-- The receiver acknowledges (R316): FULL clears; after a timeout it is discarded (R435). -/
def Hw.mbAck (h : Hw) (m : Nat) (code : Byte) : Hw :=
  let x := h.mb m
  if x.full then h.setMb m { x with full := false, ack := code, valid := true } else h

/-- MB_ACKNOWLEDGE (R316): by the receiver of R317; among module agents, by any other than the owner. -/
def execMbAcknowledge (mb : Fin 16) (agent : Fin 12) (code : Byte) (s : State) : Host.Outcome State Fault Refusal :=
  onHw (fun h =>
    let r := mbReceiver mb.val
    let receives := if r = 0 then (h.mb mb.val).lock != agent.val else r == agent.val
    if h.awake && agent.val != 0 && receives && mb.val != 0 then h.mbAck mb.val code else h) s

/-- TIMEOUT is cleared by writing 1 to it (R433). -/
def Hw.mbTimeoutClear (h : Hw) (m : Nat) : Hw := if h.mbReach m 1 then h.setMb m { h.mb m with timeout := false } else h

/-- MB_TIMEOUT_CLEAR (R433). -/
def execMbTimeoutClear (mb : Fin 16) (s : State) : Host.Outcome State Fault Refusal := onHw (fun h => h.mbTimeoutClear mb.val) s

/-- MB_TIMEOUT (R316): not read within 10 ms. -/
def execMbTimeout (mb : Fin 16) (s : State) : Host.Outcome State Fault Refusal :=
  onHw (fun h =>
    let x := h.mb mb.val
    if x.full && x.writtenAt + 10 * msTicks ≤ h.time.clock then
      h.setMb mb.val { x with timeout := true, full := false, lock := 0 }
    else h) s

/-- MB_LOCK_EXPIRY (R316): the owner was reset, or has held the lock for 1 s without writing. -/
def execMbLockExpiry (mb : Fin 16) (ownerReset : Bool) (s : State) : Host.Outcome State Fault Refusal :=
  onHw (fun h =>
    let x := h.mb mb.val
    if x.lock != 0 && (ownerReset || (!x.full && x.lockAt + sTicks ≤ h.time.clock)) then h.setMb mb.val { x with lock := 0 } else h) s

/-- Mailbox 1 holds a word that the safety controller may take now: not during the hold of R340. -/
def Hw.mb1Holds (h : Hw) (word : W32) : Bool :=
  h.awake && h.img.safeHold.isNone && (h.mb 1).full && (h.mb 1).data == word

/-- PING (R317). -/
def execPing (s : State) : Host.Outcome State Fault Refusal :=
  onHw (fun h => if h.mb1Holds 1 then h.busyNow.mbAck 1 Status.done.code else h) s

/-- SLEEP (R317): a MODE_REQUEST for BIVOUAC, answered at the grant or the refusal. -/
def Hw.mbSleep (h : Hw) : Hw :=
  if h.modeBusy then h.mbAck 1 Status.busy.code
  else match h.route .bivouac with
    | some m => (h.busyNow.mbAck 1 Status.done.code).grant m none 0 0
    | none => h.mbAck 1 Status.modeDenied.code

/-- SLEEP (R317). -/
def execSleep (s : State) : Host.Outcome State Fault Refusal := onHw (fun h => if h.mb1Holds 2 then h.mbSleep else h) s

/-- RING0_RESET (R317, R428). -/
def execRing0Reset (s : State) : Host.Outcome State Fault Refusal :=
  onHw (fun h => if h.mb1Holds 3 then h.busyNow.ring0Reset.mbAck 1 Status.done.code else h) s

/-- APP_MAILBOX_WORD (R317, R446): PING is answered DONE, other words as the APP image assigns them; UNKNOWN_OP before it
runs. -/
def Hw.appWord (h : Hw) (m : Nat) (code : Byte) : Hw :=
  if !(h.mb m).full then h
  else if !h.appRuns then h.mbAck m Status.unknownOp.code
  else if (h.mb m).data = 1 then h.busyNow.mbAck m Status.done.code
  else if code.toNat ≤ 14 then h.mbAck m code
  else h

/-- APP_MAILBOX_WORD (R446). -/
def execAppMailboxWord (third : Bool) (code : Byte) (s : State) : Host.Outcome State Fault Refusal :=
  onHw (fun h => if h.awake then h.appWord (if third then 3 else 2) code else h) s

/-! ## Register writes (R423, R427, R430, R431) -/

/-- A 32-bit word of the MSI-X table is written. -/
def Hw.msixWrite (h : Hw) (off : Nat) (v : W32) : Hw :=
  let n := off / 16
  let e := h.host.msix.get n {}
  let e1 : MsixEntry := match off % 16 / 4 with
    | 0 => { e with addrLo := v } | 1 => { e with addrHi := v } | 2 => { e with data := v } | _ => { e with ctrl := v }
  ({ h with host := { h.host with msix := h.host.msix.set n e1 } } : Hw).sendPending n

/-- The host's write to a mailbox register (R433). -/
def Hw.mbRegWrite (h : Hw) (off : Nat) (v : W32) : Hw :=
  let m := off / 0x40
  if off % 0x40 = 0 then h.mbWrite m 1 v
  else if off % 0x40 = 4 then (if v.getLsbD 1 then h.mbTimeoutClear m else h)
  else if off % 0x40 = 0xC then (if v = 0 then h.mbRelease m 1 else h)
  else h

/-- The low or high half of a 64-bit base. -/
def withLo (x : W64) (v : W32) : W64 := (x &&& 0xFFFFFFFF00000000) ||| v.setWidth 64
def withHi (x : W64) (v : W32) : W64 := (x &&& 0xFFFFFFFF) ||| v.setWidth 64 <<< 32

/-- A 32-bit write to BAR0 (R423). -/
def Hw.regWrite (h : Hw) (off : Nat) (v : W32) : Hw :=
  if off = 0x0800 then (if h.ring0On then h else { h with host := { h.host with ring0Sq := withLo h.host.ring0Sq v } })
  else if off = 0x0804 then (if h.ring0On then h else { h with host := { h.host with ring0Sq := withHi h.host.ring0Sq v } })
  else if off = 0x0808 then (if h.ring0On then h else { h with host := { h.host with ring0Cq := withLo h.host.ring0Cq v } })
  else if off = 0x080C then (if h.ring0On then h else { h with host := { h.host with ring0Cq := withHi h.host.ring0Cq v } })
  else if off = 0x0810 then h.ring0Write v
  else if off = 0x0818 then h.tableWrite v
  else if off = 0x081C then (if h.host.tableLo.getLsbD 0 then h else { h with host := { h.host with tableHi := v } })
  else if 0x1000 ≤ off && off < 0x1400 then h.mbRegWrite (off - 0x1000) v
  else if 0x2000 ≤ off && off < 0x2410 then h.msixWrite (off - 0x2000) v
  else h

/-- A 64-bit write acts on both halves at once (R423): the session table's ENABLE, in the low half, does not yet guard the
high half of the base that comes with it (R430). -/
def Hw.regWrite64 (h : Hw) (o : Nat) (v : W64) : Hw :=
  let lo := v.extractLsb' 0 32
  let hi := v.extractLsb' 32 32
  if o = 0x0818 then (h.regWrite (o + 4) hi).regWrite o lo else (h.regWrite o lo).regWrite (o + 4) hi

/-- REGISTER_WRITE (R423): aligned 32-bit and 64-bit accesses; a 64-bit one acts on both halves. -/
def execRegisterWrite (offset : W16) (width : Nat) (value : W64) (s : State) : Host.Outcome State Fault Refusal :=
  onHw (fun h =>
    let o := offset.toNat
    if !h.barUp then h
    else if width = 32 && o % 4 = 0 then h.regWrite o (value.extractLsb' 0 32)
    else if width = 64 && o % 8 = 0 then h.regWrite64 o value
    else h) s

/-! ## Losing the host (R314, R315, R435) -/

/-- A source identity that CAN_FB_SOURCES permits (R379). -/
def Hw.canIdentity (h : Hw) (x : W32) : Bool :=
  x != 0 && (List.range 4).any (fun i => h.sourceIds.getD i 0 == x && h.par 0x0E15 / 2 ^ i % 2 == 1)

/-- The sessions that go to the CAN path with the host lost (R314, R379). -/
def Hw.keepsSession (h : Hw) (s : Session) : Bool := s.viaCan || (s.auth == .motion && h.canIdentity s.source)

/-- Every ring goes into ERROR (R314). -/
def Hw.allRingsError (h : Hw) : Hw :=
  ((h.host.rings.filter (fun p => p.2.state != .absent)).map (·.1)).foldl (fun x n => x.ringError n 4) h

/-- The sessions not kept are closed, the others belong to the CAN path from now on. -/
def Hw.closeSessions (h : Hw) : Hw :=
  let ends := (h.host.sessions.filter (fun p => !h.keepsSession p.2)).map (·.1)
  let h1 := ends.foldl Hw.endSession h
  { h1 with host := { h1.host with sessions := h1.host.sessions.mapv (fun _ s => { s with viaCan := true, closing := none }) } }

/-- Locks held by the host are released (R435). -/
def Hw.releaseHost (h : Hw) : Hw :=
  { h with host := { h.host with mailbox := h.host.mailbox.mapv (fun _ x => if x.lock = 1 then { x with lock := 0 } else x)
                                 ring0Sq := 0, ring0Cq := 0, ring0Ctrl := 0, tableLo := 0, tableHi := 0, msix := []
                                 msixPending := 0 } }

/-- The host counts as lost (R314): rings in ERROR, sessions closed, cinches and snapshots with them (R330, R355). -/
def Hw.loseHost (h : Hw) : Hw :=
  let h1 : Hw := { h with host := { h.host with linkUp := false, lost := true }, net := { h.net with fallback := false } }
  let h2 := (h1.raiseOnce fltHostLinkLost 0xFF).allRingsError.abortSnap
  ((h2.dropCinches (fun c => c.path != .can)).closeSessions).releaseHost

/-- HOST_LINK_LOST (R314): the link has been down for `down` ticks; the host counts as lost from HOST_LINK_GRACE on. -/
def execHostLinkLost (down : Nat) (s : State) : Host.Outcome State Fault Refusal :=
  onHw (fun h => if h.awake && !h.host.lost && h.parTicks 0x0B01 ≤ down then h.loseHost else h) s

/-- HOT_RESET (R314): at once. -/
def execHotReset (s : State) : Host.Outcome State Fault Refusal := onHw (fun h => if h.awake then h.loseHost else h) s

/-- HOST_LINK_UP (R314). -/
def execHostLinkUp (s : State) : Host.Outcome State Fault Refusal :=
  onHw (fun h => if h.awake && !h.pwr.onP11 then
    ({ h with host := { h.host with linkUp := true, lost := false } } : Hw).clearFault fltHostLinkLost.code 0xFF else h) s

/-- HOST_DMA_ERROR (R315): the ring that caused it goes into ERROR. A session-table transfer belongs to the ring whose descriptor
waits for its context: the write-back and the paging in have not been made, and every context stays where it is. -/
def Hw.dmaError (h : Hw) (n : Nat) (sessionTable : Bool) : Hw :=
  if (h.ring n).posts && (!sessionTable || (h.ring n).missed.isSome) then
    (h.ringError n 3).occurActed fltHostDmaError (BitVec.ofNat 8 n) else h

/-- HOST_DMA_ERROR (R315). -/
def execHostDmaError (ring : Fin 64) (sessionTable : Bool) (s : State) : Host.Outcome State Fault Refusal :=
  onHw (fun h => h.dmaError ring.val sessionTable) s

end Sys2Proof.Machine
end

