-- ==== Sys2Proof/Machine/Store.lean ====
section
/-!
DEFINITION. Machine/Store.lean: the commands of cinches, parameters, images and tack records (R321-R347).
-/
namespace Sys2Proof.Machine

/-! ## Cinches (R324-R331) -/

/-- CINCH_OPEN (R324). -/
def execCinchOpen (d : Desc) (s : State) : Host.Outcome State Fault Refusal :=
  onHw (fun h => h.descriptor 0x0C01 d (fun q h => h.cinchOpen d q)) s

/-- What the engine finds in the image that a member loads (R338); only IMAGE_SWAP loads one. -/
def memberImage (op : Nat) (d : Desc) : Option ImageInfo := if op = 0x0C07 then some (imageInfo d.dma d.sigOk) else none

/-- CINCH_MEMBER_STAGE (R325, R326): a descriptor with CINCH_MEMBER set. -/
def execCinchMemberStage (op : W16) (d : Desc) (s : State) : Host.Outcome State Fault Refusal :=
  onHw (fun h => h.stageMember op.toNat d.asMember (memberImage op.toNat d)) s

/-- CINCH_COMMIT (R328). -/
def execCinchCommit (d : Desc) (s : State) : Host.Outcome State Fault Refusal :=
  onHw (fun h => h.descriptor 0x0C02 d (fun q h => h.cinchCommit d q)) s

/-- CINCH_ABORT (R331). -/
def execCinchAbort (d : Desc) (s : State) : Host.Outcome State Fault Refusal :=
  onHw (fun h => h.descriptor 0x0C03 d (fun q h => h.cinchAbort d q)) s

/-- CINCH_ACCEPT (R328). -/
def execCinchAccept (slot : Fin 33) (s : State) : Host.Outcome State Fault Refusal := onHw (fun h => h.cinchAccept slot.val) s

/-- The instant of a committed cinch (R327, R329); an APP swap under way has had its instant (R339). -/
def Hw.cinchInstant (h : Hw) (n : Nat) : Hw :=
  let s := h.slot n
  let swapping := match h.img.appSwap with | some a => a.slot == n | none => false
  if s.state != .committed || swapping then h
  else if h.cinchDue s then h.applyCinch n
  else h.seekCommon s

/-- CINCH_INSTANT (R329). -/
def execCinchInstant (slot : Fin 33) (s : State) : Host.Outcome State Fault Refusal := onHw (fun h => h.cinchInstant slot.val) s

/-- CINCH_EXPIRED (R331). -/
def Hw.cinchExpired (h : Hw) (n : Nat) : Hw :=
  let s := h.slot n
  if (s.state == .opened || s.state == .poisoned) && s.commit.isNone && s.openedAt + h.parTicks 0x0C01 ≤ h.time.clock then
    (h.dropCinch n).occur fltCinchExpired 0xFF
  else h

/-- CINCH_EXPIRED (R331). -/
def execCinchExpired (slot : Fin 33) (s : State) : Host.Outcome State Fault Refusal := onHw (fun h => h.cinchExpired slot.val) s

/-! ## Parameters (R321-R323) -/

/-- PARAM_WRITE past its authority (R321, R322). -/
def Hw.paramSet (h : Hw) (d : Desc) (q : Req) : Hw :=
  match h.paramCheck d false with
  | some st => h.complete q st
  | none => match paramRow d.paramId with
    | some r => h.paramWrite d.paramId d.paramValue r.cls q
    | none => h.complete q .range

/-- PARAM_WRITE (R321). -/
def execParamWrite (d : Desc) (s : State) : Host.Outcome State Fault Refusal :=
  onHw (fun h => h.descriptor 0x0C04 d (fun q h => h.paramSet d q)) s

/-- PARAM_READ past its authority (R323). -/
def Hw.paramGet (h : Hw) (d : Desc) (q : Req) : Hw :=
  let addr := d.num 24 8
  if (paramRow d.paramId).isNone || !alignedTo addr 8 then h.complete q .range
  else (h.emit (.dma (BitVec.ofNat 64 addr) (h.paramBlock d.paramId))).complete q .done

/-- PARAM_READ (R323). -/
def execParamRead (d : Desc) (s : State) : Host.Outcome State Fault Refusal :=
  onHw (fun h => h.descriptor 0x0C05 d (fun q h => h.paramGet d q)) s

/-! ## Images (R335-R340) -/

/-- An entry of a directory image (R335). -/
def dirEntry (l : List Byte) (n : Nat) : DirEntry :=
  { kind := field l (16 + 16 * n) 1, length := field l (20 + 16 * n) 4, addr := BitVec.ofNat 64 (field l (24 + 16 * n) 8) }

/-- The directory read from host memory, none where it is not well formed (R335); reserved bytes are ignored (R3). -/
def directoryOf (l : List Byte) (len : Nat) : Option (List DirEntry) :=
  let n := field l 5 1
  let es := (List.range n).map (dirEntry l)
  if slice l 0 4 == [0x43, 0x57, 0x49, 0x44] && field l 4 1 == 1 && 1 ≤ n && n ≤ 6 && len == 16 + 16 * n &&
     es.all (fun e => 1 ≤ e.kind && e.kind ≤ 6) &&
     (crc32 polyC (slice l 0 12 ++ slice l 16 (16 * n))).toNat == field l 12 4 then some es else none

/-- IMAGE_DIRECTORY past its authority (R335): it answers every outstanding request. -/
def Hw.imageDirectory (h : Hw) (d : Desc) (q : Req) : Hw :=
  if !alignedTo (d.num 16 8) 8 then h.complete q .range
  else match directoryOf d.dma (d.num 24 4) with
    | none => h.complete q .range
    | some es => (({ h with img := { h.img with directory := es } } : Hw).requestImage).complete q .done

/-- IMAGE_DIRECTORY (R335). -/
def execImageDirectory (d : Desc) (s : State) : Host.Outcome State Fault Refusal :=
  onHw (fun h => h.descriptor 0x0C06 d (fun q h => h.imageDirectory d q)) s

/-- IMAGE_SWAP (R338): outside a cinch it completes RANGE. -/
def execImageSwap (d : Desc) (img : ImageInfo) (s : State) : Host.Outcome State Fault Refusal :=
  onHw (fun h => if d.member then h.stageMember 0x0C07 d (some img)
    else h.checked 0x0C07 d (fun q h => h.complete q .range)) s

/-- SAFE_SWAP_RELEASE (R340): the active set's check value has matched, and the new image runs. -/
def Hw.safeRelease (h : Hw) : Hw :=
  match h.img.safeHold with
  | none => h
  | some x =>
    if x.since + 50 * msTicks < h.time.clock then h
    else { h with img := ({ h.img with safeHold := none } : Images).start .safe .brA x.image }

/-- SAFE_SWAP_RELEASE (R340). -/
def execSafeSwapRelease (s : State) : Host.Outcome State Fault Refusal := onHw Hw.safeRelease s

/-- SAFE_SWAP_FAIL (R340): the series STO input opens, ARREST, and the cores restart from the boot ROM
and ask for the SAFE image. -/
def Hw.safeFail (h : Hw) : Hw :=
  match h.img.safeHold with
  | none => h
  | some x =>
    if h.time.clock < x.since + 50 * msTicks then h
    else
      let h1 : Hw := { h with img := { h.img with safeHold := none }, saf := { h.saf with seriesOpen := true, noMajority := true } }
      (h1.orderBoth.occurThen fltSafeSwapFail .arrest 0xFF (fun x => x)).safeRestart

/-- SAFE_SWAP_FAIL (R340). -/
def execSafeSwapFail (s : State) : Host.Outcome State Fault Refusal := onHw Hw.safeFail s

/-- The commit of an APP swap ends (R339), unless the cinch has ended before. -/
def Hw.endAppSwap (h : Hw) (n : Nat) (st : Status) : Hw :=
  let h1 : Hw := { h with img := { h.img with appSwap := none } }
  if (h.slot n).state == .committed && (h.slot n).commit.isSome then h1.finishCinch n st else h1

/-- The core whose turn it is: upward, and downward while the swap reverses. -/
def AppSwap.turn (a : AppSwap) (core : Nat) : Bool := if a.reversing then core + 1 == a.done else core == a.done

/-- APP_CORE_SWAP (R339): one core at a time, each within 100 ms; the fourth completes the commit, one that does not start within
them reverses it, one core at a time. -/
def Hw.appCore (h : Hw) (core : Nat) (ok : Bool) : Hw :=
  match h.img.appSwap with
  | none => h
  | some a =>
    let put (x : AppSwap) : Hw := { h with img := { h.img with appSwap := some { x with coreAt := h.time.clock } } }
    let late := a.coreAt + 100 * msTicks < h.time.clock
    if !a.turn core then h
    else if a.reversing then
      (if !ok then h else if a.done ≤ 1 then h.endAppSwap a.slot .hwFault else put { a with done := a.done - 1 })
    else if !ok || late then (if a.done = 0 then h.endAppSwap a.slot .hwFault else put { a with reversing := true })
    else if a.done = 3 then ({ h with img := h.img.start .app .brA a.image } : Hw).endAppSwap a.slot .done
    else put { a with done := a.done + 1 }

/-- APP_CORE_SWAP (R339). -/
def execAppCoreSwap (core : Fin 4) (ok : Bool) (s : State) : Host.Outcome State Fault Refusal :=
  onHw (fun h => h.appCore core.val ok) s

/-! ## Tack records (R341-R347) -/

/-- The conditions of R345 that OTP_PROGRAM and OTP_REVOKE share, in its order. -/
def Hw.otpCheck (h : Hw) : Option Status :=
  if h.mode.mode != .workshop then some .modeDenied
  else if !h.otpFit then some .range
  else if h.otp.job.isSome then some .busy
  else none

/-- The body to program (R345): the active SYSCAL overlay, or a CONFIG or KEYS buffer. -/
def Hw.otpSource (h : Hw) (d : Desc) : Status ⊕ List Byte :=
  let type := d.num 16 1
  let src := d.num 17 1
  let len := d.num 28 4
  if type = 1 || type = 2 then .inl .authDenied
  else if type = 3 && src = 0 then (match h.otp.syscal with | some l => .inr (slice l 0 1024) | none => .inl .range)
  else if type = 5 && src = 1 then (if len ≤ 512 then .inr (slice (d.dma.take len) 0 512) else .inl .range)
  else if type = 6 && src = 1 then
    (if len != 128 then .inl .range else if d.sigOk then .inr (slice d.dma 0 64) else .inl .authDenied)
  else .inl .range

/-- OTP_PROGRAM past its authority (R345): programming begins. -/
def Hw.otpProgram (h : Hw) (d : Desc) (q : Req) : Hw :=
  let type := d.num 16 1
  match h.otpCheck, h.otpSource d with
  | some st, _ => h.complete q st
  | none, .inl st => h.complete q st
  | none, .inr body =>
    match h.otp.nextSlot type, otpMap type with
    | some g, some (base, _, size) =>
      let j : OtpJob := { type := type, offset := slotBase base size g, bytes := slotImage type g body, revoke := false
                          safety := false, req := q }
      { h with otp := { h.otp with job := some j } }
    | _, _ => (h.occur fltOtpExhausted 0xFF).complete q .noResource

/-- OTP_PROGRAM (R345). -/
def execOtpProgram (d : Desc) (s : State) : Host.Outcome State Fault Refusal :=
  onHw (fun h => h.descriptor 0x0C08 d (fun q h => h.otpProgram d q)) s

/-- What keeps a record from being revoked (R346). -/
def Hw.revokeCheck (h : Hw) (d : Desc) : Option Status :=
  let type := d.num 16 1
  if type = 1 || type = 2 then some .authDenied
  else if (otpMap type).isNone || (h.otp.active.find type).isNone then some .range
  else if type = 6 && (h.otp.liveGens 6).length ≤ 1 then some .range
  else if type = 6 && !d.sigOk then some .authDenied
  else none

/-- OTP_REVOKE past its authority (R346). -/
def Hw.otpRevoke (h : Hw) (d : Desc) (q : Req) : Hw :=
  let type := d.num 16 1
  match h.otpCheck, h.revokeCheck d with
  | some st, _ => h.complete q st
  | none, some st => h.complete q st
  | none, none =>
    match h.otp.active.find type, otpMap type with
    | some g, some (base, _, size) =>
      let j : OtpJob := { type := type, offset := slotBase base size g, bytes := [0xFF, 0xFF, 0xFF, 0xFF], revoke := true
                          safety := false, req := q }
      { h with otp := { h.otp with job := some j } }
    | _, _ => h.complete q .range

/-- OTP_REVOKE (R346). -/
def execOtpRevoke (d : Desc) (s : State) : Host.Outcome State Fault Refusal :=
  onHw (fun h => h.descriptor 0x0C09 d (fun q h => h.otpRevoke d q)) s

/-- The generation a programming run writes. -/
def OtpJob.gen (j : OtpJob) : Nat :=
  match otpMap j.type with
  | some (base, _, body) => (j.offset - base) / (body + 16)
  | none => 0

/-- The safety set was programmed and is the pending one still: it is confirmed (R270, R442). -/
def Hw.confirmProgrammed (h : Hw) (j : OtpJob) : Hw :=
  match h.saf.pending with
  | some set =>
    if j.safety && h.mode.mode == .workshop && j.bytes == slotImage 4 j.gen (safetyBody set) then
      { h with saf := { h.saf with confirmed := true } }
    else h
  | none => h

/-- OTP_PROGRAM_DONE (R345): read back with margin, or stopped by VSUP below 9.0 V with the slot consumed. -/
def Hw.otpDone (h : Hw) (ok : Bool) : Hw :=
  match h.otp.job with
  | none => h
  | some j =>
    if ok && 9000 ≤ h.pwr.vsup then
      let h1 : Hw := { h with otp := { h.otp with job := none, bytes := memBurn h.otp.bytes j.offset j.bytes } }
      (h1.confirmProgrammed j).complete j.req .done
    else
      let part := slice (Config.otpPartial h.free) 0 j.bytes.length
      let o : Otp := { h.otp with job := none, bytes := memBurn h.otp.bytes j.offset part
                                  consumed := if j.revoke then h.otp.consumed else (j.type, j.gen) :: h.otp.consumed }
      (({ h.drawn with otp := o } : Hw).occur fltOtpProgramFail 0xFF).complete j.req .hwFault

/-- OTP_PROGRAM_DONE (R345). -/
def execOtpProgramDone (ok : Bool) (s : State) : Host.Outcome State Fault Refusal := onHw (fun h => h.otpDone ok) s

/-- OVERLAY_LOAD past its authority (R347): SYSCAL at the next CONTROL_AB boundary, CONFIG at the edge to READY. -/
def Hw.overlayLoad (h : Hw) (d : Desc) (q : Req) : Hw :=
  match h.overlayCheck d false with
  | some st => h.complete q st
  | none =>
    let type := d.num 16 1
    match overlayBody d.dma type with
    | none => h.complete q .range
    | some body =>
      if type = 3 then
        let old := h.otp.syscalNext.bind (·.2)
        (({ h with otp := { h.otp with syscalNext := some (body, some q) } } : Hw).completeOpt old .superseded).fixAB 0
      else ({ h with otp := { h.otp with configNext := some (bodyEntries 51 body) } } : Hw).complete q .done

/-- OVERLAY_LOAD (R347). -/
def execOverlayLoad (d : Desc) (s : State) : Host.Outcome State Fault Refusal :=
  onHw (fun h => h.descriptor 0x0C0A d (fun q h => h.overlayLoad d q)) s

end Sys2Proof.Machine
end

