-- ==== Sys2Proof/Machine/Clock.lean ====
section
/-!
DEFINITION. Machine/Clock.lean: module time (R31, R32, R382): synchronisation, the one step of a wake, and the tick.
-/
namespace Sys2Proof.Machine

/-! ## Synchronisation (R32, R382) -/

/-- Something keeps a step of module time waiting: an AT_TIME cinch OPEN or COMMITTED, or a pending snapshot (R32). -/
def Hw.stepHeld (h : Hw) : Bool :=
  h.cnt.snap.isSome || h.slots.any (fun p => p.2.cls == 7 && (p.2.state == .opened || p.2.state == .committed))

/-- The reference marks of the CAN channels move with a step. -/
def Net.refStep (x : Net) (n : W64) : Net :=
  let f (c : CanCh) : CanCh := { c with refAt := c.refAt + n }
  { x with can0 := f x.can0, can1 := f x.can1, can2 := f x.can2, can3 := f x.can3 }

/-- The instants of the failover timing, which is in module time (R33), move with a step. -/
def Pair.timeStep (p : Pair) (n : Nat) : Pair :=
  { p with frameAt := p.frameAt + n, mismatchAt := p.mismatchAt.map (· + n), loopAtA := p.loopAtA.map (· + n)
           loopAtB := p.loopAtB.map (· + n), ilvAt := p.ilvAt.map (· + n) }

/-- Module times that mark a beginning or a boundary move with a step (R32). -/
def Hw.moveTimes (h : Hw) (n : W64) : Hw :=
  let c (x : Ctl) : Ctl := { x with periodStart := x.periodStart + n, boundary := x.boundary.map (· + n) }
  let enc (e : Encoder) : Encoder := { e with first := e.first + n, last := e.last + n, windowAt := e.windowAt + n }
  let res (r : Resolver) : Resolver :=
    { r with angleAt := r.angleAt + n, learn := r.learn.map (fun l => { l with start := l.start.map (· + n) }) }
  let h1 := (h.modCtl .brA c).modCtl .brB c
  { h1 with pos := { h1.pos with res0 := res h1.pos.res0, res1 := res h1.pos.res1, enc0 := enc h1.pos.enc0, enc1 := enc h1.pos.enc1
                                 halls := h1.pos.halls.mapv (fun _ x => { x with events := x.events.map (· + n) }) }
            sh := { h1.sh with fixedAB := h1.sh.fixedAB.map (· + n) }
            net := (h1.net.refStep n)
            pair := h1.pair.timeStep n.toNat
            gateB := { h1.gateB with stretch := h1.gateB.stretch.map (fun p => (p.1 + n, p.2)) }
            slots := h1.slots.mapv (fun _ s => { s with leadEnd := s.leadEnd + n })
            sen := { h1.sen with accs := h1.sen.accs.mapv (fun _ a => { a with openAt := a.openAt + n })
                                 starts := h1.sen.starts.mapv (fun _ p => (p.1 + n, p.2)) } }

/-- The step of the wake (R32), with its event. -/
def Hw.makeStep (h : Hw) (n : Nat) : Hw :=
  let old := h.time.now
  let new := old + BitVec.ofNat 64 n
  let t : Time := { h.time with now := new, stepDone := true, stepWait := none, synced := !h.net.ptpLost, slew := 0 }
  (({ h with time := t } : Hw).moveTimes (BitVec.ofNat 64 n)).postEvent 0x0101 new (leBytes 8 old.toNat ++ leBytes 8 new.toNat)

/-- TIME_STEP (R32). -/
def Hw.timeStep (h : Hw) : Hw :=
  match h.time.stepWait with
  | none => h
  | some n => if h.stepHeld then h else h.makeStep n

/-- TIME_STEP (R32). -/
def execTimeStep (s : State) : Host.Outcome State Fault Refusal := onHw Hw.timeStep s

/-- Module time slews towards the received time; it counts as synchronised within 50 ns, which is 20 ticks (R32). -/
def Hw.slewTo (h : Hw) (offset : Int) : Hw :=
  { h with time := { h.time with slew := offset, synced := absI offset ≤ 20, firstSync := true } }

/-- PTP_SYNC (R32, R382). The wake's first Sync more than 1 ms ahead steps module time; after PTP_SYNC_LOST synchronisation
returns without a step, and that Sync then was the wake's first such. -/
def Hw.ptpSync (h : Hw) (offset : Int) : Hw :=
  let back := h.net.ptpLost
  let h1 := if back then
      ({ h with net := { h.net with ptpLost := false } } : Hw).clearFault fltPtpSyncLost.code 0x10 else h
  if h1.time.behind then h1
  else if !h1.time.firstSync && offset < -400000 then
    ({ h1 with time := { h1.time with behind := true, firstSync := true, stepDone := true, synced := false, slew := 0 } }
      : Hw).raiseOnce fltPtpTimeBehind 0x10
  else if 400000 < offset && !h1.time.stepDone && !back then
    ({ h1 with time := { h1.time with stepWait := some offset.toNat, firstSync := true, synced := false, slew := 0 } } : Hw).timeStep
  else if h1.time.stepWait.isSome then h1
  else if 400000 < offset then ({ h1 with time := { h1.time with stepDone := true } } : Hw).slewTo offset
  else h1.slewTo offset

/-- PTP_SYNC (R382). -/
def execPtpSync (offset : Int) (s : State) : Host.Outcome State Fault Refusal :=
  onHw (fun h => if h.mode.phase == .up && h.powered 3 then h.ptpSync offset else h) s

/-- PTP_SYNC_LOST (R382): unsynchronised, on CK2. -/
def Hw.ptpLoss (h : Hw) : Hw :=
  if h.net.ptpLost || h.mode.phase != .up then h
  else
    (({ h with net := { h.net with ptpLost := true }, time := { h.time with synced := false, slew := 0 } } : Hw).count 0x0BC
      1).raiseOnce fltPtpSyncLost 0x10

/-- Synchronisation is lost: three sync intervals without a Sync, or three failed peer-delay measurements in succession (R382). -/
def ptpCounts : PtpLoss → Bool
  | .noSync interval elapsed => 3 * interval ≤ elapsed
  | .peerDelay failures => 3 ≤ failures

/-- PTP_SYNC_LOST (R382). -/
def execPtpSyncLost (why : PtpLoss) (s : State) : Host.Outcome State Fault Refusal :=
  onHw (fun h => if ptpCounts why then h.ptpLoss else h) s

/-! ## The tick (R31, R32, R351) -/

/-- One 2.5 ns tick of module time: one tick is added or withheld in every 10 000 while a slew remains (R32). -/
def Time.run (t : Time) : Time :=
  let due := t.slew != 0 && 9999 ≤ t.sinceSlew
  { t with now := if due then (if 0 < t.slew then t.now + 2 else t.now) else t.now + 1
           slew := if due then (if 0 < t.slew then t.slew - 1 else t.slew + 1) else t.slew
           sinceSlew := if due then 0 else t.sinceSlew + 1
           clock := t.clock + 1 }

/-- A tick in BIVOUAC (R31): P0 counts module time from the 32.768 kHz clock, in whole ticks and fractions of 1/32 tick. A
period of that clock is 1e9 / 32768 ns, which is 12 207 ticks and 1/32. -/
def Time.doze (t : Time) : Time :=
  let edge := t.sinceSlew + 1 = 12207 + (if t.p0frac = 31 then 1 else 0)
  { t with now := if edge then t.now + BitVec.ofNat 64 (t.sinceSlew + 1) else t.now
           p0frac := if edge then (t.p0frac + 1) % 32 else t.p0frac
           sinceSlew := if edge then 0 else t.sinceSlew + 1
           clock := t.clock + 1 }

/-- A millisecond of the wake has passed: time since wake and time in the mode (0x000-0x007, R351), and in a rope team time
as LEAD and time with a 100 % share (0x0C8, 0x0C9, R405). -/
def Hw.msEdge (h : Hw) : Hw :=
  let h1 := ({ h with time := { h.time with msAt := h.time.msAt + msTicks } } : Hw).count 0 1
  let h2 := if h.mode.mode == .bivouac then h1 else h1.count h.mode.mode.code 1
  if !h.roped then h2
  else
    let h3 := if h.pair.lead then h2.count 0x0C8 1 else h2
    if h.pair.takenA || h.pair.takenB then h3.count 0x0C9 1 else h3

/-- One tick of the module: what an empty queue leaves it to do. -/
def Hw.tick (h : Hw) : Hw :=
  match h.mode.phase with
  | .unpowered => { h with time := { h.time with clock := h.time.clock + 1 } }
  | .asleep => { h with time := h.time.doze }
  | .bringUp =>
    let h1 : Hw := { h with time := h.time.run }
    if h1.time.msAt + msTicks ≤ h1.time.clock then h1.msEdge else h1
  | .up =>
    let h1 : Hw := { h with time := h.time.run }
    if h1.time.msAt + msTicks ≤ h1.time.clock then h1.msEdge else h1

end Sys2Proof.Machine
end

