-- ==== Sys2Proof/Machine/Report.lean ====
section
/-!
DEFINITION. Machine/Report.lean: snapshots, telemetry subscriptions, and the acknowledgement, clearing and reading of the
fault history (R353-R364, R439, R440).
-/
namespace Sys2Proof.Machine

/-! ## Snapshots (R353, R354) -/

/-- The first 1 us tick at or after a module time (R353). -/
def usTick (t : Nat) : Nat := (t + (usTicks - 1)) / usTicks * usTicks

/-- The time of a SNAPSHOT is allowed: 0, or 10 us to 60 s after the fetch (R353). -/
def Hw.snapTimeOk (h : Hw) (t : Nat) : Bool :=
  t = 0 || (h.time.now.toNat + 10 * usTicks ≤ t && t ≤ h.time.now.toNat + 60 * sTicks)

/-- SNAPSHOT past its authority (R353, R354). -/
def Hw.snapshot (h : Hw) (d : Desc) (q : Req) : Hw :=
  let ring := d.num 16 1
  let t := d.num 24 8
  if !h.tlmRing ring || d.num 20 4 = 0xFFFFFFFF || !h.snapTimeOk t then h.complete q .range
  else if h.cnt.snap.isSome || h.time.stepWait.isSome then h.complete q .busy
  else
    let at' := usTick (if t = 0 then h.time.now.toNat + 10 * usTicks else t)
    let s : Snap := { ring := ring, epoch := BitVec.ofNat 32 (d.num 20 4), at' := BitVec.ofNat 64 at', req := some q }
    { h with cnt := { h.cnt with snap := some s } }

/-- SNAPSHOT, opcode 0x0D03 (R353). -/
def execSnapshot (d : Desc) (s : State) : Host.Outcome State Fault Refusal :=
  onHw (fun h => h.descriptor 0x0D03 d (fun q h => h.snapshot d q)) s

/-- The bank is copied at the instant (R353). -/
def Hw.copyBank (h : Hw) (s : Snap) : Hw :=
  if s.bank.isSome then h
  else
    let off := !h.time.synced
    let h1 : Hw := { h with cnt := { h.cnt with snap := some { s with bank := some (h.cnt.vals, off) } } }
    if off then h1.occur fltSnapshotUnsynced 0xFF else h1

/-- The instant: the bank is copied and its records are posted; a snapshot still pending goes on (R353, R354). -/
def Hw.snapshotInstant (h : Hw) : Hw :=
  match h.cnt.snap with
  | none => h
  | some s => if h.time.now.toNat < s.at'.toNat then h else (h.copyBank s).postSnap.settleSnap

/-- SNAPSHOT_INSTANT (R353). -/
def execSnapshotInstant (s : State) : Host.Outcome State Fault Refusal := onHw Hw.snapshotInstant s

/-! ## Telemetry subscriptions (R356, R357) -/

/-- The source field fits the source kind (R356). -/
def subSourceOk (kind source : Nat) : Bool :=
  match kind with
  | 0 => source ≤ 127
  | 1 => source ≤ 1
  | 2 =>
    let n := source / 8192
    1 ≤ n && source / 1024 % 8 = 0 && source % 1024 + n ≤ 1024
  | _ => false

/-- The sum of 1 / interval over some intervals in us, as numerator and denominator. -/
def rateSum (l : List Nat) : Nat × Nat := l.foldl (fun a i => (a.1 * i + a.2, a.2 * i)) (0, 1)

/-- At most 200 000 records a second, which is one in 5 us (R357). -/
def rateOk (l : List Nat) : Bool := let r := rateSum l; r.1 * 5 ≤ r.2

/-- The waiting TLM_SUBSCRIBE of a subscription completes. -/
def Hw.endSub (h : Hw) (n : Nat) (st : Status) : Hw :=
  match h.cnt.subs.find n with
  | none => h
  | some x => ({ h with cnt := { h.cnt with subs := h.cnt.subs.del n } } : Hw).completeOpt x.req st

/-- TLM_SUBSCRIBE past its authority (R357). -/
def Hw.tlmSubscribe (h : Hw) (d : Desc) (q : Req) : Hw :=
  let n := d.num 16 1
  let ring := d.num 17 1
  let iv := d.num 24 4
  let others := (h.cnt.subs.filter (fun p => p.1 != n)).map (fun p => p.2.interval)
  if 63 < n || !h.tlmRing ring || !subSourceOk (d.num 18 1) (d.num 20 2) || iv < 100 || 10000000 < iv then h.complete q .range
  else if !rateOk (iv :: others) then h.complete q .noResource
  else
    let x : Sub := { ring := ring, kind := d.num 18 1, source := d.num 20 2, interval := iv, session := d.session.toNat
                     req := some q, last := none, lastVals := [] }
    let h1 := h.endSub n .superseded
    { h1 with cnt := { h1.cnt with subs := h1.cnt.subs.set n x } }

/-- TLM_SUBSCRIBE, opcode 0x0D01 (R357). -/
def execTlmSubscribe (d : Desc) (s : State) : Host.Outcome State Fault Refusal :=
  onHw (fun h => h.descriptor 0x0D01 d (fun q h => h.tlmSubscribe d q)) s

/-- TLM_UNSUBSCRIBE past its authority (R357). -/
def Hw.tlmUnsubscribe (h : Hw) (n : Nat) (q : Req) : Hw :=
  if 63 < n then h.complete q .range else (h.endSub n .aborted).complete q .done

/-- TLM_UNSUBSCRIBE, opcode 0x0D02 (R357). -/
def execTlmUnsubscribe (d : Desc) (s : State) : Host.Outcome State Fault Refusal :=
  onHw (fun h => h.descriptor 0x0D02 d (fun q h => h.tlmUnsubscribe (d.num 16 1) q)) s

/-- What a subscription posts now (R356): record type, module time and body of the latest record its source produced
before now, none where nothing is new; and the subscription as it then stands. -/
def Hw.subRecord (h : Hw) (x : Sub) : Option (W16 × W64 × List Byte) × Sub :=
  let fresh (t : W64) : Bool := t.toNat < h.time.now.toNat && x.last != some t
  match x.kind with
  | 0 => match (h.sen.accs.get x.source {}).last with
    | some r => if fresh r.close then (some (0x0301, r.close, r.bytes), { x with last := some r.close }) else (none, x)
    | none => (none, x)
  | 1 => match (h.ctl (if x.source = 0 then .brA else .brB)).status with
    | some r => if fresh r.time then (some (0x0501, r.time, r.bytes), { x with last := some r.time }) else (none, x)
    | none => (none, x)
  | _ =>
    let first := x.source % 1024
    let n := x.source / 8192
    let vals := (List.range n).map (fun k => h.cnt.vals.get (first + k) 0)
    if x.last.isSome && x.lastVals == vals then (none, x)
    else (some (0x0D01, h.time.now, counterBody 0 first n (!h.time.synced) h.cnt.vals),
      { x with last := some h.time.now, lastVals := vals })

/-- A posting time of a subscription (R356): a whole multiple of its interval. -/
def Hw.tlmPosting (h : Hw) (n : Nat) : Hw :=
  match h.cnt.subs.find n with
  | none => h
  | some x =>
    if h.time.now.toNat % (x.interval * usTicks) != 0 then h
    else
      let r := h.subRecord x
      let h1 : Hw := { h with cnt := { h.cnt with subs := h.cnt.subs.set n { r.2 with req := none } } }
      let h2 := match r.1 with
        | some (ty, t, b) => h1.postTlm x.ring ty t b
        | none => h1
      h2.completeOpt x.req .done

/-- TLM_POSTING (R356). -/
def execTlmPosting (sub : Fin 64) (s : State) : Host.Outcome State Fault Refusal := onHw (fun h => h.tlmPosting sub.val) s

/-! ## FAULT_ACK (R360, R440) -/

/-- An entry with its change of state, at the next fault-transition number (R361). -/
def Hw.changed (h : Hw) (f : Entry → Entry) (e : Entry) : Entry := { f e with last := h.time.now, seq := h.flt.seq }

/-- Entries `p` holds for are changed by `f` in turn, each with its record (R362); answers the list as it then stands. -/
def Hw.changeEach (p : Entry → Bool) (f : Entry → Entry) (transition : Byte) : List Entry → Hw → Hw × List Entry
  | [], h => (h, [])
  | e :: t, h =>
    if p e then
      let e' := h.changed f e
      let r := Hw.changeEach p f transition t (h.nextSeq.faultRecord e' transition)
      (r.1, e' :: r.2)
    else
      let r := Hw.changeEach p f transition t h
      (r.1, e :: r.2)

/-- The history and the raises kept in no entry, changed alike (R361). -/
def Hw.changeFaults (h : Hw) (p : Entry → Bool) (f : Entry → Entry) (transition : Byte) (extras : Bool) : Hw :=
  let a := Hw.changeEach p f transition h.flt.hist h
  let b := if extras then Hw.changeEach p f transition h.flt.extra a.1 else (a.1, h.flt.extra)
  { b.1 with flt := { b.1.flt with hist := a.2, extra := b.2 } }

/-- FAULT_ACK past its authority (R360, R440). -/
def Hw.faultAck (h : Hw) (code : W16) (src : Byte) (q : Req) : Hw :=
  let all := code == 0xFFFF && src == 0xFF
  if !h.flt.hist.any (ackMatches code src) && !(all && h.flt.loss) then h.complete q .range
  else
    let h1 := h.changeFaults (fun e => ackMatches code src e && !e.acked) (fun e => { e with acked := true }) 3 all
    let h2 : Hw := if all then { h1 with flt := { h1.flt with loss := false } } else h1
    h2.splitEnd.complete q .done

/-- FAULT_ACK, opcode 0x0D04 (R360). -/
def execFaultAck (d : Desc) (s : State) : Host.Outcome State Fault Refusal :=
  onHw (fun h => h.descriptor 0x0D04 d (fun q h => h.faultAck (BitVec.ofNat 16 (d.num 16 2)) (d.byte 18) q)) s

/-! ## FAULT_CLEAR (R230, R360) -/

/-- What FAULT_CLEAR clears: active LATCH-class entries, and CHG_TIMER. -/
def clearable (code : W16) (src : Byte) (e : Entry) : Bool :=
  e.active && (e.cls == .latch || e.code == fltChgTimer.code) && ackMatches code src e

/-- A switch position's bit within its bridge. -/
def positionBit (p : Nat) : BitVec 6 := BitVec.ofNat 6 (2 ^ (p % 6))

/-- The inhibit of one cleared entry is removed (R360): what the function itself keeps of the fault. -/
def Hw.uninhibit (h : Hw) (e : Entry) : Hw :=
  let p := e.source.toNat
  let b : Bridge := if p < 6 then .brA else .brB
  let lvCodes := [fltLvoutShort, fltLvStartFailed, fltLvIsoswFail, fltLvClampFail].map (·.code)
  if e.code == fltSwitchShorted.code && p < 12 then h.modGate b (fun g => { g with shorted := g.shorted &&& ~~~ positionBit p })
  else if e.code == fltSwitchOpen.code && p < 12 then h.modGate b (fun g => { g with opened := g.opened &&& ~~~ positionBit p })
  else if e.code == fltGateDesatRepeat.code && p < 12 then
    h.modGate b (fun g => { g with suspect := g.suspect &&& ~~~ positionBit (p ^^^ 1) })
  else if e.code == fltChgTimer.code then { h with chg := { h.chg with expired := [] } }
  else if lvCodes.contains e.code && !lvCodes.any (fun c => h.faultActive c 0xFF) && h.lv.state == .latchedOff then
    ({ h with lv := { h.lv with attempts := 0, isoFails := 0 } } : Hw).lvGo .stopped
  else h

/-- FAULT_CLEAR past its authority (R360). -/
def Hw.faultClear (h : Hw) (code : W16) (src : Byte) (q : Req) : Hw :=
  let hit := (h.flt.hist ++ h.flt.extra).filter (clearable code src)
  if h.mode.mode != .workshop then h.complete q .modeDenied
  else if hit.isEmpty then h.complete q .range
  else
    let h1 := h.changeFaults (clearable code src) (fun e => { e with active := false, cleared := true }) 4 true
    let h2 : Hw := { h1 with flt := { h1.flt with extra := h1.flt.extra.filter (·.active) } }
    (hit.foldl Hw.uninhibit h2).complete q .done

/-- FAULT_CLEAR, opcode 0x0D05 (R360). -/
def execFaultClear (d : Desc) (s : State) : Host.Outcome State Fault Refusal :=
  onHw (fun h => h.descriptor 0x0D05 d (fun q h => h.faultClear (BitVec.ofNat 16 (d.num 16 2)) (d.byte 18) q)) s

/-! ## FAULT_HISTORY_READ (R362) -/

/-- The 8192 bytes of the history, free entries as zeros. -/
def Faults.bytes (f : Faults) : List Byte := slice (f.hist.flatMap Entry.bytes) 0 8192

/-- FAULT_HISTORY_READ past its authority (R362). -/
def Hw.faultHistoryRead (h : Hw) (d : Desc) (q : Req) : Hw :=
  if d.num 16 8 % 8 != 0 then h.complete q .range
  else (h.emit (.dma (BitVec.ofNat 64 (d.num 16 8)) h.flt.bytes)).completeAt q .done (BitVec.ofNat 64 (usTick h.time.now.toNat))

/-- FAULT_HISTORY_READ, opcode 0x0D06 (R362). -/
def execFaultHistoryRead (d : Desc) (s : State) : Host.Outcome State Fault Refusal :=
  onHw (fun h => h.descriptor 0x0D06 d (fun q h => h.faultHistoryRead d q)) s

end Sys2Proof.Machine
end

