-- ==== Sys2Proof/Machine/Networks.lean ====
section
/-!
DEFINITION. Machine/Networks.lean: the CAN channels, their filters, queues, transmission, error confinement and time-triggered
operation, the opening of sessions over CAN, and the Ethernet ports (R365-R387).
-/
namespace Sys2Proof.Machine

/-! ## Channels -/

/-- A channel. -/
def Hw.can (h : Hw) (ch : Nat) : CanCh := h.net.ch ch

/-- A channel changed by `f`. -/
def Hw.modCan (h : Hw) (ch : Nat) (f : CanCh → CanCh) : Hw := { h with net := h.net.modCh ch f }

/-- The networks run (R384): from reduced service to BIVOUAC, with P3 supplied. -/
def Hw.netUp (h : Hw) : Bool := h.mode.phase == .up && h.powered 3

/-- CAN_FORMAT of a channel (R385), 0 while off. -/
def Hw.canFormat (h : Hw) (ch : Nat) : Nat := h.par (0x0E05 + ch)

/-- The channel is in operation: on, and not in bus-off. -/
def Hw.canOn (h : Hw) (ch : Nat) : Bool := h.netUp && h.canFormat ch != 0 && !h.net.busOff ch

/-- The channel's settings allow a frame format (R365, R366): an FD data-phase rate of 0 leaves out bit-rate switching. -/
def Hw.canAllows (h : Hw) (ch : Nat) (f : CanFmt) : Bool :=
  let c := h.canFormat ch
  match f with
  | .cc => 1 ≤ c
  | .fd => 2 ≤ c
  | .fdBrs => 2 ≤ c && h.par (0x0E01 + ch) / 2 ^ 16 % 2 ^ 16 != 0
  | .xl => c == 3

/-- Format codes of R369. -/
def canFmtCode : CanFmt → Nat
  | .cc => 0 | .fd => 1 | .fdBrs => 2 | .xl => 3

/-- The format with a code (R369). -/
def canFmtOf : Nat → Option CanFmt
  | 0 => some .cc | 1 => some .fd | 2 => some .fdBrs | 3 => some .xl | _ => none

/-- The format's bit in a filter pair: CC, FD, XL (R367). -/
def fmtBit : CanFmt → Nat
  | .cc => 0 | .fd => 1 | .fdBrs => 1 | .xl => 2

/-- The lengths a format carries (R371). -/
def canLengthOk (f : CanFmt) (n : Nat) : Bool :=
  match f with
  | .cc => n ≤ 8
  | .fd => n ≤ 8 || [12, 16, 20, 24, 32, 48, 64].contains n
  | .fdBrs => n ≤ 8 || [12, 16, 20, 24, 32, 48, 64].contains n
  | .xl => 1 ≤ n && n ≤ 2048

/-! ## Error confinement (R372) -/

/-- Every CAN_TX of a channel that waits completes, and what waited is gone. -/
def Hw.endCanTx (h : Hw) (ch : Nat) (st : Status) : Hw :=
  let c := h.can ch
  let reqs := c.tx.filterMap (·.req) ++ c.buffers.filterMap (fun p => p.2.req)
  Hw.completeAll reqs st
    (h.modCan ch (fun c => { c with tx := [], buffers := c.buffers.mapv (fun _ b => { b with req := none }) }))

/-- Bus-off (R372): counted and raised, what waits completes HW_FAULT; a third within 1 s slows every further recovery. -/
def Hw.canBusOff (h : Hw) (ch : Nat) : Hw :=
  let now := h.time.clock
  let f (c : CanCh) : CanCh :=
    let l := (now :: c.offAt).take 3
    { c with err := .busOff, offAt := l, restart := false
             slow := c.slow || (l.length = 3 && now ≤ l.getD 2 0 + sTicks) }
  (((h.modCan ch f).count (0x0A4 + 5 * ch) 1).raiseOnce fltCanBusOff (BitVec.ofNat 8 ch)).endCanTx ch .hwFault

/-- The channel's error state by its counters (R372). -/
def Hw.canConfine (h : Hw) (ch : Nat) : Hw :=
  let c := h.can ch
  if c.err == .busOff then h
  else if 255 < c.tec then h.canBusOff ch
  else if 127 < c.tec || 127 < c.rec' then
    if c.err == .passive then h
    else ((h.modCan ch (fun c => { c with err := .passive })).count (0x0A3 + 5 * ch) 1).occur fltCanErrorPassive (BitVec.ofNat 8 ch)
  else h.modCan ch (fun c => { c with err := .active })

/-- The error counters after what a controller met (ISO 11898-1, R372). -/
def CanCh.struck (c : CanCh) : CanError → CanCh
  | .arbitration => c
  | .transmit => { c with tec := c.tec + 8 }
  | .receive => { c with rec' := c.rec' + 1 }
  | .receiveDominant => { c with rec' := c.rec' + 8 }

/-- CAN_BUS_ERROR (R372): the error counters move and the channel's state follows them. A frame being sent is retried. -/
def execCanBusError (ch : Fin 4) (e : CanError) (s : State) : Host.Outcome State Fault Refusal :=
  onHw (fun h => if h.canOn ch.val then (h.modCan ch.val (fun c => c.struck e)).canConfine ch.val else h) s

/-- The channel rejoins, error active. -/
def Hw.canRejoin (h : Hw) (ch : Nat) : Hw :=
  (h.modCan ch (fun c => { c with err := .active, tec := 0, rec' := 0, restart := false })).clearFault fltCanBusOff.code
    (BitVec.ofNat 8 ch)

/-- A recovery may begin: after a third bus-off within 1 s, 1 s after the last (R372). -/
def CanCh.mayRejoin (c : CanCh) (clock : Nat) : Bool :=
  c.err == .busOff && (!c.slow || c.offAt.headD 0 + sTicks ≤ clock)

/-- CAN_BUSOFF_RECOVERY (R372): automatic after 128 sequences of 11 recessive bits, or as a CAN_BUSOFF_RESTART asked. -/
def execCanBusoffRecovery (ch : Fin 4) (sequences : Nat) (s : State) : Host.Outcome State Fault Refusal :=
  onHw (fun h =>
    let c := h.can ch.val
    if h.netUp && 128 ≤ sequences && c.mayRejoin h.time.clock && (h.par 0x0E11 == 0 || c.restart) then h.canRejoin ch.val else h) s

/-- CAN_BUSOFF_RESTART past its authority (R372). -/
def Hw.canRestart (h : Hw) (ch : Nat) (q : Req) : Hw :=
  if 3 < ch then h.complete q .range
  else
    let c := h.can ch
    let h1 := if c.mayRejoin h.time.clock then h.canRejoin ch
      else if c.err == .busOff then h.modCan ch (fun c => { c with restart := true }) else h
    h1.complete q .done

/-- CAN_BUSOFF_RESTART, opcode 0x0E05 (R372). -/
def execCanBusoffRestart (d : Desc) (s : State) : Host.Outcome State Fault Refusal :=
  onHw (fun h => h.descriptor 0x0E05 d (fun q h => h.canRestart (d.num 16 1) q)) s

/-- CAN_TXVR_FAULT (R387): raised while the transceiver reports it. -/
def execCanTxvrFault (ch : Fin 4) (active : Bool) (s : State) : Host.Outcome State Fault Refusal :=
  onHw (fun h =>
    let src := BitVec.ofNat 8 ch.val
    let h1 := h.modCan ch.val (fun c => { c with txvrFault := active })
    if !h.netUp then h else if active then h1.raiseOnce fltCanTxvrFault src else h1.clearFault fltCanTxvrFault.code src) s

/-! ## Reception (R367-R370) -/

/-- Pairs 0 and 1, which belong to the module (R367): the fallback request on its channel, and reference messages of a
schedule in force or waiting. -/
def Hw.ownPair (h : Hw) (ch : Nat) (f : CanFrame) : Bool :=
  let c := h.can ch
  let isRef (t : TtSchedule) : Bool := f.fmt != .xl && (f.word ^^^ t.ref) &&& 0x3FFFFFFF == 0
  (h.fbChannel == some ch && f.fmt == .xl && f.word &&& 0x3FFFFFFF == BitVec.ofNat 32 (h.par 0x0E14 % 2 ^ 11)) ||
    (match c.tt with | some t => isRef t | none => false) || (match c.ttNext with | some t => isRef t.1 | none => false)

/-- A pair matches a frame (R367). -/
def CanFilter.hits (p : CanFilter) (f : CanFrame) : Bool :=
  p.action != 0 && p.formats.getLsbD (fmtBit f.fmt) && (f.word ^^^ p.match') &&& p.mask == 0

/-- The first of pairs 4-63 that matches accepts the frame into Q1. -/
def CanCh.acceptsQ1 (c : CanCh) (f : CanFrame) : Bool :=
  match ((List.range 60).map (fun k => c.filters.get (k + 4) {})).find? (·.hits f) with
  | some p => p.action == 1
  | none => false

/-- The frame finds no room: it is dropped and counted, and a new run of drops raises CAN_QUEUE_OVERFLOW (R368). -/
def Hw.canDrop (h : Hw) (ch : Nat) (running : Bool) (mark : CanCh → CanCh) : Hw :=
  let h1 := (h.modCan ch mark).count (0x0A2 + 5 * ch) 1
  if running then h1 else h1.occur fltCanQueueOverflow (BitVec.ofNat 8 ch)

/-- Q1 is served (R369): APP runs, and CAN_RX_RING names an ENABLED TLM ring. -/
def Hw.q1Served (h : Hw) : Bool := h.appRuns && h.tlmRing (h.par 0x0E12)

/-- A frame is taken into Q0, of at most 64 data bytes (R365), or dropped. -/
def Hw.intoQ0 (h : Hw) (ch : Nat) (f : CanFrame) : Hw :=
  let c := h.can ch
  if 64 < f.data.length then h
  else if c.q0.length < 64 then
    (h.modCan ch (fun c => { c with q0 := c.q0 ++ [{ frame := f, time := h.time.now }], drop0 := false })).count (0x0A0 + 5 * ch) 1
  else h.canDrop ch c.drop0 (fun c => { c with drop0 := true })

/-- A frame is taken into Q1, held for its records where it is longer than an entry, or dropped (R368, R369). -/
def Hw.intoQ1 (h : Hw) (ch : Nat) (f : CanFrame) : Hw :=
  let c := h.can ch
  let e : CanEntry := { frame := f, time := h.time.now }
  let long := 64 < f.data.length
  if long && h.q1Served then (h.modCan ch (fun c => { c with big := c.big ++ [e] })).count (0x0A0 + 5 * ch) 1
  else if !long && c.q1.length < 64 then
    (h.modCan ch (fun c => { c with q1 := c.q1 ++ [e], drop1 := false })).count (0x0A0 + 5 * ch) 1
  else h.canDrop ch c.drop1 (fun c => { c with drop1 := true })

/-- The receive error counter after a frame received (ISO 11898-1). -/
def recDown (n : Nat) : Nat := if 127 < n then 119 else n - 1

/-- CAN_FRAME_RECEIVED (R367, R368). -/
def Hw.canReceived (h : Hw) (ch : Nat) (f : CanFrame) : Hw :=
  if !h.canOn ch || !h.canAllows ch f.fmt then h
  else
    let h1 := (h.modCan ch (fun c => { c with rec' := recDown c.rec' })).canConfine ch
    if h.ownPair ch f then h1.intoQ0 ch f
    else if (h.can ch).acceptsQ1 f then h1.intoQ1 ch f
    else h1

/-- CAN_FRAME_RECEIVED (R367). -/
def execCanFrameReceived (ch : Fin 4) (f : CanFrame) (s : State) : Host.Outcome State Fault Refusal :=
  onHw (fun h => h.canReceived ch.val f) s

/-- The head of what waits for the host on a channel: the older of Q1's head and the oldest long frame. Answers the entry and
whether it is Q1's. -/
def CanCh.rxHead (c : CanCh) : Option (CanEntry × Bool) :=
  match c.q1, c.big with
  | [], [] => none
  | e :: _, [] => some (e, true)
  | [], e :: _ => some (e, false)
  | e :: _, x :: _ => if x.time.toNat < e.time.toNat then some (x, false) else some (e, true)

/-- The 48-byte body of a received frame's first record (R369). -/
def canRxBody (f : CanFrame) (ch : Nat) : List Byte :=
  [BitVec.ofNat 8 ch, BitVec.ofNat 8 (canFmtCode f.fmt)] ++ leBytes 2 f.data.length ++ leBytes 4 f.word.toNat ++
    [f.sdt, f.vcid, 0, 0] ++ leBytes 4 f.af.toNat ++ slice f.data 0 32

/-- The records of further data, 48 bytes each, after the first 32 bytes (R369). -/
def canRxMore (f : CanFrame) : List (List Byte) :=
  (List.range ((f.data.length - 32 + 47) / 48)).map (fun k => slice f.data (32 + 48 * k) 48)

/-- CAN_RX_RECORD_POST (R369). -/
def Hw.canPost (h : Hw) (ch : Nat) : Hw :=
  let c := h.can ch
  if !h.netUp || !h.q1Served then h
  else match c.rxHead with
    | none => h
    | some (e, fromQ1) =>
      if fromQ1 && c.lock1.isSome then h
      else
        let h1 := h.modCan ch (fun c => if fromQ1 then { c with q1 := c.q1.drop 1 } else { c with big := c.big.drop 1 })
        let n := h.par 0x0E12
        (canRxMore e.frame).foldl (fun x b => x.postTlm n 0x0E02 e.time b) (h1.postTlm n 0x0E01 e.time (canRxBody e.frame ch))

/-- CAN_RX_RECORD_POST (R369). -/
def execCanRxRecordPost (ch : Fin 4) (s : State) : Host.Outcome State Fault Refusal := onHw (fun h => h.canPost ch.val) s

/-- The words 0-21 of a queue entry (R368). -/
def CanEntry.words (e : CanEntry) : List W32 :=
  let f := e.frame
  [f.word, BitVec.ofNat 32 (canFmtCode f.fmt + f.sdt.toNat * 2 ^ 8 + f.vcid.toNat * 2 ^ 16), BitVec.ofNat 32 f.data.length, f.af,
    e.time.extractLsb' 0 32, e.time.extractLsb' 32 32] ++
  (List.range 16).map (fun k => BitVec.ofNat 32 (field f.data (4 * k) 4))

/-- A read of word 0 locks the head entry (R370), and the reader finds its words. -/
def Hw.canLock (h : Hw) (ch : Nat) (q1 : Bool) : Hw :=
  let c := h.can ch
  match if q1 then c.q1 else c.q0 with
  | [] => h
  | e :: _ =>
    if (if q1 then c.lock1 else c.lock0).isSome || !h.netUp then h
    else (h.modCan ch (fun c => if q1 then { c with lock1 := some h.time.clock } else { c with lock0 := some h.time.clock })).emit
      (.canWindow ch q1 e.words)

/-- CAN_QUEUE_LOCK (R370). -/
def execCanQueueLock (ch : Fin 4) (q1 : Bool) (s : State) : Host.Outcome State Fault Refusal :=
  onHw (fun h => h.canLock ch.val q1) s

/-- A read of word 21 releases the lock and advances the queue (R370). -/
def CanCh.release (c : CanCh) (q1 : Bool) : CanCh :=
  if q1 then (if c.lock1.isSome then { c with lock1 := none, q1 := c.q1.drop 1 } else c)
  else (if c.lock0.isSome then { c with lock0 := none, q0 := c.q0.drop 1 } else c)

/-- CAN_QUEUE_RELEASE (R370). -/
def execCanQueueRelease (ch : Fin 4) (q1 : Bool) (s : State) : Host.Outcome State Fault Refusal :=
  onHw (fun h => if h.netUp then h.modCan ch.val (fun c => c.release q1) else h) s

/-- A lock held for more than 100 us goes without advancing (R370). -/
def CanCh.unlock (c : CanCh) (q1 : Bool) (clock : Nat) : CanCh :=
  let due (l : Option Nat) : Bool := match l with | some t => t + 100 * usTicks < clock | none => false
  if q1 then (if due c.lock1 then { c with lock1 := none } else c) else (if due c.lock0 then { c with lock0 := none } else c)

/-- CAN_QUEUE_LOCK_TIMEOUT (R370). -/
def execCanQueueLockTimeout (ch : Fin 4) (q1 : Bool) (s : State) : Host.Outcome State Fault Refusal :=
  onHw (fun h => h.modCan ch.val (fun c => c.unlock q1 h.time.clock)) s

/-- CAN_FILTER_SET past its authority (R367). -/
def Hw.canFilterSet (h : Hw) (d : Desc) (q : Req) : Hw :=
  let pair := d.num 17 1
  if 3 < d.num 16 1 || pair < 4 || 63 < pair || 2 < d.num 18 1 then h.complete q .range
  else
    let p : CanFilter := { action := d.num 18 1, formats := BitVec.ofNat 3 (d.num 19 1), match' := BitVec.ofNat 32 (d.num 20 4)
                           mask := BitVec.ofNat 32 (d.num 24 4) }
    (h.modCan (d.num 16 1) (fun c => { c with filters := c.filters.set pair p })).complete q .done

/-- CAN_FILTER_SET, opcode 0x0E03 (R367). -/
def execCanFilterSet (d : Desc) (s : State) : Host.Outcome State Fault Refusal :=
  onHw (fun h => h.descriptor 0x0E03 d (fun q h => h.canFilterSet d q)) s

/-! ## Transmission (R371) -/

/-- The frame a CAN_TX describes, none where a field is out of range (R371). -/
def Hw.canTxFrame (h : Hw) (d : Desc) : Option CanFrame :=
  let n := d.num 24 2
  let buf := d.num 18 1
  match canFmtOf (d.num 17 1) with
  | none => none
  | some f =>
    if 3 < d.num 16 1 || !(buf = 0xFF || buf ≤ 63) || !h.canAllows (d.num 16 1) f || !canLengthOk f n ||
        (32 < n && d.num 32 8 % 8 != 0) then none
    else
      let xl := f == .xl
      let data := if 32 < n then slice d.dma 0 n else slice (leBytes 32 (d.num 32 32)) 0 n
      some { word := BitVec.ofNat 32 (d.num 20 4), fmt := f, sdt := if xl then d.byte 26 else 0
             vcid := if xl then d.byte 27 else 0, af := if xl then BitVec.ofNat 32 (d.num 28 4) else 0, data := data }

/-- CAN_TX past its authority (R371). -/
def Hw.canTx (h : Hw) (d : Desc) (q : Req) : Hw :=
  let ch := d.num 16 1
  let buf := d.num 18 1
  match h.canTxFrame d with
  | none => h.complete q .range
  | some f =>
    let t : CanTx := { frame := f, req := some q, since := h.time.clock }
    if buf = 0xFF then h.modCan ch (fun c => { c with tx := c.tx ++ [t] })
    else
      let old := ((h.can ch).buffers.find buf).bind (·.req)
      (h.modCan ch (fun c => { c with buffers := c.buffers.set buf t })).completeOpt old .superseded

/-- CAN_TX, opcode 0x0E02 (R371). -/
def execCanTx (d : Desc) (s : State) : Host.Outcome State Fault Refusal :=
  onHw (fun h => h.descriptor 0x0E02 d (fun q h => h.canTx d q)) s

/-- A frame has been sent: it left the module, is counted, and the transmit error counter falls (ISO 11898-1). -/
def Hw.canSent (h : Hw) (ch : Nat) (f : CanFrame) : Hw :=
  (((h.emit (.can ch f)).count (0x0A1 + 5 * ch) 1).modCan ch (fun c => { c with tec := c.tec - 1 })).canConfine ch

/-- The kind of the cell whose window is open, none outside time-triggered operation or between windows (R374). -/
def CanCh.cell (c : CanCh) : Option (Nat × Nat × Nat) :=
  match c.tt, c.column with
  | some t, some k => if k < t.columns then t.cells[(c.cycle % 2 ^ t.cycles) * t.columns + k]? else none
  | _, _ => none

/-- An event-triggered frame may be sent: outside time-triggered operation, or in an arbitrating window (R371). -/
def CanCh.mayArbitrate (c : CanCh) : Bool := c.tt.isNone || (match c.cell with | some (k, _, _) => k == 3 | none => false)

/-- CAN_TX_SENT (R371). -/
def Hw.canTxSent (h : Hw) (ch : Nat) (sof : W64) : Hw :=
  let c := h.can ch
  match c.tx with
  | [] => h
  | t :: rest =>
    if !h.canOn ch || !c.mayArbitrate then h
    else
      let h1 := (h.modCan ch (fun c => { c with tx := rest })).canSent ch t.frame
      match t.req with
      | some q => h1.completeAt q .done sof
      | none => h1

/-- CAN_TX_SENT (R371). -/
def execCanTxSent (ch : Fin 4) (sof : W64) (s : State) : Host.Outcome State Fault Refusal :=
  onHw (fun h => h.canTxSent ch.val sof) s

/-- CAN_TX_TIMEOUT (R371). -/
def Hw.canTxTimeout (h : Hw) (ch : Nat) : Hw :=
  match (h.can ch).tx with
  | [] => h
  | t :: rest =>
    if h.time.clock < t.since + 100 * msTicks then h
    else (h.modCan ch (fun c => { c with tx := rest })).completeOpt t.req .aborted

/-- CAN_TX_TIMEOUT (R371). -/
def execCanTxTimeout (ch : Fin 4) (s : State) : Host.Outcome State Fault Refusal := onHw (fun h => h.canTxTimeout ch.val) s

/-! ## Time-triggered operation (R374-R376) -/

/-- The cells of a schedule image: kind, buffer, frame word. -/
def ttCells (l : List Byte) (off n : Nat) : List (Nat × Nat × Nat) :=
  (List.range n).map (fun k => (field l (off + 8 * k) 1, field l (off + 8 * k + 2) 2, field l (off + 8 * k + 4) 4))

/-- Numbers in strictly ascending order. -/
def ascending : List Nat → Bool
  | [] => true
  | [_] => true
  | a :: b :: t => a < b && ascending (b :: t)

/-- The schedule of an image with its channel, none where a field or the check is bad (R374). -/
def ttParse (l : List Byte) : Option (Nat × TtSchedule) :=
  let cyc := field l 1 1
  let cols := field l 2 1
  let n := cols * 2 ^ cyc
  if l.length < 16 || 3 < field l 0 1 || 6 < cyc || cols = 0 || 64 < cols then none
  else
    let tables := l.drop 16
    let starts := (List.range cols).map (fun k => field l (16 + 4 * k) 4)
    let cells := ttCells l (16 + 4 * cols) n
    let t : TtSchedule := { cycles := cyc, columns := cols, length := field l 4 4, ref := BitVec.ofNat 32 (field l 8 4)
                            starts := starts, cells := cells }
    if field l 3 1 = 0 && tables.length = 4 * cols + 8 * n && 100 ≤ t.length && t.length ≤ 65535 && ascending starts &&
        cells.all (fun c => c.1 ≤ 3 && c.2.1 ≤ 63) &&
        (List.range n).all (fun k => field l (17 + 4 * cols + 8 * k) 1 = 0) &&
        crc32 polyC (l.take 12 ++ tables) == BitVec.ofNat 32 (field l 12 4) then some (field l 0 1, t)
    else none

/-- CAN_TT_LOAD of length 0: every channel in time-triggered operation leaves it with its matrix cycle (R374). -/
def Hw.ttLeave (h : Hw) (q : Req) : Hw :=
  let f (c : CanCh) : CanCh := { c with ttLeave := c.tt.isSome, ttNext := none }
  let olds := [0, 1, 2, 3].filterMap (fun i => (h.can i).ttNext.map (·.2))
  let any := [0, 1, 2, 3].any (fun i => (h.can i).tt.isSome)
  let h1 := (((h.modCan 0 f).modCan 1 f).modCan 2 f).modCan 3 f
  let h2 := Hw.completeAll olds .superseded (h1.completeOpt h1.net.ttLeaveReq .superseded)
  if any then { h2 with net := { h2.net with ttLeaveReq := some q } }
  else ({ h2 with net := { h2.net with ttLeaveReq := none } } : Hw).complete q .done

/-- CAN_TT_LOAD past its authority (R374); BASE_CAMP has event-triggered CAN alone (R45, R384). -/
def Hw.canTtLoad (h : Hw) (d : Desc) (q : Req) : Hw :=
  let n := d.num 24 4
  if h.mode.mode == .baseCamp then h.complete q .modeDenied
  else if n = 0 then h.ttLeave q
  else if d.num 16 8 % 8 != 0 then h.complete q .range
  else match ttParse (slice d.dma 0 n) with
    | none => h.complete q .range
    | some (ch, t) =>
      let old := (h.can ch).ttNext.map (·.2)
      (h.modCan ch (fun c => { c with ttNext := some (t, q) })).completeOpt old .superseded

/-- CAN_TT_LOAD, opcode 0x0E04 (R374). -/
def execCanTtLoad (d : Desc) (s : State) : Host.Outcome State Fault Refusal :=
  onHw (fun h => h.descriptor 0x0E04 d (fun q h => h.canTtLoad d q)) s

/-- A matrix cycle has ended at this reference: the channel leaves time-triggered operation where it was told to (R374). -/
def Hw.ttEnd (h : Hw) (ch cycle : Nat) : Hw :=
  let c := h.can ch
  match c.tt with
  | none => h
  | some t =>
    if c.ttLeave && cycle % 2 ^ t.cycles = 0 then
      let h1 := h.modCan ch (fun c => { c with tt := none, ttLeave := false, column := none })
      if [0, 1, 2, 3].any (fun i => (h1.can i).ttLeave) then h1
      else ({ h1 with net := { h1.net with ttLeaveReq := none } } : Hw).completeOpt h1.net.ttLeaveReq .done
    else h

/-- A new schedule takes effect with this basic cycle (R374). -/
def Hw.ttBegin (h : Hw) (ch : Nat) : Hw :=
  match (h.can ch).ttNext with
  | none => h
  | some (t, q) => (h.modCan ch (fun c => { c with tt := some t, ttNext := none, ttLeave := false })).complete q .done

/-- Global time of a master: module time over 400, modulo 2^16 (R376). -/
def Hw.globalTime (h : Hw) : Nat := h.time.now.toNat / usTicks % 2 ^ 16

/-- The reference message this module sends as master: cycle count and global time in the first bytes of its data. -/
def refFrame (t : TtSchedule) (cycle global : Nat) : CanFrame :=
  { word := t.ref, fmt := .cc, data := [BitVec.ofNat 8 cycle] ++ leBytes 2 global }

/-- The NTU of a slave between two reference messages of its master, which is left as it was where global time stood still. -/
def CanCh.slaveNtu (c : CanCh) (now : W64) (global : Nat) : Nat × Nat :=
  let units := (global + 2 ^ 16 - c.global % 2 ^ 16) % 2 ^ 16
  if units = 0 || c.master || c.refLost then c.ntu else ((now - c.refAt).toNat, units)

/-- A reference mark (R376): the basic cycle begins; a lost reference is found again; a master takes NTU and global time from module
time and sends the message; a slave corrects its NTU to the master's. -/
def Hw.ttMark (h : Hw) (ch cycle global : Nat) (own : Bool) : Hw :=
  let f (c : CanCh) : CanCh := { c with cycle := cycle, column := none, refLost := false, master := own, refAt := h.time.now
                                        global := if own then h.globalTime else global
                                        ntu := if own then (usTicks, 1) else c.slaveNtu h.time.now global }
  let h1 := (if (h.can ch).master != own then h.count (0x0B4 + ch) 1 else h).modCan ch f
  let h2 := if own then
      (match (h.can ch).tt with
       | some t => h1.canSent ch (refFrame t cycle h.globalTime)
       | none => h1)
    else h1
  h2.clearFault fltCanTtRefLost.code (BitVec.ofNat 8 ch)

/-- CAN_TT_REFERENCE (R374, R376). -/
def Hw.ttReference (h : Hw) (ch cycle global : Nat) (own : Bool) : Hw :=
  let h1 := (h.ttEnd ch cycle).ttBegin ch
  if (h1.can ch).tt.isNone then h1 else h1.ttMark ch cycle (global % 2 ^ 16) own

/-- CAN_TT_MASTER makes the module a potential time master of a channel (R376, R385). -/
def Hw.ttPotential (h : Hw) (ch : Nat) : Bool := 8 ≤ h.par 0x0E16 / 2 ^ (4 * ch) % 16

/-- CAN_TT_REFERENCE (R376): a reference message of its own is sent by a potential master alone. -/
def execCanTtReference (ch : Fin 4) (cycle global : Nat) (ownMaster : Bool) (s : State) : Host.Outcome State Fault Refusal :=
  onHw (fun h => if h.canOn ch.val && (!ownMaster || h.ttPotential ch.val) then h.ttReference ch.val cycle global ownMaster else h) s

/-- A window opens (R375): an exclusive transmit cell sends its buffer once, an exclusive receive cell counts what it did not
see. -/
def Hw.ttWindow (h : Hw) (ch k : Nat) (seen : Option CanFrame) : Hw :=
  let h1 := h.modCan ch (fun c => { c with column := some k })
  let c := h1.can ch
  match c.cell with
  | none => h1
  | some (kind, buf, word) =>
    if kind = 1 && !c.refLost then
      (match c.buffers.find buf with
       | some t => ((h1.modCan ch (fun c => { c with buffers := c.buffers.set buf { t with req := none } })).canSent ch
           t.frame).completeOpt t.req .done
       | none => h1)
    else if kind = 2 && !(seen.any (fun f => (f.word ^^^ BitVec.ofNat 32 word) &&& 0x3FFFFFFF == 0)) then
      h1.modCan ch (fun c => { c with missed := c.missed + 1, missedCycle := c.cycle, missedColumn := k })
    else h1

/-- CAN_TT_WINDOW (R375). -/
def execCanTtWindow (ch : Fin 4) (column : Fin 64) (seen : Option CanFrame) (s : State) : Host.Outcome State Fault Refusal :=
  onHw (fun h => if h.canOn ch.val then h.ttWindow ch.val column.val seen else h) s

/-- At least some NTU have passed since the last reference mark. -/
def Hw.sinceRef (h : Hw) (ch units : Nat) : Bool :=
  let c := h.can ch
  units * c.ntu.1 ≤ (h.time.now - c.refAt).toNat * c.ntu.2

/-- CAN_TT_MASTER_CHANGE (R376): a potential master's delay has passed. -/
def Hw.ttMasterChange (h : Hw) (ch : Nat) : Hw :=
  match (h.can ch).tt with
  | none => h
  | some t =>
    let m := h.par 0x0E16 / 2 ^ (4 * ch) % 16
    if m < 8 || !h.sinceRef ch (t.length + 8 * (m % 8 + 1)) then h
    else (h.ttMark ch (((h.can ch).cycle + 1) % 2 ^ t.cycles) 0 true).occur fltCanTtMasterChange (BitVec.ofNat 8 ch)

/-- CAN_TT_MASTER_CHANGE (R376). -/
def execCanTtMasterChange (ch : Fin 4) (s : State) : Host.Outcome State Fault Refusal :=
  onHw (fun h => if h.canOn ch.val then h.ttMasterChange ch.val else h) s

/-- CAN_TT_REF_LOST (R376): two basic cycles without a reference message. -/
def Hw.ttRefLost (h : Hw) (ch : Nat) : Hw :=
  match (h.can ch).tt with
  | none => h
  | some t =>
    if (h.can ch).refLost || !h.sinceRef ch (2 * t.length) then h
    else (h.modCan ch (fun c => { c with refLost := true })).raiseOnce fltCanTtRefLost (BitVec.ofNat 8 ch)

/-- CAN_TT_REF_LOST (R376). -/
def execCanTtRefLost (ch : Fin 4) (s : State) : Host.Outcome State Fault Refusal :=
  onHw (fun h => if h.netUp then h.ttRefLost ch.val else h) s

/-! ## Sessions over CAN (R379) -/

/-- CAN_SESSION_OPEN past its authority (R379). -/
def Hw.canSessionOpen (h : Hw) (d : Desc) (q : Req) : Hw :=
  let src := BitVec.ofNat 32 (d.num 16 4)
  if !h.canIdentity src then h.complete q .authDenied
  else if 2 ≤ h.sessionCount (·.viaCan) || 8 ≤ h.sessionCount (fun s => s.auth == .motion) then h.complete q .noResource
  else
    let (h1, block) := h.openSession .motion true true src
    match block with
    | some b => h1.completeAt q .done h.time.now b
    | none => h1.complete q .noResource

/-- CAN_SESSION_OPEN, opcode 0x0E01 (R379). -/
def execCanSessionOpen (d : Desc) (s : State) : Host.Outcome State Fault Refusal :=
  onHw (fun h => h.descriptor 0x0E01 d (fun q h => h.canSessionOpen d q)) s

/-! ## Ethernet (R381, R383, R387) -/

/-- A port is configured in use: E0 always, E1 unless ETH_E1_ROLE is 2 (R381). -/
def Hw.portUsed (h : Hw) (e1 : Bool) : Bool := !e1 || h.par 0x0E17 != 2

/-- Source byte of a port (R358). -/
def portSource (e1 : Bool) : Byte := if e1 then 0x11 else 0x10

/-- The link state of a port. -/
def Hw.setLink (h : Hw) (e1 up : Bool) : Hw :=
  { h with net := if e1 then { h.net with e1Up := up } else { h.net with e0Up := up } }

/-- A port without a link for some ticks; from 100 ms on ETH_LINK_DOWN is raised (R387). -/
def Hw.linkGone (h : Hw) (e1 : Bool) (held : Nat) : Hw :=
  let h1 := h.setLink e1 false
  if 100 * msTicks ≤ held then h1.raiseOnce fltEthLinkDown (portSource e1) else h1

/-- ETH_LINK_DOWN (R387). -/
def execEthLinkDown (e1 : Bool) (held : Nat) (s : State) : Host.Outcome State Fault Refusal :=
  onHw (fun h => if h.netUp && h.portUsed e1 then h.linkGone e1 held else h) s

/-- ETH_LINK_UP (R387). -/
def execEthLinkUp (e1 : Bool) (s : State) : Host.Outcome State Fault Refusal :=
  onHw (fun h => if h.netUp && h.portUsed e1 then (h.setLink e1 true).clearFault fltEthLinkDown.code (portSource e1) else h) s

/-- DOIP_DIAGNOSTIC_MESSAGE (R383): positive acknowledgement and counted, or a negative one. -/
def Hw.doip (h : Hw) (length : Nat) : Hw :=
  if !h.appRuns then h.emit (.doip 0x06)
  else if 4096 < length then h.emit (.doip 0x04)
  else (h.emit (.doip 0)).count 0x0BD 1

/-- DOIP_DIAGNOSTIC_MESSAGE (R383): a message addressed to DOIP_ADDRESS. -/
def execDoipDiagnosticMessage (target : W16) (length : DoipLength) (s : State) : Host.Outcome State Fault Refusal :=
  onHw (fun h => if h.netUp && h.net.e0Up && !h.unset 0x0E19 && h.par 0x0E19 == target.toNat then h.doip length else h) s

end Sys2Proof.Machine
end

