-- ==== Sys2Proof/Machine/Team.lean ====
section
/-!
DEFINITION. Machine/Team.lean: rope-team operation of two modules (R388-R406): roles, pair frames, the partner's PARTNER_OK,
take-over of shares, loop torques, interleave, and the coupling of pre-charge and discharge.
-/
namespace Sys2Proof.Machine

/-- The pair link is in use (R388, R403): rope team, E1 as pair link, awake. -/
def Hw.pairOn (h : Hw) : Bool := h.roped && h.par 0x0E17 == 0 && h.netUp && h.mode.mode != .bivouac

/-! ## Roles (R389) -/

/-- Roles and holder from both preferences and serial numbers (R389): whether this module takes LEAD, is the holder, and
whether the preferences conflict. -/
def pairRoles (ownLead partnerLead : Bool) (own partner : Nat) : Bool × Bool × Bool :=
  if ownLead == partnerLead then (decide (own < partner), decide (own < partner), true) else (ownLead, ownLead, false)

/-- PAIR_ROLE_EXCHANGE (R389): roles and holder are settled once in a wake. -/
def Hw.pairExchange (h : Hw) (partner : Option (Bool × Nat)) (joinedLater : Bool) : Hw :=
  match partner with
  | none => if h.pair.exchanged then h
    else ({ h with pair := { h.pair with partner := false, holder := h.par 0x0F02 == 0 } } : Hw).holderDrives
  | some (theirs, serial) =>
    let h0 : Hw := { h with pair := { h.pair with partner := true, frameAt := h.time.now.toNat } }
    if h.pair.exchanged then h0
    else
      let r := pairRoles (h.par 0x0F02 == 0) theirs h.otp.ident.serial.toNat serial
      let h1 : Hw := { h0 with pair := { h0.pair with lead := r.1 && !joinedLater, holder := r.2.1, exchanged := true } }
      if r.2.2 then h1.holderDrives.raiseOnce fltPairRoleConflict 0xFF else h1.holderDrives

/-- PAIR_ROLE_EXCHANGE (R389). -/
def execPairRoleExchange (partner : Option (Bool × Nat)) (joinedLater : Bool) (s : State) : Host.Outcome State Fault Refusal :=
  onHw (fun h => if h.awake && h.roped && h.par 0x0E17 == 0 then h.pairExchange partner joinedLater else h) s

/-! ## Sending (R390) -/

/-- Speed-loop torque as a frame carries it. -/
def loopWord (t : Option Int) : W32 := match t with | some t => BitVec.ofInt 32 t | none => 0x80000000

/-- The pair frame of the moment (R390). -/
def Hw.pairFrame (h : Hw) : PairFrame :=
  let p := h.pair
  let share := match p.shareNext with | some (v, t) => (v, t) | none => (p.share, 0)
  { crcOk := true, second := !p.lead, mode := BitVec.ofNat 8 h.mode.mode.code
    stateA := BitVec.ofNat 8 h.ctlA.state.code, stateB := BitVec.ofNat 8 h.ctlB.state.code
    okDriven := h.partnerOk, debugSplit := h.faultActive fltDebugSplit.code 0xFF
    precharge := h.lv.state == .precharge || h.lv.state == .hold, discharge := h.saf.dischargeOn
    share := if p.lead then BitVec.ofNat 8 share.1 else 0, shareTime := if p.lead then share.2 else 0
    loopA := loopWord h.ctlA.loopOut, loopB := loopWord h.ctlB.loopOut
    periodStart := h.ctlA.periodStart, seq := p.seq }

/-- PAIR_FRAME_SEND (R390). -/
def Hw.pairSend (h : Hw) : Hw :=
  if !h.pairOn || !h.net.e1Up then h
  else
    let h1 : Hw := { h with pair := { h.pair with seq := h.pair.seq + 1 } }
    ((h1.emit (.pair h.pairFrame)).count 0x0C0 1).count 0x0BB 1

/-- PAIR_FRAME_SEND (R390). -/
def execPairFrameSend (s : State) : Host.Outcome State Fault Refusal := onHw Hw.pairSend s

/-! ## Take-over (R394, R395) -/

/-- A bridge state byte of a frame is torque service (R394): not a safe pattern and not SYNC. -/
def stateServes (b : Byte) : Bool := 4 ≤ b.toNat

/-- The last frame reports a bridge in torque service; DEBUG_SPLIT takes it out (R394, R401). -/
def frameServes (f : PairFrame) (b : Bridge) : Bool :=
  !f.debugSplit && stateServes (match b with | .brA => f.stateA | .brB => f.stateB)

/-- No valid frame for some ticks. -/
def Hw.pairStale (h : Hw) (ticks : Nat) : Bool := h.pair.frameAt + ticks ≤ h.time.now.toNat

/-- The partner's bridge counts as out of torque service (R394); while PARTNER_OK and frames contradict each other, and while
frames are missing with PARTNER_OK closed, nothing changes (R395). -/
def Hw.takeOver (h : Hw) (b : Bridge) : Bool :=
  let stale := h.pairStale (500 * usTicks)
  let out : Bool := match h.pair.last with | some f => !frameServes f b | none => false
  if h.pair.opened then (if stale || out then true else h.taken b)
  else if stale then h.taken b
  else out

/-- The partner is lost (R394): its PARTNER_OK has opened, and frames are missing for 500 us or report a bridge out of
service. -/
def Hw.partnerGone (h : Hw) : Bool :=
  h.pair.opened && (h.pairStale (500 * usTicks) ||
    (match h.pair.last with | some f => !frameServes f .brA || !frameServes f .brB | none => false))

/-- PARTNER_OK is open while fresh frames report torque service (R395). -/
def Hw.pairMismatch (h : Hw) : Bool :=
  h.pair.opened && !h.pairStale (500 * usTicks) &&
    (match h.pair.last with | some f => frameServes f .brA || frameServes f .brB | none => false)

/-- The partner is judged (R394, R395): shares in DRIVE and BELAY, PAIR_PARTNER_LOST, and the role of a SECOND whose LEAD is lost (R389). -/
def Hw.pairJudge (h : Hw) : Hw :=
  if !h.roped || !h.pair.partner then h
  else
    let torque := h.mode.mode == .drive || h.mode.mode == .belay
    let a := torque && h.takeOver .brA
    let b := torque && h.takeOver .brB
    let gone := h.partnerGone
    let mis := h.pairMismatch
    let h1 := if a && !h.pair.takenA then h.count 0x0C3 1 else h
    let h2 := if b && !h.pair.takenB then h1.count 0x0C4 1 else h1
    let h3 : Hw := { h2 with pair := { h2.pair with takenA := a, takenB := b, lost := gone, lead := h.pair.lead || gone
                                                    mismatchAt := heldSince h.pair.mismatchAt mis h.time.now.toNat } }
    let h4 := if gone then h3.raiseOnce fltPairPartnerLost 0xFF else h3.clearFault fltPairPartnerLost.code 0xFF
    if mis then h4 else h4.clearFault fltPairOkMismatch.code 0xFF

/-- PARTNER_OK_OPEN (R391, R394). -/
def Hw.partnerOpen (h : Hw) : Hw :=
  if !h.pair.okIn then h
  else (({ h with pair := { h.pair with okIn := false, opened := true } } : Hw).count 0x0C5 1).pairJudge

/-- PARTNER_OK_OPEN (R394). -/
def execPartnerOkOpen (s : State) : Host.Outcome State Fault Refusal :=
  onHw (fun h => if h.awake && h.roped then h.partnerOpen else h) s

/-- PARTNER_OK_CLOSE (R395). -/
def execPartnerOkClose (s : State) : Host.Outcome State Fault Refusal :=
  onHw (fun h => if h.awake && h.roped then ({ h with pair := { h.pair with okIn := true, opened := false } } : Hw).pairJudge
    else h) s

/-- PAIR_OK_MISMATCH (R395): for 1 ms. -/
def execPairOkMismatch (s : State) : Host.Outcome State Fault Refusal :=
  onHw (fun h => if h.pairOn && h.pairMismatch && heldFor h.pair.mismatchAt msTicks h.time.now.toNat then
    h.raiseOnce fltPairOkMismatch 0xFF else h) s

/-! ## Loop torques (R393) -/

/-- The session number under which a loop torque of the pair link stands: no session has it. -/
def pairSession : Nat := 65536

/-- Module time of the last loop torque received for a bridge. -/
def Pair.loopAt (p : Pair) : Bridge → Option Nat
  | .brA => p.loopAtA | .brB => p.loopAtB

/-- The same, set. -/
def Pair.setLoopAt (p : Pair) (b : Bridge) (t : Option Nat) : Pair :=
  match b with
  | .brA => { p with loopAtA := t } | .brB => { p with loopAtB := t }

/-- A loop torque becomes the setpoint of a bridge that runs no loop of its own, in DRIVE and BELAY (R393). -/
def Hw.loopIn (h : Hw) (b : Bridge) (t : Int) : Hw :=
  let c := h.ctl b
  let h1 : Hw := { h with pair := h.pair.setLoopAt b (some h.time.now.toNat) }
  if (h.mode.mode == .drive || h.mode.mode == .belay) && c.state != .runSpeed && c.state != .shiftSync then
    h1.acceptSetpoint b { sp := { speed := false, value := t, ramp := 0, fwd := 0, rev := 0, session := pairSession, pair := none
                                  viaCan := false }, req := none }
  else h1

/-- No loop torque has arrived for 1 ms: the bridge that followed it ramps to zero (R393). -/
def Hw.loopGone (h : Hw) (b : Bridge) : Hw :=
  match h.pair.loopAt b with
  | none => h
  | some t =>
    if h.time.now.toNat < t + msTicks then h
    else
      let h1 : Hw := { h with pair := h.pair.setLoopAt b none }
      if h.latestSession b == some pairSession then h1.toZero b else h1

/-- What a frame says of a bridge's loop. -/
def Hw.loopTake (h : Hw) (b : Bridge) (w : W32) : Hw := if w == 0x80000000 then h.loopGone b else h.loopIn b w.toInt

/-! ## Receiving (R390) -/

/-- The share and its time reach a SECOND (R392). -/
def Hw.takeFrameShare (h : Hw) (f : PairFrame) : Hw :=
  if h.pair.lead || f.second || f.share.toNat = h.pair.share then h
  else { h with pair := { h.pair with shareNext := some (f.share.toNat, f.shareTime) } }

/-- The difference from the interleave, within half a period either way (R396): own period start against a quarter period
after the LEAD's. -/
def ilvDiff (own lead : W64) (period : Nat) : Int :=
  let d := ((own - lead).toInt - (period / 4 : Nat)) % (period : Int)
  if (period : Int) < 2 * d then d - period else d

/-- The interleave is judged (R396): above 1 us for 10 ms raises PAIR_INTERLEAVE. -/
def Hw.ilvJudge (h : Hw) (f : PairFrame) : Hw :=
  if !h.interleaved then h
  else
    let d := ilvDiff h.ctlA.periodStart f.periodStart (h.nominalPeriod .brA)
    let at' := heldSince h.pair.ilvAt (decide (400 < absI d)) h.time.now.toNat
    let h1 : Hw := { h with pair := { h.pair with ilv := d, ilvAt := at' } }
    if heldFor at' (10 * msTicks) h.time.now.toNat then h1.raiseOnce fltPairInterleave 0xFF
    else if at'.isNone then h1.clearFault fltPairInterleave.code 0xFF else h1

/-- Pre-charge passed over the link (R398): it starts here as it would on a PRECHARGE; a partner that stops leaves this module
alone. -/
def Hw.prechargeTake (h : Hw) (f : PairFrame) : Hw :=
  let before : Bool := match h.pair.last with | some l => l.precharge | none => false
  let may := h.mode.mode.precharges && h.lv.state == .stopped && h.lv.req.isNone && !h.lvInhibited
  if f.precharge && !before && may then
    (h.preStart (250000 + (Config.partnerTarget h.free % 700001 : Nat)) none).drawn
  else if !f.precharge && before && h.lv.state == .precharge then h.occur fltPairPrechargeAlone 0xFF
  else h

/-- A partner bridge that leaves OPEN ends DC boost (R397). -/
def Hw.boostPartner (h : Hw) (f : PairFrame) : Hw := if f.stateA == 0 && f.stateB == 0 then h else h.boostAbort 0

/-- A valid pair frame (R390-R399). -/
def Hw.pairTake (h : Hw) (f : PairFrame) : Hw :=
  let h1 := ((h.count 0x0C1 1).count 0x0BA 1).prechargeTake f
  let h2 : Hw := { h1 with pair := { h1.pair with last := some f, frameAt := h.time.now.toNat, linkLost := false, partner := true } }
  let h3 := ((h2.clearFault fltPairLinkLost.code 0xFF).takeFrameShare f).pairJudge
  (((((h3.loopTake .brA f.loopA).loopTake .brB f.loopB).ilvJudge f).boostPartner f)).dischargeLook

/-- PAIR_FRAME_RECEIVED (R390): a frame whose check fails is discarded and counted. -/
def execPairFrameReceived (f : PairFrame) (s : State) : Host.Outcome State Fault Refusal :=
  onHw (fun h => if !h.pairOn then h else if f.crcOk then h.pairTake f else (h.count 0x0BA 1).count 0x0C2 1) s

/-- PAIR_FRAME_TIMEOUT (R393-R395): after 500 us the take-over is judged; after 1 ms with PARTNER_OK closed PAIR_LINK_LOST,
and loop torques are missed. -/
def Hw.pairTimeout (h : Hw) : Hw :=
  let h1 := h.pairJudge
  if !h.pairStale msTicks then h1
  else
    let h2 := (({ h1 with pair := { h1.pair with linkLost := true } } : Hw).loopGone .brA).loopGone .brB
    if h.pair.okIn then h2.raiseOnce fltPairLinkLost 0xFF else h2

/-- PAIR_FRAME_TIMEOUT (R394, R395). -/
def execPairFrameTimeout (s : State) : Host.Outcome State Fault Refusal :=
  onHw (fun h => if h.pairOn && h.pair.partner then h.pairTimeout else h) s

end Sys2Proof.Machine
end

