-- ==== Sys2Proof/Machine/Fetch.lean ====
section
/-!
DEFINITION. Machine/Fetch.lean: descriptors as the ring engine and the CAN path find them, as 64 raw bytes: the fetch (R299,
R301, R302), the context miss (R311, R312), and the fallback request (R377).
-/
namespace Sys2Proof.Machine

/-- The module after a meaning has run on it alone. -/
def Hw.via (h : Hw) (f : State → Host.Outcome State Fault Refusal) : Hw :=
  match f { pending := [], hw := h } with
  | .next s => s.hw
  | .fault _ => h
  | .refused _ => h

/-- A descriptor whose command byte is not listed completes RANGE once its checks pass. -/
def badCommand (op : Nat) (d : Desc) (s : State) : Host.Outcome State Fault Refusal :=
  onHw (fun h => h.descriptor op d (fun q h => h.complete q .range)) s

/-- LV_CONTROL by its command byte (R181). -/
def lvControl (d : Desc) : State → Host.Outcome State Fault Refusal :=
  match (d.byte 16).toNat with
  | 0 => execLvControlStop d
  | 1 => execLvControlForward d
  | 2 => execLvControlPrecharge d
  | _ => badCommand 0x0701 d

/-- CHARGE_CONTROL by its command byte (R213). -/
def chargeControl (d : Desc) : State → Host.Outcome State Fault Refusal :=
  match (d.byte 16).toNat with
  | 0 => execChargeControlStop d
  | 1 => execChargeControlStart d
  | 2 => execChargeControlPause d
  | 3 => execChargeControlResume d
  | 4 => execChargeControlSetLimits d
  | 5 => execChargeControlInletMatch d
  | 6 => execChargeControlRestartPhase d
  | _ => badCommand 0x0803 d

/-- IMAGE_SWAP, whose image the engine reads from host memory (R338). -/
def imageSwapRaw (d : Desc) : State → Host.Outcome State Fault Refusal := execImageSwap d (imageInfo d.dma d.sigOk)

/-- The meaning of each opcode (R295), subsystems 0x02 to 0x0B. -/
def opMeanings1 : List (Nat × (Desc → State → Host.Outcome State Fault Refusal)) := [
  (0x0201, execModeRequest), (0x0202, execTestRequest), (0x0301, execAccSet), (0x0302, execMonSet),
  (0x0303, execMonClear), (0x0304, execCalReference), (0x0401, execPosIndexArm), (0x0402, execPosHarmLoad),
  (0x0501, execTorqueSet), (0x0502, execSpeedSet), (0x0503, execTorquePair), (0x0504, execMotorMapLoad), (0x0701, lvControl),
  (0x0801, execChargeSetup), (0x0802, execChargeProfile), (0x0803, chargeControl), (0x0804, execChgBattStatus),
  (0x0901, execActMove), (0x0902, execGearShift), (0x0A01, execSafetyCheckRead), (0x0A02, execSafetyConfirm),
  (0x0A03, execDischarge), (0x0B01, execRingCreate), (0x0B02, execRingDisable), (0x0B03, execRingReset),
  (0x0B04, execSessionOpen), (0x0B05, execSessionClose), (0x0B06, execSessionChallenge)]

/-- The meaning of each opcode, subsystems 0x0C to 0x0E. -/
def opMeanings2 : List (Nat × (Desc → State → Host.Outcome State Fault Refusal)) := [
  (0x0C01, execCinchOpen), (0x0C02, execCinchCommit), (0x0C03, execCinchAbort), (0x0C04, execParamWrite),
  (0x0C05, execParamRead), (0x0C06, execImageDirectory), (0x0C07, imageSwapRaw), (0x0C08, execOtpProgram),
  (0x0C09, execOtpRevoke), (0x0C0A, execOverlayLoad), (0x0D01, execTlmSubscribe), (0x0D02, execTlmUnsubscribe),
  (0x0D03, execSnapshot), (0x0D04, execFaultAck), (0x0D05, execFaultClear), (0x0D06, execFaultHistoryRead),
  (0x0E01, execCanSessionOpen), (0x0E02, execCanTx), (0x0E03, execCanFilterSet), (0x0E04, execCanTtLoad),
  (0x0E05, execCanBusoffRestart)]

/-- A descriptor runs by its opcode (R295, R296); one with CINCH_MEMBER set is staged (R326), and an opcode not assigned is
refused by check 2. -/
def Hw.runOp (h : Hw) (op : Nat) (d : Desc) : Hw :=
  if d.member then h.stageMember op d (memberImage op d)
  else match (opMeanings1 ++ opMeanings2).find? (fun p => p.1 == op) with
    | some p => h.via (p.2 d)
    | none => h.via (badCommand op d)

/-- A raw descriptor runs. -/
def Hw.runRaw (h : Hw) (path : Path) (raw : BitVec 512) (dma : List Byte) (sigOk : Bool) : Hw :=
  let p := Desc.ofRaw path raw dma sigOk
  h.runOp p.1 p.2

/-! ## Fetch (R299, R301, R302, R311) -/

/-- The context of the session a descriptor names is not in the module (R311). -/
def Hw.contextMiss (h : Hw) (d : Desc) : Bool :=
  match h.session d.session.toNat with
  | some s => !s.resident && s.closing.isNone
  | none => false

/-- A ring has a descriptor that the ring engine may fetch (R294, R300, R302, R311). -/
def Ring.fetchable (r : Ring) (swap : Bool) : Bool :=
  r.state == .enabled && (r.type == 0 || r.type == 3) && r.sqHead != r.sqTail && decide (r.buffer.length < 64) && !r.fenced &&
  r.missed.isNone && !(r.held && (!r.outstanding.isEmpty || swap))

/-- The rings of a priority with a descriptor to fetch, by number. -/
def Hw.ready (h : Hw) (prio : Nat) : List Nat :=
  (List.range 64).filter (fun m => (h.ring m).prio == prio && (h.ring m).fetchable h.img.safeHold.isSome)

/-- The ring that comes next among some of one priority: in turn after the one served last. -/
def nextInTurn (last : Nat) (l : List Nat) : Option Nat := (l.find? (fun m => last < m)).or l.head?

/-- The ring engine serves this ring now: strict priority, and rings of equal priority in turn, one descriptor each (R293). -/
def Hw.ringTurn (h : Hw) (n : Nat) : Bool :=
  let p := (h.ring n).prio
  (List.range p).all (fun q => (h.ready q).isEmpty) && nextInTurn (h.host.turn.get p 63) (h.ready p) == some n

/-- The ring after one descriptor has been fetched. -/
def Ring.fetched (r : Ring) : Ring :=
  { r with held := false
           sqHead := if r.sqHead + 1 == 2 ^ r.size then 0 else r.sqHead + 1
           doorbellAt := r.published.get r.sqHead r.doorbellAt }

/-- The next descriptor of a ring (R301): it starts, or waits with its ring for its session's context (R311, 0x093). -/
def Hw.fetch (h : Hw) (n : Fin 64) (raw : BitVec 512) (dma : List Byte) (sigOk : Bool) : Hw :=
  let p := Desc.ofRaw (.ring n) raw dma sigOk
  let r := h.ring n.val
  if !h.ringTurn n.val || !h.host.linkUp || !h.powered 3 || h.entersSleep then h
  else if !h.canStart p.2 || h.heldBySwap p.1 p.2 then h.setRing n.val { r with held := true }
  else
    let h0 : Hw := { h with host := { h.host with turn := h.host.turn.set r.prio n.val } }
    let h1 := h0.setRing n.val r.fetched
    if h.contextMiss p.2 then
      (h1.setRing n.val { r.fetched with missed := some (raw, dma, sigOk)
                                         outstanding := r.outstanding ++ [(p.2.tag, p.2.session.toNat)] }).count 0x093 1
    else h1.runOp p.1 p.2

/-- DESCRIPTOR_FETCH (R301). -/
def execDescriptorFetch (ring : Fin 64) (raw : BitVec 512) (dma : List Byte) (sigOk : Bool) (s : State) :
    Host.Outcome State Fault Refusal :=
  onHw (fun h => h.fetch ring raw dma sigOk) s

/-- The held descriptor of a ring runs (R311). -/
def Hw.resume (h : Hw) (n : Fin 64) (raw : BitVec 512) (dma : List Byte) (sigOk : Bool) : Hw :=
  let p := Desc.ofRaw (.ring n) raw dma sigOk
  let r := h.ring n.val
  (h.setRing n.val { r with missed := none, resuming := true
                            outstanding := r.outstanding.erase (p.2.tag, p.2.session.toNat) }).runOp p.1 p.2

/-- A context that fails its CMAC (R312): its session closes, the descriptor completes AUTH_DENIED, HOST_CONTEXT_TAMPER. -/
def Hw.tampered (h : Hw) (n : Fin 64) (d : Desc) : Hw :=
  let h1 := (h.setRing n.val { h.ring n.val with missed := none }).endSession d.session.toNat
  (h1.complete d.req .authDenied).occurActed fltHostContextTamper 0xFF

/-- CONTEXT_PAGE_IN (R311, R312). -/
def Hw.pageIn (h : Hw) (n : Fin 64) (macOk : Bool) : Hw :=
  match (h.ring n.val).missed with
  | none => h
  | some (raw, dma, sigOk) =>
    if !h.appRuns || !h.host.linkUp || h.pwr.onP11 then h
    else
      let d := (Desc.ofRaw (.ring n) raw dma sigOk).2
      let id := d.session.toNat
      if !macOk && h.contextMiss d then h.tampered n d
      else if h.contextMiss d then
        let h1 := h.makeRoom
        match h1.session id with
        | some s => (h1.setSession id { s with resident := true, usedAt := h.time.clock }).resume n raw dma sigOk
        | none => h1.resume n raw dma sigOk
      else h.resume n raw dma sigOk

/-- CONTEXT_PAGE_IN (R311). -/
def execContextPageIn (ring : Fin 64) (macOk : Bool) (s : State) : Host.Outcome State Fault Refusal :=
  onHw (fun h => h.pageIn ring macOk) s

/-! ## The fallback path (R377) -/

/-- A fallback request at its end of frame (R377): a frame of the request identifier with another length than 64 data bytes is
discarded and counted. -/
def Hw.fallbackRequest (h : Hw) (ch : Nat) (f : CanFrame) : Hw :=
  if !h.canOn ch || h.fbChannel != some ch || f.fmt != .xl || !h.canAllows ch .xl ||
      f.word &&& 0x3FFFFFFF != BitVec.ofNat 32 (h.par 0x0E14 % 2 ^ 11) then h
  else if f.data.length != 64 then h.count 0x0BE 1
  else h.runRaw .can (rawOfBytes f.data) [] false

/-- CAN_FALLBACK_REQUEST (R377). -/
def execCanFallbackRequest (ch : Fin 4) (f : CanFrame) (s : State) : Host.Outcome State Fault Refusal :=
  onHw (fun h => h.fallbackRequest ch.val f) s

end Sys2Proof.Machine
end

