-- ==== Sys2Proof/Machine/Dispatch.lean ====
section
/-!
DEFINITION. Machine/Dispatch.lean: one arm for each command, a direct call of its meaning.
-/
namespace Sys2Proof.Machine

/-- The effect of a command on everything but the queue. -/
def exec (i : Instr) (s : State) : Host.Outcome State Fault Refusal :=
  match i with
  | .modeRequest d => Sys2Proof.Machine.execModeRequest d s
  | .testRequest d => Sys2Proof.Machine.execTestRequest d s
  | .accSet d => Sys2Proof.Machine.execAccSet d s
  | .monSet d => Sys2Proof.Machine.execMonSet d s
  | .monClear d => Sys2Proof.Machine.execMonClear d s
  | .calReference d => Sys2Proof.Machine.execCalReference d s
  | .posIndexArm d => Sys2Proof.Machine.execPosIndexArm d s
  | .posHarmLoad d => Sys2Proof.Machine.execPosHarmLoad d s
  | .torqueSet d => Sys2Proof.Machine.execTorqueSet d s
  | .speedSet d => Sys2Proof.Machine.execSpeedSet d s
  | .torquePair d => Sys2Proof.Machine.execTorquePair d s
  | .motorMapLoad d => Sys2Proof.Machine.execMotorMapLoad d s
  | .lvControlForward d => Sys2Proof.Machine.execLvControlForward d s
  | .lvControlPrecharge d => Sys2Proof.Machine.execLvControlPrecharge d s
  | .lvControlStop d => Sys2Proof.Machine.execLvControlStop d s
  | .chargeSetup d => Sys2Proof.Machine.execChargeSetup d s
  | .chargeProfile d => Sys2Proof.Machine.execChargeProfile d s
  | .chargeControlStart d => Sys2Proof.Machine.execChargeControlStart d s
  | .chargeControlStop d => Sys2Proof.Machine.execChargeControlStop d s
  | .chargeControlPause d => Sys2Proof.Machine.execChargeControlPause d s
  | .chargeControlResume d => Sys2Proof.Machine.execChargeControlResume d s
  | .chargeControlSetLimits d => Sys2Proof.Machine.execChargeControlSetLimits d s
  | .chargeControlInletMatch d => Sys2Proof.Machine.execChargeControlInletMatch d s
  | .chargeControlRestartPhase d => Sys2Proof.Machine.execChargeControlRestartPhase d s
  | .chgBattStatus d => Sys2Proof.Machine.execChgBattStatus d s
  | .actMove d => Sys2Proof.Machine.execActMove d s
  | .gearShift d => Sys2Proof.Machine.execGearShift d s
  | .safetyCheckRead d => Sys2Proof.Machine.execSafetyCheckRead d s
  | .safetyConfirm d => Sys2Proof.Machine.execSafetyConfirm d s
  | .discharge d => Sys2Proof.Machine.execDischarge d s
  | .ringCreate d => Sys2Proof.Machine.execRingCreate d s
  | .ringDisable d => Sys2Proof.Machine.execRingDisable d s
  | .ringReset d => Sys2Proof.Machine.execRingReset d s
  | .sessionOpen d => Sys2Proof.Machine.execSessionOpen d s
  | .sessionClose d => Sys2Proof.Machine.execSessionClose d s
  | .sessionChallenge d => Sys2Proof.Machine.execSessionChallenge d s
  | .cinchOpen d => Sys2Proof.Machine.execCinchOpen d s
  | .cinchMemberStage op d => Sys2Proof.Machine.execCinchMemberStage op d s
  | .cinchCommit d => Sys2Proof.Machine.execCinchCommit d s
  | .cinchAbort d => Sys2Proof.Machine.execCinchAbort d s
  | .paramWrite d => Sys2Proof.Machine.execParamWrite d s
  | .paramRead d => Sys2Proof.Machine.execParamRead d s
  | .imageDirectory d => Sys2Proof.Machine.execImageDirectory d s
  | .imageSwap d img => Sys2Proof.Machine.execImageSwap d img s
  | .otpProgram d => Sys2Proof.Machine.execOtpProgram d s
  | .otpRevoke d => Sys2Proof.Machine.execOtpRevoke d s
  | .overlayLoad d => Sys2Proof.Machine.execOverlayLoad d s
  | .tlmSubscribe d => Sys2Proof.Machine.execTlmSubscribe d s
  | .tlmUnsubscribe d => Sys2Proof.Machine.execTlmUnsubscribe d s
  | .snapshot d => Sys2Proof.Machine.execSnapshot d s
  | .faultAck d => Sys2Proof.Machine.execFaultAck d s
  | .faultClear d => Sys2Proof.Machine.execFaultClear d s
  | .faultHistoryRead d => Sys2Proof.Machine.execFaultHistoryRead d s
  | .canSessionOpen d => Sys2Proof.Machine.execCanSessionOpen d s
  | .canTx d => Sys2Proof.Machine.execCanTx d s
  | .canFilterSet d => Sys2Proof.Machine.execCanFilterSet d s
  | .canTtLoad d => Sys2Proof.Machine.execCanTtLoad d s
  | .canBusoffRestart d => Sys2Proof.Machine.execCanBusoffRestart d s
  | .canFallbackRequest ch f => Sys2Proof.Machine.execCanFallbackRequest ch f s
  | .doorbellWrite offset width value => Sys2Proof.Machine.execDoorbellWrite offset width value s
  | .descriptorFetch ring raw dma sigOk => Sys2Proof.Machine.execDescriptorFetch ring raw dma sigOk s
  | .bufferedEntryPost ring => Sys2Proof.Machine.execBufferedEntryPost ring s
  | .cqStall ring => Sys2Proof.Machine.execCqStall ring s
  | .coalesceTimeout ring => Sys2Proof.Machine.execCoalesceTimeout ring s
  | .msixUnmask vector => Sys2Proof.Machine.execMsixUnmask vector s
  | .contextPageIn ring macOk => Sys2Proof.Machine.execContextPageIn ring macOk s
  | .ring0CtrlEnable value => Sys2Proof.Machine.execRing0CtrlEnable value s
  | .ring0CtrlDisable value => Sys2Proof.Machine.execRing0CtrlDisable value s
  | .ring0CtrlReset value => Sys2Proof.Machine.execRing0CtrlReset value s
  | .sessionTableEnable value => Sys2Proof.Machine.execSessionTableEnable value s
  | .sessionTableDisable value => Sys2Proof.Machine.execSessionTableDisable value s
  | .moduleTimeLoRead => Sys2Proof.Machine.execModuleTimeLoRead s
  | .registerWrite offset width value => Sys2Proof.Machine.execRegisterWrite offset width value s
  | .mbLockRead mb agent => Sys2Proof.Machine.execMbLockRead mb agent s
  | .mbLockRelease mb agent => Sys2Proof.Machine.execMbLockRelease mb agent s
  | .mbDataWrite mb agent word => Sys2Proof.Machine.execMbDataWrite mb agent word s
  | .mbAcknowledge mb agent code => Sys2Proof.Machine.execMbAcknowledge mb agent code s
  | .mbTimeoutClear mb => Sys2Proof.Machine.execMbTimeoutClear mb s
  | .mbTimeout mb => Sys2Proof.Machine.execMbTimeout mb s
  | .mbLockExpiry mb ownerReset => Sys2Proof.Machine.execMbLockExpiry mb ownerReset s
  | .ping => Sys2Proof.Machine.execPing s
  | .sleep => Sys2Proof.Machine.execSleep s
  | .ring0Reset => Sys2Proof.Machine.execRing0Reset s
  | .appMailboxWord third code => Sys2Proof.Machine.execAppMailboxWord third code s
  | .wakeEvent source falling level => Sys2Proof.Machine.execWakeEvent source falling level s
  | .wakeTimerExpiry => Sys2Proof.Machine.execWakeTimerExpiry s
  | .canWakeFrame ch f => Sys2Proof.Machine.execCanWakeFrame ch f s
  | .canWakeErrorCount ch errors => Sys2Proof.Machine.execCanWakeErrorCount ch errors s
  | .latchedWake => Sys2Proof.Machine.execLatchedWake s
  | .powerOn vsup => Sys2Proof.Machine.execPowerOn vsup s
  | .vsupLost below => Sys2Proof.Machine.execVsupLost below s
  | .p11SupplyChange vdc => Sys2Proof.Machine.execP11SupplyChange vdc s
  | .reducedService => Sys2Proof.Machine.execReducedService s
  | .imageRequestRetry => Sys2Proof.Machine.execImageRequestRetry s
  | .hostAbsent => Sys2Proof.Machine.execHostAbsent s
  | .imageLoaded kind target img => Sys2Proof.Machine.execImageLoaded kind target img s
  | .partnerImageRequest kind => Sys2Proof.Machine.execPartnerImageRequest kind s
  | .modeEdge => Sys2Proof.Machine.execModeEdge s
  | .drainForced fn => Sys2Proof.Machine.execDrainForced fn s
  | .baseCampIdleTimeout wakeActive => Sys2Proof.Machine.execBaseCampIdleTimeout wakeActive s
  | .topupNoPermit => Sys2Proof.Machine.execTopupNoPermit s
  | .belayTimeExpiry => Sys2Proof.Machine.execBelayTimeExpiry s
  | .appSignal => Sys2Proof.Machine.execAppSignal s
  | .appSignalLost => Sys2Proof.Machine.execAppSignalLost s
  | .thermalAllowance budget electronics lvLoad bridges charging lvAbove => Sys2Proof.Machine.execThermalAllowance budget electronics lvLoad bridges charging lvAbove s
  | .allowanceTimeout => Sys2Proof.Machine.execAllowanceTimeout s
  | .controlBoundary b m => Sys2Proof.Machine.execControlBoundary b m s
  | .pwmPeriodStart b edges => Sys2Proof.Machine.execPwmPeriodStart b edges s
  | .legCrossCommand leg => Sys2Proof.Machine.execLegCrossCommand leg s
  | .monitorCrossing mon level pwmCount => Sys2Proof.Machine.execMonitorCrossing mon level pwmCount s
  | .accWindowClose acc samples => Sys2Proof.Machine.execAccWindowClose acc samples s
  | .urgentRequest input p12 p13 p14 p15 => Sys2Proof.Machine.execUrgentRequest input p12 p13 p14 p15 s
  | .interleaveMatch pair offsetTrim gainTrim => Sys2Proof.Machine.execInterleaveMatch pair offsetTrim gainTrim s
  | .offsetTrackStart b => Sys2Proof.Machine.execOffsetTrackStart b s
  | .offsetTrackDone b u v w idc => Sys2Proof.Machine.execOffsetTrackDone b u v w idc s
  | .gainTrackFit windows => Sys2Proof.Machine.execGainTrackFit windows s
  | .monitorComparatorTest mon agreed toggled => Sys2Proof.Machine.execMonitorComparatorTest mon agreed toggled s
  | .referenceCheck pass => Sys2Proof.Machine.execReferenceCheck pass s
  | .calAccumulationDone means gatedPhase gatedShunt => Sys2Proof.Machine.execCalAccumulationDone means gatedPhase gatedShunt s
  | .calReferenceTimeout => Sys2Proof.Machine.execCalReferenceTimeout s
  | .resolverPeriod r pos neg => Sys2Proof.Machine.execResolverPeriod r pos neg s
  | .encEdge e a b stable => Sys2Proof.Machine.execEncEdge e a b stable s
  | .encIndex e a b stable => Sys2Proof.Machine.execEncIndex e a b stable s
  | .encSpeedWindow e => Sys2Proof.Machine.execEncSpeedWindow e s
  | .hallChange h st stable => Sys2Proof.Machine.execHallChange h st stable s
  | .sentFrame ch sync lengths nibbles crc pause => Sys2Proof.Machine.execSentFrame ch sync lengths nibbles crc pause s
  | .sentTimeout ch => Sys2Proof.Machine.execSentTimeout ch s
  | .setpointTimeout b => Sys2Proof.Machine.execSetpointTimeout b s
  | .syncStart b => Sys2Proof.Machine.execSyncStart b s
  | .syncMeasureDone b angle speed emf => Sys2Proof.Machine.execSyncMeasureDone b angle speed emf s
  | .torquePlausibility b => Sys2Proof.Machine.execTorquePlausibility b s
  | .trqDcCeiling => Sys2Proof.Machine.execTrqDcCeiling s
  | .reacquireLock b => Sys2Proof.Machine.execReacquireLock b s
  | .trqReacquireFail b => Sys2Proof.Machine.execTrqReacquireFail b s
  | .desatReport pos => Sys2Proof.Machine.execDesatReport pos s
  | .gateUvloReport pos neg mv => Sys2Proof.Machine.execGateUvloReport pos neg mv s
  | .gateRailOvReport pos neg mv => Sys2Proof.Machine.execGateRailOvReport pos neg mv s
  | .dieTempReport pos t0 t1 t2 t3 t4 t5 t6 t7 => Sys2Proof.Machine.execDieTempReport pos t0 t1 t2 t3 t4 t5 t6 t7 s
  | .bootLowReport leg mv => Sys2Proof.Machine.execBootLowReport leg mv s
  | .bootUvloReport leg mv => Sys2Proof.Machine.execBootUvloReport leg mv s
  | .offstateDiag b findings => Sys2Proof.Machine.execOffstateDiag b findings s
  | .stoPath chB rails => Sys2Proof.Machine.execStoPath chB rails s
  | .gapWindow testId inst outcome psiM elecOffset => Sys2Proof.Machine.execGapWindow testId inst outcome psiM elecOffset s
  | .testDeadline testId inst => Sys2Proof.Machine.execTestDeadline testId inst s
  | .testComplete testId inst outcome data => Sys2Proof.Machine.execTestComplete testId inst outcome data s
  | .ascArmTimeout b => Sys2Proof.Machine.execAscArmTimeout b s
  | .stoOpen chB mv held => Sys2Proof.Machine.execStoOpen chB mv held s
  | .stoClose chB mv ua => Sys2Proof.Machine.execStoClose chB mv ua s
  | .stoDiscrepancy => Sys2Proof.Machine.execStoDiscrepancy s
  | .checkerMismatch b => Sys2Proof.Machine.execCheckerMismatch b s
  | .checkerInject b field flagged cycles => Sys2Proof.Machine.execCheckerInject b field flagged cycles s
  | .memoryError owner correctable => Sys2Proof.Machine.execMemoryError owner correctable s
  | .negoacMismatch f => Sys2Proof.Machine.execNegoacMismatch f s
  | .negoacRestart => Sys2Proof.Machine.execNegoacRestart s
  | .voterTest masked => Sys2Proof.Machine.execVoterTest masked s
  | .faultOutWatchdogExpiry since => Sys2Proof.Machine.execFaultOutWatchdogExpiry since s
  | .clockLoss c lost => Sys2Proof.Machine.execClockLoss c lost s
  | .ck0Fallback => Sys2Proof.Machine.execCk0Fallback s
  | .senseSupplyLost lost => Sys2Proof.Machine.execSenseSupplyLost lost s
  | .soTest second finding => Sys2Proof.Machine.execSoTest second finding s
  | .dischargeStart => Sys2Proof.Machine.execDischargeStart s
  | .dischargeHeld vdc => Sys2Proof.Machine.execDischargeHeld vdc s
  | .dischargeRetry => Sys2Proof.Machine.execDischargeRetry s
  | .dischargeFail ma => Sys2Proof.Machine.execDischargeFail ma s
  | .dischargeDone vdc => Sys2Proof.Machine.execDischargeDone vdc s
  | .hvilLoopChange microamps held => Sys2Proof.Machine.execHvilLoopChange microamps held s
  | .debugAuthenticate sigOk => Sys2Proof.Machine.execDebugAuthenticate sigOk s
  | .debugRead addr => Sys2Proof.Machine.execDebugRead addr s
  | .debugHalt => Sys2Proof.Machine.execDebugHalt s
  | .debugStep => Sys2Proof.Machine.execDebugStep s
  | .debugWrite addr value => Sys2Proof.Machine.execDebugWrite addr value s
  | .debugAttach => Sys2Proof.Machine.execDebugAttach s
  | .debugDetach => Sys2Proof.Machine.execDebugDetach s
  | .hostLinkLost down => Sys2Proof.Machine.execHostLinkLost down s
  | .hotReset => Sys2Proof.Machine.execHotReset s
  | .hostLinkUp => Sys2Proof.Machine.execHostLinkUp s
  | .hostDmaError ring sessionTable => Sys2Proof.Machine.execHostDmaError ring sessionTable s
  | .cinchAccept slot => Sys2Proof.Machine.execCinchAccept slot s
  | .cinchInstant slot => Sys2Proof.Machine.execCinchInstant slot s
  | .cinchExpired slot => Sys2Proof.Machine.execCinchExpired slot s
  | .safeSwapRelease => Sys2Proof.Machine.execSafeSwapRelease s
  | .safeSwapFail => Sys2Proof.Machine.execSafeSwapFail s
  | .appCoreSwap core ok => Sys2Proof.Machine.execAppCoreSwap core ok s
  | .otpProgramDone ok => Sys2Proof.Machine.execOtpProgramDone ok s
  | .timeStep => Sys2Proof.Machine.execTimeStep s
  | .ptpSync offset => Sys2Proof.Machine.execPtpSync offset s
  | .ptpSyncLost why => Sys2Proof.Machine.execPtpSyncLost why s
  | .snapshotInstant => Sys2Proof.Machine.execSnapshotInstant s
  | .tlmPosting sub => Sys2Proof.Machine.execTlmPosting sub s
  | .canFrameReceived ch f => Sys2Proof.Machine.execCanFrameReceived ch f s
  | .canRxRecordPost ch => Sys2Proof.Machine.execCanRxRecordPost ch s
  | .canQueueLock ch q1 => Sys2Proof.Machine.execCanQueueLock ch q1 s
  | .canQueueRelease ch q1 => Sys2Proof.Machine.execCanQueueRelease ch q1 s
  | .canQueueLockTimeout ch q1 => Sys2Proof.Machine.execCanQueueLockTimeout ch q1 s
  | .canTxSent ch sof => Sys2Proof.Machine.execCanTxSent ch sof s
  | .canTxTimeout ch => Sys2Proof.Machine.execCanTxTimeout ch s
  | .canBusoffRecovery ch sequences => Sys2Proof.Machine.execCanBusoffRecovery ch sequences s
  | .canTtReference ch cycle global ownMaster => Sys2Proof.Machine.execCanTtReference ch cycle global ownMaster s
  | .canTtWindow ch column seen => Sys2Proof.Machine.execCanTtWindow ch column seen s
  | .canTtMasterChange ch => Sys2Proof.Machine.execCanTtMasterChange ch s
  | .canTtRefLost ch => Sys2Proof.Machine.execCanTtRefLost ch s
  | .doipDiagnosticMessage target length => Sys2Proof.Machine.execDoipDiagnosticMessage target length s
  | .ethLinkDown e1 held => Sys2Proof.Machine.execEthLinkDown e1 held s
  | .pairRoleExchange partner joinedLater => Sys2Proof.Machine.execPairRoleExchange partner joinedLater s
  | .pairFrameSend => Sys2Proof.Machine.execPairFrameSend s
  | .pairFrameReceived f => Sys2Proof.Machine.execPairFrameReceived f s
  | .partnerOkOpen => Sys2Proof.Machine.execPartnerOkOpen s
  | .pairFrameTimeout => Sys2Proof.Machine.execPairFrameTimeout s
  | .pairOkMismatch => Sys2Proof.Machine.execPairOkMismatch s
  | .ppClassChange ohms held => Sys2Proof.Machine.execPpClassChange ohms held s
  | .cpStateChange posMv negMv freq duty held => Sys2Proof.Machine.execCpStateChange posMv negMv freq duty held s
  | .handOverEnd => Sys2Proof.Machine.execHandOverEnd s
  | .outageHoldoffExpiry => Sys2Proof.Machine.execOutageHoldoffExpiry s
  | .mainsHalfCycle v1 v2 v3 freq amps => Sys2Proof.Machine.execMainsHalfCycle v1 v2 v3 freq amps s
  | .chgNoSource => Sys2Proof.Machine.execChgNoSource s
  | .chgResidual acMa dcMa peMv => Sys2Proof.Machine.execChgResidual acMa dcMa peMv s
  | .chgGridTrip => Sys2Proof.Machine.execChgGridTrip s
  | .chgIslandOverload => Sys2Proof.Machine.execChgIslandOverload s
  | .chgBackfeed v1 v2 v3 held => Sys2Proof.Machine.execChgBackfeed v1 v2 v3 held s
  | .chargePhaseChange amps => Sys2Proof.Machine.execChargePhaseChange amps s
  | .chgTimer amps => Sys2Proof.Machine.execChgTimer amps s
  | .chgBattFault f => Sys2Proof.Machine.execChgBattFault f s
  | .chgTempWindow probe => Sys2Proof.Machine.execChgTempWindow probe s
  | .obcOvertemp temp => Sys2Proof.Machine.execObcOvertemp temp s
  | .dcbInductanceCheck spans duty => Sys2Proof.Machine.execDcbInductanceCheck spans duty s
  | .dcbEndEvent e => Sys2Proof.Machine.execDcbEndEvent e s
  | .dcbContactorWeld ch33 => Sys2Proof.Machine.execDcbContactorWeld ch33 s
  | .lvSoftStartDone => Sys2Proof.Machine.execLvSoftStartDone s
  | .lvShort => Sys2Proof.Machine.execLvShort s
  | .lvRestartTimer => Sys2Proof.Machine.execLvRestartTimer s
  | .lvBusFault => Sys2Proof.Machine.execLvBusFault s
  | .lvCellFail cell => Sys2Proof.Machine.execLvCellFail cell s
  | .lvPhaseShed load => Sys2Proof.Machine.execLvPhaseShed load s
  | .lvLoadStep mv => Sys2Proof.Machine.execLvLoadStep mv s
  | .lvOvervoltage onCh14 mv => Sys2Proof.Machine.execLvOvervoltage onCh14 mv s
  | .lvOvResume => Sys2Proof.Machine.execLvOvResume s
  | .lvoutReverse amps => Sys2Proof.Machine.execLvoutReverse amps s
  | .lvOvertemp sensor temp => Sys2Proof.Machine.execLvOvertemp sensor temp s
  | .prechargeDone vdc => Sys2Proof.Machine.execPrechargeDone vdc s
  | .prechargeTimeout => Sys2Proof.Machine.execPrechargeTimeout s
  | .lvPrechargeFault vdc => Sys2Proof.Machine.execLvPrechargeFault vdc s
  | .prechargeHoldExpiry => Sys2Proof.Machine.execPrechargeHoldExpiry s
  | .actPositionConfirmed drive position => Sys2Proof.Machine.execActPositionConfirmed drive position s
  | .actLocked drive => Sys2Proof.Machine.execActLocked drive s
  | .actVsOutOfRange mv => Sys2Proof.Machine.execActVsOutOfRange mv s
  | .actSenseLost drive => Sys2Proof.Machine.execActSenseLost drive s
  | .actHallObserver drive a1 a2 a3 speed => Sys2Proof.Machine.execActHallObserver drive a1 a2 a3 speed s
  | .actRappelEnd drive => Sys2Proof.Machine.execActRappelEnd drive s
  | .parkSpeedCheck => Sys2Proof.Machine.execParkSpeedCheck s
  | .parkToothTimeout => Sys2Proof.Machine.execParkToothTimeout s
  | .parkConfirmLost => Sys2Proof.Machine.execParkConfirmLost s
  | .shiftTimeout => Sys2Proof.Machine.execShiftTimeout s
  | .lvSwitchingPeriod inner vout load bus demand fell => Sys2Proof.Machine.execLvSwitchingPeriod inner vout load bus demand fell s
  | .actPwmPeriod drive m1 m2 onU onV onW obs => Sys2Proof.Machine.execActPwmPeriod drive m1 m2 onU onV onW obs s
  | .dcLinkLow vdc => Sys2Proof.Machine.execDcLinkLow vdc s
  | .vsupReturn vsup => Sys2Proof.Machine.execVsupReturn vsup s
  | .dcLinkLive => Sys2Proof.Machine.execDcLinkLive s
  | .baseCampChargeHoldExpiry => Sys2Proof.Machine.execBaseCampChargeHoldExpiry s
  | .uvloComparator pos neg pass => Sys2Proof.Machine.execUvloComparator pos neg pass s
  | .canTxvrFault ch active => Sys2Proof.Machine.execCanTxvrFault ch active s
  | .canBusError ch e => Sys2Proof.Machine.execCanBusError ch e s
  | .ethLinkUp e1 => Sys2Proof.Machine.execEthLinkUp e1 s
  | .partnerOkClose => Sys2Proof.Machine.execPartnerOkClose s

end Sys2Proof.Machine
end

