-- ==== Sys2Proof/Machine/Regs.lean ====
section
/-!
DEFINITION. Machine/Regs.lean: what a host read of BAR0 returns (R423-R433), as a function of the state: identity, capability,
status, ring state, set-up, mailboxes, MSI-X and the OTP window. No row of the opcode table reads a register but
MODULE_TIME_LO_READ and MB_LOCK_READ, which have an effect; every other read leaves the state as it is.
-/
namespace Sys2Proof.Machine

/-- The low and the high half of a 64-bit quantity. -/
def loHalf (x : W64) : W32 := x.extractLsb' 0 32
def hiHalf (x : W64) : W32 := x.extractLsb' 32 32

/-- ID_PART (R425): part 0x8840, the variant, the hardware issue. -/
def Identity.part (i : Identity) : W32 :=
  BitVec.ofNat 32 (0x8840 + (if i.is48 then 0x48 else 0x12) * 2 ^ 16 + i.issue.toNat * 2 ^ 24)

/-- Identity and capability registers (R425). -/
def Identity.reg (i : Identity) (off : Nat) : W32 :=
  if off = 0x0000 then 0x38385743
  else if off = 0x0004 then i.part
  else if off = 0x0008 then loHalf i.serial
  else if off = 0x000C then hiHalf i.serial
  else if off = 0x0010 then i.romVersion
  else if off = 0x0104 then 0x0041C440
  else if off = 0x0108 then 0x10000880
  else if off = 0x010C then 0x00010020
  else if off = 0x0110 then 0x08100400
  else 0

/-- The four registers of a ring (R429); the SQ head of an EVT or TLM ring reads 0. -/
def Ring.reg (r : Ring) (k : Nat) : W32 :=
  if k = 0 then r.stateWord
  else if k = 4 then (if r.type = 0 || r.type = 3 then BitVec.ofNat 32 r.sqHead else 0)
  else if k = 8 then
    (if r.state == .absent then 0 else BitVec.ofNat 32 (r.cqTail + bitIf 16 r.phase))
  else BitVec.ofNat 32 r.dropped

/-- RING0_CTRL (R427): the stored fields, RESET 0, and ENABLE while ring 0 is ENABLED or DRAINING. -/
def Hw.ring0Reg (h : Hw) : W32 := h.host.ring0Ctrl ||| (if h.ring0On then 0x80000000 else 0)

/-- A mailbox register as the host reads it (R433): mailboxes 4-15 read 0, and mailbox 0 holds BOOT_STATUS (R317). MB_LOCK is
read by MB_LOCK_READ. -/
def Hw.mbReg (h : Hw) (m k : Nat) : W32 :=
  if 3 < m then 0
  else if k = 0 then (if m = 0 then h.bootStatus else (h.mb m).data)
  else if k = 4 then (h.mb m).statusWord m
  else if k = 8 then (h.mb m).ackWord
  else 0

/-- A word of the MSI-X table (R431). -/
def MsixEntry.word (e : MsixEntry) (k : Nat) : W32 :=
  if k = 0 then e.addrLo else if k = 4 then e.addrHi else if k = 8 then e.data else e.ctrl

/-- The 32-bit register at an aligned offset of BAR0 (R424); reserved offsets read 0. -/
def Hw.regRead (h : Hw) (off : Nat) : W32 :=
  if off < 0x0200 then h.otp.ident.reg off
  else if off = 0x0200 then h.moduleStatus
  else if off = 0x0208 then loHalf h.time.now
  else if off = 0x020C then h.time.hiLatch
  else if off = 0x0210 then h.otpStatus
  else if 0x0400 ≤ off && off < 0x0800 then (h.ring ((off - 0x0400) / 16)).reg (off % 16)
  else if off = 0x0800 then loHalf h.host.ring0Sq
  else if off = 0x0804 then hiHalf h.host.ring0Sq
  else if off = 0x0808 then loHalf h.host.ring0Cq
  else if off = 0x080C then hiHalf h.host.ring0Cq
  else if off = 0x0810 then h.ring0Reg
  else if off = 0x0818 then h.host.tableLo
  else if off = 0x081C then h.host.tableHi
  else if 0x1000 ≤ off && off < 0x1400 then h.mbReg ((off - 0x1000) / 0x40) (off % 0x40)
  else if 0x2000 ≤ off && off < 0x2410 then (h.host.msix.get ((off - 0x2000) / 16) {}).word (off % 16)
  else if 0x3000 ≤ off && off < 0x3010 then BitVec.ofNat 32 ((h.host.msixPending.toNat >>> (8 * (off - 0x3000))) % 2 ^ 32)
  else if 0x4000 ≤ off && off < 0x8000 then BitVec.ofNat 32 (leNat (memBytes h.otp.bytes (off - 0x4000) 4))
  else 0

/-- A read of BAR0 by the host while the module answers (R423): an aligned access of 32 or 64 bits, else 0. -/
def Hw.barRead (h : Hw) (off width : Nat) : W64 :=
  if width = 32 && off % 4 = 0 then (h.regRead off).setWidth 64
  else if width = 64 && off = 0x0208 then h.time.now
  else if width = 64 && off % 8 = 0 then ((h.regRead (off + 4)).setWidth 64 <<< 32) ||| (h.regRead off).setWidth 64
  else 0

end Sys2Proof.Machine
end

