-- ==== Sys2Proof/Safety.lean ====
section
/-!
DEFINITION. Safety.lean: what claims are stated with: the limits that hold of every state of the module, what a step can never
take back, a run of the queue, and the conditions under which a descriptor is executed.
-/
namespace Sys2Proof.Machine

/-! ## Limits and what is never taken back -/

/-- The limits the manual sets on what the module keeps: 48-bit counters that stop at their end (R351), 256 entries of fault
history (R361), 64 events buffered without an EVT ring (R305), and the canonical form of the OTP array. -/
structure Hw.Sound (h : Hw) : Prop where
  counters : ∀ p ∈ h.cnt.vals, p.2 ≤ 2 ^ 48 - 1
  history : h.flt.hist.length ≤ 256
  events : h.host.events.length ≤ 64
  otp : Memory.wf h.otp.bytes = true

/-- What a later state keeps of an earlier one: a programmed OTP bit stays programmed (R342), elapsed time does not run back,
no draw of a free value comes twice, and nothing that has left the module is taken back. -/
structure Hw.Follows (g h : Hw) : Prop where
  otp : ∀ a k, (memRead g.otp.bytes a).getLsbD k = true → (memRead h.otp.bytes a).getLsbD k = true
  clock : g.time.clock ≤ h.time.clock
  draws : g.free ≤ h.free
  out : g.out <:+ h.out

/-- `h` is `g` but for the host interface, what has left the module, the counters and the fault history. -/
def Hw.Quiet (g h : Hw) : Prop := h = { g with host := h.host, out := h.out, cnt := h.cnt, flt := h.flt }

/-! ## Commands -/

/-- A descriptor of an opcode, outside a cinch, is executed: it starts on its path, and checks 1 to 6 of R296 pass. -/
def Hw.Runs (h : Hw) (op : Nat) (d : Desc) : Prop :=
  d.member = false ∧ h.canStart d = true ∧ h.heldBySwap op d = false ∧ (h.started d).firstFailure op d = none

/-- The module as the own checks of an executed descriptor find it: the descriptor outstanding (R302), its trailer accepted
(R273), its context used (R311), and the time of the last valid command moved on (R48). -/
def Hw.begun (h : Hw) (d : Desc) : Hw := (h.started d).admitted d

/-- The descriptor is executed, and `h` is the module as its own checks find it. -/
def Hw.RunsTo (g : Hw) (op : Nat) (d : Desc) (h : Hw) : Prop := g.Runs op d ∧ h = g.begun d

/-- `s` with the module as `h` and the queue as it was. -/
def State.put (s : State) (h : Hw) : State := { s with hw := h }

/-- The module has begun a wake with a reason (R40, R46): bring-up runs, OTP has resolved, and the reason is kept. -/
def State.Woken (s t : State) (code : Nat) : Prop :=
  t.pending = s.pending ∧ t.hw.mode.phase = .bringUp ∧ t.hw.mode.wakeReason = BitVec.ofNat 16 code ∧
  t.hw.otp = s.hw.otp.resolve ∧ t.hw.mode.latched = none

end Sys2Proof.Machine
end

