-- ==== Sys2Proof/Certificates/Slice0/Obligations.lean ====
section
/-!
DEFINITION. Certificates/Slice0/Obligations.lean: the statements for the provers. Each stands for a family of commands or a kind of
state; a clause that ends in `exec c s = .next t` says where the command completes and, since it gives the whole next state,
what it leaves unchanged.
-/
open Sys2Proof Sys2Proof.Machine

/-- For every command c and state s, a step with c at the front of the queue is exec of c with the queue's rest. On an empty
queue the step is a tick of 2.5 ns (log entry 1: the model's choice), which leaves the queue empty. -/
def Obligations.StepRunsTheFront : Prop :=
  (∀ (c : Instr) (rest : List Instr) (h : Hw),
      step { pending := c :: rest, hw := h } = exec c { pending := rest, hw := h }) ∧
  (∀ (h : Hw), step { pending := [], hw := h } = .next { pending := [], hw := h.tick })

/-- After reset no command waits, the module is in BIVOUAC and without supply, every counter reads 0 (R351), no fault entry
stands, every ring is ABSENT, and the OTP array is blank; an unpowered, blank module is the model's choice (log entry
2). The limits of soundness hold. -/
def Obligations.ResetIsBivouac : Prop :=
  State.reset.pending = [] ∧ State.reset.hw.mode.mode = .bivouac ∧ State.reset.hw.mode.phase = .unpowered ∧ (∀ i,
    State.reset.hw.cnt.vals.get i 0 = 0) ∧ State.reset.hw.flt.hist = [] ∧ (∀ n, (State.reset.hw.ring n).state = .absent) ∧
    (∀ a, memRead State.reset.hw.otp.bytes a = 0) ∧ State.reset.hw.Sound

/-- From every sound state, whatever command is at the front, a step leads to a sound state: counters at most 2^48 - 1
(R351), at most 256 history entries (R361), at most 64 buffered events (R305), and the OTP array in its canonical form. -/
def Obligations.EveryStepStaysSound : Prop :=
  ∀ (s t : State), s.hw.Sound → step s = .next t → t.hw.Sound

/-- From every sound state a step keeps every programmed OTP bit programmed (R342), does not run time back, and leaves in
place what has already left the module. -/
def Obligations.EveryStepFollows : Prop :=
  ∀ (s t : State), s.hw.Sound → step s = .next t → s.hw.Follows t.hw

/-- From every sound state: every command but OTP_PROGRAM_DONE leaves every OTP byte as it was, and OTP_PROGRAM_DONE leaves
every byte outside the slot of its job as it was, or all of them where no job runs. -/
def Obligations.OnlyProgrammingChangesOtp : Prop :=
  (∀ (c : Instr) (s t : State), s.hw.Sound → (∀ ok, c ≠ .otpProgramDone ok) → exec c s = .next t →
      ∀ a, memRead t.hw.otp.bytes a = memRead s.hw.otp.bytes a) ∧
  (∀ (s t : State) (ok : Bool) (j : OtpJob), s.hw.Sound → s.hw.otp.job = some j → exec (.otpProgramDone ok) s = .next t →
      ∀ a, a < j.offset ∨ j.offset + j.bytes.length ≤ a → memRead t.hw.otp.bytes a = memRead s.hw.otp.bytes a) ∧
  (∀ (s t : State) (ok : Bool), s.hw.otp.job = none → exec (.otpProgramDone ok) s = .next t → t = s)

/-- Whatever the command and the state, exec answers a next state: it never faults and is never refused, and the commands
that wait stay as they were. -/
def Obligations.EveryCommandAnswers : Prop :=
  ∀ (c : Instr) (s : State), ∃ h : Hw, exec c s = .next (s.put h) ∧ (s.put h).pending = s.pending

/-- From every sound state, as many steps as commands wait run the queue to its end without a fault or a refusal; the module
that is left is sound and follows the one it began with. -/
def Obligations.TheQueueRunsToItsEnd : Prop :=
  ∀ (s : State), s.hw.Sound →
      ∃ t : State, Host.Core.run Sys2Proof.core s.pending.length s = .next t ∧ t.pending = [] ∧ t.hw.Sound ∧ s.hw.Follows
      t.hw

/-- A descriptor outside a cinch whose path takes it and whose checks 1 to 6 of R296 fail with a status completes with it:
but for the host interface, counters, fault history and what leaves the module, nothing has changed. One that its path
does not take leaves the module as it is. -/
def Obligations.RefusedDescriptorsActNoFurther : Prop :=
  (∀ (s : State) (d : Desc) (st : Status), d.member = false → s.hw.canStart d = true → s.hw.heldBySwap 0x0501 d = false →
    (s.hw.started d).firstFailure 0x0501 d = some st → st ≠ .safetyPdu →
      exec (.torqueSet d) s = .next (s.put ((s.hw.started d).complete d.req st)) ∧ s.hw.Quiet ((s.hw.started d).complete
      d.req st)) ∧
  (∀ (g : Hw) (op : Nat) (d : Desc) (own : Req → Hw → Hw) (st : Status), d.member = false → g.canStart d = true →
    g.heldBySwap op d = false → (g.started d).firstFailure op d = some st → st ≠ .safetyPdu →
      g.descriptor op d own = (g.started d).complete d.req st ∧ g.Quiet (g.descriptor op d own)) ∧
  (∀ (g : Hw) (op : Nat) (d : Desc) (own : Req → Hw → Hw), d.member = false → (g.canStart d = false ∨ g.heldBySwap op d =
    true) →
      g.descriptor op d own = g)

/-- Formalises R143. TRQ_DC_CEILING, once VDC has stayed above DC_CEIL for 1 ms, raises TRQ_DC_CEILING, and then, whatever the
interval of the higher ranks around zero, the rank-3 interval of each bridge that turns holds no torque against its rotation. -/
def Obligations.DcLinkCeilingLeavesMotoringOnly : Prop :=
  ∀ (s : State), s.hw.parI 0x0513 < s.hw.pwr.vdc → heldFor s.hw.sh.ceilAt msTicks s.hw.time.clock = true →
      ∃ x : Hw, exec .trqDcCeiling s = .next (s.put x) ∧
        x = ({ s.hw with sh := { s.hw.sh with dcCeil := true } } : Hw).raiseOnce fltTrqDcCeiling 0xFF ∧
        ∀ (b : Bridge) (p : Span), p.lo ≤ 0 → 0 ≤ p.hi →
          (0 < (x.ctl b).speed → 0 ≤ (x.floorRank b (x.ceilingRank b p)).lo) ∧
          ((x.ctl b).speed < 0 → (x.floorRank b (x.ceilingRank b p)).hi ≤ 0)

/-- Formalises R411: nothing of the converter changes: it does not start, no attempt counts as failed, and the switch stays
as it was. -/
def Obligations.ReversedBatteryKeepsTheStageOff : Prop :=
  ∀ (s : State) (d : Desc) (h : Hw), s.hw.RunsTo 0x0701 (d.withByte16 1) h → h.lv.vout < -500 →
      exec (.lvControlForward d) s = .next (s.put (h.complete d.req .range)) ∧ (h.complete d.req .range).lv = h.lv

/-- Formalises R375: a window that opens on an exclusive transmit cell sends its buffer, whose request completes and is
gone, so that it is not sent again for it; an empty buffer sends nothing; an exclusive receive cell without a matching
frame is counted with its cycle and column. -/
def Obligations.ExclusiveCellsSendOrCount : Prop :=
  (∀ (s : State) (ch : Fin 4) (col : Fin 64) (seen : Option CanFrame) (h : Hw) (buf word : Nat) (t : CanTx), s.hw.canOn
    ch.val = true → h = s.hw.modCan ch.val (fun c => { c with column := some col.val }) → (h.can ch.val).cell = some (1,
    buf, word) → (h.can ch.val).refLost = false → (h.can ch.val).buffers.find buf = some t →
      exec (.canTtWindow ch col seen) s = .next (s.put (((h.modCan ch.val (fun c =>
      { c with buffers := c.buffers.set buf { t with req := none } })).canSent ch.val t.frame).completeOpt t.req .done))) ∧
  (∀ (s : State) (ch : Fin 4) (col : Fin 64) (seen : Option CanFrame) (h : Hw) (buf word : Nat), s.hw.canOn ch.val = true
    → h = s.hw.modCan ch.val (fun c => { c with column := some col.val }) → (h.can ch.val).cell = some (1, buf, word) →
    (h.can ch.val).refLost = false → (h.can ch.val).buffers.find buf = none →
      exec (.canTtWindow ch col seen) s = .next (s.put h) ∧ h.out = s.hw.out) ∧
  (∀ (s : State) (ch : Fin 4) (col : Fin 64) (seen : Option CanFrame) (h : Hw) (buf word : Nat), s.hw.canOn ch.val = true
    → h = s.hw.modCan ch.val (fun c => { c with column := some col.val }) → (h.can ch.val).cell = some (2, buf, word) →
    seen.any (fun f => (f.word ^^^ BitVec.ofNat 32 word) &&& 0x3FFFFFFF == 0) = false →
      exec (.canTtWindow ch col seen) s = .next (s.put (h.modCan ch.val (fun c =>
      { c with missed := c.missed + 1, missedCycle := c.cycle, missedColumn := col.val }))))

/-- READY to DRIVE is granted where the conditions of R38 hold and nothing bars it; the request waits for its mode edge
(R36), and with charging at rest nothing drains (R50). -/
def Obligations.ModeRequestGranted : Prop :=
  ∀ (s : State) (d : Desc) (h : Hw), s.hw.RunsTo 0x0201 d h → d.byte 16 = 3 → h.mode.mode = .ready → h.modeBusy = false →
    h.driveConditions = true → h.chg.active = false →
      exec (.modeRequest d) s = .next (s.put { h with
        mode := { h.mode with
          granted := some { target := .drive, req := some d.req, cause := 0, cinch := 0, at' := h.time.clock } } })

/-- A wake source wakes the module from BIVOUAC where it is enabled with its settings, no event is latched and VSUP suffices
(R38, R40, R42, R373), the latched event does so with the counter and fault of R42, and a start from the unpowered state
has the reason POWER_ON and module time 0 (R43): bring-up begins, OTP resolves and the reason is kept. A source that is
not enabled leaves the module as it was. -/
def Obligations.WakesBegin : Prop :=
  (∀ (s : State) (src : Fin 14) (falling : Bool) (level : Int), s.hw.mode.phase = .asleep → s.hw.mode.latched = none →
    s.hw.wakeEnabled src.val falling level = true → 3800 ≤ s.hw.pwr.vsup →
      ∃ t, exec (.wakeEvent src falling level) s = .next t ∧ s.Woken t src.val) ∧
  (∀ (s : State) (src : Fin 14) (falling : Bool) (level : Int), s.hw.wakeEnabled src.val falling level = false →
      exec (.wakeEvent src falling level) s = .next s) ∧
  (∀ (s : State), s.hw.mode.phase = .asleep → s.hw.mode.latched = none → s.hw.wakeEnabled 9 false 0 = true → 3800 ≤
    s.hw.pwr.vsup →
      ∃ t, exec .wakeTimerExpiry s = .next t ∧ s.Woken t 9) ∧
  (∀ (s : State) (ch : Fin 4) (f : CanFrame), s.hw.mode.phase = .asleep → s.hw.mode.latched = none → s.hw.frameMode ch.val =
    true → s.hw.wakeMatch ch.val f = true → 3800 ≤ s.hw.pwr.vsup →
      ∃ t, exec (.canWakeFrame ch f) s = .next t ∧ s.Woken t ch.val) ∧
  (∀ (s : State) (ch : Fin 4) (n : Nat), s.hw.mode.phase = .asleep → s.hw.mode.latched = none → s.hw.frameMode ch.val = true →
    32 < n → 3800 ≤ s.hw.pwr.vsup →
      ∃ t, exec (.canWakeErrorCount ch n) s = .next t ∧ s.Woken t ch.val) ∧
  (∀ (s : State) (code : W16), s.hw.mode.phase = .asleep → s.hw.mode.latched = some code → 3800 ≤ s.hw.pwr.vsup →
      exec .latchedWake s = .next (s.put (((s.hw.wakeFrom code.toNat).count 0x017 1).occur fltWakeDuringSleep 0xFF)) ∧
      s.Woken (s.put (s.hw.wakeFrom code.toNat)) code.toNat) ∧
  (∀ (s : State) (vsup : Int), s.hw.mode.phase = .unpowered → 3800 < vsup →
      ∃ t, exec (.powerOn vsup) s = .next t ∧ s.Woken t 0x10 ∧ t.hw.time.now = 0 ∧ t.hw.pwr.vsup = vsup)

/-- VSUP below 3.8 V counts as lost from 1 ms on (R24): without P11 the module is left unpowered, with OTP alone kept (R43),
and with P11 the domains of VSUP go, VSUP_LOST is raised and the bridges take their patterns (R24). The return of VSUP ends
the time on P11 and clears VSUP_LOST without leaving ARREST (R415). P11 runs exactly while the module is awake, outside
BIVOUAC, with the DC link between 120 V and 1050 V (R24), and a module on P11 alone is unpowered outside that window (R25). -/
def Obligations.SupplyChanges : Prop :=
  (∀ (s : State) (below : Nat), msTicks ≤ below → s.hw.mode.phase ≠ .unpowered → s.hw.pwr.onP11 = false → s.hw.p11Runs = false →
      exec (.vsupLost below) s = .next (s.put s.hw.unpower)) ∧
  (∀ (s : State) (below : Nat), msTicks ≤ below → s.hw.mode.phase ≠ .unpowered → s.hw.pwr.onP11 = false → s.hw.p11Runs = true →
      exec (.vsupLost below) s = .next (s.put ((s.hw.dropVsupDomains.raiseOnce fltVsupLost 0xFF).refreshBoth))) ∧
  (∀ (s : State) (below : Nat), below < msTicks → exec (.vsupLost below) s = .next s) ∧
  (∀ (h : Hw),
      h.unpower.mode = {} ∧ h.unpower.host = {} ∧ h.unpower.flt = {} ∧ h.unpower.cnt = {} ∧ h.unpower.otp.bytes =
      h.otp.bytes ∧ h.unpower.time.now = 0 ∧ h.unpower.pwr.vsup = 0) ∧
  (∀ (s : State) (vsup : Int), s.hw.pwr.onP11 = true → 3800 < vsup →
      exec (.vsupReturn vsup) s = .next (s.put (({ s.hw with pwr := { s.hw.pwr with onP11 := false, vsup := vsup } } :
      Hw).clearFault fltVsupLost.code 0xFF))) ∧
  (∀ (s : State) (vdc : Int), s.hw.pwr.onP11 = false →
      ∃ (on due : Bool) (at' : Option Nat) (cal : Option Cal), exec (.p11SupplyChange vdc) s = .next (s.put { s.hw with
        pwr := { s.hw.pwr with vdc := vdc, p11 := on }, lv := { s.hw.lv with autoDue := due }, sh :=
          { s.hw.sh with ceilAt := at' }, sen := { s.hw.sen with cal := cal } }) ∧ (on = true ↔ s.hw.awake = true ∧
      s.hw.mode.mode ≠ .bivouac ∧ 120000 ≤ vdc ∧ vdc ≤ 1050000)) ∧
  (∀ (s : State) (vdc : Int), s.hw.pwr.onP11 = true → (vdc < 120000 ∨ 1050000 < vdc) →
      ∃ t, exec (.p11SupplyChange vdc) s = .next t ∧ t.pending = s.pending ∧ t.hw.mode = {} ∧ t.hw.otp.bytes =
      s.hw.otp.bytes)

/-- Bring-up reaches reduced service with the event REDUCED_SERVICE and the edge to BASE_CAMP (R46); the faults of the OTP
records follow, and an STO channel that is open leads on to ARREST (R38). A mode edge makes its mode the present one and
answers its grant (R36), and the way into ARREST ends in ARREST (R278). -/
def Obligations.BringUpReaches : Prop :=
  (∀ (s : State), s.hw.mode.phase = .bringUp →
      exec .reducedService s = .next (s.put ((((((({ s.hw with mode := { s.hw.mode with phase := .up } } : Hw).postEvent
      0x0203 s.hw.time.now (leBytes 4 s.hw.otp.ident.romVersion.toNat)).edge .baseCamp 3 0
      0).trimSkew.tracWindows.checkP11.otpFaults.stoAtStart).requestImage).chgSettle)))) ∧
  (∀ (h : Hw) (m : Mode) (cause : Byte) (code : W16) (src : Byte),
      (h.edge m cause code src).mode.mode = m ∧ (h.edge m cause code src).mode.granted = none ∧ (h.edge m cause code
      src).mode.phase = h.mode.phase) ∧
  (∀ (h : Hw), h.pwr.stoA = false ∨ h.pwr.stoB = false →
      h.stoAtStart = h.enterArrest fltStoOpen.code (if h.pwr.stoA then 1 else 0)) ∧
  (∀ (h : Hw) (code : W16) (src : Byte), h.mode.mode ≠ .bivouac → h.saf.dbgHalted = false →
      (h.enterArrest code src).mode.mode = .arrest)

/-- An image is asked for again every 100 ms and HOST_ABSENT follows after 1 s (R47), the next image of the order of R46 that
was asked for and passes R337 runs with its version and state format (R335), one that fails a step is rejected with
IMAGE_AUTH_FAIL and its event (R337), an image out of the order changes nothing (R46), and a partner gets the image it asks
for, which is counted (R400). -/
def Obligations.ImagesAreServed : Prop :=
  (∀ (s : State) (k : Nat), s.hw.img.requested = some k → s.hw.img.requestAt + 100 * msTicks ≤ s.hw.time.clock →
    s.hw.roped = false →
      exec .imageRequestRetry s = .next (s.put (({ s.hw with img := { s.hw.img with requestAt := s.hw.time.clock } } :
      Hw).postEvent 0x0C01 s.hw.time.now [BitVec.ofNat 8 k]))) ∧
  (∀ (s : State), s.hw.img.requested.isSome = true → s.hw.img.firstRequestAt + sTicks ≤ s.hw.time.clock →
      exec .hostAbsent s = .next (s.put (s.hw.raiseOnce fltHostAbsent 0xFF))) ∧
  (∀ (s : State) (k : ImageKind) (b : Bridge) (i : ImageInfo), s.hw.mode.phase = .up → s.hw.nextImage = some k →
    s.hw.img.listed k = true → s.hw.authStep k i = none →
      exec (.imageLoaded k b i) s = .next (s.put (((({ s.hw with
        img := s.hw.img.startAll k { version := i.version, format := i.stateFormat } } : Hw).imageEvent k .brA 0
      i.version).mailbox0.requestImage).toReady))) ∧
  (∀ (s : State) (k : ImageKind), s.hw.roped = true → s.hw.mode.phase = .up → s.hw.mode.mode ≠ .baseCamp →
    (s.hw.img.running.find k.code).isSome = true →
      exec (.partnerImageRequest k) s = .next (s.put ((s.hw.count 0x0C7 1).emit (.image k.code false)))) ∧
  (∀ (s : State) (k : ImageKind) (b : Bridge) (i : ImageInfo) (n : Nat), s.hw.mode.phase = .up → s.hw.nextImage = some k →
    s.hw.img.listed k = true → s.hw.authStep k i = some n →
      exec (.imageLoaded k b i) s = .next (s.put ((s.hw.authFail k n).imageEvent k .brA n i.version))) ∧
  (∀ (s : State) (k : ImageKind) (b : Bridge) (i : ImageInfo), s.hw.nextImage ≠ some k →
      exec (.imageLoaded k b i) s = .next s)

/-- A granted transition waits until its drains are complete, and then takes effect at the first control boundary of every
running tile: its request completes DONE (R36). Away from
that boundary the tiles align for it, and no mode changes while the debugger halts the cores (R36, R283). The edge sets the
mode, clears the grant and keeps the phase. -/
def Obligations.ModeEdgeTakesEffect : Prop :=
  (∀ (s : State) (g : Grant), s.hw.saf.dbgHalted = false → s.hw.mode.granted = some g → g.cinch = 0 → g.target ≠ .bivouac →
    s.hw.drained g.target = true → s.hw.atEdge = true →
      ∃ x : Hw, exec .modeEdge s = .next (s.put (({ x with act := { x.act with drainAt := none } } : Hw).completeOpt g.req
      .done)) ∧ x = (s.hw.edge g.target g.cause 0 0).atMode s.hw.mode.mode g.target) ∧
  (∀ (s : State) (g : Grant), s.hw.saf.dbgHalted = false → s.hw.mode.granted = some g → g.cinch = 0 → g.target = .bivouac →
    s.hw.drained .bivouac = true → s.hw.atEdge = true →
      ∃ x : Hw, exec .modeEdge s = .next (s.put (({ x with act := { x.act with drainAt := none } } : Hw).completeOpt g.req
      .done).sleep) ∧ x = s.hw.edge .bivouac g.cause 0 0) ∧
  (∀ (s : State) (g : Grant), s.hw.saf.dbgHalted = false → s.hw.mode.granted = some g → s.hw.drained g.target = false →
      exec .modeEdge s = .next s) ∧
  (∀ (s : State) (g : Grant), s.hw.saf.dbgHalted = false → s.hw.mode.granted = some g → s.hw.drained g.target = true →
    s.hw.atEdge = false →
      exec .modeEdge s = .next (s.put (s.hw.fixAB 0))) ∧
  (∀ (s : State), s.hw.saf.dbgHalted = true → exec .modeEdge s = .next s) ∧
  (∀ (h : Hw) (m : Mode) (cause : Byte) (code : W16) (src : Byte),
      (h.edge m cause code src).mode.mode = m ∧ (h.edge m cause code src).mode.granted = none ∧ (h.edge m cause code
      src).mode.phase = h.mode.phase)

/-- A drain that has passed its bound is forced, function by function, and DRAIN_FORCED is raised (R50). -/
def Obligations.DrainsAreForced : Prop :=
  (∀ (s : State) (n : Fin 64), (s.hw.ring n.val).state = .draining → (s.hw.ring n.val).drainAt + s.hw.parTicks 0x0209 ≤
    s.hw.time.clock →
      exec (.drainForced (.ring n)) s = .next (s.put ((((s.hw.ring n.val).outstanding.filter (fun t => !(s.hw.ownWork
      n.val).contains t)).foldl (fun x t => x.queueCompletion n.val t.1 Status.aborted.code s.hw.time.now) s.hw).occurThen
      fltDrainForced fltDrainForced.cls 0xFF (fun x => (x.setRing n.val { x.ring n.val with
        outstanding := (s.hw.ownWork n.val).filter (s.hw.ring n.val).outstanding.contains, fenced := false, buffer := if
          s.hw.entersSleep then (x.ring n.val).buffer else [], missed := none }).settleRing n.val)))) ∧
  (∀ (s : State) (b : Bridge), (s.hw.ctl b).draining = true → (s.hw.ctl b).drainAt + s.hw.parTicks 0x020A ≤
    s.hw.time.clock →
      exec (.drainForced (.bridge b)) s = .next (s.put (s.hw.occurThen fltDrainForced fltDrainForced.cls 0xFF (fun x =>
      x.orderSafe b)))) ∧
  (∀ (s : State), s.hw.chg.draining = true → s.hw.chg.drainAt + s.hw.parTicks 0x020B ≤ s.hw.time.clock →
      exec (.drainForced .charge) s = .next (s.put (s.hw.occurThen fltDrainForced fltDrainForced.cls 0xFF Hw.chgForced))) ∧
  (∀ (s : State), s.hw.lv.draining = true → s.hw.lv.drainAt + s.hw.parTicks 0x020C ≤ s.hw.time.clock →
      exec (.drainForced .lv) s = .next (s.put (s.hw.occurThen fltDrainForced fltDrainForced.cls 0xFF (fun x =>
      Hw.completeAll x.lv.stopReqs .aborted (({ x with lv := { x.lv with stopReqs := [] } } : Hw).lvRest .stopped
      .aborted))))) ∧
  (∀ (s : State) (t : Nat), s.hw.act.drainAt = some t → t + s.hw.parTicks 0x020D ≤ s.hw.time.clock → s.hw.act.still = false
    →
      exec (.drainForced .act) s = .next (s.put (s.hw.occurThen fltDrainForced fltDrainForced.cls 0xFF (fun x =>
      ({ x with act := { x.act with drainAt := none } } : Hw).actHold))))

/-- BASE_CAMP_IDLE (R48), TOPUP_WAIT (R44), BELAY_TIME (R276), the DC link that stays live on the way to BIVOUAC (R54), the
signal of the application cluster (R9), and the thermal allowances and their end (R22, R23). -/
def Obligations.ModeTimers : Prop :=
  (∀ (s : State) (m : Mode), s.hw.mode.mode = .baseCamp → s.hw.chg.pp = .noPlug → s.hw.modeBusy = false → s.hw.route .bivouac =
    some m → s.hw.mode.lastCommand + s.hw.parTicks 0x0207 ≤ s.hw.time.clock →
      exec (.baseCampIdleTimeout false) s = .next (s.put (s.hw.grant m none 2 0))) ∧
  (∀ (s : State) (w : Bool), s.hw.mode.mode = .baseCamp → w = true ∨ s.hw.chg.pp ≠ .noPlug →
      exec (.baseCampIdleTimeout w) s = .next (s.put { s.hw with
        mode := { s.hw.mode with lastCommand := s.hw.time.clock } })) ∧
  (∀ (s : State), s.hw.mode.phase = .up → s.hw.mode.topupWait = true → s.hw.mode.wakeAt + s.hw.parTicks 0x0206 ≤
    s.hw.time.clock →
      exec .topupNoPermit s = .next (s.put (({ s.hw with
        mode := { s.hw.mode with topupWait := false, topupBack := true, wm0Armed := false } } : Hw).occur fltTopupNoPermit
      0xFF).topupReturn)) ∧
  (∀ (s : State), s.hw.mode.mode = .belay → s.hw.mode.belayAt + s.hw.parTicks 0x0A04 ≤ s.hw.time.clock →
    s.hw.clearedAndAcked s.hw.mode.belayCode s.hw.mode.belaySource = false →
      exec .belayTimeExpiry s = .next (s.put (s.hw.occur fltBelayExpired 0xFF))) ∧
  (∀ (s : State) (g : Grant), s.hw.mode.granted = some g → g.target = .bivouac → g.cinch = 0 → g.at' ≤
    s.hw.saf.dischargeAt → s.hw.saf.dischargeAt + 2 * sTicks ≤ s.hw.time.clock → 60000 < s.hw.pwr.vdc →
      ∃ react : Hw → Hw, (∀ x : Hw, x.saf.dischargeAuto = false → x.saf.dischargeReqs = [] → react x = ((({ x with
        mode := { x.mode with granted := none, latched := none }, saf :=
          { x.saf with dischargeOn := false, retryAt := none } } : Hw).clearFault fltDischargeHeld.code 0xFF).completeOpt
      g.req .aborted).toReady) ∧ (∀ x : Hw, (x.saf.dischargeAuto || !x.saf.dischargeReqs.isEmpty) = true → react x =
      (({ x with mode := { x.mode with granted := none, latched := none } } : Hw).completeOpt g.req .aborted).toReady) ∧ exec
      .dcLinkLive s = .next (s.put (s.hw.occurThen fltDcLinkLive fltDcLinkLive.cls 0xFF react))) ∧
  (∀ (s : State), s.hw.appRuns = true →
      exec .appSignal s = .next (s.put (({ s.hw with mode := { s.hw.mode with appMissed := 0 } } : Hw).clearFault
      fltAppSignalLost.code 0xFF))) ∧
  (∀ (s : State), s.hw.appRuns = true → s.hw.mode.appMissed = 2 →
      exec .appSignalLost s = .next (s.put (({ s.hw with mode := { s.hw.mode with appMissed := 3 } } : Hw).raiseOnce
      fltAppSignalLost 0xFF))) ∧
  (∀ (s : State) (budget electronics lvLoad bridges charging lvAbove : Nat) (a : Allowances), s.hw.appRuns = true → a = shareLoss
    (s.hw.mode.mode == .charge) budget electronics lvLoad bridges charging lvAbove →
      exec (.thermalAllowance budget electronics lvLoad bridges charging lvAbove) s = .next (s.put
      { s.hw with
        ctlA := { s.hw.ctlA with allowance := some (Config.lossCurrent (s.hw.bridgeLoss .brA a.bridges)) }, ctlB :=
          { s.hw.ctlB with allowance := some (Config.lossCurrent (s.hw.bridgeLoss .brB a.bridges)) }, lv :=
          { s.hw.lv with allowance := some (Config.lossPower a.lv) }, chg :=
          { s.hw.chg with allowance := some (Config.lossPower a.charging), dcbAllowance := some (Config.lossBoost a.charging) }, saf :=
          { s.hw.saf with allowAt := s.hw.time.clock, allowOn := true } })) ∧
  (∀ (s : State), s.hw.saf.allowOn = true → s.hw.saf.allowAt + 100 * msTicks ≤ s.hw.time.clock →
      exec .allowanceTimeout s = .next (s.put (({ s.hw with
        ctlA := { s.hw.ctlA with allowance := none }, ctlB := { s.hw.ctlB with allowance := none }, lv :=
          { s.hw.lv with allowance := none }, chg := { s.hw.chg with allowance := none, dcbAllowance := none }, saf :=
          { s.hw.saf with allowOn := false } } : Hw).coolantHot))) ∧
  (∀ (h : Hw), h.saf.allowOn = false →
      h.coolantHot = (if 8500 < h.pwr.coolant then h.raiseOnce fltTrqCoolantHot 0xFF else h.clearFault fltTrqCoolantHot.code
      0xFF))

/-- An open in range of a FREE slot makes the slot OPEN with its class, time, session and path (R324). A member that passes
the checks of its own opcode and of the slot is copied with the versions its items have then, and completes DONE (R326,
R323); an IMAGE_SWAP is staged with the image its engine found (R338). -/
def Obligations.CinchIsOpenedAndStaged : Prop :=
  (∀ (s : State) (d : Desc) (h : Hw), s.hw.RunsTo 0x0C01 d h → h.openCheck d = none →
      exec (.cinchOpen d) s = .next (s.put ((h.setSlot (d.byte 16).toNat {
        state := .opened, cls := (d.byte 17).toNat, time := BitVec.ofNat 64 (d.num 20 8), session := d.session.toNat, path
          := d.path, openedAt := h.time.clock }).complete d.req .done))) ∧
  (∀ (h : Hw) (d : Desc), 1 ≤ (d.byte 16).toNat → (d.byte 16).toNat ≤ 32 → (d.byte 17).toNat ≤ 6 → d.num 20 8 = 0 →
    (h.slot (d.byte 16).toNat).state = .free →
      h.openCheck d = none) ∧
  (∀ (s : State) (op : W16) (d : Desc), d.member = true → s.hw.canStart d = true → s.hw.heldBySwap op.toNat d = false →
    (s.hw.started d).firstFailure op.toNat d = none → op ≠ 0x0C07 → (s.hw.begun d).stageCheck op.toNat d none = none →
      exec (.cinchMemberStage op d) s = .next (s.put (((s.hw.begun d).setSlot d.cinch.toNat { (s.hw.begun d).slot
          d.cinch.toNat with
        members := ((s.hw.begun d).slot d.cinch.toNat).members ++ [{
          op := op, desc := d, versions := (memberItems op.toNat d).map (fun x => (x, (s.hw.begun d).version x)), image :=
            none, trailer := d.trailer }] }).complete d.req .done))) ∧
  (∀ (s : State) (d : Desc) (i : ImageInfo), d.member = true → s.hw.canStart d = true → s.hw.heldBySwap 0x0C07 d = false →
    (s.hw.started d).firstFailure 0x0C07 d = none → (s.hw.begun d).stageCheck 0x0C07 d (some i) = none →
      exec (.imageSwap d i) s = .next (s.put ((((s.hw.begun d).reportImage 0x0C07 d (some i)).setSlot d.cinch.toNat {
          (s.hw.begun d).slot d.cinch.toNat with
        members := ((s.hw.begun d).slot d.cinch.toNat).members ++ [{
          op := 0x0C07, desc := d, versions := (memberItems 0x0C07 d).map (fun x => (x, (s.hw.begun d).version x)), image :=
            some i, trailer := d.trailer }] }).complete d.req .done)))

/-- A commit of an OPEN cinch waits for its members to stage (R328); acceptance makes it COMMITTED with its lead of 10 us,
and at its instant all members take effect in staging order and the commit completes DONE (R329); a version that changed
leaves everything unapplied with CONFLICT. An abort of a cinch that is not committed, and the expiry of its lifetime,
free it with nothing applied (R331). -/
def Obligations.CinchRunsItsCourse : Prop :=
  (∀ (s : State) (d : Desc) (h : Hw), s.hw.RunsTo 0x0C02 d h → h.slotCheck d = none → (h.slot (d.byte 16).toNat).state =
    .opened → (h.slot (d.byte 16).toNat).commit = none →
      exec (.cinchCommit d) s = .next (s.put (h.setSlot (d.byte 16).toNat { h.slot (d.byte 16).toNat with
        commit := some d.req, publishedAt := (match d.path with | .ring r => (h.ring r).doorbellAt | .can => h.time.clock), age :=
          d.age }))) ∧
  (∀ (s : State) (n : Fin 33) (q : Req), (s.hw.slot n.val).state = .opened → (s.hw.slot n.val).commit = some q →
    (s.hw.slot n.val).members ≠ [] → (s.hw.slot n.val).members.any (·.trailer) = false → (s.hw.slot n.val).cls = 0 →
    s.hw.conflicts (s.hw.slot n.val) = false →
      exec (.cinchAccept n) s = .next (s.put (s.hw.setSlot n.val { s.hw.slot n.val with
        state := .committed, acceptedAt := some s.hw.time.clock, leadEnd := s.hw.time.now + BitVec.ofNat 64 (10 * usTicks)
          }))) ∧
  (∀ (s : State) (n : Fin 33), (s.hw.slot n.val).state = .committed → s.hw.img.appSwap = none → s.hw.cinchDue (s.hw.slot
    n.val) = true → s.hw.instantCheck (s.hw.slot n.val) = none → (s.hw.slot n.val).members.any (fun m => m.op == 0x0C07 &&
    m.desc.byte 16 == 6) = false →
      exec (.cinchInstant n) s = .next (s.put ((s.hw.applyMembers n.val (s.hw.slot n.val)).finishCinch n.val .done))) ∧
  (∀ (s : State) (n : Fin 33), (s.hw.slot n.val).state = .committed → s.hw.img.appSwap = none → s.hw.cinchDue (s.hw.slot
    n.val) = true → s.hw.conflicts (s.hw.slot n.val) = true →
      exec (.cinchInstant n) s = .next (s.put (s.hw.finishCinch n.val .conflict))) ∧
  (∀ (s : State) (d : Desc) (h : Hw), s.hw.RunsTo 0x0C03 d h → h.slotCheck d = none → (h.slot (d.byte 16).toNat).state =
    .opened →
      exec (.cinchAbort d) s = .next (s.put ((h.dropCinch (d.byte 16).toNat).complete d.req .done))) ∧
  (∀ (s : State) (n : Fin 33), (s.hw.slot n.val).state = .opened → (s.hw.slot n.val).commit = none → (s.hw.slot
    n.val).openedAt + s.hw.parTicks 0x0C01 ≤ s.hw.time.clock →
      exec (.cinchExpired n) s = .next (s.put ((s.hw.setSlot n.val {}).occur fltCinchExpired 0xFF)))

/-- A PARAM_WRITE that passes its checks takes effect by its class: at once, at a mode edge, at a boundary, or in the
pending safety set (R322, R269). A value that takes effect is the active one and advances its version by one (R323), and
PARAM_READ writes the result block of R323 to the host. -/
def Obligations.ParametersAreWrittenAndRead : Prop :=
  (∀ (s : State) (d : Desc) (h : Hw) (r : PRow), s.hw.RunsTo 0x0C04 d h → h.paramCheck d false = none → paramRow d.paramId
    = some r → d.paramId / 256 ≠ 0x0A → r.cls = .immediate →
      exec (.paramWrite d) s = .next (s.put ((h.putPar d.paramId d.paramValue).complete d.req .done))) ∧
  (∀ (s : State) (d : Desc) (h : Hw) (r : PRow), s.hw.RunsTo 0x0C04 d h → h.paramCheck d false = none → paramRow d.paramId
    = some r → d.paramId / 256 ≠ 0x0A → r.cls = .modeEdge →
      exec (.paramWrite d) s = .next (s.put
      (({ h with prm := { h.prm with staged := h.prm.staged.set d.paramId d.paramValue } } : Hw).complete d.req .done))) ∧
  (∀ (s : State) (d : Desc) (h : Hw) (r : PRow), s.hw.RunsTo 0x0C04 d h → h.paramCheck d false = none → paramRow d.paramId
    = some r → d.paramId / 256 = 0x0A →
      exec (.paramWrite d) s = .next (s.put ((h.safetyWrite d.paramId d.paramValue).complete d.req .done))) ∧
  (∀ (h : Hw) (id v : Nat),
      (h.putPar id v).par id = v ∧ (h.putPar id v).prm.versions.get id 0 = (h.prm.versions.get id 0 + 1) % 2 ^ 32) ∧
  (∀ (s : State) (d : Desc) (h : Hw), s.hw.RunsTo 0x0C05 d h → (paramRow d.paramId).isSome = true → d.num 24 8 % 8 = 0 →
      exec (.paramRead d) s = .next (s.put ((h.emit (.dma (BitVec.ofNat 64 (d.num 24 8)) (h.paramBlock d.paramId))).complete
      d.req .done)))

/-- A well-formed directory is kept and answers the request (R335). The swap of SAFE is released on a match within 50 ms or
fails into ARREST (R340), and that of APP goes core by core, each within 100 ms (R339). Programming and revoking need WORKSHOP and the
conditions of R345; programming that was read back completes DONE with the image's bits programmed, and a SYSCAL overlay
waits for the next CONTROL_AB boundary (R347). -/
def Obligations.ImagesAndRecords : Prop :=
  (∀ (s : State) (d : Desc) (h : Hw) (es : List DirEntry), s.hw.RunsTo 0x0C06 d h → d.num 16 8 % 8 = 0 → directoryOf d.dma
    (d.num 24 4) = some es →
      exec (.imageDirectory d) s = .next (s.put ((({ h with img := { h.img with directory := es } } :
      Hw).requestImage).complete d.req .done))) ∧
  (∀ (s : State) (x : SafeHold), s.hw.img.safeHold = some x → s.hw.time.clock ≤ x.since + 50 * msTicks →
      exec .safeSwapRelease s = .next (s.put { s.hw with
        img := ({ s.hw.img with safeHold := none } : Images).start .safe .brA x.image })) ∧
  (∀ (s : State) (x : SafeHold), s.hw.img.safeHold = some x → x.since + 50 * msTicks ≤ s.hw.time.clock →
      exec .safeSwapFail s = .next (s.put ((({ s.hw with
        img := { s.hw.img with safeHold := none }, saf := { s.hw.saf with seriesOpen := true, noMajority := true } } :
      Hw).orderBoth.occurThen fltSafeSwapFail .arrest 0xFF (fun x => x)).safeRestart))) ∧
  (∀ (s : State) (core : Fin 4) (a : AppSwap), s.hw.img.appSwap = some a → a.reversing = false → core.val = a.done → s.hw.time.clock ≤
    a.coreAt + 100 * msTicks → a.done < 3 →
      exec (.appCoreSwap core true) s = .next (s.put
      { s.hw with img := { s.hw.img with appSwap := some { a with done := a.done + 1, coreAt := s.hw.time.clock } } })) ∧
  (∀ (s : State) (core : Fin 4) (a : AppSwap), s.hw.img.appSwap = some a → a.reversing = false → core.val = a.done → s.hw.time.clock ≤
    a.coreAt + 100 * msTicks → a.done = 3 →
      exec (.appCoreSwap core true) s = .next (s.put (({ s.hw with img := s.hw.img.start .app .brA a.image } :
      Hw).endAppSwap a.slot .done))) ∧
  (∀ (s : State) (d : Desc) (h : Hw) (body : List Byte) (g base gens size : Nat), s.hw.RunsTo 0x0C08 d h → h.otpCheck =
    none → h.otpSource d = .inr body → h.otp.nextSlot (d.num 16 1) = some g → otpMap (d.num 16 1) = some (base, gens, size)
    →
      exec (.otpProgram d) s = .next (s.put { h with
        otp := { h.otp with
          job := some {
            type := d.num 16 1, offset := slotBase base size g, bytes := slotImage (d.num 16 1) g body, revoke := false,
              safety := false, req := d.req } } })) ∧
  (∀ (s : State) (d : Desc) (h : Hw) (g base gens size : Nat), s.hw.RunsTo 0x0C09 d h → h.otpCheck = none → h.revokeCheck
    d = none → h.otp.active.find (d.num 16 1) = some g → otpMap (d.num 16 1) = some (base, gens, size) →
      exec (.otpRevoke d) s = .next (s.put { h with
        otp := { h.otp with
          job := some {
            type := d.num 16 1, offset := slotBase base size g, bytes := [0xFF, 0xFF, 0xFF, 0xFF], revoke := true, safety :=
              false, req := d.req } } })) ∧
  (∀ (s : State) (j : OtpJob), s.hw.otp.job = some j → j.safety = false → 9000 ≤ s.hw.pwr.vsup →
      exec (.otpProgramDone true) s = .next (s.put (({ s.hw with
        otp := { s.hw.otp with job := none, bytes := memBurn s.hw.otp.bytes j.offset j.bytes } } : Hw).complete j.req
      .done))) ∧
  (∀ (s : State) (d : Desc) (h : Hw) (body : List Byte), s.hw.RunsTo 0x0C0A d h → h.overlayCheck d false = none →
    overlayBody d.dma 3 = some body → (d.byte 16).toNat = 3 → d.num 16 1 = 3 →
      exec (.overlayLoad d) s = .next (s.put ((({ h with otp := { h.otp with syscalNext := some (body, some d.req) } } :
      Hw).completeOpt (h.otp.syscalNext.bind (·.2)) .superseded).fixAB 0))) ∧
  (∀ (s : State) (core : Fin 4) (ok : Bool) (a : AppSwap), s.hw.img.appSwap = some a → a.turn core.val = false →
      exec (.appCoreSwap core ok) s = .next s) ∧
  (∀ (s : State) (core : Fin 4) (a : AppSwap), s.hw.img.appSwap = some a → a.reversing = false → core.val = a.done → 0 < a.done →
      exec (.appCoreSwap core false) s = .next (s.put { s.hw with
        img := { s.hw.img with appSwap := some { a with reversing := true, coreAt := s.hw.time.clock } } })) ∧
  (∀ (s : State) (core : Fin 4) (a : AppSwap), s.hw.img.appSwap = some a → a.reversing = true → core.val + 1 = a.done → 1 <
    a.done →
      exec (.appCoreSwap core true) s = .next (s.put { s.hw with
        img := { s.hw.img with appSwap := some { a with done := a.done - 1, coreAt := s.hw.time.clock } } }))

/-- RING_CREATE in range of an ABSENT ring number makes the ring ENABLED (R293); RING_DISABLE drains an ENABLED ring and
RING_RESET makes an IDLE or ERROR one ABSENT, its cause kept (R294, R445). Ring 0 follows RING0_CTRL: enabled with its
fields where they fit, else cause 5; drained by ENABLE 0; ABSENT at once by RESET (R428). -/
def Obligations.RingsAreMade : Prop :=
  (∀ (s : State) (d : Desc) (h : Hw), s.hw.RunsTo 0x0B01 d h → h.createCheck d = none → d.num 17 1 ≠ 1 →
      exec (.ringCreate d) s = .next (s.put ((h.setRing (d.num 16 1) {
        state := .enabled, type := d.num 17 1, size := d.num 18 1, prio := d.num 19 1, vector := if d.num 20 1 = 0xFF then
          none else some (d.num 20 1), count := d.num 21 1, time := d.num 22 2, sqBase := BitVec.ofNat 64 (d.num 24 8),
          cqBase := BitVec.ofNat 64 (d.num 32 8) }).complete d.req .done))) ∧
  (∀ (s : State) (d : Desc) (h : Hw), s.hw.RunsTo 0x0B02 d h → d.num 16 1 ≠ 0 → d.num 16 1 ≤ 63 → (h.ring (d.num 16
    1)).state = .enabled →
      exec (.ringDisable d) s = .next (s.put (h.drainRing (d.num 16 1) (some d.req)))) ∧
  (∀ (s : State) (d : Desc) (h : Hw), s.hw.RunsTo 0x0B03 d h → d.num 16 1 ≠ 0 → d.num 16 1 ≤ 63 → (h.ring (d.num 16
    1)).state = .idle ∨ (h.ring (d.num 16 1)).state = .error →
      exec (.ringReset d) s = .next (s.put ((h.setRing (d.num 16 1) { cause := (h.ring (d.num 16 1)).cause }).complete d.req
      .done))) ∧
  (∀ (s : State) (v : W32), s.hw.barUp = true → (s.hw.ring 0).state = .absent → s.hw.host.ring0Sq.toNat % 4096 = 0 →
    s.hw.host.ring0Cq.toNat % 4096 = 0 → 4 ≤ ring0Size (ring0Fields v) → ring0Size (ring0Fields v) ≤ 12 → ring0Time
    (ring0Fields v) ≤ 1000 → v.getLsbD 30 = false → v.getLsbD 31 = true →
      exec (.ring0CtrlEnable v) s = .next (s.put (({ s.hw with host := { s.hw.host with ring0Ctrl := ring0Fields v } } :
      Hw).setRing 0 {
        state := .enabled, size := ring0Size (ring0Fields v), count := max 1 (ring0Count (ring0Fields v)), time := ring0Time
          (ring0Fields v), sqBase := s.hw.host.ring0Sq, cqBase := s.hw.host.ring0Cq }))) ∧
  (∀ (s : State) (v : W32), s.hw.barUp = true → (s.hw.ring 0).state = .enabled →
      exec (.ring0CtrlDisable v) s = .next (s.put (s.hw.drainRing 0 none))) ∧
  (∀ (s : State) (v : W32), s.hw.barUp = true → v.getLsbD 31 = false →
      exec (.ring0CtrlReset v) s = .next (s.put (s.hw.ring0Reset.ring0Disable (v ||| 0x40000000)))) ∧
  (∀ (v : W32) (h : Hw), (h.ring 0).state = .absent →
      h.ring0Disable v = { h with host := { h.host with ring0Ctrl := ring0Fields v } }) ∧
  (∀ (s : State) (n : Fin 64) (raw : BitVec 512) (dma : List Byte) (ok : Bool), s.hw.ringTurn n.val = true →
    s.hw.entersSleep = false → s.hw.canStart (Desc.ofRaw (.ring n) raw dma ok).2 = true →
    s.hw.heldBySwap (Desc.ofRaw (.ring n) raw dma ok).1 (Desc.ofRaw (.ring n) raw dma ok).2 = false → s.hw.contextMiss
    (Desc.ofRaw (.ring n) raw dma ok).2 = false →
      exec (.descriptorFetch n raw dma ok) s = .next (s.put ((({ s.hw with
        host := { s.hw.host with turn := s.hw.host.turn.set (s.hw.ring n.val).prio n.val } } : Hw).setRing n.val (s.hw.ring
      n.val).fetched).runOp (Desc.ofRaw (.ring n) raw dma ok).1 (Desc.ofRaw (.ring n) raw dma ok).2))) ∧
  (∀ (s : State) (n : Fin 64) (m : Nat) (raw : BitVec 512) (dma : List Byte) (ok : Bool), m < 64 → (s.hw.ring m).fetchable
    s.hw.img.safeHold.isSome = true → (s.hw.ring m).prio < (s.hw.ring n.val).prio →
      exec (.descriptorFetch n raw dma ok) s = .next s)

/-- SESSION_OPEN takes the lowest free ID, draws a binding value and writes the result block (R308); SESSION_CHALLENGE draws
a challenge and writes it (R309); SESSION_CLOSE has the effects of R313; a missing context is paged in and its
descriptor runs (R311); the session table is enabled and disabled through its register (R430). -/
def Obligations.SessionsOpenAndClose : Prop :=
  (∀ (s : State) (d : Desc) (h : Hw) (n : Nat), s.hw.RunsTo 0x0B04 d h → h.openSessionCheck d = none → d.num 16 1 = 2 →
    h.freeSession = some n →
      exec (.sessionOpen d) s = .next (s.put (((h.drawn.setSession n {
        auth := .motion, pinned := true, resident := true, usedAt := h.time.clock, source := BitVec.ofNat 32 (d.num 20 4),
          binding := Config.binding h.free, openedAt := h.time.now, lastSeq := none, fails := [], blocked := false, viaCan
          := false, closing := none }).emit (.dma (BitVec.ofNat 64 (d.num 24 8)) (leBytes 2 n ++ [0, 0] ++ leBytes 4
      (Config.binding h.free).toNat ++ leBytes 8 h.time.now.toNat))).complete d.req .done))) ∧
  (∀ (s : State) (d : Desc) (h : Hw), s.hw.RunsTo 0x0B06 d h →
      exec (.sessionChallenge d) s = .next (s.put ((({ h.drawn with
        host := { h.drawn.host with
          challenges := h.liveChallenges ++ [(Config.challenge h.free, h.time.clock)] } } : Hw).emit (.dma (BitVec.ofNat 64
      (d.num 16 8)) (leBytes 32 (Config.challenge h.free).toNat))).complete d.req .done))) ∧
  (∀ (s : State) (d : Desc) (h : Hw) (x y : Session), s.hw.RunsTo 0x0B05 d h → h.session (d.num 16 2) = some x → x.closing
    = none → (h.closeEffects (d.num 16 2) x).session (d.num 16 2) = some y →
      exec (.sessionClose d) s = .next (s.put (((h.closeEffects (d.num 16 2) x).setSession (d.num 16 2)
      { y with closing := some d.req }).settleSession (d.num 16 2)))) ∧
  (∀ (s : State) (n : Fin 64) (raw : BitVec 512) (dma : List Byte) (ok : Bool) (x : Session), (s.hw.ring n.val).missed =
    some (raw, dma, ok) → s.hw.appRuns = true → s.hw.host.linkUp = true → s.hw.pwr.onP11 = false → s.hw.contextMiss
    (Desc.ofRaw (.ring n) raw dma ok).2 = true → s.hw.makeRoom.session (Desc.ofRaw (.ring n) raw dma ok).2.session.toNat =
    some x →
      exec (.contextPageIn n true) s = .next (s.put ((s.hw.makeRoom.setSession (Desc.ofRaw (.ring n) raw dma
      ok).2.session.toNat { x with resident := true, usedAt := s.hw.time.clock }).resume n raw dma ok))) ∧
  (∀ (s : State) (v : W32), s.hw.barUp = true → s.hw.host.tableLo.getLsbD 0 = false →
      exec (.sessionTableEnable v) s = .next (s.put
      { s.hw with host := { s.hw.host with tableLo := (v ||| 1) &&& 0xFFFFF001 } })) ∧
  (∀ (s : State) (v : W32), s.hw.barUp = true → s.hw.host.tableLo.getLsbD 0 = true → (v ^^^ s.hw.host.tableLo) &&&
    0xFFFFF000 = 0 → v.getLsbD 0 = false → s.hw.sessionCount (fun x => !x.pinned) = 0 →
      exec (.sessionTableDisable v) s = .next (s.put { s.hw with host := { s.hw.host with tableLo := v &&& 0xFFFFF001 } }))

/-- A valid doorbell frees entries and publishes descriptors, and one beyond its queue stops the ring with
HOST_DOORBELL_INVALID (R299); what waits is posted as entries free (R300, R305), a queue full past its limit stops the
ring with HOST_CQ_STALL, an old entry is signalled, and an unmasked vector sends what is pending (R303, R431). A 64-bit
register write acts on both halves, the session table's high half first (R423, R430). -/
def Obligations.QueuesMove : Prop :=
  (∀ (s : State) (off : BitVec 14) (v : W32), s.hw.barUp = true → off.toNat % 256 = 0 → (s.hw.ring (off.toNat /
    256)).posts = true → v.toNat / 2 ^ 16 < 2 ^ (s.hw.ring (off.toNat / 256)).size → v.toNat % 2 ^ 16 < 2 ^ (s.hw.ring
    (off.toNat / 256)).size → (v.toNat / 2 ^ 16 + 2 ^ (s.hw.ring (off.toNat / 256)).size - (s.hw.ring (off.toNat /
    256)).cqHead) % 2 ^ (s.hw.ring (off.toNat / 256)).size ≤ (s.hw.ring (off.toNat / 256)).posted →
      exec (.doorbellWrite off 32 v) s = .next (s.put (s.hw.setRing (off.toNat / 256) ((s.hw.ring (off.toNat /
      256)).doorbell (v.toNat % 2 ^ 16) (v.toNat / 2 ^ 16) ((v.toNat / 2 ^ 16 + 2 ^ (s.hw.ring (off.toNat / 256)).size -
      (s.hw.ring (off.toNat / 256)).cqHead) % 2 ^ (s.hw.ring (off.toNat / 256)).size) s.hw.time.clock)))) ∧
  (∀ (s : State) (off : BitVec 14) (v : W32), s.hw.barUp = true → off.toNat % 256 = 0 → (s.hw.ring (off.toNat /
    256)).posts = true → 2 ^ (s.hw.ring (off.toNat / 256)).size ≤ v.toNat / 2 ^ 16 →
      exec (.doorbellWrite off 32 v) s = .next (s.put ((s.hw.ringError (off.toNat / 256) 1).occurActed
      fltHostDoorbellInvalid (BitVec.ofNat 8 (off.toNat / 256))))) ∧
  (∀ (s : State) (n : Fin 64), (s.hw.ring n.val).posts = true →
      exec (.bufferedEntryPost n) s = .next (s.put ((Hw.postWaiting 64 n.val s.hw).settleRing n.val).postSnap.settleSnap)) ∧
  (∀ (s : State) (n : Fin 64) (t : Nat), (s.hw.ring n.val).posts = true → (s.hw.ring n.val).type = 0 → (s.hw.ring
    n.val).hasRoom = false → (s.hw.ring n.val).fullAt = some t → t + s.hw.parTicks 0x0B02 ≤ s.hw.time.clock →
      exec (.cqStall n) s = .next (s.put ((s.hw.ringError n.val 2).occurActed fltHostCqStall (BitVec.ofNat 8 n.val)))) ∧
  (∀ (s : State) (n : Fin 64), 0 < (s.hw.ring n.val).unsignalled → (s.hw.ring n.val).oldestAt + (s.hw.ring n.val).time *
    usTicks ≤ s.hw.time.clock →
      exec (.coalesceTimeout n) s = .next (s.put (s.hw.signalRing n.val))) ∧
  (∀ (s : State) (v : Fin 65), s.hw.barUp = true →
      exec (.msixUnmask v) s = .next (s.put (({ s.hw with
        host := { s.hw.host with
          msix := s.hw.host.msix.set v.val { s.hw.host.msix.get v.val {} with
            ctrl := (s.hw.host.msix.get v.val {}).ctrl &&& 0xFFFFFFFE } } } : Hw).sendPending v.val))) ∧
  (∀ (s : State), s.hw.barUp = true →
      exec .moduleTimeLoRead s = .next (s.put
      (({ s.hw with time := { s.hw.time with hiLatch := s.hw.time.now.extractLsb' 32 32 } } : Hw).emit (.read 0x0208
      (s.hw.time.now.extractLsb' 0 32))))) ∧
  (∀ (s : State) (o : W16) (v : W64), s.hw.barUp = true → o.toNat % 8 = 0 → o.toNat ≠ 0x0818 →
      exec (.registerWrite o 64 v) s = .next (s.put ((s.hw.regWrite o.toNat (v.extractLsb' 0 32)).regWrite (o.toNat + 4)
      (v.extractLsb' 32 32)))) ∧
  (∀ (s : State) (v : W64), s.hw.barUp = true →
      exec (.registerWrite 0x0818 64 v) s = .next (s.put ((s.hw.regWrite 0x081C (v.extractLsb' 32 32)).regWrite 0x0818
      (v.extractLsb' 0 32))))

/-- A free mailbox goes to the agent that reads its lock, its owner writes one word and releases it, its receiver answers
it, and a word not taken within 10 ms or a lock held idle for 1 s is given up (R316, R433). The safety controller
answers its own words (R317), the APP image the others (R446). -/
def Obligations.MailboxesPassWords : Prop :=
  (∀ (s : State) (m : Fin 16) (a : Fin 12), s.hw.mbReach m.val a.val = true → m.val ≠ 0 → (s.hw.mb m.val).lock = 0 →
      exec (.mbLockRead m a) s = .next (s.put ((s.hw.setMb m.val
      { s.hw.mb m.val with lock := a.val, lockAt := s.hw.time.clock }).emit (.read (0x100C + 0x40 * m.val) 0)))) ∧
  (∀ (s : State) (m : Fin 16) (a : Fin 12), s.hw.mbReach m.val a.val = true → m.val ≠ 0 → (s.hw.mb m.val).lock = a.val →
      exec (.mbLockRelease m a) s = .next (s.put (s.hw.setMb m.val { s.hw.mb m.val with lock := 0 }))) ∧
  (∀ (s : State) (m : Fin 16) (a : Fin 12) (word : W32), s.hw.mbReach m.val a.val = true → m.val ≠ 0 → (s.hw.mb
    m.val).lock = a.val → (s.hw.mb m.val).full = false →
      exec (.mbDataWrite m a word) s = .next (s.put (s.hw.setMb m.val { s.hw.mb m.val with
        data := word, full := true, sender := a.val, valid := false, writtenAt := s.hw.time.clock, lockAt := s.hw.time.clock
          }))) ∧
  (∀ (s : State) (m : Fin 16) (a : Fin 12) (code : Byte), s.hw.awake = true → m.val ≠ 0 → a.val ≠ 0 → mbReceiver m.val =
    a.val → (s.hw.mb m.val).full = true →
      exec (.mbAcknowledge m a code) s = .next (s.put (s.hw.setMb m.val
      { s.hw.mb m.val with full := false, ack := code, valid := true }))) ∧
  (∀ (s : State) (m : Fin 16), s.hw.mbReach m.val 1 = true →
      exec (.mbTimeoutClear m) s = .next (s.put (s.hw.setMb m.val { s.hw.mb m.val with timeout := false }))) ∧
  (∀ (s : State) (m : Fin 16), (s.hw.mb m.val).full = true → (s.hw.mb m.val).writtenAt + 10 * msTicks ≤ s.hw.time.clock →
      exec (.mbTimeout m) s = .next (s.put (s.hw.setMb m.val
      { s.hw.mb m.val with timeout := true, full := false, lock := 0 }))) ∧
  (∀ (s : State) (m : Fin 16), (s.hw.mb m.val).lock ≠ 0 → (s.hw.mb m.val).full = false → (s.hw.mb m.val).lockAt + sTicks ≤
    s.hw.time.clock →
      exec (.mbLockExpiry m false) s = .next (s.put (s.hw.setMb m.val { s.hw.mb m.val with lock := 0 }))) ∧
  (∀ (s : State), s.hw.mb1Holds 1 = true → exec .ping s = .next (s.put (s.hw.busyNow.mbAck 1 0))) ∧
  (∀ (s : State), s.hw.mb1Holds 2 = true → s.hw.modeBusy = false → s.hw.route .bivouac = some .bivouac →
      exec .sleep s = .next (s.put ((s.hw.busyNow.mbAck 1 0).grant .bivouac none 0 0))) ∧
  (∀ (s : State), s.hw.mb1Holds 3 = true → exec .ring0Reset s = .next (s.put (s.hw.busyNow.ring0Reset.mbAck 1 0))) ∧
  (∀ (s : State) (code : Byte), s.hw.awake = true → (s.hw.mb 2).full = true → s.hw.appRuns = true → (s.hw.mb 2).data ≠ 1 →
    code.toNat ≤ 14 →
      exec (.appMailboxWord false code) s = .next (s.put (s.hw.mbAck 2 code))) ∧
  (∀ (s : State), s.hw.mb1Holds 2 = true → s.hw.modeBusy = true → exec .sleep s = .next (s.put (s.hw.mbAck 1 10))) ∧
  (∀ (h : Hw) (m : Nat) (code : Byte), (h.mb m).full = true →
      h.mbAck m code = h.setMb m { h.mb m with full := false, ack := code, valid := true })

/-- A link down for HOST_LINK_GRACE, a hot reset and a link that is up again act as R314 says, a shorter loss of the link leaves
the module as it was, and a ring whose transfer failed, or whose descriptor waits for the session-table transfer that
failed, goes into ERROR with HOST_DMA_ERROR (R315). -/
def Obligations.HostIsLostAndFound : Prop :=
  (∀ (s : State) (down : Nat), s.hw.awake = true → s.hw.host.lost = false → s.hw.parTicks 0x0B01 ≤ down →
      exec (.hostLinkLost down) s = .next (s.put s.hw.loseHost)) ∧
  (∀ (s : State) (down : Nat), down < s.hw.parTicks 0x0B01 → exec (.hostLinkLost down) s = .next s) ∧
  (∀ (s : State), s.hw.awake = true → exec .hotReset s = .next (s.put s.hw.loseHost)) ∧
  (∀ (h : Hw),
      h.loseHost.host.tableLo = 0 ∧ h.loseHost.host.ring0Ctrl = 0 ∧ h.loseHost.host.msix =
      [] ∧ h.loseHost.host.msixPending = 0) ∧
  (∀ (s : State), s.hw.awake = true → s.hw.pwr.onP11 = false →
      exec .hostLinkUp s = .next (s.put (({ s.hw with host := { s.hw.host with linkUp := true, lost := false } } :
      Hw).clearFault fltHostLinkLost.code 0xFF))) ∧
  (∀ (s : State) (n : Fin 64) (table : Bool), (s.hw.ring n.val).posts = true → table = false ∨
    (s.hw.ring n.val).missed.isSome = true →
      exec (.hostDmaError n table) s = .next (s.put ((s.hw.ringError n.val 3).occurActed fltHostDmaError (BitVec.ofNat 8
      n.val))))

/-- Module time advances tick by tick (R31), takes its one step of a wake when no timed cinch or snapshot waits (R32), slews
towards the received time otherwise, and counts as unsynchronised once 802.1AS is lost (R382). -/
def Obligations.ModuleTimeIsKept : Prop :=
  (∀ (s : State) (n : Nat), s.hw.time.stepWait = some n → s.hw.stepHeld = false →
      exec .timeStep s = .next (s.put (s.hw.makeStep n))) ∧
  (∀ (s : State) (o : Int), s.hw.mode.phase = .up → s.hw.powered 3 = true → s.hw.net.ptpLost = false → s.hw.time.behind =
    false → s.hw.time.firstSync = true → s.hw.time.stepDone = true → s.hw.time.stepWait = none →
      exec (.ptpSync o) s = .next (s.put { s.hw with
        time := { s.hw.time with slew := o, synced := absI o ≤ 20, firstSync := true } })) ∧
  (∀ (s : State) (o : Int), s.hw.mode.phase = .up → s.hw.powered 3 = true → s.hw.net.ptpLost = false → s.hw.time.behind =
    false → s.hw.time.stepDone = false → 400000 < o → s.hw.stepHeld = false →
      exec (.ptpSync o) s = .next (s.put (({ s.hw with
        time := { s.hw.time with
          stepWait := some o.toNat, firstSync := true, synced := false, slew := 0 } } : Hw).makeStep o.toNat))) ∧
  (∀ (s : State) (interval elapsed : Nat), s.hw.mode.phase = .up → s.hw.net.ptpLost = false → 3 * interval ≤ elapsed →
      exec (.ptpSyncLost (.noSync interval elapsed)) s = .next (s.put ((({ s.hw with
        net := { s.hw.net with ptpLost := true }, time := { s.hw.time with synced := false, slew := 0 } } : Hw).count 0x0BC
      1).raiseOnce fltPtpSyncLost 0x10))) ∧
  (∀ (s : State) (failures : Nat), s.hw.mode.phase = .up → s.hw.net.ptpLost = false → 3 ≤ failures →
      exec (.ptpSyncLost (.peerDelay failures)) s = .next (s.put ((({ s.hw with
        net := { s.hw.net with ptpLost := true }, time := { s.hw.time with synced := false, slew := 0 } } : Hw).count 0x0BC
      1).raiseOnce fltPtpSyncLost 0x10))) ∧
  (∀ (s : State) (interval elapsed : Nat), elapsed < 3 * interval → exec (.ptpSyncLost (.noSync interval elapsed)) s = .next s) ∧
  (∀ (h : Hw), h.mode.phase = .up → h.time.slew = 0 → h.time.clock + 1 < h.time.msAt + msTicks →
      h.tick.time.now = h.time.now + 1 ∧ h.tick.time.clock = h.time.clock + 1)

/-- A SNAPSHOT waits for its tick (R353), at which the bank is posted in its 147 records and the command completes with the
instant as its module time (R354); a subscription starts, posts at whole multiples of its interval, and ends (R356,
R357). -/
def Obligations.CountersAreRead : Prop :=
  (∀ (s : State) (d : Desc) (h : Hw), s.hw.RunsTo 0x0D03 d h → h.tlmRing (d.num 16 1) = true → d.num 20 4 ≠ 0xFFFFFFFF →
    d.num 24 8 = 0 → h.cnt.snap = none → h.time.stepWait = none →
      exec (.snapshot d) s = .next (s.put { h with
        cnt := { h.cnt with
          snap := some {
            ring := d.num 16 1, epoch := BitVec.ofNat 32 (d.num 20 4), at' := BitVec.ofNat 64 (usTick (h.time.now.toNat + 10
              * usTicks)), req := some d.req } } })) ∧
  (∀ (s : State) (x : Snap), s.hw.cnt.snap = some x → x.bank = none → x.at'.toNat ≤ s.hw.time.now.toNat → s.hw.time.synced
    = true →
      exec .snapshotInstant s = .next (s.put (({ s.hw with
        cnt := { s.hw.cnt with snap := some { x with bank := some (s.hw.cnt.vals, false) } } } : Hw).postSnap.settleSnap)))
      ∧
  (∀ (h : Hw) (x : Snap) (bank : Tab Nat) (off : Bool), h.cnt.snap = some x → x.bank = some (bank, off) → h.time.now.toNat
    < x.at'.toNat + 500 * usTicks →
      h.postSnap = h.postBank x off bank (min (147 - x.next) (h.tlmSpace x.ring))) ∧
  (∀ (h : Hw) (x : Snap) (bank : Tab Nat) (off : Bool), h.cnt.snap = some x → x.bank = some (bank, off) → x.at'.toNat +
    500 * usTicks ≤ h.time.now.toNat →
      h.postSnap = h.postBank x off bank (147 - x.next)) ∧
  (∀ (h : Hw) (x : Snap) (q : Req), h.cnt.snap = some x → x.bank.isSome = true → x.next = 147 → (h.ring x.ring).buffer.any
    Waiting.ofBank = false → x.req = some q →
      h.settleSnap = ({ h with cnt := { h.cnt with snap := none } } : Hw).completeAt q .done x.at') ∧
  (∀ (s : State) (d : Desc) (h : Hw), s.hw.RunsTo 0x0D01 d h → d.num 16 1 ≤ 63 → h.tlmRing (d.num 17 1) = true →
    subSourceOk (d.num 18 1) (d.num 20 2) = true → 100 ≤ d.num 24 4 → d.num 24 4 ≤ 10000000 → rateOk (d.num 24 4 ::
    (h.cnt.subs.filter (fun p => p.1 != d.num 16 1)).map (fun p => p.2.interval)) = true →
      ∃ x : Hw, exec (.tlmSubscribe d) s = .next (s.put { x with
        cnt := { x.cnt with
          subs := x.cnt.subs.set (d.num 16 1) {
            ring := d.num 17 1, kind := d.num 18 1, source := d.num 20 2, interval := d.num 24 4, session := d.session.toNat,
              req := some d.req, last := none, lastVals := [] } } }) ∧ x = h.endSub (d.num 16 1) .superseded) ∧
  (∀ (s : State) (d : Desc) (h : Hw), s.hw.RunsTo 0x0D02 d h → d.num 16 1 ≤ 63 →
      exec (.tlmUnsubscribe d) s = .next (s.put ((h.endSub (d.num 16 1) .aborted).complete d.req .done))) ∧
  (∀ (s : State) (n : Fin 64) (x : Sub), s.hw.cnt.subs.find n.val = some x → s.hw.time.now.toNat % (x.interval * usTicks)
    = 0 → (s.hw.subRecord x).1 = none →
      exec (.tlmPosting n) s = .next (s.put (({ s.hw with
        cnt := { s.hw.cnt with
          subs := s.hw.cnt.subs.set n.val { (s.hw.subRecord x).2 with req := none } } } : Hw).completeOpt x.req .done)))

/-- FAULT_ACK acknowledges the entries it names, each with a record (R360, R440); FAULT_CLEAR in WORKSHOP clears latched
faults and lifts what they inhibit (R360); FAULT_HISTORY_READ writes the 8192 bytes of the history (R362). -/
def Obligations.FaultsAreAnswered : Prop :=
  (∀ (s : State) (d : Desc) (h : Hw), s.hw.RunsTo 0x0D04 d h → h.flt.hist.any (ackMatches (BitVec.ofNat 16 (d.num 16 2))
    (d.byte 18)) = true → BitVec.ofNat 16 (d.num 16 2) ≠ 0xFFFF →
      exec (.faultAck d) s = .next (s.put ((h.changeFaults (fun e => ackMatches (BitVec.ofNat 16 (d.num 16 2)) (d.byte 18) e
      && !e.acked) (fun e => { e with acked := true }) 3 false).splitEnd.complete d.req .done))) ∧
  (∀ (s : State) (d : Desc) (h : Hw), s.hw.RunsTo 0x0D05 d h → h.mode.mode = .workshop → (h.flt.hist ++
    h.flt.extra).filter (clearable (BitVec.ofNat 16 (d.num 16 2)) (d.byte 18)) ≠ [] →
      ∃ g : Hw, g = h.changeFaults (clearable (BitVec.ofNat 16 (d.num 16 2)) (d.byte 18)) (fun e =>
      { e with active := false, cleared := true }) 4 true ∧ exec (.faultClear d) s = .next (s.put ((((h.flt.hist ++
      h.flt.extra).filter (clearable (BitVec.ofNat 16 (d.num 16 2)) (d.byte 18))).foldl Hw.uninhibit
      { g with flt := { g.flt with extra := g.flt.extra.filter (·.active) } }).complete d.req .done))) ∧
  (∀ (s : State) (d : Desc) (h : Hw), s.hw.RunsTo 0x0D06 d h → d.num 16 8 % 8 = 0 →
      exec (.faultHistoryRead d) s = .next (s.put ((h.emit (.dma (BitVec.ofNat 64 (d.num 16 8)) h.flt.bytes)).completeAt
      d.req .done (BitVec.ofNat 64 (usTick h.time.now.toNat))))) ∧
  (∀ (h : Hw), h.flt.bytes.length = 8192)

/-- A TORQUE_SET or SPEED_SET past its own checks renews its bridge's setpoint and reaches it (R116): with the bridge running
it waits for the next control boundary and supersedes what waited, in a safe pattern or in SYNC it is stored and completes
DONE (R11), during a granted transition or a shift of its bridge it is held (R37); one that fails a check completes with
that status (R116, R118). A TORQUE_PAIR waits for the CONTROL_AB boundary or is held (R120). A table that passes its checks
waits for a control boundary (R123). SETPOINT_TIMEOUT takes the setpoint to zero torque with TRQ_SETPOINT_STALE (R117). -/
def Obligations.SetpointsAreTaken : Prop :=
  (∀ (s : State) (d : Desc) (h k : Hw) (b : Bridge), s.hw.RunsTo 0x0501 d h → h.setpointCheck false d = .inr b → k =
    (h.noteFallback d).renew b → k.mode.granted = none → k.shiftHolds b = false → (k.ctl b).state.safe = false → (k.ctl
    b).state ≠ .sync →
      exec (.torqueSet d) s = .next (s.put (((k.modCtl b (fun c =>
      { c with pending := some { sp := torqueSp d, req := some d.req } })).completeOpt ((k.ctl b).pending.bind (·.req))
      .superseded).endPair .superseded))) ∧
  (∀ (s : State) (d : Desc) (h k : Hw) (b : Bridge), s.hw.RunsTo 0x0501 d h → h.setpointCheck false d = .inr b → k =
    (h.noteFallback d).renew b → k.mode.granted = none → k.shiftHolds b = false → ((k.ctl b).state.safe = true ∨ (k.ctl
    b).state = .sync) →
      exec (.torqueSet d) s = .next (s.put ((k.modCtl b (fun c =>
      { c with stored := some { sp := torqueSp d, req := none } })).complete d.req .done))) ∧
  (∀ (s : State) (d : Desc) (h k : Hw) (b : Bridge), s.hw.RunsTo 0x0501 d h → h.setpointCheck false d = .inr b → k =
    (h.noteFallback d).renew b → (k.mode.granted.isSome = true ∨ k.shiftHolds b = true) →
      exec (.torqueSet d) s = .next (s.put (((k.modCtl b (fun c =>
      { c with held := some { sp := torqueSp d, req := some d.req } })).completeOpt ((k.ctl b).held.bind (·.req))
      .superseded).endHeldPair .superseded))) ∧
  (∀ (s : State) (d : Desc) (h : Hw) (st : Status), s.hw.RunsTo 0x0501 d h → h.setpointCheck false d = .inl st →
      exec (.torqueSet d) s = .next (s.put (h.complete d.req st))) ∧
  (∀ (s : State) (d : Desc) (h k : Hw) (b : Bridge), s.hw.RunsTo 0x0502 d h → h.setpointCheck true d = .inr b → k =
    (h.noteFallback d).renew b → k.mode.granted = none → k.shiftHolds b = false → (k.ctl b).state.safe = false → (k.ctl
    b).state ≠ .sync →
      exec (.speedSet d) s = .next (s.put (((k.modCtl b (fun c =>
      { c with pending := some { sp := speedSp d, req := some d.req } })).completeOpt ((k.ctl b).pending.bind (·.req))
      .superseded).endPair .superseded))) ∧
  (∀ (s : State) (d : Desc) (h k : Hw) (b : Bridge), s.hw.RunsTo 0x0502 d h → h.setpointCheck true d = .inr b → k =
    (h.noteFallback d).renew b → k.mode.granted = none → k.shiftHolds b = false → ((k.ctl b).state.safe = true ∨ (k.ctl
    b).state = .sync) →
      exec (.speedSet d) s = .next (s.put ((k.modCtl b (fun c =>
      { c with stored := some { sp := speedSp d, req := none } })).complete d.req .done))) ∧
  (∀ (s : State) (d : Desc) (h k : Hw) (b : Bridge), s.hw.RunsTo 0x0502 d h → h.setpointCheck true d = .inr b → k =
    (h.noteFallback d).renew b → (k.mode.granted.isSome = true ∨ k.shiftHolds b = true) →
      exec (.speedSet d) s = .next (s.put (((k.modCtl b (fun c =>
      { c with held := some { sp := speedSp d, req := some d.req } })).completeOpt ((k.ctl b).held.bind (·.req))
      .superseded).endHeldPair .superseded))) ∧
  (∀ (s : State) (d : Desc) (h : Hw) (st : Status), s.hw.RunsTo 0x0502 d h → h.setpointCheck true d = .inl st →
      exec (.speedSet d) s = .next (s.put (h.complete d.req st))) ∧
  (∀ (s : State) (d : Desc) (h k x : Hw), s.hw.RunsTo 0x0503 d h → h.pairCheck d = none → k = (h.renew .brA).renew .brB →
    k.mode.granted = none → k.shiftHolds .brA = false → k.shiftHolds .brB = false → x = k.endPair .superseded →
      exec (.torquePair d) s = .next (s.put (({ x with
        sh := { x.sh with pair := some ((pairSp d).1, (pairSp d).2, some d.req) } } : Hw).fixAB 0))) ∧
  (∀ (s : State) (d : Desc) (h k x : Hw), s.hw.RunsTo 0x0503 d h → h.pairCheck d = none → k = (h.renew .brA).renew .brB →
    (k.mode.granted.isSome = true ∨ k.shiftHolds .brA = true ∨ k.shiftHolds .brB = true) → x = ((k.endHeldPair
    .superseded).supersedeHeld .brA).supersedeHeld .brB →
      exec (.torquePair d) s = .next (s.put { x with
        sh := { x.sh with held := some ((pairSp d).1, (pairSp d).2, some d.req) } })) ∧
  (∀ (s : State) (d : Desc) (h : Hw) (b : Bridge) (t : MotorTable), s.hw.RunsTo 0x0504 d h → h.mapCheck d false = .inr (b,
    t) →
      exec (.motorMapLoad d) s = .next (s.put (h.modCtl b (fun c => c.stageMap t d.req)))) ∧
  (∀ (s : State) (d : Desc) (h : Hw) (st : Status), s.hw.RunsTo 0x0504 d h → h.mapCheck d false = .inl st →
      exec (.motorMapLoad d) s = .next (s.put ((h.mapReject d st).complete d.req st))) ∧
  (∀ (s : State) (b : Bridge) (sp : Setpoint), (s.hw.ctl b).target = some sp → (s.hw.ctl b).state.inService = true → (s.hw.ctl
    b).stale = false → (s.hw.ctl b).renewedAt + s.hw.parTicks 0x051E ≤ s.hw.time.clock →
      exec (.setpointTimeout b) s = .next (s.put ((s.hw.modCtl b (fun c =>
      { c.retarget (zeroSp sp) with stored := none, stale := true })).raiseOnce fltTrqSetpointStale (BitVec.ofNat 8
      b.code)))) ∧
  (∀ (s : State) (b : Bridge), (s.hw.ctl b).renewedAt + s.hw.parTicks 0x051E > s.hw.time.clock →
      exec (.setpointTimeout b) s = .next s)

/-- A bridge that may start enters SYNC (R138), which goes on when what it measures agrees (R139); an active short circuit
re-acquires on its observer (R145); the safety controller's comparison acts on the third excess (R146); every control
boundary leaves its status record (R147), and every period start its instant (R152). -/
def Obligations.BridgesStartAndAreWatched : Prop :=
  (∀ (s : State) (b : Bridge), exec (.syncStart b) s = .next (s.put (if s.hw.maySync b then s.hw.modCtl b (fun c =>
      { c with state := .sync, ordered := false, syncReady := s.hw.sensorStart b, syncAsc := c.state.asc, syncStep := 0,
               syncEmf := none, reacqAt := none, agreeAt := none, reentry := c.reentry || (s.hw.fus b).noSource }) else s.hw))) ∧
  (∀ (s : State) (b : Bridge) (a : W32) (n e : Int), (s.hw.ctl b).state = .sync → (s.hw.ctl b).syncReady = false →
    s.hw.syncAgrees b a n = true → (s.hw.fus b).noSource = false →
      exec (.syncMeasureDone b a n e) s = .next (s.put (s.hw.modCtl b (fun c =>
      { c with syncReady := true, syncEmf := if (s.hw.ctl b).syncAsc then none else some (1000 * e) })))) ∧
  (∀ (s : State) (b : Bridge) (a : W32) (n e : Int), (s.hw.ctl b).state = .sync → (s.hw.ctl b).syncReady = false →
    s.hw.syncAgrees b a n = false →
      exec (.syncMeasureDone b a n e) s = .next (s.put (s.hw.occurThen fltTrqSyncMismatch fltTrqSyncMismatch.cls (BitVec.ofNat
      8 b.code) (fun x => (x.modCtl b (fun c => { c with ordered := true })).refreshSafe b)))) ∧
  (∀ (s : State) (b : Bridge) (p : Nat), (s.hw.ctl b).reacqAt.isSome = true → (s.hw.ctl b).state.asc = true →
    s.hw.twoPeriods b = some p → heldFor (s.hw.ctl b).agreeAt p s.hw.time.clock = true →
      exec (.reacquireLock b) s = .next (s.put ((((s.hw.onObserver b).modFus b (fun f =>
      { f with angle := s.hw.vectorAngle b, speed := (s.hw.ctl b).vecSpeed })).modCtl b (fun c =>
      { c with reacqAt := none, agreeAt := none, reentry := true, speed := c.vecSpeed })).syncStart b))) ∧
  (∀ (s : State) (b : Bridge), heldFor (s.hw.ctl b).reacqAt (s.hw.parTicks 0x052E) s.hw.time.clock = true →
      exec (.trqReacquireFail b) s = .next (s.put ((s.hw.modCtl b (fun c => { c with reacqAt := none, agreeAt := none })).occur
      fltTrqReacquireFail (BitVec.ofNat 8 b.code)))) ∧
  (∀ (s : State) (b : Bridge), (s.hw.ctl b).state.inService = true →
    unintended (s.hw.ctl b).est (((s.hw.lagTo b).ctl b).expected / 65536) (s.hw.torqueTolerance b) = false →
      exec (.torquePlausibility b) s = .next (s.put ((s.hw.lagTo b).modCtl b (fun c => { c with implausible := 0 })))) ∧
  (∀ (s : State) (b : Bridge), (s.hw.ctl b).state.inService = true → (s.hw.ctl b).implausible = 2 →
    unintended (s.hw.ctl b).est (((s.hw.lagTo b).ctl b).expected / 65536) (s.hw.torqueTolerance b) = true →
      exec (.torquePlausibility b) s = .next (s.put (((s.hw.lagTo b).modCtl b (fun c => { c with implausible := 0 })).occurThen
      fltTrqUnintended (s.hw.bridgeClass b) (BitVec.ofNat 8 b.code) (fun x => x.faultSafe b false)))) ∧
  (∀ (s : State) (b : Bridge), (s.hw.ctl b).state.safe = true →
      exec (.torquePlausibility b) s = .next (s.put (s.hw.modCtl b (fun c =>
      { c with expected := 0, expectedAt := s.hw.time.clock, implausible := 0 }))))
      ∧
  (∀ (s : State) (b : Bridge) (m : BoundaryInput), s.hw.mode.phase = .up →
      ∃ t r, exec (.controlBoundary b m) s = .next t ∧ t.pending = s.pending ∧ (t.hw.ctl b).status = some r ∧ r.time =
      t.hw.time.now ∧ r.applied = (t.hw.ctl b).applied ∧ r.est = (t.hw.ctl b).est ∧ r.speed = (t.hw.ctl b).speed ∧ r.limits
      = (t.hw.ctl b).limits ∧ r.state = (t.hw.ctl b).state) ∧
  (∀ (s : State) (b : Bridge) (e : List EdgeMeas), s.hw.mode.phase = .up → s.hw.powered (5 + b.code) = true →
      ∃ t, exec (.pwmPeriodStart b e) s = .next t ∧ t.pending = s.pending ∧ (t.hw.ctl b).periodStart = s.hw.time.now)

/-- Cross-commands of every kind of leg (R157), desaturation (R165), the gate rails (R161), die temperatures (R166), the bootstraps
(R169, R170), the ASC_ARM write that fails to come (R175) and the comparator copies (R168). -/
def Obligations.DriversReport : Prop :=
  (∀ (s : State) (leg : Fin 64) (b : Bridge), leg.val < 6 → b = (if leg.val < 3 then .brA else .brB) →
    (xcmdTimes (s.hw.gate b).xcmdAt s.hw.time.clock).length < 3 →
      exec (.legCrossCommand leg) s = .next (s.put (((s.hw.modGate b (fun g =>
      { g with forced := g.forced.set (leg.val % 3) (s.hw.time.clock + s.hw.halfLeftOn b.code), legXcmd := true,
               xcmdAt := xcmdTimes (s.hw.gate b).xcmdAt s.hw.time.clock })).count (0x05C + leg.val) 1).occur fltModLegXcmd
      (BitVec.ofNat 8 leg.val)))) ∧
  (∀ (s : State) (p : Fin 12) (h : Hw), (s.hw.gate (posBridge p.val)).desat.get (p.val % 6) 0 = 0 →
    h = (((s.hw.modGate (posBridge p.val) (fun g =>
      { g with suspect := g.suspect ||| posBit (if p.val % 2 = 0 then p.val + 1 else p.val - 1),
               desat := g.desat.set (p.val % 6) 1,
               soft := g.soft.set (p.val % 6) (s.hw.parI 0x060C, s.hw.time.clock + s.hw.par 0x060D * 2 / 5) })).count
      (0x050 + p.val) 1).checkInhibit (posBridge p.val)) →
      exec (.desatReport p) s = .next (s.put (h.occurThen fltGateDesat (h.bridgeClass (posBridge p.val)) (BitVec.ofNat 8 p.val)
      (fun y => y.faultSafe (posBridge p.val) false)))) ∧
  (∀ (s : State) (p : Fin 12) (neg : Bool) (mv : Int) (h : Hw),
    h = s.hw.modGate (posBridge p.val) (fun g => g.seeUvlo (posBit p.val) neg mv) →
    (h.gate (posBridge p.val)).uvlo &&& posBit p.val = 0 →
      exec (.gateUvloReport p neg mv) s = .next (s.put ((h.clearFault fltGateUvlo.code (BitVec.ofNat 8 p.val)).refreshSafe
      (posBridge p.val)))) ∧
  (∀ (s : State) (p : Fin 12) (neg : Bool) (mv : Int) (h : Hw),
    h = (s.hw.modGate (posBridge p.val) (fun g => g.seeUvlo (posBit p.val) neg mv)).faultSafe (posBridge p.val) false →
    ((s.hw.modGate (posBridge p.val) (fun g => g.seeUvlo (posBit p.val) neg mv)).gate (posBridge p.val)).uvlo &&& posBit p.val ≠ 0 →
    h.faultActive fltGateUvlo.code (BitVec.ofNat 8 p.val) = false →
      exec (.gateUvloReport p neg mv) s = .next (s.put (h.raiseAs fltGateUvlo (h.bridgeClass (posBridge p.val))
      (BitVec.ofNat 8 p.val) 0 true))) ∧
  (∀ was mv, (railLow false was mv = true ↔ mv < 15000 ∨ (was = true ∧ mv < 16000)) ∧
    (railLow true was mv = true ↔ -2500 < mv ∨ (was = true ∧ -3000 < mv))) ∧
  (∀ (s : State) (p : Fin 12) (mv : Int), 20000 < mv →
      exec (.gateRailOvReport p false mv) s = .next (s.put ((s.hw.modGate (posBridge p.val) (fun g =>
      { g with ovPos := g.ovPos ||| posBit p.val })).raiseOnce fltGateRailOv (BitVec.ofNat 8 p.val)))) ∧
  (∀ (s : State) (p : Fin 12) (mv : Int), mv < -6000 →
      exec (.gateRailOvReport p true mv) s = .next (s.put ((s.hw.modGate (posBridge p.val) (fun g =>
      { g with ovNeg := g.ovNeg ||| posBit p.val })).raiseOnce fltGateRailOv (BitVec.ofNat 8 p.val)))) ∧
  (∀ (s : State) (p : Fin 12) (t0 t1 t2 t3 t4 t5 t6 t7 : Int),
      ∃ t, exec (.dieTempReport p (some t0) (some t1) (some t2) (some t3) (some t4) (some t5) (some t6) (some t7)) s = .next t ∧
        t.pending = s.pending ∧ ∀ d : Fin 8, (t.hw.gate (posBridge p.val)).dies.get (8 * (p.val % 6) + d.val) none =
          some ([t0, t1, t2, t3, t4, t5, t6, t7].getD d.val 0)) ∧
  (∀ (s : State) (leg : Fin 64) (mv : Int), isConvLeg leg.val = true → mv ≤ 10500 → (s.hw.lv.boot.get leg.val {}).low = false →
    16 ≤ (s.hw.lv.boot.get leg.val {}).since →
      exec (.bootLowReport leg mv) s = .next (s.put ((({ s.hw with lv := { s.hw.lv with
        boot := s.hw.lv.boot.set leg.val { low := true, since := 0, refreshAt := some s.hw.time.clock } } } : Hw).count 0x09D 1).occur fltBootLow
      (BitVec.ofNat 8 leg.val)))) ∧
  (∀ (s : State) (leg : Fin 64) (mv : Int), isConvLeg leg.val = true → mv ≤ 8500 →
      exec (.bootUvloReport leg mv) s = .next (s.put ((s.hw.raiseOnce fltBootUvlo (BitVec.ofNat 8 leg.val)).lockConv leg.val true))) ∧
  (∀ (s : State) (leg : Fin 64) (mv : Int), isConvLeg leg.val = true → 9500 < mv →
      exec (.bootUvloReport leg mv) s = .next (s.put ((s.hw.clearFault fltBootUvlo.code (BitVec.ofNat 8 leg.val)).lockConv
      leg.val false))) ∧
  (∀ (s : State) (b : Bridge), (s.hw.gate b).ascArmAt + msTicks ≤ s.hw.time.clock →
      exec (.ascArmTimeout b) s = .next (s.put ((s.hw.modGate b (fun g => { g with ascArm := true })).refreshSafe b))) ∧
  (∀ (s : State) (p : Fin 12) (neg : Bool), s.hw.faultActive fltComparatorFail.code (BitVec.ofNat 8 p.val) = false →
      exec (.uvloComparator p neg false) s = .next (s.put ((s.hw.modGate (posBridge p.val) (fun g =>
      { g with compFail := (BitVec.ofNat 8 p.val, if neg then 2 else 1) ::
                 g.compFail.filter (· != (BitVec.ofNat 8 p.val, if neg then 2 else 1)) })).raiseAs fltComparatorFail
      fltComparatorFail.cls (BitVec.ofNat 8 p.val) (if neg then 2 else 1) true))) ∧
  (∀ (s : State) (leg : Fin 64), isConvLeg leg.val = true → (xcmdTimes s.hw.lv.xcmdAt s.hw.time.clock).length < 3 →
      exec (.legCrossCommand leg) s = .next (s.put ((({ s.hw with lv := { s.hw.lv with
        xcmdAt := xcmdTimes s.hw.lv.xcmdAt s.hw.time.clock,
        forced := s.hw.lv.forced.set leg.val (s.hw.time.clock + s.hw.halfLeftOn 2) } } : Hw).count 0x062 1).occur fltModLegXcmd
      (BitVec.ofNat 8 leg.val)))) ∧
  (∀ (s : State) (leg : Fin 64) (i : Nat), isActLeg leg.val = true → i = (leg.val - 0x20) / 3 →
    (xcmdTimes (s.hw.act.xcmdAt.get i []) s.hw.time.clock).length < 3 →
      exec (.legCrossCommand leg) s = .next (s.put ((({ s.hw with act := { s.hw.act with
        xcmdAt := s.hw.act.xcmdAt.set i (xcmdTimes (s.hw.act.xcmdAt.get i []) s.hw.time.clock),
        forced := s.hw.act.forced.set leg.val (s.hw.time.clock + s.hw.halfLeftOn (3 + i)) } } : Hw).count 0x063 1).occur
      fltModLegXcmd (BitVec.ofNat 8 leg.val))))

/-- An ACT_MOVE past its checks starts its drive (R248), a GEAR_SHIFT its sequence (R251). A position confirmed in the
target's window ends the motion DONE (R238); PARK leaves its confirmation with its window (R250), stops on a tooth
(R249), and is inhibited by speed (R249). -/
def Obligations.ActuatorsMove : Prop :=
  (∀ (s : State) (d : Desc) (h : Hw), s.hw.RunsTo 0x0901 d h → actFieldsOk d = true → h.actDenied (d.num 16 1) (d.num 17
    1) = false → d.num 16 1 = 0 → (h.act.drive 0).busy = false → h.act.gear.step = .none → h.vsBad = false → (h.act.drive
    0).hallBad = false → (h.act.drive 0).at (d.num 17 1) = false →
      exec (.actMove d) s = .next (s.put ((h.startWaiting .actu).startDrive 0 (d.num 17 1) (h.driveLimit 0 (d.num 20 4))
      (some d.req)))) ∧
  (∀ (s : State) (d : Desc) (h : Hw) (us : Nat), s.hw.RunsTo 0x0902 d h → d.num 16 1 ≠ 0 → d.num 16 1 ≤ 4 →
    h.act.gear.step = .none → h.shiftAllowed (d.num 16 1) = some us → h.act.shift.busy = false → h.act.disc.busy = false →
    h.vsBad = false → h.act.shift.hallBad = false → h.act.disc.hallBad = false →
      exec (.gearShift d) s = .next (s.put (h.shiftBegin (d.num 16 1) us d.req))) ∧
  (∀ (s : State) (x code : Nat) (h : Hw), s.hw.posBad 0 = false → x ≤ 65535 → h = s.hw.seePosition 0 x →
    h.act.shift.place = some code → h.act.shift.placeAt + 20 * msTicks ≤ s.hw.time.clock → h.act.shift.busy = true →
      exec (.actPositionConfirmed 0 x) s = .next (s.put (((((h.modDrive 0 (fun d =>
      { d with confirmed := true, code := code })).endDrive 0 .hold .done).countMotion 0 code).shiftConfirmed 0)))) ∧
  (∀ (s : State), s.hw.act.parkOn = true →
    s.hw.posBad 1 = true ∨ (s.hw.act.park.place = none ∧ s.hw.act.park.placeAt + 20 * msTicks ≤ s.hw.time.clock) →
      exec .parkConfirmLost s = .next (s.put ((s.hw.modDrive 1 (fun d => { d with confirmed := false })).parkLost))) ∧
  (∀ (s : State) (i : Fin 3), s.hw.stalled i.val = true → s.hw.atTarget i.val = true →
      exec (.actLocked i) s = .next (s.put ((s.hw.count 0x077 1).confirmAt i.val (s.hw.act.drive i.val).code))) ∧
  (∀ (s : State), s.hw.act.park.state = .tooth → s.hw.act.park.toothAt + 2 * sTicks ≤ s.hw.time.clock →
      exec .parkToothTimeout s = .next (s.put (s.hw.occurThen fltActLocked fltActLocked.cls 1 (fun x => x.endDrive 1 .off
      .hwFault)))) ∧
  (∀ (s : State), s.hw.act.park.busy = true → s.hw.act.park.code = 1 → s.hw.act.park.confirmed = false → s.hw.slowEnough =
    false →
      ∃ x : Hw, exec .parkSpeedCheck s = .next (s.put ((x.count 0x074 1).occur fltParkInhibited 0xFF)) ∧ x =
      ((({ s.hw with act := { s.hw.act with parkEnable := false } } : Hw).endDrive 1 .hold .aborted).startDrive 1 0
      s.hw.act.park.limit none).modDrive 1 (fun d =>
      { d with state := if d.state == .moving then .returning else d.state })) ∧
  (∀ (s : State), s.hw.act.gear.step = .ramp → exec .shiftTimeout s = .next s) ∧
  (∀ (s : State), s.hw.act.gear.step = .sync → s.hw.act.gear.reverting = false → s.hw.act.gear.at' +
    (s.hw.act.gear.syncTime + s.hw.par 0x091D) * usTicks ≤ s.hw.time.clock →
      exec .shiftTimeout s = .next (s.put (s.hw.revertShift.occur fltActShiftAborted 0xFF))) ∧
  (∀ (s : State), s.hw.stalled 1 = true → s.hw.atTarget 1 = false → s.hw.act.park.code = 1 → s.hw.act.park.state = .moving →
      exec (.actLocked 1) s = .next (s.put ((s.hw.count 0x077 1).modDrive 1 (fun d =>
      { d with state := .tooth, toothAt := s.hw.time.clock }))))

/-- ACT_VS out of its range brakes every drive (R237); missed vectors (R241) and distrusted Halls (R242) brake a drive or
hand it to the observer; braking ends without commutation (R243); each period reconstructs the currents (R239) and lays its edges
with phase-shift insertion (R240). -/
def Obligations.DrivesAreSensed : Prop :=
  (∀ (s : State) (mv : Int) (h : Hw), mv < 9000 →
    h = (({ s.hw with act := { s.hw.act with vs := mv, vsLow := true, vsHigh := false } } : Hw).raiseOnce fltActVsLow
      0xFF).clearFault fltActVsHigh.code 0xFF →
      exec (.actVsOutOfRange mv) s = .next (s.put (((((((h.brakeDrive 0).brakeDrive 1).brakeDrive 2).rappelHold 0).rappelHold
      1).rappelHold 2).drawn))) ∧
  (∀ (s : State) (mv : Int) (h : Hw), 9000 ≤ mv → mv ≤ 58000 →
    h = (({ s.hw with act := { s.hw.act with vs := mv, vsLow := false, vsHigh := false } } : Hw).clearFault
      fltActVsLow.code 0xFF).clearFault fltActVsHigh.code 0xFF →
      exec (.actVsOutOfRange mv) s = .next (s.put ((((h.rappelHold 0).rappelHold 1).rappelHold 2).drawn))) ∧
  (∀ (s : State) (i : Fin 3), 4 ≤ (s.hw.act.drive i.val).missed →
      exec (.actSenseLost i) s = .next (s.put (s.hw.occurThen fltActSenseLost fltActSenseLost.cls (BitVec.ofNat 8 i.val)
      (fun x => (x.brakeDrive i.val).modDrive i.val (fun d => { d with missed := 0 }))))) ∧
  (∀ (s : State) (i : Fin 3) (k : Nat) (a b c : W32) (n : Int), s.hw.hallOf i.val = some k → 100000 < absI n →
    (s.hw.pos.halls.get k {}).angles.length = 3 →
    (∀ p ∈ (s.hw.pos.halls.get k {}).angles.zip [a, b, c], 357913941 < absI (p.1 - p.2).toInt) →
      exec (.actHallObserver i a b c n) s = .next (s.put (((s.hw.modDrive i.val (fun d =>
      { d with hallBad := true, hallOkAt := none })).raiseOnce fltActHallObserver (BitVec.ofNat 8 i.val)).modDrive i.val
      (fun d => { d with onObserver := d.busy })))) ∧
  (∀ (s : State) (i : Fin 3) (a b c : W32) (n : Int), absI n ≤ 100000 → exec (.actHallObserver i a b c n) s = .next s) ∧
  (∀ (s : State) (i : Fin 3), (s.hw.act.drive i.val).state = .braking → s.hw.turning i.val = false → (s.hw.act.drive
    i.val).failing = true →
      exec (.actRappelEnd i) s = .next (s.put (s.hw.endDrive i.val .hold .hwFault))) ∧
  (∀ (s : State) (i : Fin 3), (s.hw.act.drive i.val).state = .braking → s.hw.turning i.val = false → (s.hw.act.drive
    i.val).failing = false →
      exec (.actRappelEnd i) s = .next (s.put (s.hw.modDrive i.val (fun d =>
      { d with state := .moving, lowOn := false, startAt := s.hw.time.clock })))) ∧
  (∀ (s : State) (i : Fin 3) (x y : Int) (u v w : Nat) (o : W32), s.hw.mode.phase = .up → s.hw.powered 10 = true →
    (s.hw.rappelHold i.val).switching ((s.hw.rappelHold i.val).act.drive i.val) = true →
    (s.hw.act.drive i.val).vectors.map (fun a => a.code) = [4, 6] → u ≤ s.hw.actPeriodTicks i.val →
    v ≤ s.hw.actPeriodTicks i.val → w ≤ s.hw.actPeriodTicks i.val →
      ∃ t, exec (.actPwmPeriod i (some x) (some y) u v w o) s = .next t ∧ t.pending = s.pending ∧
        (t.hw.act.drive i.val).iU = x ∧ (t.hw.act.drive i.val).iW = -y ∧ (t.hw.act.drive i.val).iV = y - x ∧
        (t.hw.act.drive i.val).missed = 0 ∧
        (t.hw.act.drive i.val).edges = shiftedEdges (s.hw.actPeriodTicks i.val) [u, v, w]) ∧
  (∀ n u v w : Nat, (shiftedEdges n [u, v, w]).map (fun e => e.2 - e.1) = [(u : Int), v, w] ∧
    ∀ x ∈ activeVectors [u, v, w] (shiftedEdges n [u, v, w]), 480 ≤ x.first) ∧
  (∀ n u v w : Nat, v < u → w < v → (activeVectors [u, v, w] (shiftedEdges n [u, v, w])).map (fun x => x.first + x.second) =
    [(u : Int) - v, (v : Int) - w])

/-- ACC_SET takes effect at once where no window is open (R61); a window that closes leaves its record with the sum and the
count of its corrected codes (R62), which saturate (R58). An urgent request without a free pair is missed (R64), and a
pair is trimmed within its limits and loses its odd core beyond them (R67, R68). -/
def Obligations.AccumulatorsRun : Prop :=
  (∀ (s : State) (d : Desc) (h : Hw), s.hw.RunsTo 0x0301 d h → accOk d = true → h.mode.mode ≠ .baseCamp → (h.acc (d.num 16 1)).open' = false →
      exec (.accSet d) s = .next (s.put ((h.setAcc (d.num 16 1)
      { h.acc (d.num 16 1) with cfg := some (accConfig d), next := none, done := false, openAt := h.time.now, burst := false }).complete d.req .done))) ∧
  (∀ (s : State) (d : Desc) (h : Hw), s.hw.RunsTo 0x0301 d h → accOk d = true → h.mode.mode ≠ .baseCamp → (h.acc (d.num 16 1)).open' = true →
      exec (.accSet d) s = .next (s.put ((h.setAcc (d.num 16 1)
      { h.acc (d.num 16 1) with next := some (accConfig d) }).complete d.req .done))) ∧
  (∀ (s : State) (n : Fin 128) (l since inside : List Sample) (c : AccCfg) (w : Nat) (r : AccRecord),
    (s.hw.acc n.val).cfg = some c → (s.hw.acc n.val).open' = true → s.hw.senses = true →
    since = l.filter (fun x => ((s.hw.acc n.val).openAt.toNat : Int) ≤ c.delayed x && s.hw.accumulates c x) →
    s.hw.closesAt (s.hw.acc n.val) c since.length = some w →
    inside = (if c.closure ≤ 2 then since.filter (fun x => c.delayed x < (w : Int)) else since).take c.full →
    r = s.hw.accRecord n.val (s.hw.acc n.val) c inside (BitVec.ofNat 64 w) → r.count ≠ 0 → r.flags.getLsbD 1 = false →
      exec (.accWindowClose n l) s = .next (s.put ((s.hw.setAcc n.val ((s.hw.acc n.val).after r)).takeReading c.input
      r.reading))) ∧
  (∀ (h : Hw) (n : Nat) (a : Acc) (c : AccCfg) (l : List Sample) (w : W64), ∀ r, r = h.accRecord n a c l w →
      r.sum = (l.map (fun x => h.corrected c.input x.core.val x.code)).foldl (· + ·) 0 ∧ r.count = l.length ∧ r.close = w ∧
      r.aborts = a.aborts ∧ ((a.after r).last = some r ∧ (a.after r).openAt = w)) ∧
  (∀ (s : State) (i : Fin 96) (u : PairUse) (p0 p1 p2 p3 : PairUse) (p : Nat), 40 ≤ i.val → s.hw.senses = true →
    s.hw.urgentPair [p0, p1, p2, p3] = (p, u) → s.hw.par 0x0306 < s.hw.urgentWait p →
      exec (.urgentRequest i p0 p1 p2 p3) s = .next (s.put ((s.hw.count 0x081 1).occur fltSenseUrgentMiss 0xFF))) ∧
  (∀ (s : State) (i : Fin 96) (u : PairUse) (p0 p1 p2 p3 : PairUse) (p : Nat) (h : Hw), 40 ≤ i.val → s.hw.senses = true →
    s.hw.urgentPair [p0, p1, p2, p3] = (p, u) → s.hw.urgentWait p = 0 → s.hw.pairDown p false = false →
    h = (s.hw.abortConversion u).burstFor i.val →
      exec (.urgentRequest i p0 p1 p2 p3) s = .next (s.put { h with
        sen := { h.sen with raised := h.sen.raised &&& ~~~ (1#16 <<< p),
                            urgentBy := h.sen.urgentBy.set p (s.hw.time.clock + 100) } })) ∧
  (∀ (s : State) (p : Fin 16) (o g : Int), s.hw.senses = true → s.hw.sen.halfRate.getLsbD p.val = false →
    absI o ≤ 64 → absI g ≤ 500 →
      exec (.interleaveMatch p o g) s = .next (s.put { s.hw with
        sen := { s.hw.sen with
          trimOff := s.hw.sen.trimOff.set p.val o, trimGain := s.hw.sen.trimGain.set p.val g } })) ∧
  (∀ (s : State) (p : Fin 16) (o g : Int), s.hw.senses = true → s.hw.sen.halfRate.getLsbD p.val = false →
    64 < absI o ∨ 500 < absI g →
      exec (.interleaveMatch p o g) s = .next (s.put (({ s.hw with
        sen := { s.hw.sen with halfRate := s.hw.sen.halfRate ||| (1#16 <<< p.val) } } : Hw).raiseOnce (if p.val < 8 then
      fltSenseCoreFail else fltSenseCoreDegraded) (BitVec.ofNat 8 (2 * p.val + 1))))) ∧
  (∀ (h : Hw) (input core : Nat) (raw : Int), -32768 ≤ h.corrected input core raw ∧ h.corrected input core raw ≤ 32767)

/-- Offset runs start at their interval and end with differences that wait for the PWM boundary (R70); a gain correction
moves by at most 0.002 % (R71) and is held at its limit (R72); calibration takes its means, readings and time-out (R74);
two failed reference checks raise SENSE_REFERENCE (R82). -/
def Obligations.CorrectionsAreTracked : Prop :=
  (∀ (s : State) (b : Bridge), s.hw.tracks = true → s.hw.par 0x0302 ≠ 0 → s.hw.sen.offStartAt + s.hw.parTicks 0x0302 ≤
    s.hw.time.clock → s.hw.sen.offNext = b →
      exec (.offsetTrackStart b) s = .next (s.put { s.hw.offsetRun b with
        sen := { (s.hw.offsetRun b).sen with offStartAt := s.hw.time.clock, offNext := b.other } })) ∧
  (∀ (s : State) (b : Bridge) (u v w : List Int) (idc : List (Int × Bool)) (zero : List Int) (diff : Nat → List Int → Int) (h : Hw),
    s.hw.sen.offRun.getLsbD b.code = true → s.hw.tracks = true → s.hw.offsetWindows b = true →
    zero = (idc.filter (fun x => x.2 || (s.hw.ctl b.other).state == .openAll)).map (fun x => x.1) →
    256 ≤ u.length → 256 ≤ v.length → 256 ≤ w.length → 256 ≤ zero.length →
    (∀ ch l, diff ch l = offsetMean l - (syscalOf s.hw.syscalBody (if ch = 22 then 6 else ch)).2) →
    h = ({ s.hw with sen := { s.hw.sen with
      offsetNext := ((offsetChannels b).zip [u, v, w, zero]).foldl (fun t p => Tab.set t p.1 (diff p.1 p.2)) s.hw.sen.offsetNext,
      offRun := s.hw.sen.offRun &&& ~~~ (1#2 <<< b.code) } } : Hw).stepTest 0x0301 b.code 1 →
      exec (.offsetTrackDone b u v w idc) s = .next (s.put (if b = .brA ∧ (h.findTest 0x0301 1).any (fun t => t.inst == 0xFF)
      then h.offsetRun .brB else h))) ∧
  (∀ (s : State) (l : List GainWindow) (h : Hw), s.hw.par 0x0303 = 1 → s.hw.mode.mode = .drive → l.length = 10000 →
    s.hw.sen.fitAt + sTicks ≤ s.hw.time.clock →
    h = (List.range 6).foldl (fun x k => if s.hw.gainUsed l k then x.trackGain k (s.hw.gainAsked l k) else x) s.hw →
      exec (.gainTrackFit l) s = .next (s.put ((({ h with sen := { h.sen with
        fitAt := s.hw.time.clock,
        gainLast := l.getLast? } } : Hw).modFus .brA (fun f => { f with travel := 0 })).modFus .brB (fun f =>
      { f with travel := 0 })).drawn)) ∧
  (∀ (h : Hw) (leg : Nat) (fit : Int), h.sen.gainHeld.getLsbD leg = false → leg < 6 →
      ∃ x : Int, (h.trackGain leg fit).sen.gainNext.find leg = some x ∧ absI x ≤ h.par 0x0304) ∧
  (∀ (s : State) (means : List Int) (p g : Int) (c : Cal), s.hw.sen.cal = some c → c.waiting = false → c.point = 1 →
    heldFor c.linkAt calTicks s.hw.time.clock = true →
      exec (.calAccumulationDone means p g) s = .next (s.put ((s.hw.calTo { c with zero := means } 2).postEvent 0x0303
      s.hw.time.now ([BitVec.ofNat 8 c.bridge.code, 0, 0, 0] ++ (List.range 8).flatMap (fun k => leBytes 2 (ofInt 2
      (means.getD k 0))))))) ∧
  (∀ (s : State) (means : List Int) (p g : Int) (c : Cal), s.hw.sen.cal = some c → c.waiting = false → c.point ≠ 1 →
    s.hw.calDue c = true →
      exec (.calAccumulationDone means p g) s = .next (s.put (({ s.hw with sen := { s.hw.sen with
        cal := some { c with waiting := true, since := s.hw.time.clock, means := c.means ++ [(c.point, means)],
                             gated := c.gated ++ [(c.point, p, g)] } } } : Hw).calPoint c.bridge c.point))) ∧
  (∀ (s : State) (d : Desc) (h : Hw) (c : Cal), s.hw.RunsTo 0x0304 d h → h.mode.mode ≠ .baseCamp → h.sen.cal = some c →
    c.waiting = true → d.num 16 2 = c.point → c.point < 8 →
      exec (.calReference d) s = .next (s.put ((h.calTo { c with
        readings := c.readings ++ [(c.point, d.int 20 4)],
        waiting := false, since := h.time.clock, drive := 0 } (c.point + 1)).complete d.req .done))) ∧
  (∀ (s : State) (c : Cal), s.hw.sen.cal = some c → c.waiting = true → c.since + 600 * sTicks ≤ s.hw.time.clock →
      exec .calReferenceTimeout s = .next (s.put (({ s.hw with sen := { s.hw.sen with cal := none } } : Hw).endTest 0x0305
      (if c.both then 0xFF else c.bridge.code) .aborted))) ∧
  (∀ (s : State), s.hw.senses = true → s.hw.sen.refFailed = true →
      exec (.referenceCheck false) s = .next (s.put (({ s.hw with sen := { s.hw.sen with refFailed := true } } :
      Hw).raiseOnce fltSenseReference 0xFF))) ∧
  (∀ (s : State), s.hw.senses = true →
      exec (.referenceCheck true) s = .next (s.put (({ s.hw with sen := { s.hw.sen with refFailed := false } } :
      Hw).clearFault fltSenseReference.code 0xFF))) ∧
  (∀ (h : Hw) (leg : Nat) (fit : Int), h.sen.gainHeld.getLsbD leg = true → h.trackGain leg fit = h)

/-- MON_SET writes a monitor and clears its latch (R76), MON_CLEAR clears it (R79); a new crossing fires the monitor, which sets
its flag, latches the capture and acts on its routes (R78, R79); a comparator that fails its test is retired while a spare is left
and out of service after it (R80); WM0 arms again above its level (R44). -/
def Obligations.MonitorsWatch : Prop :=
  (∀ (s : State) (d : Desc) (h : Hw), s.hw.RunsTo 0x0302 d h → monOk d = true → h.mode.mode ≠ .baseCamp →
      exec (.monSet d) s = .next (s.put ((h.setMon (d.num 16 1) (monConfig d (h.mon (d.num 16 1)))).complete d.req
      .done))) ∧
  (∀ (s : State) (d : Desc) (h : Hw), s.hw.RunsTo 0x0303 d h → d.num 16 1 ≤ 51 → h.mode.mode ≠ .baseCamp →
      exec (.monClear d) s = .next (s.put ((h.setMon (d.num 16 1) { h.mon (d.num 16 1) with flag := false, irq := false }).complete d.req
      .done))) ∧
  (∀ (s : State) (n : Fin 52) (x : Int) (pwm : Nat), n.val < 48 → (s.hw.mon n.val).mode ≠ 0 → (s.hw.mon n.val).dead = false →
    s.hw.senses = true → (s.hw.mon n.val).crosses x (s.hw.mon n.val).present = true → (s.hw.mon n.val).flag = false →
      exec (.monitorCrossing n x pwm) s = .next (s.put ((s.hw.setMon n.val
      { s.hw.mon n.val with present := true }).fire n.val pwm))) ∧
  (∀ (s : State) (n : Fin 52) (x : Int) (pwm : Nat), n.val < 48 → (s.hw.mon n.val).mode ≠ 0 → (s.hw.mon n.val).dead = false →
    s.hw.senses = true → (s.hw.mon n.val).crosses x (s.hw.mon n.val).present = false →
      exec (.monitorCrossing n x pwm) s = .next (s.put (s.hw.setMon n.val { s.hw.mon n.val with present := false }))) ∧
  (∀ (h : Hw) (n pwm : Nat), (h.mon n).routes = 6 →
      h.fire n pwm = h.setMon n { h.mon n with flag := true, irq := true, capTime := h.time.now, capPwm := pwm }) ∧
  (∀ (h : Hw) (n pwm : Nat), (h.mon n).routes = 1 →
      h.fire n pwm = (h.setMon n { h.mon n with flag := true }).monSafe n (h.mon n).base) ∧
  (∀ (s : State) (n : Fin 52) (x : Int) (pwm : Nat), n.val = 48 → s.hw.wakeCrosses 48 x true = false →
      exec (.monitorCrossing n x pwm) s = .next (s.put { s.hw with mode := { s.hw.mode with wm0Armed := true } })) ∧
  (∀ (s : State) (n : Fin 52) (x : Bool), n.val < 48 → (s.hw.mon n.val).mode ≠ 0 → (s.hw.mon n.val).dead = false →
    s.hw.senses = true → 0 < s.hw.sen.spares.getD (monBlock n.val) 0 →
      exec (.monitorComparatorTest n x false) s = .next (s.put (({ s.hw with
        sen := { s.hw.sen with
          spares := s.hw.sen.spares.set (monBlock n.val) (s.hw.sen.spares.getD (monBlock n.val) 0 - 1) } } : Hw).setMon
      n.val { s.hw.mon n.val with retired := true }))) ∧
  (∀ (s : State) (n : Fin 52), n.val < 48 → exec (.monitorComparatorTest n true true) s = .next s) ∧
  (∀ (s : State) (n : Fin 52) (x : Bool), n.val < 48 → (s.hw.mon n.val).mode ≠ 0 → (s.hw.mon n.val).dead = false →
    s.hw.senses = true → s.hw.sen.spares.getD (monBlock n.val) 0 = 0 →
      exec (.monitorComparatorTest n false x) s = .next (s.put ((s.hw.setMon n.val
      { s.hw.mon n.val with retired := true, dead := true }).raiseAs fltSenseMonFail (if (s.hw.mon
      n.val).routes.getLsbD 0 then .belay else .warn) (BitVec.ofNat 8 n.val) 0 true)))

/-- A TEST_REQUEST that passes its checks is accepted with its deadline (R51, R438); a test ends with its outcome, or
DEFERRED at its deadline (R51); IDENT_MAGNET gathers its windows (R136); OFFSTATE_DIAG passes its bridge, or marks and
raises all it found (R167), and STO_PATH its channels (R265). -/
def Obligations.TestsRunAndEnd : Prop :=
  (∀ (s : State) (d : Desc) (h : Hw), s.hw.RunsTo 0x0202 d h → h.testCheck d = none →
      exec (.testRequest d) s = .next (s.put (h.testAccept d d.req))) ∧
  (∀ (s : State) (id : W16) (inst : Byte) (t : TestRun) (data : IdentData),
    s.hw.findTest id.toNat (testKey id.toNat inst.toNat) = some t → ownEnd.contains id.toNat = false →
    id.toNat ≠ 0x0606 → id.toNat ≠ 0x0703 →
      exec (.testComplete id inst .fail data) s = .next (s.put (((s.hw.endIdent (instBridge inst.toNat)).endTest id.toNat
      (testKey id.toNat inst.toNat) .hwFault).testFault id.toNat inst.toNat))) ∧
  (∀ (s : State) (inst : Byte) (t : TestRun) (data : IdentData), s.hw.findTest 0x0603 0 = some t → t.running = true →
    t.inst ≠ 0xFF →
      exec (.testComplete 0x0603 inst .pass data) s = .next (s.put (s.hw.endTest 0x0603 0 .done))) ∧
  (∀ (s : State) (inst : Byte) (t : TestRun) (p : Nat) (e : W32), s.hw.findTest 0x0603 0 = some t → t.running = false →
    t.inst ≠ 0xFF →
      exec (.gapWindow 0x0603 inst .pass p e) s = .next (s.put (s.hw.endTest 0x0603 0 .done))) ∧
  (∀ (s : State) (inst : Byte) (t : TestRun) (p : Nat) (e : W32) (b : Bridge), b = instBridge inst.toNat →
    s.hw.magnetWindow b = true → s.hw.findTest 0x0502 inst.toNat = some t → t.windows.length < 8 →
      exec (.gapWindow 0x0502 inst .pass p e) s = .next (s.put ((s.hw.modTest 0x0502 inst.toNat (fun x =>
      { x with windows := x.windows ++ [(s.hw.psiAtRef b p, e)] })).resumeGap b))) ∧
  (∀ (s : State) (inst : Byte) (t : TestRun), s.hw.tests.find? (fun t => t.id.toNat == 0x0602 && (t.inst.toNat == 0 ||
    t.covers 0x0602 0)) = some t → t.cls = 1 → t.inst ≠ 0xFF → t.deadline ≤ s.hw.time.clock →
      exec (.testDeadline 0x0602 inst) s = .next (s.put (s.hw.endTest 0x0602 0 .deferred))) ∧
  (∀ (s : State) (b : Bridge), s.hw.offstateDue b = true → (∀ x, (s.hw.modGate b (fun g =>
    { g with offRunning := false, offPassed := true })).findTest 0x0601 x = none) →
      exec (.offstateDiag b []) s = .next (s.put (s.hw.modGate b (fun g =>
      { g with offRunning := false, offPassed := true })))) ∧
  (∀ (s : State) (b : Bridge) (f : OffstateFinding) (fs : List OffstateFinding), s.hw.offstateDue b = true → (f :: fs).all
    (fun x => findingOn x b) = true →
      exec (.offstateDiag b (f :: fs)) s = .next (s.put (((f :: fs).foldl (fun x y => x.offstateFound b y) (s.hw.modGate b
      (fun g => { g with offRunning := false }))).endTest 0x0601 b.code .hwFault))) ∧
  (∀ (s : State) (t : TestRun) (l : List (Nat × Nat)), s.hw.findTest 0x0A02 0 = some t → t.count = 1 →
    s.hw.gateA.ascArm = false → s.hw.gateB.ascArm = false → seriesOpened l = true →
      exec (.stoPath true l) s = .next (s.put ((s.hw.endTest 0x0A02 0 .done).offstateBoth))) ∧
  (∀ (s : State) (t : TestRun) (l : List (Nat × Nat)), s.hw.findTest 0x0A02 0 = some t → t.count = 0 →
    s.hw.gateA.ascArm = false → s.hw.gateB.ascArm = false → seriesOpened l = true →
      exec (.stoPath false l) s = .next (s.put (s.hw.modTest 0x0A02 0 (fun x => { x with count := 1 })))) ∧
  (∀ (s : State) (t : TestRun) (b : Bool) (l : List (Nat × Nat)), s.hw.findTest 0x0A02 0 = some t → t.count = (if b then 1 else 0) →
    s.hw.gateA.ascArm = false → s.hw.gateB.ascArm = false → seriesOpened l = false →
      exec (.stoPath b l) s = .next (s.put (((s.hw.endTest 0x0A02 0 .hwFault).raiseOnce fltStoPathFail
      (if b then 1 else 0)).offstateBoth)))

/-- A resolver period with its bursts builds an angle (R89, R91); a table half is loaded and waits (R94); a legal edge
counts by one and an index makes the count 0 (R96, R97); a speed window closes (R99); a Hall state off the sequence is
invalid (R100); a SENT frame that passes its checks is accepted, and one that does not come makes its value invalid
(R102). -/
def Obligations.PositionsAreRead : Prop :=
  (∀ (s : State) (r : Fin 2) (x y : PeakSlots) (a b c d : Int) (h : Hw), s.hw.posRuns = true → (s.hw.res r.val).periods < 63 →
    h = (s.hw.slotPeak r.val 0 x).slotPeak r.val 1 y → h.slotSum (80 + 6 * r.val) x.sin = some a →
    h.slotSum (80 + 6 * r.val + 1) y.sin = some b → h.slotSum (80 + 6 * r.val + 2) x.cos = some c →
    h.slotSum (80 + 6 * r.val + 3) y.cos = some d →
      ∃ t, exec (.resolverPeriod r x y) s = .next t ∧ t.pending = s.pending ∧ (t.hw.res r.val).valid = true ∧
        (t.hw.res r.val).s = a - b ∧ (t.hw.res r.val).c = c - d ∧ (t.hw.res r.val).angle = Config.atan2 (a - b) (c - d) ∧
        (t.hw.res r.val).angleAt = angleInstant true true x.instant y.instant ∧
        (t.hw.res r.val).periods = (s.hw.res r.val).periods + 1) ∧
  (∀ (r : Resolver) (a b c d : Int) (p n : W64) (poles : Nat), ∀ x, x = r.build (some (a, c)) (some (b, d)) p n poles →
      x.valid = true ∧ x.angle = Config.atan2 (a - b) (c - d) ∧ x.angleAt = angleInstant true true p n ∧ x.missing = 0) ∧
  (∀ (s : State) (d : Desc) (h : Hw), s.hw.RunsTo 0x0401 d h → d.num 16 1 ≤ 1 → h.mode.mode ≠ .baseCamp →
      exec (.posIndexArm d) s = .next (s.put ((h.modEnc (d.num 16 1) (fun e => { e with armed := true })).complete d.req
      .done))) ∧
  (∀ (s : State) (d : Desc) (h : Hw), s.hw.RunsTo 0x0402 d h → h.harmCheck d false = none → h.mode.mode ≠ .baseCamp → (h.servedBy (0x10 + d.num 16
    1)).isSome = true →
      exec (.posHarmLoad d) s = .next (s.put (h.modRes (d.num 16 1) (fun r => { r.loadHalf (d.num 17 1 == 1)
          (d.payload.extractLsb' 32 256) with
        reqs := r.reqs ++ [d.req] })))) ∧
  (∀ (s : State) (n : Fin 2) (x y : Bool) (d : Int) (k : Nat), s.hw.posRuns = true → encStable (s.hw.par (0x0411 + n.val)) k = true →
    s.hw.par (0x0411 + n.val) % 4 ≠ 0 → quadStep
    (s.hw.enc n.val).a (s.hw.enc n.val).b x y = some d → d ≠ 0 →
      exec (.encEdge n x y k) s = .next (s.put ((s.hw.modEnc n.val (fun e => { e.move (if s.hw.par (0x0411 + n.val) / 8 % 2 =
          1 then -d else d) s.hw.time.now (s.hw.par (0x0411 + n.val) / 64 % 2 == 1) with
        a := x, b := y })).outEncoder n.val))) ∧
  (∀ (s : State) (n : Fin 2) (k : Nat), s.hw.posRuns = true → encStable (s.hw.par (0x0411 + n.val)) k = true →
    s.hw.par (0x0411 + n.val) % 4 ≠ 0 → s.hw.par (0x0411 + n.val) / 16 % 2
    = 1 → (s.hw.enc n.val).armed = true →
      exec (.encIndex n true true k) s = .next (s.put (((s.hw.modEnc n.val (fun e =>
      { e.zero with armed := false })).postEvent 0x0402 s.hw.time.now ([BitVec.ofNat 8 n.val, 0, 0, 0] ++ leBytes 4 (ofInt 4
      (s.hw.enc n.val).count))).outEncoder n.val))) ∧
  (∀ (s : State) (n : Fin 2), s.hw.posRuns = true → s.hw.par (0x0411 + n.val) % 4 ≠ 0 →
    400 * s.hw.par (0x0413 + n.val) ≤ (s.hw.time.now - (s.hw.enc n.val).windowAt).toNat →
      exec (.encSpeedWindow n) s = .next (s.put (s.hw.modEnc n.val (fun x => x.close (max (s.hw.par (0x040F + n.val)) 1)
      (s.hw.par (0x0413 + n.val)) s.hw.time.now)))) ∧
  (∀ (s : State) (k : Fin 3) (st : Fin 8) (n : Nat), s.hw.posRuns = true → 32 * (s.hw.par (0x0415 + k.val) % 256) ≤ n →
    st.val = 0 ∨ st.val = 7 →
      exec (.hallChange k st n) s = .next (s.put ((({ s.hw with
        pos := { s.hw.pos with
          halls := s.hw.pos.halls.set k.val { s.hw.pos.halls.get k.val {} with invalid := true } } } : Hw).raiseOnce
      fltHallInvalid (BitVec.ofNat 8 (0x30 + k.val))).hallsLost (s.hw.par (0x0415 + k.val) / 512 % 4)))) ∧
  (∀ (s : State) (k : Fin 3) (st : Fin 8) (n old new : Nat), s.hw.posRuns = true → 32 * (s.hw.par (0x0415 + k.val) % 256) ≤ n →
    hallPlace st.val = some new → hallPlace (s.hw.pos.halls.get k.val {}).st = some old → (new + 6 - old) % 6 = 1 →
      exec (.hallChange k st n) s = .next (s.put ((({ s.hw with
        pos := { s.hw.pos with
          halls := s.hw.pos.halls.set k.val { s.hw.pos.halls.get k.val {} with invalid := false } } } : Hw).clearFault
      fltHallInvalid.code (BitVec.ofNat 8 (0x30 + k.val))).commute k.val st.val (s.hw.par (0x0415 + k.val) / 256 % 2 != 1)))) ∧
  (∀ (s : State) (ch : Fin 4) (sync : Nat) (l n : List Nat) (crc : Nat) (p : Option Nat), s.hw.posRuns = true → 2688 ≤ sync →
    sync ≤ 4480 → sentOk (s.hw.par (0x0418 + ch.val)) sync (s.hw.pos.sent.get ch.val {}).sync l n crc p.isSome = false →
      exec (.sentFrame ch sync l n crc p) s = .next (s.put ((({ s.hw with
        pos := { s.hw.pos with
          sent := s.hw.pos.sent.set ch.val { s.hw.pos.sent.get ch.val {} with sync := some sync, serial := [] } } } : Hw).count
      (0x089 + ch.val) 1).occur fltSentFrameError (BitVec.ofNat 8 (0x40 + ch.val))))) ∧
  (∀ (s : State) (ch : Fin 4) (sync : Nat) (l n : List Nat) (crc : Nat) (p : Option Nat) (cfg : Nat) (y : SentCh),
    s.hw.posRuns = true → 2688 ≤ sync → sync ≤ 4480 → cfg = s.hw.par (0x0418 + ch.val) →
    sentOk cfg sync (s.hw.pos.sent.get ch.val {}).sync l n crc p.isSome = true →
    y = { s.hw.pos.sent.get ch.val {} with
      sync := some sync, status := n.headD 0, value := nibbleValue (n.drop 1), valid := true, acceptedAt := s.hw.time.clock
      at' := s.hw.time.now - BitVec.ofNat 64 (sentTicks cfg sync l (p.getD 0)) } →
      exec (.sentFrame ch sync l n crc p) s = .next (s.put ((({ s.hw with pos := { s.hw.pos with
        sent := s.hw.pos.sent.set ch.val (y.takeStatus cfg (n.headD 0)) } } : Hw).clearFault fltSentTimeout.code
      (BitVec.ofNat 8 (0x40 + ch.val))).sentPosition ch.val (nibbleValue (n.drop 1)) (cfg / 1024 % 8)))) ∧
  (∀ (s : State) (ch : Fin 4), s.hw.posRuns = true → (s.hw.pos.sent.get ch.val {}).acceptedAt + s.hw.parTicks (0x041C +
    ch.val) ≤ s.hw.time.clock →
      exec (.sentTimeout ch) s = .next (s.put ((s.hw.drivesOf ch.val).foldl (fun x i => x.posInvalid i) (({ s.hw with
        pos := { s.hw.pos with
          sent := s.hw.pos.sent.set ch.val { s.hw.pos.sent.get ch.val {} with valid := false } } } : Hw).raiseOnce
      fltSentTimeout (BitVec.ofNat 8 (0x40 + ch.val))))))

/-- SAFETY_CHECK_READ posts the whole set and completes DONE; SAFETY_CONFIRM in WORKSHOP with the check value of the pending
set confirms it (target 0) or begins to program it (target 1); a differing value completes RANGE and is counted (R270,
R442). -/
def Obligations.SafetySetIsConfirmed : Prop :=
  (∀ (s : State) (d : Desc) (h : Hw), s.hw.RunsTo 0x0A01 d h →
      ∃ x : Hw, exec (.safetyCheckRead d) s = .next (s.put (x.complete d.req .done)) ∧ h.Quiet x) ∧
  (∀ (s : State) (d : Desc) (h : Hw), s.hw.RunsTo 0x0A02 d h → h.mode.mode = .workshop → d.num 16 1 = 0 → (checkValue
    (h.saf.pending.getD h.activeSet)).toNat = d.num 20 4 →
      exec (.safetyConfirm d) s = .next (s.put (({ h with saf := { h.saf with confirmed := true } } : Hw).complete d.req
      .done))) ∧
  (∀ (s : State) (d : Desc) (h : Hw), s.hw.RunsTo 0x0A02 d h → h.mode.mode = .workshop → d.num 16 1 = 1 → (checkValue
    (h.saf.pending.getD h.activeSet)).toNat = d.num 20 4 →
      exec (.safetyConfirm d) s = .next (s.put (h.safetyProgram (h.saf.pending.getD h.activeSet) d.req))) ∧
  (∀ (s : State) (d : Desc) (h : Hw), s.hw.RunsTo 0x0A02 d h → h.mode.mode = .workshop → d.num 16 1 ≤ 1 → (checkValue
    (h.saf.pending.getD h.activeSet)).toNat ≠ d.num 20 4 →
      exec (.safetyConfirm d) s = .next (s.put ((h.confirmMismatch (d.num 16 1)).complete d.req .range)))

/-- What the protection of the module does as each of its watches speaks: the lock-step checkers (R13) and their injected
differences (R261), the vote (R260), the memories (R14), clocks (R29) and the sensing supply (R21), the safety outputs
(R267) and the window watchdog (R268). -/
def Obligations.ProtectionActs : Prop :=
  (∀ (s : State) (b : Bridge), s.hw.awake = true →
      exec (.checkerMismatch b) s = .next (s.put (s.hw.occurThen fltTileCheckerMismatch (s.hw.bridgeClass b) (BitVec.ofNat 8
      b.code) (fun x => x.faultSafe b true)))) ∧
  (∀ (s : State) (b : Bridge) (f n : Nat) (l : List Nat), s.hw.awake = true → l ≠ [f] ∨ 10 < n →
      exec (.checkerInject b f l n) s = .next (s.put ((s.hw.raiseOnce fltCheckerInjectFail (BitVec.ofNat 8 b.code)).endTest
      0x0A01 0 .hwFault))) ∧
  (∀ (s : State) (b : Bridge) (f n : Nat), s.hw.awake = true → n ≤ 10 →
      exec (.checkerInject b f [f] n) s = .next (s.put (s.hw.endTest 0x0A01 0 .done))) ∧
  (∀ (s : State) (o : MemOwner), s.hw.awake = true →
      exec (.memoryError o true) s = .next (s.put (s.hw.count (memCounter o) 1))) ∧
  (∀ (s : State) (b : Bridge), s.hw.awake = true →
      exec (.memoryError (.tile b) false) s = .next (s.put (s.hw.faultSafe b false))) ∧
  (∀ (s : State), s.hw.awake = true → s.hw.saf.noMajority = false →
      exec (.negoacMismatch .noMajority) s = .next (s.put
      (((({ s.hw with saf := { s.hw.saf with noMajority := true, seriesOpen := true } } : Hw).orderBoth.boostAbort
      fltNegoacNoMajority.code).raiseOnce fltNegoacNoMajority 0xFF)))) ∧
  (∀ (s : State) (c : Fin 3), s.hw.awake = true → s.hw.saf.noMajority = false → s.hw.saf.coresOut ||| s.hw.splitCore = 0 →
    (List.range 3).any (fun k => k != c.val && (s.hw.saf.resync.get k []).any (fun t => s.hw.time.clock < t + 40 * usTicks))
    = false → s.hw.saf.resync.get c.val [] = [] →
      exec (.negoacMismatch (.one c)) s = .next (s.put ((({ s.hw with
        saf := { s.hw.saf with resync := s.hw.saf.resync.set c.val [s.hw.time.clock] } } : Hw).count 0x092 1).occur
      fltNegoacResync (BitVec.ofNat 8 c.val)))) ∧
  (∀ (s : State), s.hw.saf.noMajority = true → s.hw.pwr.senseLost = false → s.hw.pwr.clocksLost = [] →
      exec .negoacRestart s = .next (s.put
      (((({ s.hw with saf := { s.hw.saf with noMajority := false, seriesOpen := false } } : Hw).clearFault
      fltNegoacNoMajority.code 0xFF).safeRestart).refreshBoth))) ∧
  (∀ (s : State),
      exec (.voterTest [true, true, true, true, true, true, true, true]) s = .next (s.put (s.hw.endTest 0x0A04 0 .done))) ∧
  (∀ (s : State) (l : List Bool), false ∈ l →
      exec (.voterTest l) s = .next (s.put (s.hw.endTest 0x0A04 0 .hwFault))) ∧
  (∀ (s : State) (c : ClockLoss), s.hw.awake = true →
      exec (.clockLoss c true) s = .next (s.put ((({ s.hw with
        pwr := { s.hw.pwr with clocksLost := c :: s.hw.pwr.clocksLost.filter (fun x => x != c) }, saf :=
          { s.hw.saf with seriesOpen := true } } : Hw).orderBoth.boostAbort fltClockLoss.code).raiseOnce fltClockLoss
      0xFF))) ∧
  (∀ (s : State) (c : ClockLoss), s.hw.awake = true → s.hw.pwr.clocksLost.contains c = true → s.hw.pwr.clocksLost.filter
    (fun x => x != c) = [] → s.hw.pwr.senseLost = false → s.hw.saf.noMajority = false →
      exec (.clockLoss c false) s = .next (s.put (({ s.hw with
        pwr := { s.hw.pwr with clocksLost := [] }, saf := { s.hw.saf with seriesOpen := false } } : Hw).clearFault
      fltClockLoss.code 0xFF))) ∧
  (∀ (s : State), s.hw.awake = true →
      exec .ck0Fallback s = .next (s.put (({ s.hw with time := { s.hw.time with ck0Rc := true } } : Hw).raiseOnce
      fltCk0Fallback 0xFF))) ∧
  (∀ (s : State), s.hw.awake = true →
      exec (.senseSupplyLost true) s = .next (s.put ((({ s.hw with
        pwr := { s.hw.pwr with senseLost := true }, saf := { s.hw.saf with seriesOpen := true } } :
      Hw).orderBoth.stopConversion.stopActuators).raiseOnce fltSenseSupplyLost 0xFF))) ∧
  (∀ (s : State), s.hw.awake = true → s.hw.pwr.senseLost = true →
      ∃ x : Hw, x = { s.hw with pwr := { s.hw.pwr with senseLost := false } } ∧ exec (.senseSupplyLost false) s = .next
      (s.put (({ x with saf := { x.saf with seriesOpen := x.seriesHeld } } : Hw).clearFault fltSenseSupplyLost.code 0xFF)))
      ∧
  (∀ (s : State) (second : Bool) (before during : Int), s.hw.mode.phase = .up → (if second then s.hw.saf.so2 else s.hw.saf.so1) = false →
    before ≤ 2000 → 200 ≤ during → during ≤ 5000 →
      exec (.soTest second (.off before during)) s = .next (s.put ((s.hw.clearFault fltSoOpenLoad.code
      (if second then 2 else 1)).endTest 0x0A03 0 .done))) ∧
  (∀ (s : State) (second : Bool) (before during : Int), s.hw.mode.phase = .up → (if second then s.hw.saf.so2 else s.hw.saf.so1) = false →
    2000 < before → s.hw.faultActive fltSoShort.code (if second then 2 else 1) = false →
      exec (.soTest second (.off before during)) s = .next (s.put ((s.hw.raiseAs fltSoShort fltSoShort.cls
      (if second then 2 else 1) 0 true).endTest 0x0A03 0 .hwFault))) ∧
  (∀ (s : State), s.hw.mode.phase = .up → s.hw.saf.so1 = true → s.hw.saf.so1Low = false →
      exec (.soTest false (.gap false)) s = .next (s.put ((({ s.hw with saf := { s.hw.saf with so1Low := true } } : Hw).raiseOnce
      fltSoSwitchFail 16).endTest 0x0A03 0 .hwFault))) ∧
  (∀ (s : State) (n : Nat), s.hw.awake = true → n < 500 * usTicks ∨ 1500 * usTicks < n →
      exec (.faultOutWatchdogExpiry n) s = .next (s.put { s.hw with saf := { s.hw.saf with wdExpired := true } })) ∧
  (∀ (s : State) (n : Nat), 500 * usTicks ≤ n → n ≤ 1500 * usTicks → exec (.faultOutWatchdogExpiry n) s = .next s)

/-- An STO channel that opens in service is counted, orders both bridges safe, ends DC boost and leads to ARREST (R174,
R263, R278); closing both within the discrepancy time lifts the block (R263); one that stays closed too long is
STO_DISCREPANCY (R263). -/
def Obligations.SafeTorqueOffActs : Prop :=
  (∀ (s : State) (mv : Int) (n : Nat), s.hw.pwr.stoA = true → s.hw.mode.phase = .up → mv < 3000 → s.hw.stoActs false n = true →
      exec (.stoOpen false mv n) s = .next (s.put ((((((((({ s.hw with pwr := { s.hw.pwr with
        stoPulse := s.hw.pwr.stoPulse.set 0 s.hw.time.clock } } : Hw).setSto false false).stoNote false)).count 0x068
      1).orderBoth).boostAbort fltStoOpen.code).occur fltStoOpen 0).enterArrest fltStoOpen.code 0))) ∧
  (∀ (s : State) (mv : Int) (n : Nat), s.hw.pwr.stoB = true → s.hw.mode.phase = .up → mv < 3000 → s.hw.stoActs true n = true →
      exec (.stoOpen true mv n) s = .next (s.put ((((((((({ s.hw with pwr := { s.hw.pwr with
        stoPulse := s.hw.pwr.stoPulse.set 1 s.hw.time.clock } } : Hw).setSto true false).stoNote true)).count 0x068
      1).orderBoth).boostAbort fltStoOpen.code).occur fltStoOpen 1).enterArrest fltStoOpen.code 1))) ∧
  (∀ (s : State) (chB : Bool) (mv ua : Int), (if chB then s.hw.pwr.stoB else s.hw.pwr.stoA) = false → 7000 ≤ mv → mv ≤ 36000 →
    2000 ≤ ua → ua ≤ 4000 →
      exec (.stoClose chB mv ua) s = .next (s.put (s.hw.stoCloses chB))) ∧
  (∀ (s : State) (c t : Nat), s.hw.saf.stoWatch = some (c, t) → s.hw.mode.phase = .up → t + s.hw.parTicks 0x0A01 ≤
    s.hw.time.clock →
      exec .stoDiscrepancy s = .next (s.put (({ s.hw with
        saf := { s.hw.saf with stoWatch := none, stoBlock := true, bothOpenSeen := false } } : Hw).occur fltStoDiscrepancy
      (BitVec.ofNat 8 (1 - c))))) ∧
  (∀ (h : Hw) (chB : Bool), (if chB then h.pwr.stoA else h.pwr.stoB) = true → h.saf.bothOpenSeen = true →
    apart (h.setSto chB true).pwr.stoAAt (h.setSto chB true).pwr.stoBAt ≤ h.parTicks 0x0A01 →
      h.stoCloses chB = ({ h.setSto chB true with
        saf := { h.saf with stoBlock := false, bothOpenSeen := false } } : Hw).refreshBoth)

/-- DISCHARGE in the modes of R279 is kept until the DC link is safe; it starts with both bridges in OPEN, is held where the
link does not fall (R280), retried, fails without current, and ends at 60 V. The HVIL loop acts by HVIL_REACTION (R282). -/
def Obligations.DischargeRuns : Prop :=
  (∀ (s : State) (d : Desc) (h : Hw), s.hw.RunsTo 0x0A03 d h → h.mode.mode = .ready →
      exec (.discharge d) s = .next (s.put
      (({ h with saf := { h.saf with dischargeReqs := h.saf.dischargeReqs ++ [d.req] } } : Hw).dischargeLook))) ∧
  (∀ (s : State), s.hw.dischargeWanted = true → s.hw.saf.dischargeOn = false → s.hw.saf.retryAt = none → s.hw.mode.phase =
    .up → s.hw.hvSafe = false → s.hw.chg.active = false → s.hw.lv.active = false → s.hw.lv.state ≠ .waiting → s.hw.bothOpen = true → s.hw.anyActive
    [fltDischargeFail.code] = false →
      exec .dischargeStart s = .next (s.put { s.hw with
        saf := { s.hw.saf with
          dischargeOn := true, dischargeAt := s.hw.time.clock, dischargeFrom := s.hw.pwr.vdc } })) ∧
  (∀ (s : State) (v : Int), s.hw.saf.dischargeOn = true → s.hw.saf.dischargeAt + 200 * msTicks ≤ s.hw.time.clock → 9 *
    s.hw.saf.dischargeFrom ≤ 10 * v →
      exec (.dischargeHeld v) s = .next (s.put ((((({ s.hw with
        saf := { s.hw.saf with
          dischargeOn := false, retryAt := some (s.hw.time.clock + 10 * sTicks) } } : Hw).addEnergy 0x02B (v * v * 400 /
      3).toNat).raiseOnce fltDischargeHeld 0xFF).setVdc v)))) ∧
  (∀ (s : State) (t : Nat), s.hw.saf.retryAt = some t → t ≤ s.hw.time.clock →
      exec .dischargeRetry s = .next (s.put ({ s.hw with saf := { s.hw.saf with retryAt := none } } : Hw).dischargeLook)) ∧
  (∀ (s : State) (ma : Int), s.hw.saf.dischargeOn = true → s.hw.saf.dischargeAt + 5 * msTicks ≤ s.hw.time.clock → ma ≤ 0 →
      exec (.dischargeFail ma) s = .next (s.put (({ s.hw with saf := { s.hw.saf with dischargeOn := false } } : Hw).raiseOnce
      fltDischargeFail 0xFF))) ∧
  (∀ (s : State) (v : Int), s.hw.mode.phase = .up → s.hw.pwr.onP11 = false → s.hw.saf.dischargeOn = true → v ≤ 60000 →
      exec (.dischargeDone v) s = .next (s.put ((s.hw.dischargeEnergy v).setVdc v).dischargeEnd)) ∧
  (∀ (s : State) (ua : Int) (n : Nat), s.hw.mode.phase = .up → 10 * msTicks ≤ n → hvilState (s.hw.par 0x0A0A) ua = 0 →
      exec (.hvilLoopChange ua n) s = .next (s.put ((({ s.hw with saf := { s.hw.saf with hvil := 0, hvilCurrent := ua } } :
      Hw).clearFault fltHvilOpen.code 0xFF).clearFault fltHvilShort.code 0xFF))) ∧
  (∀ (s : State) (ua : Int) (n : Nat), s.hw.mode.phase = .up → 10 * msTicks ≤ n → hvilState (s.hw.par 0x0A0A) ua = 2 →
      exec (.hvilLoopChange ua n) s = .next (s.put ((({ s.hw with saf := { s.hw.saf with hvil := 2, hvilCurrent := ua } } :
      Hw).clearFault fltHvilOpen.code 0xFF).raiseOnce fltHvilShort 0xFF))) ∧
  (∀ (s : State) (ua : Int) (n : Nat), s.hw.mode.phase = .up → 10 * msTicks ≤ n → hvilState (s.hw.par 0x0A0A) ua = 1 →
      exec (.hvilLoopChange ua n) s = .next (s.put (({ s.hw with saf := { s.hw.saf with hvil := 1, hvilCurrent := ua } } :
      Hw).clearFault fltHvilShort.code 0xFF).hvilOpen))

/-- The debugger attaches with a fresh challenge (R283), reads the IDCODE alone while it has not answered, and may halt,
step and write in the modes of R283 once it has; detaching ends it all (R284). -/
def Obligations.DebuggerIsServed : Prop :=
  (∀ (s : State), s.hw.awake = true → s.hw.saf.dbgAttached = false → s.hw.roped = false →
      exec .debugAttach s = .next (s.put ({ s.hw with
        saf := { s.hw.saf with dbgAttached := true, dbgAuth := false, dbgHalted := false } } : Hw).newChallenge)) ∧
  (∀ (s : State) (ok : Bool), s.hw.saf.dbgAttached = true → (s.hw.otp.active.find 6).isSome = true →
      exec (.debugAuthenticate ok) s = .next (s.put ((({ s.hw with saf := { s.hw.saf with dbgAuth := ok } } :
      Hw).newChallenge).emit (.debug ok 0)))) ∧
  (∀ (s : State) (a : DebugAddr), s.hw.saf.dbgAttached = true → s.hw.saf.dbgAuth = false →
      exec (.debugRead a) s = .next (s.put (s.hw.emit (.debug true Config.idcode)))) ∧
  (∀ (s : State) (a : DebugAddr) (x : W32), s.hw.saf.dbgAttached = true → s.hw.saf.dbgAuth = true → s.hw.saf.dbgMem.find
    a.toNat = some x →
      exec (.debugRead a) s = .next (s.put (s.hw.emit (.debug true x)))) ∧
  (∀ (s : State), s.hw.debugMay = true →
      exec .debugHalt s = .next (s.put (((({ s.hw with saf := { s.hw.saf with dbgHalted := true } } : Hw).orderBoth).occur
      fltDebugAttached 0xFF).emit (.debug true 0)))) ∧
  (∀ (s : State), s.hw.debugMay = true → s.hw.saf.dbgHalted = true →
      exec .debugStep s = .next (s.put ((s.hw.occur fltDebugAttached 0xFF).emit (.debug true 0)))) ∧
  (∀ (s : State) (a : DebugAddr) (v : W32), s.hw.debugMay = true →
      exec (.debugWrite a v) s = .next (s.put
      ((({ s.hw with saf := { s.hw.saf with dbgMem := s.hw.saf.dbgMem.set a.toNat v } } : Hw).occur fltDebugAttached
      0xFF).emit (.debug true 0)))) ∧
  (∀ (s : State), s.hw.saf.dbgAttached = true → s.hw.saf.dbgHalted = false →
      exec .debugDetach s = .next (s.put ((({ s.hw with
        saf := { s.hw.saf with dbgAttached := false, dbgAuth := false, dbgHalted := false } } : Hw).clearFault
      fltDebugSplit.code 0xFF).splitEnd)))

/-- In READY a CHARGE_SETUP that is in range stages the setup, confirms it and ends a suspension by a battery fault (R204);
CHARGE_PROFILE in range writes the phase for its next entry (R206) and out of range completes RANGE; SET_LIMITS within
the function's rating governs at once and 0xFFFFFFFF keeps a value (R207); CHG_BATT_STATUS keeps a value only where its
VALID bit is set (R208). -/
def Obligations.ChargingIsSetUp : Prop :=
  (∀ (s : State) (d : Desc) (h : Hw) (f : ChgFn), s.hw.RunsTo 0x0801 d h → h.mode.mode = .ready → (h.roped &&
    !h.pair.holder) = false → ChgFn.ofCode (d.num 16 1) = some f → 0 ≤ d.int 20 4 → h.chg.state ≠ .suspended →
      exec (.chargeSetup d) s = .next (s.put ((((({ h with
        chg := { h.chg with
          setup := some (setupOf f d), confirmed := true, fresh := true, outage := false, missing := false, shorted := false
            } } : Hw).clearFault fltChgBattMissing.code 0xFF).clearFault fltChgBattShorted.code 0xFF).complete d.req
      .done).chgSettle))) ∧
  (∀ (s : State) (d : Desc) (h : Hw), s.hw.RunsTo 0x0802 d h → h.mode.mode ≠ .baseCamp → d.num 16 1 ≤ 1 → 1 ≤ d.num 17 1 →
    d.num 17 1 ≤ 5 → profOk h.otp.ident.is48 (d.num 16 1) (d.num 17 1) (d.int 20 4) (d.int 24 4) (d.num 28 4) = true →
      exec (.chargeProfile d) s = .next (s.put (({ h with
        chg := { h.chg with
          prof := h.chg.prof.set (8 * d.num 16 1 + d.num 17 1)
            { volts := d.int 20 4, amps := d.int 24 4, timer := d.num 28 4 } } } : Hw).complete d.req .done))) ∧
  (∀ (s : State) (d : Desc) (h : Hw), s.hw.RunsTo 0x0802 d h → (1 < d.num 16 1 ∨ d.num 17 1 = 0 ∨ 5 < d.num 17 1 ∨ profOk
    h.otp.ident.is48 (d.num 16 1) (d.num 17 1) (d.int 20 4) (d.int 24 4) (d.num 28 4) = false) →
      exec (.chargeProfile d) s = .next (s.put (h.complete d.req .range))) ∧
  (∀ (s : State) (d : Desc) (h : Hw), s.hw.RunsTo 0x0803 (d.withByte16 4) h → h.mode.mode ≠ .baseCamp → h.chgFn = .ac → 0
    ≤ d.int 20 4 → d.int 20 4 ≤ (h.rating .ac).1 → d.num 20 4 ≠ 0xFFFFFFFF → d.num 24 4 = 0xFFFFFFFF → d.int 28 4 = 0 →
      exec (.chargeControlSetLimits d) s = .next (s.put ((({ h with chg := { h.chg with limCur := some (d.int 20 4) } } :
      Hw).complete d.req .done).chgSettle))) ∧
  (∀ (s : State) (d : Desc) (h : Hw), s.hw.RunsTo 0x0804 d h → d.num 16 1 = 0 →
      exec (.chgBattStatus d) s = .next (s.put (({ h with
        chg := { h.chg with
          battHv := some {
            volts := if (d.byte 17).getLsbD 0 then some (d.int 20 4) else none, amps := if (d.byte 17).getLsbD 1 then some
              (d.int 24 4) else none, temp := if (d.byte 17).getLsbD 2 then some (d.int 18 2) else none, at' := h.time.clock
              } } } : Hw).complete d.req .done)))

/-- In CHARGE an armed AC session with the BMS's permit enters FLOW on START and, after a PAUSE, on RESUME; a STOP drains a
running session and is DONE at once where nothing runs; a PAUSE in FLOW waits for zero current; INLET_MATCH starts the
matching of R220, and RESTART_PHASE runs the expired phase once again (R230). -/
def Obligations.ChargingIsCommanded : Prop :=
  (∀ (s : State) (d : Desc) (h : Hw), s.hw.RunsTo 0x0803 (d.withByte16 1) h → h.mode.mode = .charge → h.chg.state = .armed
    → h.chgPermit = true → h.chg.draining = false → h.chgFn = .ac →
      exec (.chargeControlStart d) s = .next (s.put (h.startFlow (some d.req) 0))) ∧
  (∀ (s : State) (d : Desc) (h : Hw), s.hw.RunsTo 0x0803 (d.withByte16 3) h → h.mode.mode = .charge → h.chg.state = .armed
    → h.chg.paused = true → h.chgPermit = true → h.chg.draining = false → h.chgFn = .ac →
      exec (.chargeControlResume d) s = .next (s.put (h.startFlow (some d.req) 0))) ∧
  (∀ (s : State) (d : Desc) (h : Hw), s.hw.RunsTo 0x0803 (d.withByte16 0) h → h.mode.mode = .charge → h.chg.active = true
    →
      exec (.chargeControlStop d) s = .next (s.put (({ h with chg := { h.chg with stopReqs := h.chg.stopReqs ++ [d.req] } }
      : Hw).drainCharge))) ∧
  (∀ (s : State) (d : Desc) (h : Hw), s.hw.RunsTo 0x0803 (d.withByte16 0) h → h.mode.mode = .charge → h.chg.active = false
    →
      exec (.chargeControlStop d) s = .next (s.put (h.complete d.req .done))) ∧
  (∀ (s : State) (d : Desc) (h : Hw), s.hw.RunsTo 0x0803 (d.withByte16 2) h → h.mode.mode = .charge → h.chg.state = .flow
    → h.chg.pauseReq = none → h.chg.draining = false → h.chg.current ≠ 0 → h.chgFn ≠ .topup →
      exec (.chargeControlPause d) s = .next (s.put { h with chg := { h.chg with pauseReq := some d.req } })) ∧
  (∀ (s : State) (d : Desc) (h : Hw), s.hw.RunsTo 0x0803 (d.withByte16 5) h → h.mode.mode = .charge → h.chgFn = .boost →
    h.chg.state = .armed → h.chg.dcb = .off → h.boostConditions = true → 200000 ≤ d.int 28 4 → d.int 28 4 ≤ 500000 →
      exec (.chargeControlInletMatch d) s = .next (s.put (({ h with
        chg := { h.chg with
          station := d.int 28 4, dcb := .matching, spA := true, spB := true, matchReq := some d.req, dcbAt := h.time.clock }
          } : Hw).fixAB 0))) ∧
  (∀ (s : State) (d : Desc) (h x : Hw) (p : ChgPhase), s.hw.RunsTo 0x0803 (d.withByte16 6) h → h.chg.left = some p →
    h.mode.mode ≠ .baseCamp → h.chg.state = .suspended → h.chg.suspendedBy = fltChgTimer.code → (h.chg.expired.filter (fun k
    => k == 8 * p.target + p.phase)).length < 2 → x = (h.clearFault fltChgTimer.code 0xFF).complete d.req .done →
      exec (.chargeControlRestartPhase d) s = .next (s.put ({ x with
        chg := { x.chg with left := some { p with equiv := 0, restarted := true } } } : Hw).chgUnsuspend))

/-- A resistance gives the PP class of PP_MODE (R209), and a new PLUG class ends a plug cycle; the pilot's plateau gives its
state and its duty what it offers (R210, R211), and an invalid PWM raises CHG_PILOT_INVALID; the hand-over ends after 20
ms (R231) in PLUG_WAIT with the outage kept (R232), and charging goes on once the source has been back for the hold-off. -/
def Obligations.PlugAndPilotMoveTheCharge : Prop :=
  (∀ (s : State) (ohms a n : Nat), s.hw.mode.phase = .up → 10 * msTicks ≤ n → s.hw.chg.pp.plugged = false → s.hw.ppClass ohms = .plug a →
      exec (.ppClassChange ohms n) s = .next (s.put ({ s.hw.busyNow with chg := { s.hw.chg with pp := .plug a } } : Hw).plugBack)) ∧
  (∀ (s : State) (ohms n : Nat), s.hw.mode.phase = .up → 10 * msTicks ≤ n → s.hw.chg.pp.plugged = true → (s.hw.ppClass ohms).plugged = false →
      exec (.ppClassChange ohms n) s = .next (s.put ({ s.hw.busyNow with chg := { s.hw.chg with pp := s.hw.ppClass ohms } } :
      Hw).plugLeft)) ∧
  (∀ (h : Hw) (ohms : Nat), h.unset 0x0801 = false → h.par 0x0801 = 0 →
      h.ppClass ohms = (if 4500 < ohms then .noPlug else if 1100 ≤ ohms ∧ ohms ≤ 2000 then .plug 13000 else if 400 ≤ ohms ∧
      ohms ≤ 936 then .plug 20000 else if 164 ≤ ohms ∧ ohms ≤ 300 then .plug 32000 else if 75 ≤ ohms ∧ ohms ≤ 136 then .plug
      63000 else .invalid)) ∧
  (∀ (s : State) (pos neg : Int) (f duty n : Nat) (st : CpState) (a : Int) (dig : Bool), s.hw.mode.phase = .up → 30 * sTicks ≤ n * f →
    pilotState pos = some st → pwmOk neg f = true → dutyOffer duty = some (a, dig) →
      exec (.cpStateChange pos neg (some f) duty n) s = .next (s.put ((({ s.hw with
        chg := { s.hw.chg with cp := st, pwm := true, offer := a, digital := dig } } : Hw).clearFault
      fltChgPilotInvalid.code 0xFF).cpActs s.hw.chg.cp))) ∧
  (∀ (s : State) (pos neg : Int) (f duty n : Nat) (st : CpState), s.hw.mode.phase = .up → 30 * sTicks ≤ n * f →
    10 * msTicks ≤ n → pilotState pos = some st → pwmOk neg f = false →
      exec (.cpStateChange pos neg (some f) duty n) s = .next (s.put ((({ s.hw with
        chg := { s.hw.chg with cp := st, pwm := true, offer := 0, digital := false } } : Hw).raiseOnce fltChgPilotInvalid
      0xFF).cpActs s.hw.chg.cp))) ∧
  (∀ (s : State) (x : Hw), s.hw.chg.state = .handOver → s.hw.chg.handAt + 20 * msTicks ≤ s.hw.time.clock →
    s.hw.chg.handUnplugged = false → x = (s.hw.chgEndPhase 3).chgGo .plugWait 1 0 →
      exec .handOverEnd s = .next (s.put { x with
        chg := { x.chg with outage := true, mainsAt := none, handAt := s.hw.time.clock } })) ∧
  (∀ (s : State), s.hw.chg.state = .handOver → s.hw.time.clock < s.hw.chg.handAt + 20 * msTicks →
      exec .handOverEnd s = .next s) ∧
  (∀ (s : State) (t : Nat), s.hw.chg.mainsAt = some t → s.hw.chgFn = .ac → s.hw.chg.state = .plugWait → s.hw.chg.outage =
    true → max t s.hw.chg.handAt + s.hw.parTicks 0x0807 ≤ s.hw.time.clock → s.hw.chgLive = true → s.hw.chg.confirmed = true
    → s.hw.chgPermit = true → s.hw.armable = true →
      exec .outageHoldoffExpiry s = .next (s.put (s.hw.startFlow none 0)))

/-- The sixth good half-cycle of an AC session sets V_ref as the root of the mean square (R214), and half-cycles outside the
input range start the measurement again; the residual, PE, grid, island and temperature limits act as R216 to R219 say,
and ten seconds without a source end the start (R207). -/
def Obligations.MainsAreMeasured : Prop :=
  (∀ (s : State) (v1 v2 v3 a : Int) (f : Nat) (v : List Int) (sum : List Nat), s.hw.mode.phase = .up → s.hw.chgFn = .ac →
    s.hw.chg.state = .flow → s.hw.chg.vref = [] → s.hw.chg.draining = false → s.hw.chg.pauseReq = none →
    v = s.hw.usedPhases [v1, v2, v3] → v.all s.hw.inputOk = true → s.hw.chg.refCycles = 5 →
    sum = (v.zip s.hw.chg.refSum).map (fun p => (p.1 * p.1).toNat + p.2) → s.hw.pwr.coolant ≤ 8500 → acPresent ≤ v1 →
      exec (.mainsHalfCycle v1 v2 v3 f a) s = .next (s.put { s.hw with
        chg := { s.hw.chg with
          acHighAt := some s.hw.time.clock, mainsAt := heldSince s.hw.chg.mainsAt true s.hw.time.clock, refCycles := 6,
            refSum := sum, vref := sum.map (fun x => ((isqrt (x / 6) : Nat) : Int)), limitAt := s.hw.time.clock } })) ∧
  (∀ (s : State) (v1 v2 v3 a : Int) (f : Nat) (v : List Int), s.hw.mode.phase = .up → s.hw.chgFn = .ac →
    s.hw.chg.state = .flow → s.hw.chg.vref = [] → s.hw.chg.draining = false → s.hw.chg.pauseReq = none →
    v = s.hw.usedPhases [v1, v2, v3] → v.all s.hw.inputOk = false → s.hw.pwr.coolant ≤ 8500 → acPresent ≤ v1 →
      exec (.mainsHalfCycle v1 v2 v3 f a) s = .next (s.put { s.hw with
        chg := { s.hw.chg with
          acHighAt := some s.hw.time.clock, mainsAt := none, refCycles := 0, refSum := [] } })) ∧
  (∀ (s : State) (x : Hw), s.hw.chg.state = .flow → s.hw.chgFn.isAc = true → s.hw.chg.vref = [] → s.hw.chg.refCycles = 0 →
    s.hw.chg.current = 0 → s.hw.chg.startAt + 10 * sTicks ≤ s.hw.time.clock →
    x = s.hw.occurThen fltChgNoSource fltChgNoSource.cls 0xFF (fun y => y.chgStopTo 3 .armed 3 fltChgNoSource.code) →
      exec .chgNoSource s = .next (s.put { x with chg := { x.chg with left := none } })) ∧
  (∀ (s : State) (ac dc pe : Int) (h : Hw), s.hw.chgFn.isAc = true → (s.hw.chg.state = .armed ∨ s.hw.chg.state = .flow) →
    h = { s.hw with chg := { s.hw.chg with
      dcResAt := heldSince s.hw.chg.dcResAt (decide (6 ≤ dc)) s.hw.time.clock
      peAt := heldSince s.hw.chg.peAt (decide (50000 < pe)) s.hw.time.clock } } →
    30 ≤ ac ∨ heldFor h.chg.dcResAt sTicks s.hw.time.clock = true →
      exec (.chgResidual ac dc pe) s = .next (s.put ((h.raiseOnce fltChgResidual 0xFF).chgSuspend fltChgResidual.code 5))) ∧
  (∀ (s : State) (ac dc pe : Int) (h : Hw), s.hw.chgFn.isAc = true → (s.hw.chg.state = .armed ∨ s.hw.chg.state = .flow) →
    h = { s.hw with chg := { s.hw.chg with
      dcResAt := none, peAt := heldSince s.hw.chg.peAt (decide (50000 < pe)) s.hw.time.clock } } → ac < 30 → dc < 6 →
    heldFor h.chg.peAt (100 * msTicks) s.hw.time.clock = true →
      exec (.chgResidual ac dc pe) s = .next (s.put ((h.raiseOnce fltChgPeFault 0xFF).chgSuspend fltChgPeFault.code 5)))
      ∧
  (∀ (s : State), s.hw.chgFn = .grid → s.hw.chg.state = .flow →
    heldFor s.hw.chg.gridAt (s.hw.parTicks 0x0814) s.hw.time.clock = true →
      exec .chgGridTrip s = .next (s.put ((s.hw.occur fltChgGridTrip 0xFF).chgOutage 3))) ∧
  (∀ (s : State), s.hw.chgFn = .island → s.hw.chg.state = .flow →
    heldFor s.hw.chg.overAt (5 * sTicks) s.hw.time.clock = true ∨
    heldFor s.hw.chg.peakAt (100 * msTicks) s.hw.time.clock = true →
      exec .chgIslandOverload s = .next (s.put (s.hw.occurThen fltChgIslandOverload fltChgIslandOverload.cls 0xFF (fun x =>
      x.chgStopTo 4 .armed 3 fltChgIslandOverload.code)))) ∧
  (∀ (s : State) (v1 v2 v3 : Int) (n : Nat), s.hw.chgFn = .island → s.hw.chg.state = .flow → 2 * msTicks ≤ n →
    s.hw.chg.current ≤ s.hw.acLimit →
    (∃ p ∈ (s.hw.usedPhases [v1, v2, v3]).zip s.hw.acVolts, p.2 < 10 * absI (p.1 - p.2)) →
      exec (.chgBackfeed v1 v2 v3 n) s = .next (s.put ((s.hw.raiseOnce fltChgBackfeed 0xFF).chgSuspend fltChgBackfeed.code 5))) ∧
  (∀ (s : State) (t : Int), 12000 ≤ t →
      exec (.obcOvertemp t) s = .next (s.put (({ s.hw with
        chg := { s.hw.chg with
          obcLimit := (fall 1000 300 10000 11500 t).toNat, obcShut := true, obcCoolAt := none, limit := 0 } } :
      Hw).raiseOnce fltObcOvertemp 0xFF))) ∧
  (∀ (s : State) (t : Int), 10000 ≤ t → t < 12000 → s.hw.chg.obcWarned = false →
      exec (.obcOvertemp t) s = .next (s.put (({ s.hw with
        chg := { s.hw.chg with
          obcLimit := (fall 1000 300 10000 11500 t).toNat, obcCoolAt := none, obcWarned := true } } : Hw).occur
      fltObcOvertempWarn 0xFF))) ∧
  (∀ (s : State) (t : Int) (since : Nat), t < 10000 → s.hw.chg.obcCoolAt = some since → since + 5 * sTicks ≤
    s.hw.time.clock → s.hw.chg.obcShut = true →
      exec (.obcOvertemp t) s = .next (s.put (({ s.hw with
        chg := { s.hw.chg with
          obcLimit := (fall 1000 300 10000 11500 t).toNat, obcCoolAt := some since, obcWarned := false, obcShut := false } }
      : Hw).clearFault fltObcOvertemp.code 0xFF)))

/-- A phase whose exit condition holds hands over to the next (R226); an elapsed timer is counted, raises CHG_TIMER and
suspends, but in TERMINATION completes the session (R229, R230); a missing or shorted battery and a battery outside its
temperature window act as R227 and R228 say, and the BASE_CAMP hold ends (R234). -/
def Obligations.PhasesAndTimersOfTheCharge : Prop :=
  (∀ (s : State) (p p1 : ChgPhase) (i : Int) (k : Nat), s.hw.chg.phase = some p → p1 = s.hw.exitSeen p i →
    s.hw.nextPhase p (s.hw.battVolts p.target) (s.hw.battAmps p.target i).1 = some k →
    heldFor p1.exitAt (exitHold p.phase) s.hw.time.clock = true →
      exec (.chargePhaseChange i) s = .next (s.put ((({ s.hw with chg := { s.hw.chg with phase := some p1 } } :
      Hw).chgEndPhase 0).enterPhase p.target k 0 false))) ∧
  (∀ (h : Hw) (p : ChgPhase) (v i : Int),
      h.nextPhase p v i = (match p.phase with
          | 1 => if p.prof.volts ≤ v then some 2 else none
          | 2 => if p.prof.volts ≤ v then some 3 else none
          | 3 => if (h.phaseValues p.target 4).volts ≤ v then some 4 else none
          | 4 => if i < p.prof.amps then some 5 else none
          | 5 => if p.prof.volts ≠ 0 ∧ v < p.prof.volts then some 3 else none
          | _ => none)) ∧
  (∀ (s : State) (p p1 : ChgPhase) (own : Int), s.hw.chg.phase = some p →
    p1 = { s.hw.phaseTime (s.hw.exitSeen p own) ((s.hw.time.clock - p.countedAt) / msTicks) (s.hw.battAmps p.target own).1
      (s.hw.battAmps p.target own).2 with
      countedAt := p.countedAt + (s.hw.time.clock - p.countedAt) / msTicks * msTicks } →
    p1.equiv < p1.prof.timer * 1000000 →
      exec (.chgTimer own) s = .next (s.put { s.hw with chg := { s.hw.chg with phase := some p1 } })) ∧
  (∀ (s : State) (p p1 : ChgPhase) (own : Int) (x : Hw), s.hw.chg.phase = some p →
    p1 = { s.hw.phaseTime (s.hw.exitSeen p own) ((s.hw.time.clock - p.countedAt) / msTicks) (s.hw.battAmps p.target own).1
      (s.hw.battAmps p.target own).2 with
      countedAt := p.countedAt + (s.hw.time.clock - p.countedAt) / msTicks * msTicks } →
    p1.prof.timer * 1000000 ≤ p1.equiv → s.hw.chg.state = .flow → p.phase ≠ 0 → p.phase ≠ 5 →
    x = (({ s.hw with chg := { s.hw.chg with phase := some p1 } } : Hw).count 0x07F 1).raiseOnce fltChgTimer 0xFF →
      exec (.chgTimer own) s = .next (s.put (({ x with chg := { x.chg with
        expired := (8 * p.target + p.phase) :: x.chg.expired } } : Hw).chgSuspend fltChgTimer.code 1))) ∧
  (∀ (s : State) (f : BattFault), s.hw.chg.state = .flow → s.hw.chgFn.exports = false → s.hw.battFaulty f = true →
    f.missing = true → s.hw.par 0x0808 = 0 →
      exec (.chgBattFault f) s = .next (s.put ((s.hw.raiseOnce fltChgBattMissing 0xFF).chgSuspend
      fltChgBattMissing.code 4))) ∧
  (∀ (s : State) (f : BattFault), s.hw.chg.state = .flow → s.hw.chgFn.exports = false → s.hw.battFaulty f = true →
    f.missing = false → s.hw.par 0x0809 = 0 →
      exec (.chgBattFault f) s = .next (s.put ((s.hw.raiseOnce fltChgBattShorted 0xFF).chgSuspend
      fltChgBattShorted.code 4))) ∧
  (∀ (s : State) (t : Option Int) (h : Hw), s.hw.chgFn = .ac → s.hw.chg.state = .flow → s.hw.chg.band < 2 →
    h = s.hw.seeProbe t → tempBand (s.hw.par 0x080B) 0 (h.battTemp 0) = 2 → s.hw.par 0x080A = 0 →
      exec (.chgTempWindow t) s = .next (s.put ((({ h with chg := { h.chg with band := 2, bandAt := none } } :
      Hw).occur fltChgTempWindow 0xFF).chgSuspend fltChgTempWindow.code 5))) ∧
  (∀ (s : State) (t : Nat), s.hw.mode.chargeHoldBy = some t → t ≤ s.hw.time.clock →
      exec .baseCampChargeHoldExpiry s = .next (s.put ({ s.hw with mode := { s.hw.mode with chargeHoldBy := none } } :
      Hw).drainCharge)) ∧
  (∀ (s : State) (p p1 : ChgPhase) (own : Int), s.hw.chg.phase = some p →
    p1 = { s.hw.phaseTime (s.hw.exitSeen p own) ((s.hw.time.clock - p.countedAt) / msTicks) (s.hw.battAmps p.target own).1
      (s.hw.battAmps p.target own).2 with
      countedAt := p.countedAt + (s.hw.time.clock - p.countedAt) / msTicks * msTicks } →
    p1.prof.timer * 1000000 ≤ p1.equiv → s.hw.chg.state = .flow → p.phase = 5 →
      exec (.chgTimer own) s = .next (s.put (({ s.hw with chg := { s.hw.chg with phase := some p1 } } : Hw).sessionComplete)))

/-- During matching the second contactor closes once the filter is within 20 V of the station after 5 ms, and 25 ms without
a match fail it (R220); DC boost runs when every winding reaches DCB_L_MIN after its 10 ms (R222), else it ends; the
events of R225 act while it lives; above 60 V after 100 ms the contactor is taken as welded (R224). -/
def Obligations.BoostRunsAndEnds : Prop :=
  (∀ (s : State) (v v2 v3 a : Int) (f : Nat) (x : Hw), s.hw.mode.phase = .up → s.hw.chgFn = .boost → s.hw.chg.state = .armed →
    s.hw.chg.dcb = .matching → s.hw.chg.draining = false → s.hw.saf.so2 = false → s.hw.chg.dcbAt + 5 * msTicks ≤
    s.hw.time.clock → absI (v - s.hw.chg.station) ≤ 20000 →
    x = ({ s.hw with chg := { s.hw.chg with inlet := v, current := a } } : Hw).closeSo true →
      exec (.mainsHalfCycle v v2 v3 f a) s = .next (s.put { x with
        chg := { x.chg with dcbAt := s.hw.time.clock, lowAt := none, goodAt := none, halfAt := none } })) ∧
  (∀ (s : State) (l : List Int) (duty : Nat), s.hw.chg.dcb = .testing → s.hw.chg.dcbAt + 10 * msTicks ≤ s.hw.time.clock →
    l.all (inductanceOk s.hw.chg.inlet duty (pwmPeriod (s.hw.par 0x080F)) (s.hw.par 0x0810)) = true →
      exec (.dcbInductanceCheck l duty) s = .next (s.put (({ s.hw with
        chg := { s.hw.chg with
          dcb := .running, startReq := none, limitAt := s.hw.time.clock } } : Hw).completeOpt s.hw.chg.startReq
      .done))) ∧
  (∀ (s : State) (l : List Int) (duty : Nat) (x : Hw), s.hw.chg.dcb = .testing → s.hw.chg.dcbAt + 10 * msTicks ≤ s.hw.time.clock →
    l.all (inductanceOk s.hw.chg.inlet duty (pwmPeriod (s.hw.par 0x080F)) (s.hw.par 0x0810)) = false →
    x = s.hw.raiseOnce fltDcbInductance 0xFF →
      exec (.dcbInductanceCheck l duty) s = .next (s.put (({ x with
        chg := { x.chg with startReq := none, limit := 0 } } : Hw).boostEnding.completeOpt s.hw.chg.startReq .aborted))) ∧
  (∀ (s : State), s.hw.chg.dcb = .running → heldFor s.hw.chg.halfAt msTicks s.hw.time.clock = true →
      exec (.dcbEndEvent .sourceLow) s = .next (s.put (s.hw.occurThen fltDcbSourceLost fltDcbSourceLost.cls 0xFF
      Hw.boostLost))) ∧
  (∀ (s : State), s.hw.chg.dcb = .running → s.hw.pwr.vdc - 50000 < s.hw.chg.inlet →
      exec (.dcbEndEvent .ratio) s = .next (s.put (s.hw.occurThen fltDcbRatio fltDcbRatio.cls 0xFF Hw.boostLost))) ∧
  (∀ (s : State) (b : Bridge) (stray star tq : Int) (n : Nat), s.hw.chg.dcb = .running →
    s.hw.boostTorque b stray star tq n = true →
      exec (.dcbEndEvent (.torque b stray star tq n)) s = .next (s.put (s.hw.occurThen fltDcbTorque .arrest 0xFF (fun x =>
      x.boostAbort fltDcbTorque.code)))) ∧
  (∀ (s : State) (v : Int), s.hw.chg.dcb = .checking → s.hw.chg.dcbAt + 100 * msTicks ≤ s.hw.time.clock → 60000 ≤ v →
      exec (.dcbContactorWeld v) s = .next (s.put ((({ s.hw with chg := { s.hw.chg with inlet := v } } : Hw).raiseOnce
      fltDcbContactorWeld 0xFF).boostDone))) ∧
  (∀ h : Hw, h.saf.so2 = false → h.matched = false → h.chg.dcbAt + 25 * msTicks ≤ h.time.clock → h.matchStep = h.matchFail)

/-- A FORWARD in range writes what it carries and starts the converter at once with the DC link at or above 255 V
(R180-R182); the soft start ends in regulation and answers DONE; a short and a bus fault are failed attempts, the fifth
of which latches off (R183, R184); 200 ms after a failed attempt it starts again; below 245 V it stops. -/
def Obligations.ForwardServiceStarts : Prop :=
  (∀ (s : State) (d : Desc) (h : Hw), s.hw.RunsTo 0x0701 (d.withByte16 1) h → h.lvFits 0x0701 (d.num 20 4) = true →
    h.lvFits 0x0702 (d.num 24 4) = true → -500 ≤ h.lv.vout → h.lvToppingUp = false → h.lv.state = .stopped → h.lv.draining =
    false → h.lv.fwdInHold = none → h.lvInhibited = false → h.lv.req = none → 255000 ≤ h.pwr.vdc → h.lv.shut = 0 →
    h.lv.closed = false →
      exec (.lvControlForward d) s = .next (s.put ({ h.lvWrite d with
        lv := { (h.lvWrite d).lv with req := some d.req } } : Hw).lvStart)) ∧
  (∀ (s : State) (d : Desc) (h : Hw), s.hw.RunsTo 0x0701 (d.withByte16 1) h → (h.lvFits 0x0701 (d.num 20 4) = false ∨
    h.lvFits 0x0702 (d.num 24 4) = false ∨ h.lv.vout < -500) →
      exec (.lvControlForward d) s = .next (s.put (h.complete d.req .range))) ∧
  (∀ (s : State) (d : Desc) (h : Hw), s.hw.RunsTo 0x0701 (d.withByte16 0) h → h.lv.state = .running → h.lv.draining =
    false → h.lv.closed = true → h.lv.ovStop = false →
      exec (.lvControlStop d) s = .next (s.put
      ({ h with lv := { h.lv with resume := false, autoDue := false, stopReqs := h.lv.stopReqs ++ [d.req] } } : Hw).drainLv)) ∧
  (∀ (s : State), s.hw.lv.state = .starting → s.hw.lv.closed = true → s.hw.lv.ovStop = false → s.hw.lv.rampAt +
    s.hw.lv.rampLen ≤ s.hw.time.clock →
      exec .lvSoftStartDone s = .next (s.put ((({ s.hw with
        lv := { s.hw.lv with
          regSince := some s.hw.time.clock, ref := s.hw.lvTarget, isoFails := 0, rampAt := s.hw.time.clock } } : Hw).lvGo
      .running).lvAnswer .done))) ∧
  (∀ (s : State), s.hw.lv.state = .starting → s.hw.lv.closed = true →
    heldFor s.hw.lv.shortAt msTicks s.hw.time.clock = true ∨ heldFor s.hw.lv.foldAt (2 * msTicks) s.hw.time.clock = true →
      exec .lvShort s = .next (s.put (({ s.hw with lv := { s.hw.lv with limit := s.hw.lvBase / 5 } } : Hw).lvFailed true))) ∧
  (∀ (h : Hw) (short : Bool), h.lv.state = .starting ∨ h.lv.state = .running → h.lv.attempts < 4 →
      h.lvFailed short = (({ h with lv := { h.lv.stageOff with
        attempts := h.lv.attempts + 1, waitAt := h.time.clock, waitPre := false } } : Hw).count 0x099 1).lvGo .waiting) ∧
  (∀ (h : Hw) (short : Bool), h.lv.state = .starting ∨ h.lv.state = .running → h.lv.attempts = 4 →
      h.lvFailed short = (({ h with lv := { h.lv.stageOff with
        attempts := 5, waitAt := h.time.clock, waitPre := false } } : Hw).count 0x099 1).lvLatch
      (if short then fltLvoutShort else fltLvStartFailed)) ∧
  (∀ (s : State), s.hw.lv.state = .waiting → s.hw.lv.waitAt + 200 * msTicks ≤ s.hw.time.clock → s.hw.lv.clamp = false →
    s.hw.lv.closed = false → s.hw.lvInhibited = false → s.hw.lv.waitPre = false → s.hw.lv.shut = 0 → 255000 ≤ s.hw.pwr.vdc →
      exec .lvRestartTimer s = .next (s.put s.hw.lvStart)) ∧
  (∀ (s : State), s.hw.lv.active = true → heldFor s.hw.lv.busBadAt (50 * usTicks) s.hw.time.clock = true →
      exec .lvBusFault s = .next (s.put (s.hw.occurThen fltLvBusFault fltLvBusFault.cls 0xFF (fun x =>
      ({ x with lv := x.lv.cellsOff } : Hw).lvFailed false)))) ∧
  (∀ (s : State) (v : Int), v < 245000 → (s.hw.setVdc v).lv.state = .running →
      exec (.dcLinkLow v) s = .next (s.put ((s.hw.setVdc v).lvOff.lvGo .stopped)))

/-- A shed moves on with the periods and ends with one phase fewer, counted (R186); the current limit folds back between 20
and 80 % of the setpoint (R185); a load step aborts it for 50 ms (R187); a failed cell leaves service (R180); the
shutdown temperature drains the converter (R191); overvoltage with the switch closed makes the stage wait, and its end
starts the ramp from the measured output (R193); reverse current is a failed attempt (R194). -/
def Obligations.ForwardServiceRuns : Prop :=
  (∀ (s : State) (inner vout load bus demand : Int) (fell : BitVec 8) (x h : Hw),
    x = ({ s.hw with lv := { s.hw.lv with
      ch13 := inner, vout := vout, load := load, bus := bus, demand := demand, boot := (bootStep s.hw.lv.boot s.hw.time.clock).1
      periodAt := s.hw.time.clock } } : Hw).count 0x09D (bootStep s.hw.lv.boot s.hw.time.clock).2 →
    h = ((x.lvMonitors.lvWatch.lvOpen load).dropPhases).demandStep s.hw.lv.demand demand →
    h.lv.ovStop = true →
      exec (.lvSwitchingPeriod inner vout load bus demand fell) s = .next (s.put (h.periodLatch 2))) ∧
  (∀ (s : State) (inner vout load bus demand : Int) (fell : BitVec 8) (x h : Hw),
    x = ({ s.hw with lv := { s.hw.lv with
      ch13 := inner, vout := vout, load := load, bus := bus, demand := demand, boot := (bootStep s.hw.lv.boot s.hw.time.clock).1
      periodAt := s.hw.time.clock } } : Hw).count 0x09D (bootStep s.hw.lv.boot s.hw.time.clock).2 →
    h = ((x.lvMonitors.lvWatch.lvOpen load).dropPhases).demandStep s.hw.lv.demand demand →
    h.lv.ovStop = false → h.lv.clamp = false → h.lv.state = .starting →
    h.lv.closed = false →
      exec (.lvSwitchingPeriod inner vout load bus demand fell) s = .next (s.put ((h.lvApproach load).periodLatch 2))) ∧
  (∀ (s : State) (inner vout load bus demand : Int) (fell : BitVec 8) (x h : Hw),
    x = ({ s.hw with lv := { s.hw.lv with
      ch13 := inner, vout := vout, load := load, bus := bus, demand := demand, boot := (bootStep s.hw.lv.boot s.hw.time.clock).1
      periodAt := s.hw.time.clock } } : Hw).count 0x09D (bootStep s.hw.lv.boot s.hw.time.clock).2 →
    h = ((x.lvMonitors.lvWatch.lvOpen load).dropPhases).demandStep s.hw.lv.demand demand →
    h.lv.ovStop = false → h.lv.clamp = false → h.lv.state = .running →
      exec (.lvSwitchingPeriod inner vout load bus demand fell) s = .next (s.put (((h.lvForwardPeriod load
      (s.hw.time.clock - s.hw.lv.periodAt) fell).topupPeriod load).periodLatch 2))) ∧
  (∀ (h : Hw) (load : Int), busUp h.lv.bus = true → h.lv.check = 2 → h.lv.state = .starting →
    absI (h.lv.ch13 - h.lv.vout) ≤ 200 → heldFor h.lv.biasAt (100 * usTicks) h.time.clock = true →
      h.lvApproach load = h.lvRamp h.lv.vout) ∧
  (∀ (h : Hw) (load : Int), busUp h.lv.bus = false → h.lvApproach load = h) ∧
  (∀ (h : Hw), 3 ≤ h.lv.shedding →
      h.shedStep = ({ h with lv := { h.lv with
        phaseSet := h.lv.phaseSet &&& ~~~ BitVec.ofNat 8 (2 ^ h.lv.shedPhase),
        shedding := 0, lowAt := none } } : Hw).count 0x09B 1) ∧
  (∀ (h : Hw), 0 < h.lv.shedding → h.lv.shedding < 3 →
      h.shedStep = { h with lv := { h.lv with shedding := h.lv.shedding + 1 } }) ∧
  (∀ (i v vset : Int), 0 < vset → vset < 5 * v → 5 * v < 4 * vset →
      foldBack i v vset = i * (20 * v - vset) / (15 * vset)) ∧
  (∀ (s : State) (load : Int), s.hw.lv.state = .running → s.hw.lv.closed = true → s.hw.lv.shedding = 0 → s.hw.lv.noShedBy
    ≤ s.hw.time.clock → max (s.hw.par 0x0709) 1 < s.hw.lv.phases → heldFor s.hw.lv.lowAt (2 * msTicks) s.hw.time.clock = true →
    100 * load < 65 * ((s.hw.lv.phases - 1 : Nat) * s.hw.phaseShare) →
      exec (.lvPhaseShed load) s = .next (s.put (({ s.hw with lv := { s.hw.lv with
        shedding := 1, load := load,
        shedPhase := ((List.range 8).reverse.find? (fun k => s.hw.lv.phaseSet.getLsbD k)).getD 0 } } : Hw).spreadPhases load))) ∧
  (∀ (s : State) (mv : Int), s.hw.lv.state = .running → 0 < s.hw.lv.shedding → mv < codeVolts s.hw.stepCode →
      exec (.lvLoadStep mv) s = .next (s.put (({ s.hw with lv := { s.hw.lv with
        shedding := 0, lowAt := none, noShedBy := s.hw.time.clock + 50 * msTicks } } : Hw).count 0x09C 1))) ∧
  (∀ (s : State) (cell : Fin 4), s.hw.lv.active = true → s.hw.lv.cellsFailed.getLsbD cell.val = false →
    heldFor (s.hw.lv.cellBadAt.find cell.val) sTicks s.hw.time.clock = true →
      exec (.lvCellFail cell) s = .next (s.put (({ s.hw with lv := { s.hw.lv with
        cellsFailed := s.hw.lv.cellsFailed ||| BitVec.ofNat 4 (2 ^ cell.val),
        cellSet := s.hw.lv.cellSet &&& ~~~ BitVec.ofNat 4 (2 ^ cell.val) } } : Hw).raiseOnce fltLvCellFail
      (BitVec.ofNat 8 (0x60 + cell.val))))) ∧
  (∀ (s : State) (sensor : LvSensor) (t : Int), t < sensor.levels.1 → sensor.levels.1 ≤ sensor.levels.2 →
      exec (.lvOvertemp sensor t) s = .next (s.put (({ s.hw with
        lv := ({ s.hw.lv with
          temp := s.hw.lv.temp.set sensor.index t, warned := s.hw.lv.warned &&& ~~~ BitVec.ofNat 10 (2 ^ sensor.index)
            }).derate } : Hw).lvResume))) ∧
  (∀ (s : State) (b : Bool) (mv : Int), codeVolts s.hw.overCode < mv → s.hw.lv.closed = true → s.hw.lv.active = true →
      exec (.lvOvervoltage b mv) s = .next (s.put (({ s.hw with lv := { s.hw.lv with
        ovStop := true, ovLowAt := none,
        regSince := none } } : Hw).raiseOnce fltLvoutOv 0xFF))) ∧
  (∀ (s : State) (mv : Int), codeVolts s.hw.overCode < mv → s.hw.lv.closed = false → s.hw.lv.state = .starting →
      exec (.lvOvervoltage false mv) s = .next (s.put ((({ s.hw with lv := { s.hw.lv.cellsOff with
        clamp := true,
        ovLowAt := none } } : Hw).lvFailed false).raiseOnce fltLvoutOvStart 0xFF))) ∧
  (∀ (s : State), s.hw.lv.clamp = false → s.hw.lv.ovStop = true → s.hw.lv.state = .running →
    heldFor s.hw.lv.ovLowAt msTicks s.hw.time.clock = true →
      exec .lvOvResume s = .next (s.put (((({ s.hw with lv := { s.hw.lv with ovStop := false, ovLowAt := none } } :
      Hw).clearFault fltLvoutOv.code 0xFF).lvRamp s.hw.lv.vout).lvGo .starting))) ∧
  (∀ (s : State) (a : Int), s.hw.lv.closed = true → s.hw.lv.state = .running → s.hw.lvRated < 10 * a →
      exec (.lvoutReverse a) s = .next (s.put (s.hw.occurThen fltLvoutReverse fltLvoutReverse.cls 0xFF (fun x =>
      ({ x with lv := { x.lv with closed := false, opening := false } } : Hw).lvFailed false))))

/-- PRECHARGE in READY begins toward a target outside 10 V of the DC link and is DONE at once within it (R195); at the
target the hold begins and the request is DONE (R19); the time limit and a link that does not rise end it ABORTED
(R196), and the hold stops after LV_PRECHARGE_HOLD (R197). -/
def Obligations.PrechargeRuns : Prop :=
  (∀ (s : State) (d : Desc) (h : Hw), s.hw.RunsTo 0x0701 (d.withByte16 2) h → 250000 ≤ d.int 20 4 → d.int 20 4 ≤ 950000 →
    d.num 24 4 = 0 → h.mode.mode = .ready → h.lv.state = .stopped → h.lvInhibited = false → h.lv.req = none →
    h.lv.closed = false → h.lv.shut = 0 → 10000 < absI (h.pwr.vdc - d.int 20 4) →
      exec (.lvControlPrecharge d) s = .next (s.put (h.preStart (d.int 20 4) (some d.req)))) ∧
  (∀ (s : State) (d : Desc) (h : Hw), s.hw.RunsTo 0x0701 (d.withByte16 2) h → (d.int 20 4 < 250000 ∨ 950000 < d.int 20 4 ∨
    d.num 24 4 ≠ 0) →
      exec (.lvControlPrecharge d) s = .next (s.put (h.complete d.req .range))) ∧
  (∀ (s : State) (v : Int) (x : Hw), s.hw.lv.state = .precharge → s.hw.lv.draining = false → absI (v - s.hw.lv.target) ≤ 10000 →
    x = s.hw.preVdc v →
      exec (.prechargeDone v) s = .next (s.put ((({ x with
        lv := { x.lv with preReq := none, holdBy := s.hw.time.clock + s.hw.parTicks 0x070D } } : Hw).lvGo .hold).completeOpt
      x.lv.preReq .done))) ∧
  (∀ (s : State) (v : Int), s.hw.lv.state = .precharge → 10000 < absI (v - s.hw.lv.target) →
      exec (.prechargeDone v) s = .next (s.put (s.hw.preVdc v))) ∧
  (∀ (s : State), s.hw.lv.state = .precharge → s.hw.lv.draining = false →
    heldFor s.hw.lv.preAt (min (400 * msTicks + s.hw.lv.reduced) (2 * sTicks)) s.hw.time.clock = true →
      exec .prechargeTimeout s = .next (s.put (s.hw.preStop .aborted))) ∧
  (∀ (s : State) (v : Int), s.hw.lv.state = .precharge → s.hw.lv.draining = false →
    heldFor s.hw.lv.preAt (20 * msTicks) s.hw.time.clock = true → v < 20000 →
      exec (.lvPrechargeFault v) s = .next (s.put ((s.hw.preVdc v).occurThen fltLvPrechargeFault fltLvPrechargeFault.cls
      0xFF (fun x => x.preStop .aborted)))) ∧
  (∀ (s : State), s.hw.lv.state = .hold → s.hw.lv.draining = false → s.hw.lv.holdBy ≤ s.hw.time.clock →
      exec .prechargeHoldExpiry s = .next (s.put (s.hw.preStop .aborted)))

/-- A frame that the first matching pair accepts enters Q1 with its time and is counted, or with 64 entries standing is
dropped, counted and reported once a run (R367, R368); a read of word 0 locks the head and shows its words, word 21
releases it and moves the queue on, and 100 us end the lock without (R370); a record of the head is posted where the
host serves Q1 (R369). -/
def Obligations.FramesAreReceived : Prop :=
  (∀ (s : State) (ch : Fin 4) (f : CanFrame) (h : Hw), s.hw.canOn ch.val = true → s.hw.canAllows ch.val f.fmt = true → h =
    (s.hw.modCan ch.val (fun c => { c with rec' := recDown c.rec' })).canConfine ch.val → s.hw.ownPair ch.val f = false →
    (s.hw.can ch.val).acceptsQ1 f = true → f.data.length ≤ 64 → (h.can ch.val).q1.length < 64 →
      exec (.canFrameReceived ch f) s = .next (s.put ((h.modCan ch.val (fun c =>
      { c with q1 := c.q1 ++ [{ frame := f, time := h.time.now }], drop1 := false })).count (0x0A0 + 5 * ch.val) 1))) ∧
  (∀ (s : State) (ch : Fin 4) (f : CanFrame) (h : Hw), s.hw.canOn ch.val = true → s.hw.canAllows ch.val f.fmt = true → h =
    (s.hw.modCan ch.val (fun c => { c with rec' := recDown c.rec' })).canConfine ch.val → s.hw.ownPair ch.val f = false →
    (s.hw.can ch.val).acceptsQ1 f = true → f.data.length ≤ 64 → 64 ≤ (h.can ch.val).q1.length →
      exec (.canFrameReceived ch f) s = .next (s.put (h.canDrop ch.val (h.can ch.val).drop1 (fun c =>
      { c with drop1 := true })))) ∧
  (∀ (h : Hw) (ch : Nat) (mark : CanCh → CanCh),
      h.canDrop ch true mark = (h.modCan ch mark).count (0x0A2 + 5 * ch) 1 ∧ h.canDrop ch false mark = ((h.modCan ch
      mark).count (0x0A2 + 5 * ch) 1).occur fltCanQueueOverflow (BitVec.ofNat 8 ch)) ∧
  (∀ (s : State) (ch : Fin 4) (e : CanEntry) (h : Hw), s.hw.netUp = true → s.hw.q1Served = true → (s.hw.can ch.val).rxHead
    = some (e, true) → (s.hw.can ch.val).lock1 = none → h = s.hw.modCan ch.val (fun c => { c with q1 := c.q1.drop 1 }) →
    e.frame.data.length ≤ 32 →
      exec (.canRxRecordPost ch) s = .next (s.put (h.postTlm (s.hw.par 0x0E12) 0x0E01 e.time (canRxBody e.frame ch.val)))) ∧
  (∀ (s : State) (ch : Fin 4) (e : CanEntry) (l : List CanEntry), s.hw.netUp = true → (s.hw.can ch.val).q1 = e :: l →
    (s.hw.can ch.val).lock1 = none →
      exec (.canQueueLock ch true) s = .next (s.put ((s.hw.modCan ch.val (fun c =>
      { c with lock1 := some s.hw.time.clock })).emit (.canWindow ch.val true e.words)))) ∧
  (∀ (s : State) (ch : Fin 4) (q1 : Bool), s.hw.netUp = true →
      exec (.canQueueRelease ch q1) s = .next (s.put (s.hw.modCan ch.val (fun c => c.release q1)))) ∧
  (∀ (c : CanCh) (t : Nat), c.lock1 = some t → c.release true = { c with lock1 := none, q1 := c.q1.drop 1 }) ∧
  (∀ (s : State) (ch : Fin 4),
      exec (.canQueueLockTimeout ch true) s = .next (s.put (s.hw.modCan ch.val (fun c => c.unlock true s.hw.time.clock)))) ∧
  (∀ (s : State) (d : Desc) (h : Hw), s.hw.RunsTo 0x0E03 d h → d.num 16 1 ≤ 3 → 4 ≤ d.num 17 1 → d.num 17 1 ≤ 63 → d.num
    18 1 ≤ 2 →
      exec (.canFilterSet d) s = .next (s.put ((h.modCan (d.num 16 1) (fun c => { c with
        filters := c.filters.set (d.num 17 1) {
          action := d.num 18 1, formats := BitVec.ofNat 3 (d.num 19 1), match' := BitVec.ofNat 32 (d.num 20 4), mask :=
            BitVec.ofNat 32 (d.num 24 4) } })).complete d.req .done)))

/-- A CAN_TX in range waits in its channel, a buffer's older one completing SUPERSEDED (R371); a frame sent completes DONE
with its start of frame, one that waits 100 ms ABORTED; bus errors confine the channel, recovery rejoins it (R372); a
fallback request of another length than 64 bytes is counted and discarded (R377). -/
def Obligations.FramesAreSent : Prop :=
  (∀ (s : State) (d : Desc) (h : Hw) (f : CanFrame), s.hw.RunsTo 0x0E02 d h → h.canTxFrame d = some f → d.num 18 1 = 0xFF
    →
      exec (.canTx d) s = .next (s.put (h.modCan (d.num 16 1) (fun c =>
      { c with tx := c.tx ++ [{ frame := f, req := some d.req, since := h.time.clock }] })))) ∧
  (∀ (s : State) (d : Desc) (h : Hw) (f : CanFrame), s.hw.RunsTo 0x0E02 d h → h.canTxFrame d = some f → d.num 18 1 ≠ 0xFF
    →
      exec (.canTx d) s = .next (s.put ((h.modCan (d.num 16 1) (fun c => { c with
        buffers := c.buffers.set (d.num 18 1) { frame := f, req := some d.req, since := h.time.clock } })).completeOpt
      (((h.can (d.num 16 1)).buffers.find (d.num 18 1)).bind (·.req)) .superseded))) ∧
  (∀ (s : State) (d : Desc) (h : Hw), s.hw.RunsTo 0x0E02 d h → h.canTxFrame d = none →
      exec (.canTx d) s = .next (s.put (h.complete d.req .range))) ∧
  (∀ (s : State) (ch : Fin 4) (sof : W64) (t : CanTx) (rest : List CanTx) (q : Req), (s.hw.can ch.val).tx = t :: rest →
    t.req = some q → s.hw.canOn ch.val = true → (s.hw.can ch.val).mayArbitrate = true →
      exec (.canTxSent ch sof) s = .next (s.put (((s.hw.modCan ch.val (fun c => { c with tx := rest })).canSent ch.val
      t.frame).completeAt q .done sof))) ∧
  (∀ (s : State) (ch : Fin 4) (t : CanTx) (rest : List CanTx), (s.hw.can ch.val).tx = t :: rest → t.since + 100 * msTicks
    ≤ s.hw.time.clock →
      exec (.canTxTimeout ch) s = .next (s.put ((s.hw.modCan ch.val (fun c => { c with tx := rest })).completeOpt t.req
      .aborted))) ∧
  (∀ (s : State) (ch : Fin 4) (e : CanError), s.hw.canOn ch.val = true →
      exec (.canBusError ch e) s = .next (s.put ((s.hw.modCan ch.val (fun c => c.struck e)).canConfine ch.val))) ∧
  (∀ c : CanCh, c.struck .arbitration = c ∧ c.struck .transmit = { c with tec := c.tec + 8 } ∧
      c.struck .receive = { c with rec' := c.rec' + 1 } ∧ c.struck .receiveDominant = { c with rec' := c.rec' + 8 }) ∧
  (∀ (h : Hw) (ch : Nat), (h.can ch).err ≠ .busOff → 255 < (h.can ch).tec → h.canConfine ch = h.canBusOff ch) ∧
  (∀ (h : Hw) (ch : Nat), (h.can ch).err = .active → (h.can ch).tec ≤ 255 → (127 < (h.can ch).tec ∨ 127 < (h.can ch).rec')
    →
      h.canConfine ch = ((h.modCan ch (fun c => { c with err := .passive })).count (0x0A3 + 5 * ch) 1).occur
      fltCanErrorPassive (BitVec.ofNat 8 ch)) ∧
  (∀ (s : State) (ch : Fin 4) (n : Nat), s.hw.netUp = true → 128 ≤ n → (s.hw.can ch.val).mayRejoin s.hw.time.clock = true →
    (s.hw.par 0x0E11 = 0 ∨ (s.hw.can ch.val).restart = true) →
      exec (.canBusoffRecovery ch n) s = .next (s.put (s.hw.canRejoin ch.val))) ∧
  (∀ (s : State) (d : Desc) (h : Hw), s.hw.RunsTo 0x0E05 d h → d.num 16 1 ≤ 3 → (h.can (d.num 16 1)).mayRejoin
    h.time.clock = true →
      exec (.canBusoffRestart d) s = .next (s.put ((h.canRejoin (d.num 16 1)).complete d.req .done))) ∧
  (∀ (s : State) (ch : Fin 4), s.hw.netUp = true →
      exec (.canTxvrFault ch true) s = .next (s.put ((s.hw.modCan ch.val (fun c => { c with txvrFault := true })).raiseOnce
      fltCanTxvrFault (BitVec.ofNat 8 ch.val)))) ∧
  (∀ (s : State) (ch : Fin 4) (f : CanFrame), s.hw.canOn ch.val = true → s.hw.fbChannel = some ch.val → f.fmt = .xl →
    s.hw.canAllows ch.val .xl = true → f.word &&& 0x3FFFFFFF = BitVec.ofNat 32 (s.hw.par 0x0E14 % 2 ^ 11) →
      exec (.canFallbackRequest ch f) s = .next (s.put (if f.data.length = 64 then s.hw.runRaw .can (rawOfBytes f.data) []
      false else s.hw.count 0x0BE 1)))

/-- A schedule in range waits for its channel's next reference message and takes effect with it, completing DONE, as the
reference mark begins a basic cycle (R374); a potential master takes over after its delay, and two basic cycles without
a reference message raise CAN_TT_REF_LOST (R376). -/
def Obligations.TimeTriggeredChannels : Prop :=
  (∀ (s : State) (d : Desc) (h : Hw) (ch : Nat) (t : TtSchedule), s.hw.RunsTo 0x0E04 d h → h.mode.mode ≠ .baseCamp → d.num 24 4 ≠ 0 → d.num 16 8 % 8
    = 0 → ttParse (slice d.dma 0 (d.num 24 4)) = some (ch, t) →
      exec (.canTtLoad d) s = .next (s.put ((h.modCan ch (fun c => { c with ttNext := some (t, d.req) })).completeOpt
      ((h.can ch).ttNext.map (·.2)) .superseded))) ∧
  (∀ (s : State) (d : Desc) (h : Hw), s.hw.RunsTo 0x0E04 d h → h.mode.mode ≠ .baseCamp → d.num 24 4 = 0 →
      exec (.canTtLoad d) s = .next (s.put (h.ttLeave d.req))) ∧
  (∀ (s : State) (ch : Fin 4) (cycle global : Nat) (own : Bool) (h : Hw), s.hw.canOn ch.val = true →
    own = false ∨ s.hw.ttPotential ch.val = true → h = (s.hw.ttEnd ch.val
    cycle).ttBegin ch.val → (h.can ch.val).tt.isSome = true →
      exec (.canTtReference ch cycle global own) s = .next (s.put (h.ttMark ch.val cycle (global % 2 ^ 16) own))) ∧
  (∀ (s : State) (ch : Fin 4) (t : TtSchedule) (m : Nat), s.hw.canOn ch.val = true → (s.hw.can ch.val).tt = some t →
    m = s.hw.par 0x0E16 / 2 ^ (4 * ch.val) % 16 → 8 ≤ m → s.hw.sinceRef ch.val (t.length + 8 * (m % 8 + 1)) = true →
      exec (.canTtMasterChange ch) s = .next (s.put ((s.hw.ttMark ch.val (((s.hw.can ch.val).cycle + 1) % 2 ^ t.cycles) 0
      true).occur fltCanTtMasterChange (BitVec.ofNat 8 ch.val)))) ∧
  (∀ (s : State) (ch : Fin 4) (t : TtSchedule), s.hw.netUp = true → (s.hw.can ch.val).tt = some t → (s.hw.can
    ch.val).refLost = false → s.hw.sinceRef ch.val (2 * t.length) = true →
      exec (.canTtRefLost ch) s = .next (s.put ((s.hw.modCan ch.val (fun c => { c with refLost := true })).raiseOnce
      fltCanTtRefLost (BitVec.ofNat 8 ch.val))))

/-- CAN_SESSION_OPEN with an identity of the KEYS image opens a MOTION session or completes AUTH_DENIED or NO_RESOURCE
(R379); a link that goes down raises ETH_LINK_DOWN and one that comes up clears it (R387); a diagnostic message is
acknowledged by what the module can take (R383). -/
def Obligations.CanSessionsAndEthernet : Prop :=
  (∀ (s : State) (d : Desc) (h x : Hw) (b : List Byte), s.hw.RunsTo 0x0E01 d h → h.canIdentity (BitVec.ofNat 32 (d.num 16
    4)) = true → h.sessionCount (·.viaCan) < 2 → h.sessionCount (fun s => s.auth == .motion) < 8 → h.openSession .motion
    true true (BitVec.ofNat 32 (d.num 16 4)) = (x, some b) →
      exec (.canSessionOpen d) s = .next (s.put (x.completeAt d.req .done h.time.now b))) ∧
  (∀ (s : State) (d : Desc) (h : Hw), s.hw.RunsTo 0x0E01 d h → h.canIdentity (BitVec.ofNat 32 (d.num 16 4)) = false →
      exec (.canSessionOpen d) s = .next (s.put (h.complete d.req .authDenied))) ∧
  (∀ (s : State) (e1 : Bool) (n : Nat), s.hw.netUp = true → s.hw.portUsed e1 = true → 100 * msTicks ≤ n →
      exec (.ethLinkDown e1 n) s = .next (s.put ((s.hw.setLink e1 false).raiseOnce fltEthLinkDown (portSource e1)))) ∧
  (∀ (s : State) (e1 : Bool), s.hw.netUp = true → s.hw.portUsed e1 = true →
      exec (.ethLinkUp e1) s = .next (s.put ((s.hw.setLink e1 true).clearFault fltEthLinkDown.code (portSource e1)))) ∧
  (∀ (s : State) (a : W16) (n : Nat), s.hw.netUp = true → s.hw.net.e0Up = true → s.hw.unset 0x0E19 = false →
    s.hw.par 0x0E19 = a.toNat → s.hw.appRuns = true →
      exec (.doipDiagnosticMessage a n) s = .next (s.put (if 4096 < n then s.hw.emit (.doip 0x04) else (s.hw.emit (.doip
      0)).count 0x0BD 1)))

/-- The roles of a wake follow both preferences and, where they agree, the serial numbers (R389); a frame is sent with the
next number and counted, a frame whose check fails is discarded and counted (R390); PARTNER_OK opening is counted and
judged (R394), its closing ends it (R395), and 1 ms without a frame with PARTNER_OK closed raises PAIR_LINK_LOST. -/
def Obligations.TeamSharesItsRoles : Prop :=
  (∀ (s : State) (theirs : Bool) (serial : Nat) (late : Bool), s.hw.awake = true → s.hw.roped = true → s.hw.par 0x0E17 = 0
    → s.hw.pair.exchanged = false → (s.hw.par 0x0F02 == 0) ≠ theirs →
      exec (.pairRoleExchange (some (theirs, serial)) late) s = .next (s.put ({ s.hw with
        pair := { s.hw.pair with
          partner := true, frameAt := s.hw.time.now.toNat, lead := (s.hw.par 0x0F02 == 0) && !late, holder := s.hw.par 0x0F02 ==
            0, exchanged := true } } : Hw).holderDrives)) ∧
  (∀ (own other : Nat) (lead : Bool),
      pairRoles lead lead own other = (decide (own < other), decide (own < other), true)) ∧
  (∀ (s : State), s.hw.pairOn = true → s.hw.net.e1Up = true →
      exec .pairFrameSend s = .next (s.put (((({ s.hw with pair := { s.hw.pair with seq := s.hw.pair.seq + 1 } } : Hw).emit
      (.pair s.hw.pairFrame)).count 0x0C0 1).count 0x0BB 1))) ∧
  (∀ h : Hw, h.pairFrame.seq = h.pair.seq ∧ h.pairFrame.second = !h.pair.lead ∧ h.pairFrame.okDriven = h.partnerOk ∧
      h.pairFrame.periodStart = h.ctlA.periodStart) ∧
  (∀ (s : State) (f : PairFrame), s.hw.pairOn = true → f.crcOk = false →
      exec (.pairFrameReceived f) s = .next (s.put ((s.hw.count 0x0BA 1).count 0x0C2 1))) ∧
  (∀ (s : State) (f : PairFrame), s.hw.pairOn = true → f.crcOk = true →
      exec (.pairFrameReceived f) s = .next (s.put (s.hw.pairTake f))) ∧
  (∀ (s : State), s.hw.awake = true → s.hw.roped = true → s.hw.pair.okIn = true →
      exec .partnerOkOpen s = .next (s.put (({ s.hw with pair := { s.hw.pair with okIn := false, opened := true } } :
      Hw).count 0x0C5 1).pairJudge)) ∧
  (∀ (s : State), s.hw.awake = true → s.hw.roped = true →
      exec .partnerOkClose s = .next (s.put ({ s.hw with pair := { s.hw.pair with okIn := true, opened := false } } :
      Hw).pairJudge)) ∧
  (∀ (s : State), s.hw.pairOn = true → s.hw.pair.partner = true → s.hw.pairStale msTicks = false →
      exec .pairFrameTimeout s = .next (s.put s.hw.pairJudge)) ∧
  (∀ (s : State) (x : Hw), s.hw.pairOn = true → s.hw.pair.partner = true → x = s.hw.pairJudge → s.hw.pairStale msTicks = true →
    s.hw.pair.okIn = true →
      exec .pairFrameTimeout s = .next (s.put (((({ x with pair := { x.pair with linkLost := true } } :
      Hw).loopGone .brA).loopGone .brB).raiseOnce fltPairLinkLost 0xFF))) ∧
  (∀ (s : State), s.hw.pairOn = true → s.hw.pairMismatch = true → heldFor s.hw.pair.mismatchAt msTicks s.hw.time.now.toNat =
    true →
      exec .pairOkMismatch s = .next (s.put (s.hw.raiseOnce fltPairOkMismatch 0xFF))) ∧
  (∀ (h : Hw) (b : Bridge), h.pair.opened = false → h.pairStale (500 * usTicks) = true → h.takeOver b = h.taken b)
end

