-- ==== Sys2Proof/Laws/Descriptor.lean ====
section
/-!
SUPPORT. Laws/Descriptor.lean: what the common front of every descriptor does (R296): an executed descriptor reaches its own
part, a refused one completes with the first failure's status, and one that cannot start leaves the module alone.
-/
namespace Sys2Proof.Machine

/-- An executed descriptor runs its own part. -/
theorem Hw.descriptor_runs {g h : Hw} {op : Nat} {d : Desc} {own : Req → Hw → Hw} (r : g.RunsTo op d h) :
    g.descriptor op d own = own d.req h := by
  obtain ⟨⟨h1, h2, h3, h4⟩, rfl⟩ := r
  simp [Hw.descriptor, Hw.checked, h1, h2, h3, h4, Hw.begun]

/-- A descriptor that fails a check completes with that check's status. -/
theorem Hw.descriptor_refused {g : Hw} {op : Nat} {d : Desc} {own : Req → Hw → Hw} {st : Status} (h1 : d.member = false)
    (h2 : g.canStart d = true) (h3 : g.heldBySwap op d = false) (h4 : (g.started d).firstFailure op d = some st)
    (h5 : st ≠ .safetyPdu) : g.descriptor op d own = (g.started d).complete d.req st := by
  simp only [Hw.descriptor, Hw.checked, h1, h2, h3, h4]
  cases st <;> simp_all

/-- A descriptor whose path does not take it leaves the module as it is. -/
theorem Hw.descriptor_waits {g : Hw} {op : Nat} {d : Desc} {own : Req → Hw → Hw} (h1 : d.member = false)
    (h2 : g.canStart d = false ∨ g.heldBySwap op d = true) : g.descriptor op d own = g := by
  rcases h2 with h2 | h2 <;> simp [Hw.descriptor, Hw.checked, h1, h2]

/-- Whatever an operation on the module does, the command that runs it ends in a next state with the queue as it was. -/
theorem onHw_put (f : Hw → Hw) (s : State) : onHw f s = .next (s.put (f s.hw)) := rfl

end Sys2Proof.Machine
end

