-- ==== Sys2Proof/Laws/Evolve.lean ====
section
/-!
SUPPORT. Laws/Evolve.lean: soundness and what is never taken back as one predicate `Ev`, the lemmas it is carried through an
operation with, the laws of the OTP array, and the lemmas of the operations on queues and fault history.
-/
namespace Sys2Proof.Machine
/-- What a module is held against: an earlier module, and whether its OTP bytes are to stand as they were. -/
structure Since where
  hw : Hw
  still : Bool

/-- `h` is sound and follows `g`, over the parts of the module that this speaks of. -/
def EvP (g : Since) (vals : Tab Nat) (hist : List Entry) (events : List Waiting) (otp : List Host.Cell) (clock free : Nat)
    (out : List Output) : Prop :=
  ((∀ p ∈ vals, p.2 ≤ 2 ^ 48 - 1) ∧ hist.length ≤ 256 ∧ events.length ≤ 64 ∧ Memory.wf otp = true) ∧
  (∀ a k, (memRead g.hw.otp.bytes a).getLsbD k = true → (memRead otp a).getLsbD k = true) ∧
  g.hw.time.clock ≤ clock ∧ g.hw.free ≤ free ∧ g.hw.out <:+ out ∧ (g.still = true → otp = g.hw.otp.bytes)

/-- `h` is sound and follows `g`. -/
def Ev (g : Since) (h : Hw) : Prop :=
  EvP g h.cnt.vals h.flt.hist h.host.events h.otp.bytes h.time.clock h.free h.out

theorem ev_iff (g : Since) (h : Hw) :
    Ev g h ↔ h.Sound ∧ g.hw.Follows h ∧ (g.still = true → h.otp.bytes = g.hw.otp.bytes) :=
  ⟨fun e => ⟨⟨e.1.1, e.1.2.1, e.1.2.2.1, e.1.2.2.2⟩, ⟨e.2.1, e.2.2.1, e.2.2.2.1, e.2.2.2.2.1⟩, e.2.2.2.2.2⟩,
   fun e => ⟨⟨e.1.1, e.1.2, e.1.3, e.1.4⟩, e.2.1.1, e.2.1.2, e.2.1.3, e.2.1.4, e.2.2⟩⟩

theorem ev_fold (g : Since) (h : Hw) :
    EvP g h.cnt.vals h.flt.hist h.host.events h.otp.bytes h.time.clock h.free h.out = Ev g h := rfl

theorem ev_mk (g : Since) (time : Time) (mode : ModeSt) (pwr : Power) (tests : List TestRun) (sen : Sense) (pos : Pos) (ctlA ctlB : Ctl)
    (gateA gateB : Gate) (sh : Shared) (lv : Lv) (chg : Chg) (act : Act) (saf : Safety) (host : HostSt) (slots : Tab Slot)
    (prm : Params) (img : Images) (otp : Otp) (cnt : Counters) (flt : Faults) (net : Net) (pair : Pair) (out : List Output)
    (free : Nat) :
    Ev g (Hw.mk time mode pwr tests sen pos ctlA ctlB gateA gateB sh lv chg act saf host slots prm img otp cnt flt net pair
      out free) = EvP g cnt.vals flt.hist host.events otp.bytes time.clock free out := rfl

theorem ev_ite {g : Since} {a b : Hw} {c : Prop} [Decidable c] (ha : Ev g a) (hb : Ev g b) : Ev g (if c then a else b) := by
  split <;> assumption

/-- A number stays within a table whose entries have it. -/
theorem tab_set_le {t : Tab Nat} {m i v : Nat} (ht : ∀ p ∈ t, p.2 ≤ m) (hv : v ≤ m) : ∀ p ∈ t.set i v, p.2 ≤ m := by
  fun_induction Tab.set t i v <;> simp only [List.forall_mem_cons] at ht ⊢ <;> grind

theorem Hw.emit_ev {g : Since} {h : Hw} (o : Output) (e : Ev g h) : Ev g (h.emit o) :=
  ⟨e.1, e.2.1, e.2.2.1, e.2.2.2.1, e.2.2.2.2.1.trans (List.suffix_cons _ _), e.2.2.2.2.2⟩

theorem Hw.count_ev {g : Since} {h : Hw} (i n : Nat) (e : Ev g h) : Ev g (h.count i n) :=
  ⟨⟨tab_set_le e.1.1 (Nat.min_le_right _ _), e.1.2⟩, e.2⟩

theorem Hw.drawn_ev {g : Since} {h : Hw} (e : Ev g h) : Ev g h.drawn :=
  ⟨e.1, e.2.1, e.2.2.1, Nat.le_succ_of_le e.2.2.2.1, e.2.2.2.2⟩

theorem Hw.setRing_ev {g : Since} {h : Hw} (n : Nat) (r : Ring) (e : Ev g h) : Ev g (h.setRing n r) := e
theorem Hw.setSession_ev {g : Since} {h : Hw} (n : Nat) (r : Session) (e : Ev g h) : Ev g (h.setSession n r) := e
theorem Hw.putPar_ev {g : Since} {h : Hw} (n v : Nat) (e : Ev g h) : Ev g (h.putPar n v) := e
theorem Hw.modCtl_ev {g : Since} {h : Hw} (b : Bridge) (f : Ctl → Ctl) (e : Ev g h) : Ev g (h.modCtl b f) := by cases b <;> exact e
theorem Hw.modGate_ev {g : Since} {h : Hw} (b : Bridge) (f : Gate → Gate) (e : Ev g h) : Ev g (h.modGate b f) := by cases b <;> exact e
theorem Hw.addEnergy_ev {g : Since} {h : Hw} (i w : Nat) (e : Ev g h) : Ev g (h.addEnergy i w) := Hw.count_ev (h := { h with cnt := _ }) _ _ e

theorem Hw.msix_ev {g : Since} {h : Hw} (v : Nat) (e : Ev g h) : Ev g (h.msix v) := by
  unfold Hw.msix
  split
  · exact e
  · split
    · exact e
    · exact Hw.emit_ev _ e

theorem Hw.signalRing_ev {g : Since} {h : Hw} (n : Nat) (e : Ev g h) : Ev g (h.signalRing n) := by
  unfold Hw.signalRing
  split
  · exact e
  · exact Hw.msix_ev _ (Hw.setRing_ev _ _ e)

theorem Hw.coalesce_ev {g : Since} {h : Hw} (n : Nat) (u : Bool) (e : Ev g h) : Ev g (h.coalesce n u) := by
  unfold Hw.coalesce
  exact ev_ite (Hw.signalRing_ev _ e) e

theorem Hw.place_ev {g : Since} {h : Hw} (n : Nat) (w : Waiting) (e : Ev g h) : Ev g (h.place n w) := by
  cases w <;> exact Hw.coalesce_ev _ _ (Hw.setRing_ev _ _ (Hw.emit_ev _ e))

theorem Hw.postWaiting_ev {g : Since} (fuel n : Nat) {h : Hw} (e : Ev g h) : Ev g (Hw.postWaiting fuel n h) := by
  fun_induction Hw.postWaiting fuel n h <;> grind [Hw.place_ev, Hw.setRing_ev]

theorem Hw.queueCompletion_ev {g : Since} {h : Hw} (n : Nat) (tag : W32) (st : Byte) (time : W64) (e : Ev g h) :
    Ev g (h.queueCompletion n tag st time) := by
  unfold Hw.queueCompletion
  exact ev_ite (ev_ite (Hw.place_ev _ _ e) (Hw.setRing_ev _ _ e)) e

theorem Hw.queueTlm_ev {g : Since} {h : Hw} (n : Nat) (ty : W16) (time : W64) (body : List Byte) (e : Ev g h) :
    Ev g (h.queueTlm n ty time body) := by
  unfold Hw.queueTlm
  exact ev_ite (ev_ite (Hw.place_ev _ _ (Hw.setRing_ev _ _ e)) (ev_ite (Hw.setRing_ev _ _ e)
    (Hw.count_ev _ _ (Hw.setRing_ev _ _ e)))) e

theorem Hw.queueEvent_ev {g : Since} {h : Hw} (ty : W16) (time : W64) (body : List Byte) (e : Ev g h) :
    Ev g (h.queueEvent ty time body) := by
  unfold Hw.queueEvent
  dsimp only
  split
  · exact ev_ite (Hw.place_ev _ _ e) (ev_ite e (Hw.count_ev _ _ e))
  · split
    · rename_i hl
      refine ⟨⟨e.1.1, e.1.2.1, ?_, e.1.2.2.2⟩, e.2⟩
      simp only [List.length_append, List.length_cons, List.length_nil]
      omega
    · exact Hw.count_ev _ _ e

theorem Hw.faultRecord_ev {g : Since} {h : Hw} (x : Entry) (t : Byte) (e : Ev g h) : Ev g (h.faultRecord x t) :=
  Hw.queueEvent_ev _ _ _ e

theorem Hw.nextSeq_ev {g : Since} {h : Hw} (e : Ev g h) : Ev g h.nextSeq := e

theorem takeFirst_length {p : Entry → Bool} {l : List Entry} {x : Entry} {t : List Entry} (h : takeFirst p l = some (x, t)) :
    t.length + 1 = l.length := by
  fun_induction takeFirst p l generalizing x t <;> grind [Option.map_eq_some_iff]

theorem victim_length {l : List Entry} {x : Entry} {t : List Entry} {n : Nat} (h : victim l = some (x, t, n)) :
    t.length + 1 = l.length := by
  grind [victim, takeFirst_length]

/-- The history never has more than its 256 entries (R361). -/
theorem Faults.keep_length {f : Faults} (x : Entry) (h : f.hist.length ≤ 256) : (f.keep x).1.hist.length ≤ 256 := by
  grind [Faults.keep, victim_length]

theorem Hw.noteNew_ev {g : Since} {h : Hw} (code : W16) (cls : FClass) (src : Byte) (arg : W32) (active : Bool) (e : Ev g h) :
    Ev g (h.noteNew code cls src arg active).1 := by
  unfold Hw.noteNew
  dsimp only
  have e1 : Ev g ({ h with flt := (h.flt.keep (h.newEntry code cls src arg active)).1 } : Hw) :=
    ⟨⟨e.1.1, Faults.keep_length _ e.1.2.1, e.1.2.2⟩, e.2⟩
  have e2 := Hw.count_ev 0x09F 1 (Hw.nextSeq_ev e1)
  have e3 := Hw.faultRecord_ev (h.newEntry code cls src arg active) 0
    (ev_ite (c := (h.flt.keep (h.newEntry code cls src arg active)).2.2 = true) (Hw.count_ev 0x09E 1 e2) e2)
  exact ev_ite (Hw.msix_ev _ e3) e3

theorem Hw.note_ev {g : Since} {h : Hw} (code : W16) (cls : FClass) (src : Byte) (arg : W32) (active : Bool) (e : Ev g h) :
    Ev g (h.note code cls src arg active) := by
  have k := Hw.noteNew_ev code cls src arg active e
  unfold Hw.note
  split
  · exact Hw.faultRecord_ev _ _ (Hw.count_ev _ _ (Hw.nextSeq_ev ⟨⟨e.1.1, by grind [e.1.2.1], e.1.2.2⟩, e.2⟩))
  · grind [Hw.noteNew_ev]

theorem Hw.postEvent_ev {g : Since} {h : Hw} (ty : W16) (time : W64) (body : List Byte) (e : Ev g h) :
    Ev g (h.postEvent ty time body) := by
  unfold Hw.postEvent
  have e1 := Hw.queueEvent_ev ty time body e
  dsimp only
  split <;> exact ev_ite (Hw.note_ev _ _ _ _ _ e1) e1

theorem Hw.postTlm_ev {g : Since} {h : Hw} (n : Nat) (ty : W16) (time : W64) (body : List Byte) (e : Ev g h) :
    Ev g (h.postTlm n ty time body) := by
  unfold Hw.postTlm
  have e1 := Hw.queueTlm_ev n ty time body e
  exact ev_ite (Hw.note_ev _ _ _ _ _ e1) e1

theorem Hw.clearFault_ev {g : Since} {h : Hw} (code : W16) (src : Byte) (e : Ev g h) : Ev g (h.clearFault code src) := by
  unfold Hw.clearFault
  split
  · refine Hw.faultRecord_ev _ _ (Hw.nextSeq_ev ⟨⟨e.1.1, ?_, e.1.2.2⟩, e.2⟩)
    simpa using e.1.2.1
  · split
    · exact Hw.faultRecord_ev _ _ (Hw.nextSeq_ev e)
    · exact e

theorem Hw.completeAll_ev {g : Since} (hc : ∀ {h : Hw} (q : Req) (st : Status), Ev g h → Ev g (h.complete q st)) (l : List Req)
    (st : Status) {h : Hw} (e : Ev g h) : Ev g (Hw.completeAll l st h) := by
  fun_induction Hw.completeAll l st h <;> grind
/-- What an outcome of a command keeps. -/
def OutEv (g : Since) (o : Host.Outcome State Fault Refusal) : Prop := ∀ t, o = .next t → Ev g t.hw
theorem onHw_ev {g : Since} {s : State} {f : Hw → Hw} (hf : ∀ {h : Hw}, Ev g h → Ev g (f h)) (e : Ev g s.hw) : OutEv g (onHw f s) := by
  intro t ht
  simp only [onHw, Host.Outcome.next.injEq] at ht
  subst ht
  exact hf e
theorem foldl_ev {g : Since} {α : Type} (f : Hw → α → Hw) (l : List α) (hf : ∀ (x : Hw) (a : α), Ev g x → Ev g (f x a)) {h : Hw}
    (e : Ev g h) : Ev g (l.foldl f h) := List.foldlRecOn l f e fun x ex a _ => hf x a ex
theorem memSorted_mono {lo hi : Nat} {m : List Host.Cell} (h : memSorted hi m = true) (hl : lo ≤ hi) : memSorted lo m = true := by
  cases m <;> grind [memSorted]
theorem memRead_below {lo b : Nat} {m : List Host.Cell} (h : memSorted lo m = true) (hb : b < lo) : memRead m b = 0 := by
  fun_induction memSorted lo m <;> grind [memRead]
theorem memSorted_write {lo a : Nat} {v : Byte} {m : List Host.Cell} (h : memSorted lo m = true) (ha : lo ≤ a) :
    memSorted lo (memWrite m a v) = true := by
  fun_induction memWrite m a v generalizing lo <;> grind [memSorted, memSorted_mono]
theorem memRead_write {lo a b : Nat} {v : Byte} {m : List Host.Cell} (h : memSorted lo m = true) :
    memRead (memWrite m a v) b = if b = a then v else memRead m b := by
  fun_induction memWrite m a v generalizing lo <;> grind [memSorted, memRead, memRead_below]
theorem memBurn_wf {m : List Host.Cell} (l : List Byte) (a : Nat) (h : Memory.wf m = true) : Memory.wf (memBurn m a l) = true := by
  fun_induction memBurn m a l <;> grind [Memory.wf, memSorted_write]
/-- Programming keeps every programmed bit. -/
theorem memBurn_keeps {m : List Host.Cell} (l : List Byte) (a : Nat) (h : Memory.wf m = true) (i k : Nat)
    (hb : (memRead m i).getLsbD k = true) : (memRead (memBurn m a l) i).getLsbD k = true := by
  fun_induction memBurn m a l with
  | case1 => exact hb
  | case2 m a b t ih =>
    refine ih (memSorted_write h (Nat.zero_le _)) ?_
    grind [Memory.wf, memRead_write]
theorem ev_burn {g : Since} {h : Hw} (l : List Byte) (a : Nat) (hb : g.still = false) (e : Ev g h) :
    EvP g h.cnt.vals h.flt.hist h.host.events (memBurn h.otp.bytes a l) h.time.clock h.free h.out :=
  ⟨⟨e.1.1, e.1.2.1, e.1.2.2.1, memBurn_wf _ _ e.1.2.2.2⟩,
   fun i k x => memBurn_keeps _ _ e.1.2.2.2 _ _ (e.2.1 i k x), e.2.2.1, e.2.2.2.1, e.2.2.2.2.1,
   fun x => by simp [hb] at x⟩
end Sys2Proof.Machine
end

