-- ==== Sys2Proof/Laws/EvolveOps.lean ====
section
/-!
SUPPORT. Laws/EvolveOps.lean: what every operation keeps of the limits and of what is never taken back, for the shared operations, the checks of a descriptor, parameters, setpoints, snapshots, grants, OTP records and cinches: one lemma
for each operation, named after it.
-/
set_option linter.unusedSimpArgs false
namespace Sys2Proof.Machine

theorem Hw.busyNow_ev {g0 : Since} {h : Hw} (eh : Ev g0 h) : Ev g0 (Hw.busyNow h) := by
  unfold Hw.busyNow
  repeat' first
    | (with_reducible first | assumption | intro _ | apply ev_ite)
    | (simp only [ev_mk, ev_fold]) | split | with_reducible apply foldl_ev | dsimp only

theorem Hw.canRespond_ev {g0 : Since} {h : Hw} (tag : W32) (st : Byte) (time : W64) (extra : List Byte)
     (eh : Ev g0 h) :
    Ev g0 (Hw.canRespond h tag st time extra) := by
  unfold Hw.canRespond
  repeat' first
    | (with_reducible first | assumption | intro _ | apply ev_ite | apply Hw.emit_ev | apply Hw.count_ev)
    | (simp only [ev_mk, ev_fold]) | split | with_reducible apply foldl_ev | dsimp only

theorem Hw.completeRaw_ev {g0 : Since} {h : Hw} (q : Req) (st : Status) (time : W64) (extra : List Byte)
     (eh : Ev g0 h) :
    Ev g0 (Hw.completeRaw h q st time extra) := by
  unfold Hw.completeRaw
  repeat' first
    | (with_reducible first | assumption | intro _ | apply ev_ite | apply Hw.canRespond_ev | apply Hw.setRing_ev
                            | apply Hw.queueCompletion_ev)
    | (simp only [ev_mk, ev_fold]) | split | with_reducible apply foldl_ev | dsimp only

theorem Hw.settleOne_ev {g0 : Since} {h : Hw} (n : Nat) (eh : Ev g0 h) : Ev g0 (Hw.settleOne h n) := by
  unfold Hw.settleOne
  repeat' first
    | (with_reducible first | assumption | intro _ | apply ev_ite | apply Hw.setRing_ev | apply Hw.completeRaw_ev)
    | (simp only [ev_mk, ev_fold]) | split | with_reducible apply foldl_ev | dsimp only

theorem Hw.settleRing_ev {g0 : Since} {h : Hw} (n : Nat) (eh : Ev g0 h) : Ev g0 (Hw.settleRing h n) := by
  unfold Hw.settleRing
  repeat' first
    | (with_reducible first | assumption | intro _ | apply ev_ite | apply Hw.settleOne_ev)
    | (simp only [ev_mk, ev_fold]) | split | with_reducible apply foldl_ev | dsimp only

theorem Hw.settleSession_ev {g0 : Since} {h : Hw} (n : Nat) (eh : Ev g0 h) : Ev g0 (Hw.settleSession h n) := by
  unfold Hw.settleSession
  repeat' first
    | (with_reducible first | assumption | intro _ | apply ev_ite | apply Hw.clearFault_ev | apply Hw.completeRaw_ev)
    | (simp only [ev_mk, ev_fold]) | split | with_reducible apply foldl_ev | dsimp only

theorem Hw.completeAt_ev {g0 : Since} {h : Hw} (q : Req) (st : Status) (time : W64) (extra : optParam
     (List Byte) []) (eh : Ev g0 h) :
    Ev g0 (Hw.completeAt h q st time extra) := by
  unfold Hw.completeAt
  repeat' first
    | (with_reducible first | assumption | intro _ | apply ev_ite | apply Hw.completeRaw_ev
                            | apply Hw.settleSession_ev | apply Hw.settleRing_ev)
    | (simp only [ev_mk, ev_fold]) | split | with_reducible apply foldl_ev | dsimp only

theorem Hw.complete_ev {g0 : Since} {h : Hw} (q : Req) (st : Status) (eh : Ev g0 h) : Ev g0 (Hw.complete h q st) := by
  unfold Hw.complete
  repeat' first
    | (with_reducible first | assumption | intro _ | apply ev_ite | apply Hw.completeAt_ev)
    | (simp only [ev_mk, ev_fold]) | split | with_reducible apply foldl_ev | dsimp only

theorem Hw.completeOpt_ev {g0 : Since} {h : Hw} (q : Option Req) (st : Status) (eh : Ev g0 h) :
    Ev g0 (Hw.completeOpt h q st) := by
  unfold Hw.completeOpt
  repeat' first
    | (with_reducible first | assumption | intro _ | apply ev_ite | apply Hw.complete_ev)
    | (simp only [ev_mk, ev_fold]) | split | with_reducible apply foldl_ev | dsimp only

theorem Hw.setPattern_ev {g0 : Since} {h : Hw} (b : Bridge) (p : BState) (eh : Ev g0 h) :
    Ev g0 (Hw.setPattern h b p) := by
  unfold Hw.setPattern
  repeat' first
    | (with_reducible first | assumption | intro _ | apply ev_ite | apply Hw.modCtl_ev | apply Hw.count_ev)
    | (simp only [ev_mk, ev_fold]) | split | with_reducible apply foldl_ev | dsimp only

theorem Hw.refreshSafe_ev {g0 : Since} {h : Hw} (b : Bridge) (eh : Ev g0 h) : Ev g0 (Hw.refreshSafe h b) := by
  unfold Hw.refreshSafe
  repeat' first
    | (with_reducible first | assumption | intro _ | apply ev_ite | apply Hw.setPattern_ev)
    | (simp only [ev_mk, ev_fold]) | split | with_reducible apply foldl_ev | dsimp only

theorem Hw.refreshBoth_ev {g0 : Since} {h : Hw} (eh : Ev g0 h) : Ev g0 (Hw.refreshBoth h) := by
  unfold Hw.refreshBoth
  repeat' first
    | (with_reducible first | assumption | intro _ | apply ev_ite | apply Hw.refreshSafe_ev)
    | (simp only [ev_mk, ev_fold]) | split | with_reducible apply foldl_ev | dsimp only

theorem Hw.storePending_ev {g0 : Since} {h : Hw} (b : Bridge) (eh : Ev g0 h) : Ev g0 (Hw.storePending h b) := by
  unfold Hw.storePending
  repeat' first
    | (with_reducible first | assumption | intro _ | apply ev_ite | apply Hw.modCtl_ev | apply Hw.completeOpt_ev)
    | (simp only [ev_mk, ev_fold]) | split | with_reducible apply foldl_ev | dsimp only

theorem Hw.orderSafe_ev {g0 : Since} {h : Hw} (b : Bridge) (eh : Ev g0 h) : Ev g0 (Hw.orderSafe h b) := by
  unfold Hw.orderSafe
  repeat' first
    | (with_reducible first | assumption | intro _ | apply ev_ite | apply Hw.modCtl_ev | apply Hw.storePending_ev
                            | apply Hw.refreshSafe_ev)
    | (simp only [ev_mk, ev_fold]) | split | with_reducible apply foldl_ev | dsimp only

theorem Hw.orderBoth_ev {g0 : Since} {h : Hw} (eh : Ev g0 h) : Ev g0 (Hw.orderBoth h) := by
  unfold Hw.orderBoth
  repeat' first
    | (with_reducible first | assumption | intro _ | apply ev_ite | apply Hw.orderSafe_ev)
    | (simp only [ev_mk, ev_fold]) | split | with_reducible apply foldl_ev | dsimp only

theorem Hw.modFus_ev {g0 : Since} {h : Hw} (b : Bridge) (f : Fusion → Fusion) (eh : Ev g0 h) :
    Ev g0 (Hw.modFus h b f) := by
  unfold Hw.modFus
  repeat' first
    | (with_reducible first | assumption | intro _ | apply ev_ite)
    | (simp only [ev_mk, ev_fold]) | split | with_reducible apply foldl_ev | dsimp only

theorem Hw.chgGo_ev {g0 : Since} {h : Hw} (st : ChgState) (cause : Byte) (code : W16) (eh : Ev g0 h) :
    Ev g0 (Hw.chgGo h st cause code) := by
  unfold Hw.chgGo
  repeat' first
    | (with_reducible first | assumption | intro _ | apply ev_ite | apply Hw.postEvent_ev)
    | (simp only [ev_mk, ev_fold]) | split | with_reducible apply foldl_ev | dsimp only

theorem Hw.chgEndPhase_ev {g0 : Since} {h : Hw} (reason : Byte) (eh : Ev g0 h) : Ev g0 (Hw.chgEndPhase h reason) := by
  unfold Hw.chgEndPhase
  repeat' first
    | (with_reducible first | assumption | intro _ | apply ev_ite | apply Hw.postEvent_ev)
    | (simp only [ev_mk, ev_fold]) | split | with_reducible apply foldl_ev | dsimp only

theorem Hw.chgOpen_ev {g0 : Since} {h : Hw} (eh : Ev g0 h) : Ev g0 (Hw.chgOpen h) := by
  unfold Hw.chgOpen
  repeat' first
    | (with_reducible first | assumption | intro _ | apply ev_ite)
    | (simp only [ev_mk, ev_fold]) | split | with_reducible apply foldl_ev | dsimp only

theorem Hw.chgCompleteAll_ev {g0 : Since} {h : Hw} (start stop : Status) (eh : Ev g0 h) :
    Ev g0 (Hw.chgCompleteAll h start stop) := by
  unfold Hw.chgCompleteAll
  repeat' first
    | (with_reducible first | assumption | intro _ | apply ev_ite | apply Hw.completeAll_ev | apply Hw.completeOpt_ev
                            | apply Hw.complete_ev)
    | (simp only [ev_mk, ev_fold]) | split | with_reducible apply foldl_ev | dsimp only

theorem Hw.chgArrest_ev {g0 : Since} {h : Hw} (code : W16) (eh : Ev g0 h) : Ev g0 (Hw.chgArrest h code) := by
  unfold Hw.chgArrest
  repeat' first
    | (with_reducible first | assumption | intro _ | apply ev_ite | apply Hw.chgEndPhase_ev
                            | apply Hw.chgCompleteAll_ev | apply Hw.chgOpen_ev | apply Hw.chgGo_ev)
    | (simp only [ev_mk, ev_fold]) | split | with_reducible apply foldl_ev | dsimp only

theorem Hw.boostAbort_ev {g0 : Since} {h : Hw} (code : W16) (eh : Ev g0 h) : Ev g0 (Hw.boostAbort h code) := by
  unfold Hw.boostAbort
  repeat' first
    | (with_reducible first | assumption | intro _ | apply ev_ite | apply Hw.chgEndPhase_ev
                            | apply Hw.chgCompleteAll_ev | apply Hw.chgOpen_ev | apply Hw.chgGo_ev)
    | (simp only [ev_mk, ev_fold]) | split | with_reducible apply foldl_ev | dsimp only

theorem Hw.faultSafe_ev {g0 : Since} {h : Hw} (b : Bridge) (ack : Bool) (eh : Ev g0 h) :
    Ev g0 (Hw.faultSafe h b ack) := by
  unfold Hw.faultSafe
  repeat' first
    | (with_reducible first | assumption | intro _ | apply ev_ite | apply Hw.modCtl_ev | apply Hw.orderSafe_ev
                            | apply Hw.boostAbort_ev)
    | (simp only [ev_mk, ev_fold]) | split | with_reducible apply foldl_ev | dsimp only

theorem Hw.lvGo_ev {g0 : Since} {h : Hw} (st : LvState) (eh : Ev g0 h) : Ev g0 (Hw.lvGo h st) := by
  unfold Hw.lvGo
  repeat' first
    | (with_reducible first | assumption | intro _ | apply ev_ite | apply Hw.postEvent_ev)
    | (simp only [ev_mk, ev_fold]) | split | with_reducible apply foldl_ev | dsimp only

theorem Hw.lvOff_ev {g0 : Since} {h : Hw} (eh : Ev g0 h) : Ev g0 (Hw.lvOff h) := by
  unfold Hw.lvOff
  repeat' first
    | (with_reducible first | assumption | intro _ | apply ev_ite)
    | (simp only [ev_mk, ev_fold]) | split | with_reducible apply foldl_ev | dsimp only

theorem Hw.lvRest_ev {g0 : Since} {h : Hw} (st : LvState) (others : Status) (eh : Ev g0 h) :
    Ev g0 (Hw.lvRest h st others) := by
  unfold Hw.lvRest
  repeat' first
    | (with_reducible first | assumption | intro _ | apply ev_ite | apply Hw.lvOff_ev | apply Hw.lvGo_ev
                            | apply Hw.completeAll_ev | apply Hw.completeOpt_ev | apply Hw.complete_ev)
    | (simp only [ev_mk, ev_fold]) | split | with_reducible apply foldl_ev | dsimp only

theorem Hw.lvArrest_ev {g0 : Since} {h : Hw} (eh : Ev g0 h) : Ev g0 (Hw.lvArrest h) := by
  unfold Hw.lvArrest
  repeat' first
    | (with_reducible first | assumption | intro _ | apply ev_ite | apply Hw.lvRest_ev)
    | (simp only [ev_mk, ev_fold]) | split | with_reducible apply foldl_ev | dsimp only

theorem Hw.modDrive_ev {g0 : Since} {h : Hw} (i : Nat) (f : Drive → Drive) (eh : Ev g0 h) :
    Ev g0 (Hw.modDrive h i f) := by
  unfold Hw.modDrive
  repeat' first
    | (with_reducible first | assumption | intro _ | apply ev_ite)
    | (simp only [ev_mk, ev_fold]) | split | with_reducible apply foldl_ev | dsimp only

theorem Hw.engageSeen_ev {g0 : Since} {h : Hw} (i position : Nat) (eh : Ev g0 h) :
    Ev g0 (Hw.engageSeen h i position) := by
  unfold Hw.engageSeen
  repeat' first
    | (with_reducible first | assumption | intro _ | apply ev_ite | apply Hw.engage_ev)
    | (simp only [ev_mk, ev_fold]) | split | with_reducible apply foldl_ev | dsimp only

theorem Hw.seePosition_ev {g0 : Since} {h : Hw} (i position : Nat) (eh : Ev g0 h) :
    Ev g0 (Hw.seePosition h i position) := by
  unfold Hw.seePosition
  repeat' first
    | (with_reducible first | assumption | intro _ | apply ev_ite | apply Hw.place_ev | apply Hw.modDrive_ev
                            | apply Hw.engageSeen_ev)
    | (simp only [ev_mk, ev_fold]) | split | with_reducible apply foldl_ev | dsimp only

theorem Hw.startDrive_ev {g0 : Since} {h : Hw} (i code : Nat) (limit : Int) (q : Option Req) (eh : Ev g0 h) :
    Ev g0 (Hw.startDrive h i code limit q) := by
  unfold Hw.startDrive
  repeat' first
    | (with_reducible first | assumption | intro _ | apply ev_ite | apply Hw.modDrive_ev)
    | (simp only [ev_mk, ev_fold]) | split | with_reducible apply foldl_ev | dsimp only

theorem Hw.actStop_ev {g0 : Since} {h : Hw} (st : Status) (eh : Ev g0 h) : Ev g0 (Hw.actStop h st) := by
  unfold Hw.actStop
  repeat' first
    | (with_reducible first | assumption | intro _ | apply ev_ite | apply Hw.completeOpt_ev)
    | (simp only [ev_mk, ev_fold]) | split | with_reducible apply foldl_ev | dsimp only

theorem Hw.shiftArrest_ev {g0 : Since} {h : Hw} (eh : Ev g0 h) : Ev g0 (Hw.shiftArrest h) := by
  unfold Hw.shiftArrest
  repeat' first
    | (with_reducible first | assumption | intro _ | apply ev_ite | apply Hw.completeOpt_ev)
    | (simp only [ev_mk, ev_fold]) | split | with_reducible apply foldl_ev | dsimp only

theorem Hw.actHold_ev {g0 : Since} {h : Hw} (eh : Ev g0 h) : Ev g0 (Hw.actHold h) := by
  unfold Hw.actHold
  repeat' first
    | (with_reducible first | assumption | intro _ | apply ev_ite | apply Hw.shiftArrest_ev | apply Hw.actStop_ev
                            | apply Hw.startDrive_ev)
    | (simp only [ev_mk, ev_fold]) | split | with_reducible apply foldl_ev | dsimp only

theorem Hw.endIdent_ev {g0 : Since} {h : Hw} (b : Bridge) (eh : Ev g0 h) : Ev g0 (Hw.endIdent h b) := by
  unfold Hw.endIdent
  repeat' first
    | (with_reducible first | assumption | intro _ | apply ev_ite | apply Hw.orderSafe_ev)
    | (simp only [ev_mk, ev_fold]) | split | with_reducible apply foldl_ev | dsimp only

theorem Hw.abortTests_ev {g0 : Since} {h : Hw} (eh : Ev g0 h) : Ev g0 (Hw.abortTests h) := by
  unfold Hw.abortTests
  repeat' first
    | (with_reducible first | assumption | intro _ | apply ev_ite | apply Hw.completeAll_ev | apply Hw.endIdent_ev
                            | apply Hw.complete_ev)
    | (simp only [ev_mk, ev_fold]) | split | with_reducible apply foldl_ev | dsimp only

theorem Hw.abortCinches_ev {g0 : Since} {h : Hw} (eh : Ev g0 h) : Ev g0 (Hw.abortCinches h) := by
  unfold Hw.abortCinches
  repeat' first
    | (with_reducible first | assumption | intro _ | apply ev_ite | apply Hw.completeAll_ev | apply Hw.complete_ev)
    | (simp only [ev_mk, ev_fold]) | split | with_reducible apply foldl_ev | dsimp only

theorem Hw.abortGrant_ev {g0 : Since} {h : Hw} (eh : Ev g0 h) : Ev g0 (Hw.abortGrant h) := by
  unfold Hw.abortGrant
  repeat' first
    | (with_reducible first | assumption | intro _ | apply ev_ite | apply Hw.completeOpt_ev)
    | (simp only [ev_mk, ev_fold]) | split | with_reducible apply foldl_ev | dsimp only

theorem Hw.abortSetpoints_ev {g0 : Since} {h : Hw} (b : Bridge) (eh : Ev g0 h) : Ev g0 (Hw.abortSetpoints h b) := by
  unfold Hw.abortSetpoints
  repeat' first
    | (with_reducible first | assumption | intro _ | apply ev_ite | apply Hw.modCtl_ev | apply Hw.completeOpt_ev)
    | (simp only [ev_mk, ev_fold]) | split | with_reducible apply foldl_ev | dsimp only

theorem Hw.endHeldPair_ev {g0 : Since} {h : Hw} (st : Status) (eh : Ev g0 h) : Ev g0 (Hw.endHeldPair h st) := by
  unfold Hw.endHeldPair
  repeat' first
    | (with_reducible first | assumption | intro _ | apply ev_ite | apply Hw.completeOpt_ev)
    | (simp only [ev_mk, ev_fold]) | split | with_reducible apply foldl_ev | dsimp only

theorem Hw.endPair_ev {g0 : Since} {h : Hw} (st : Status) (eh : Ev g0 h) : Ev g0 (Hw.endPair h st) := by
  unfold Hw.endPair
  repeat' first
    | (with_reducible first | assumption | intro _ | apply ev_ite | apply Hw.completeOpt_ev | apply Hw.endHeldPair_ev)
    | (simp only [ev_mk, ev_fold]) | split | with_reducible apply foldl_ev | dsimp only

theorem Hw.applyStaged_ev {g0 : Since} {h : Hw} (eh : Ev g0 h) : Ev g0 (Hw.applyStaged h) := by
  unfold Hw.applyStaged
  repeat' first
    | (with_reducible first | assumption | intro _ | apply ev_ite | apply Hw.putPar_ev)
    | (simp only [ev_mk, ev_fold]) | split | with_reducible apply foldl_ev | dsimp only

theorem Hw.safetyEdge_ev {g0 : Since} {h : Hw} (m : Mode) (eh : Ev g0 h) : Ev g0 (Hw.safetyEdge h m) := by
  unfold Hw.safetyEdge
  repeat' first
    | (with_reducible first | assumption | intro _ | apply ev_ite | apply Hw.putPar_ev | apply Hw.clearFault_ev)
    | (simp only [ev_mk, ev_fold]) | split | with_reducible apply foldl_ev | dsimp only

theorem Hw.bridgeEdge_ev {g0 : Since} {h : Hw} (b : Bridge) (m : Mode) (eh : Ev g0 h) :
    Ev g0 (Hw.bridgeEdge h b m) := by
  unfold Hw.bridgeEdge
  repeat' first
    | (with_reducible first | assumption | intro _ | apply ev_ite | apply Hw.orderSafe_ev)
    | (simp only [ev_mk, ev_fold]) | split | with_reducible apply foldl_ev | dsimp only

theorem Hw.mailbox0_ev {g0 : Since} {h : Hw} (eh : Ev g0 h) : Ev g0 (Hw.mailbox0 h) := by
  unfold Hw.mailbox0
  repeat' first
    | (with_reducible first | assumption | intro _ | apply ev_ite | apply Hw.msix_ev)
    | (simp only [ev_mk, ev_fold]) | split | with_reducible apply foldl_ev | dsimp only

theorem Hw.modeEvent_ev {g0 : Since} {h : Hw} (m : Mode) (cause : Byte) (code : W16) (src : Byte) (eh : Ev g0 h) :
    Ev g0 (Hw.modeEvent h m cause code src) := by
  unfold Hw.modeEvent
  repeat' first
    | (with_reducible first | assumption | intro _ | apply ev_ite | apply Hw.postEvent_ev)
    | (simp only [ev_mk, ev_fold]) | split | with_reducible apply foldl_ev | dsimp only

theorem Hw.dischargeEdge_ev {g0 : Since} {h : Hw} (m : Mode) (eh : Ev g0 h) : Ev g0 (Hw.dischargeEdge h m) := by
  unfold Hw.dischargeEdge
  repeat' first
    | (with_reducible first | assumption | intro _ | apply ev_ite | apply Hw.completeAll_ev | apply Hw.complete_ev)
    | (simp only [ev_mk, ev_fold]) | split | with_reducible apply foldl_ev | dsimp only

theorem Hw.edge_ev {g0 : Since} {h : Hw} (m : Mode) (cause : Byte) (code : W16) (src : Byte) (eh : Ev g0 h) :
    Ev g0 (Hw.edge h m cause code src) := by
  unfold Hw.edge
  repeat' first
    | (with_reducible first | assumption | intro _ | apply ev_ite | apply Hw.modeEvent_ev | apply Hw.applyStaged_ev
                            | apply Hw.safetyEdge_ev | apply Hw.count_ev | apply Hw.dischargeEdge_ev
                            | apply Hw.bridgeEdge_ev | apply Hw.mailbox0_ev)
    | (simp only [ev_mk, ev_fold]) | split | with_reducible apply foldl_ev | dsimp only

theorem Hw.arrestDischarge_ev {g0 : Since} {h : Hw} (eh : Ev g0 h) : Ev g0 (Hw.arrestDischarge h) := by
  unfold Hw.arrestDischarge
  repeat' first
    | (with_reducible first | assumption | intro _ | apply ev_ite)
    | (simp only [ev_mk, ev_fold]) | split | with_reducible apply foldl_ev | dsimp only

theorem Hw.abortDischarge_ev {g0 : Since} {h : Hw} (eh : Ev g0 h) : Ev g0 (Hw.abortDischarge h) := by
  unfold Hw.abortDischarge
  repeat' first
    | (with_reducible first | assumption | intro _ | apply ev_ite | apply Hw.completeAll_ev | apply Hw.complete_ev)
    | (simp only [ev_mk, ev_fold]) | split | with_reducible apply foldl_ev | dsimp only

theorem Hw.enterArrest_ev {g0 : Since} {h : Hw} (code : W16) (src : Byte) (eh : Ev g0 h) :
    Ev g0 (Hw.enterArrest h code src) := by
  unfold Hw.enterArrest
  repeat' first
    | (with_reducible first | assumption | intro _ | apply ev_ite | apply Hw.abortGrant_ev
                            | apply Hw.abortSetpoints_ev | apply Hw.endPair_ev | apply Hw.abortTests_ev
                            | apply Hw.abortCinches_ev | apply Hw.abortDischarge_ev | apply Hw.edge_ev
                            | apply Hw.chgArrest_ev | apply Hw.lvArrest_ev | apply Hw.actHold_ev
                            | apply Hw.arrestDischarge_ev)
    | (simp only [ev_mk, ev_fold]) | split | with_reducible apply foldl_ev | dsimp only

theorem Hw.chgBelay_ev {g0 : Since} {h : Hw} (eh : Ev g0 h) : Ev g0 (Hw.chgBelay h) := by
  unfold Hw.chgBelay
  repeat' first
    | (with_reducible first | assumption | intro _ | apply ev_ite)
    | (simp only [ev_mk, ev_fold]) | split | with_reducible apply foldl_ev | dsimp only

theorem Hw.enterBelay_ev {g0 : Since} {h : Hw} (code : W16) (src : Byte) (eh : Ev g0 h) :
    Ev g0 (Hw.enterBelay h code src) := by
  unfold Hw.enterBelay
  repeat' first
    | (with_reducible first | assumption | intro _ | apply ev_ite | apply Hw.abortGrant_ev
                            | apply Hw.abortSetpoints_ev | apply Hw.endPair_ev | apply Hw.abortTests_ev
                            | apply Hw.abortCinches_ev | apply Hw.chgBelay_ev | apply Hw.edge_ev | apply Hw.modCtl_ev)
    | (simp only [ev_mk, ev_fold]) | split | with_reducible apply foldl_ev | dsimp only

theorem Hw.classEffect_ev {g0 : Since} {h : Hw} (cls : FClass) (code : W16) (src : Byte) (eh : Ev g0 h) :
    Ev g0 (Hw.classEffect h cls code src) := by
  unfold Hw.classEffect
  repeat' first
    | (with_reducible first | assumption | intro _ | apply ev_ite | apply Hw.enterBelay_ev | apply Hw.enterArrest_ev)
    | (simp only [ev_mk, ev_fold]) | split | with_reducible apply foldl_ev | dsimp only

theorem Hw.raiseAs_ev {g0 : Since} {h : Hw} (f : FaultId) (cls : FClass) (src : Byte) (arg : W32) (lasting : Bool)
     (eh : Ev g0 h) :
    Ev g0 (Hw.raiseAs h f cls src arg lasting) := by
  unfold Hw.raiseAs
  repeat' first
    | (with_reducible first | assumption | intro _ | apply ev_ite | apply Hw.note_ev | apply Hw.classEffect_ev
                            | apply Hw.clearFault_ev)
    | (simp only [ev_mk, ev_fold]) | split | with_reducible apply foldl_ev | dsimp only

theorem Hw.raise_ev {g0 : Since} {h : Hw} (f : FaultId) (src : Byte) (eh : Ev g0 h) : Ev g0 (Hw.raise h f src) := by
  unfold Hw.raise
  repeat' first
    | (with_reducible first | assumption | intro _ | apply ev_ite | apply Hw.raiseAs_ev)
    | (simp only [ev_mk, ev_fold]) | split | with_reducible apply foldl_ev | dsimp only

theorem Hw.occur_ev {g0 : Since} {h : Hw} (f : FaultId) (src : Byte) (eh : Ev g0 h) : Ev g0 (Hw.occur h f src) := by
  unfold Hw.occur
  repeat' first
    | (with_reducible first | assumption | intro _ | apply ev_ite | apply Hw.raiseAs_ev)
    | (simp only [ev_mk, ev_fold]) | split | with_reducible apply foldl_ev | dsimp only

theorem Hw.occurThen_ev {g0 : Since} {h : Hw} (f : FaultId) (cls : FClass) (src : Byte) (react : Hw → Hw)
     (eh : Ev g0 h) (ereact : ∀ {x : Hw}, Ev g0 x → Ev g0 (react x)) :
    Ev g0 (Hw.occurThen h f cls src react) := by
  unfold Hw.occurThen
  repeat' first
    | (with_reducible first | assumption | intro _ | apply ev_ite | apply ereact | apply ereact | apply Hw.note_ev
                            | apply Hw.classEffect_ev | apply Hw.clearFault_ev)
    | (simp only [ev_mk, ev_fold]) | split | with_reducible apply foldl_ev | dsimp only

theorem Hw.occurActed_ev {g0 : Since} {h : Hw} (f : FaultId) (src : Byte) (eh : Ev g0 h) : Ev g0 (Hw.occurActed h f src) :=
  Hw.occurThen_ev f f.cls src (fun x => x) eh (fun e => e)

theorem Hw.raiseOnce_ev {g0 : Since} {h : Hw} (f : FaultId) (src : Byte) (eh : Ev g0 h) :
    Ev g0 (Hw.raiseOnce h f src) := by
  unfold Hw.raiseOnce
  repeat' first
    | (with_reducible first | assumption | intro _ | apply ev_ite | apply Hw.raise_ev)
    | (simp only [ev_mk, ev_fold]) | split | with_reducible apply foldl_ev | dsimp only

theorem Hw.acceptTrailer_ev {g0 : Since} {h : Hw} (d : Desc) (eh : Ev g0 h) : Ev g0 (Hw.acceptTrailer h d) := by
  unfold Hw.acceptTrailer
  repeat' first
    | (with_reducible first | assumption | intro _ | apply ev_ite | apply Hw.setSession_ev | apply Hw.count_ev)
    | (simp only [ev_mk, ev_fold]) | split | with_reducible apply foldl_ev | dsimp only

theorem Hw.pduFail_ev {g0 : Since} {h : Hw} (session : Nat) (eh : Ev g0 h) : Ev g0 (Hw.pduFail h session) := by
  unfold Hw.pduFail
  repeat' first
    | (with_reducible first | assumption | intro _ | apply ev_ite | apply Hw.count_ev | apply Hw.setSession_ev
                            | apply Hw.raiseOnce_ev)
    | (simp only [ev_mk, ev_fold]) | split | with_reducible apply foldl_ev | dsimp only

theorem Hw.started_ev {g0 : Since} {h : Hw} (d : Desc) (eh : Ev g0 h) : Ev g0 (Hw.started h d) := by
  unfold Hw.started
  repeat' first
    | (with_reducible first | assumption | intro _ | apply ev_ite | apply Hw.setRing_ev)
    | (simp only [ev_mk, ev_fold]) | split | with_reducible apply foldl_ev | dsimp only

theorem Hw.touch_ev {g0 : Since} {h : Hw} (d : Desc) (eh : Ev g0 h) : Ev g0 (Hw.touch h d) := by
  unfold Hw.touch
  repeat' first
    | (with_reducible first | assumption | intro _ | apply ev_ite | apply Hw.setSession_ev)
    | (simp only [ev_mk, ev_fold]) | split | with_reducible apply foldl_ev | dsimp only

theorem Hw.admitted_ev {g0 : Since} {h : Hw} (d : Desc) (eh : Ev g0 h) : Ev g0 (Hw.admitted h d) := by
  unfold Hw.admitted
  repeat' first
    | (with_reducible first | assumption | intro _ | apply ev_ite | apply Hw.acceptTrailer_ev | apply Hw.touch_ev)
    | (simp only [ev_mk, ev_fold]) | split | with_reducible apply foldl_ev | dsimp only

theorem Hw.checked_ev {g0 : Since} {h : Hw} (op : Nat) (d : Desc) (own : Req → Hw → Hw) (eh : Ev g0 h) (eown : ∀
     (q : Req) {x : Hw}, Ev g0 x → Ev g0 (own q x)) :
    Ev g0 (Hw.checked h op d own) := by
  unfold Hw.checked
  repeat' first
    | (with_reducible first | assumption | intro _ | apply ev_ite | apply eown | apply eown | apply Hw.started_ev
                            | apply Hw.pduFail_ev | apply Hw.complete_ev | apply Hw.admitted_ev)
    | (simp only [ev_mk, ev_fold]) | split | with_reducible apply foldl_ev | dsimp only

theorem Hw.planPeriods_ev {g : Since} {h : Hw} (b : Bridge) (eh : Ev g h) : Ev g (h.planPeriods b) := by
  unfold Hw.planPeriods
  refine ev_ite ?_ eh
  cases b <;> exact ⟨eh.1, eh.2.1, eh.2.2.1, Nat.le_add_right_of_le eh.2.2.2.1, eh.2.2.2.2⟩

theorem Hw.fixAB_ev {g0 : Since} {h : Hw} (lead : Nat) (eh : Ev g0 h) : Ev g0 (Hw.fixAB h lead) := by
  unfold Hw.fixAB
  repeat' first
    | (with_reducible first | assumption | intro _ | apply ev_ite | apply Hw.planPeriods_ev)
    | (simp only [ev_mk, ev_fold]) | split | with_reducible apply foldl_ev | dsimp only

theorem Hw.periodLatch_ev {g0 : Since} {h : Hw} (base : Nat) (eh : Ev g0 h) : Ev g0 (Hw.periodLatch h base) := by
  unfold Hw.periodLatch
  repeat' first
    | (with_reducible first | assumption | intro _ | apply ev_ite)
    | (simp only [ev_mk, ev_fold]) | split | with_reducible apply foldl_ev | dsimp only

theorem Hw.paramWait_ev {g0 : Since} {h : Hw} (id v : Nat) (q : Option Req) (eh : Ev g0 h) :
    Ev g0 (Hw.paramWait h id v q) := by
  unfold Hw.paramWait
  repeat' first
    | (with_reducible first | assumption | intro _ | apply ev_ite | apply Hw.completeAll_ev | apply Hw.complete_ev)
    | (simp only [ev_mk, ev_fold]) | split | with_reducible apply foldl_ev | dsimp only

theorem Hw.safetyWrite_ev {g0 : Since} {h : Hw} (id v : Nat) (eh : Ev g0 h) : Ev g0 (Hw.safetyWrite h id v) := by
  unfold Hw.safetyWrite
  repeat' first
    | (with_reducible first | assumption | intro _ | apply ev_ite)
    | (simp only [ev_mk, ev_fold]) | split | with_reducible apply foldl_ev | dsimp only

theorem Hw.paramWrite_ev {g0 : Since} {h : Hw} (id v : Nat) (cls : PCls) (q : Req) (eh : Ev g0 h) :
    Ev g0 (Hw.paramWrite h id v cls q) := by
  unfold Hw.paramWrite
  repeat' first
    | (with_reducible first | assumption | intro _ | apply ev_ite | apply Hw.safetyWrite_ev | apply Hw.complete_ev
                            | apply Hw.putPar_ev | apply Hw.modeEdge_ev | apply Hw.paramWait_ev | apply Hw.fixAB_ev)
    | (simp only [ev_mk, ev_fold]) | split | with_reducible apply foldl_ev | dsimp only

theorem Hw.applyWaiting_ev {g0 : Since} {h : Hw} (cs : List PCls) (eh : Ev g0 h) : Ev g0 (Hw.applyWaiting h cs) := by
  unfold Hw.applyWaiting
  repeat' first
    | (with_reducible first | assumption | intro _ | apply ev_ite | apply Hw.putPar_ev | apply Hw.completeOpt_ev)
    | (simp only [ev_mk, ev_fold]) | split | with_reducible apply foldl_ev | dsimp only

theorem Hw.mapReject_ev {g0 : Since} {h : Hw} (d : Desc) (st : Status) (eh : Ev g0 h) :
    Ev g0 (Hw.mapReject h d st) := by
  unfold Hw.mapReject
  repeat' first
    | (with_reducible first | assumption | intro _ | apply ev_ite | apply Hw.occur_ev)
    | (simp only [ev_mk, ev_fold]) | split | with_reducible apply foldl_ev | dsimp only

theorem Hw.modRes_ev {g0 : Since} {h : Hw} (n : Nat) (f : Resolver → Resolver) (eh : Ev g0 h) :
    Ev g0 (Hw.modRes h n f) := by
  unfold Hw.modRes
  repeat' first
    | (with_reducible first | assumption | intro _ | apply ev_ite)
    | (simp only [ev_mk, ev_fold]) | split | with_reducible apply foldl_ev | dsimp only

theorem Hw.modEnc_ev {g0 : Since} {h : Hw} (n : Nat) (f : Encoder → Encoder) (eh : Ev g0 h) :
    Ev g0 (Hw.modEnc h n f) := by
  unfold Hw.modEnc
  repeat' first
    | (with_reducible first | assumption | intro _ | apply ev_ite)
    | (simp only [ev_mk, ev_fold]) | split | with_reducible apply foldl_ev | dsimp only

theorem Hw.harmActivate_ev {g0 : Since} {h : Hw} (n : Nat) (eh : Ev g0 h) : Ev g0 (Hw.harmActivate h n) := by
  unfold Hw.harmActivate
  repeat' first
    | (with_reducible first | assumption | intro _ | apply ev_ite | apply Hw.complete_ev | apply Hw.completeAll_ev
                            | apply Hw.modRes_ev)
    | (simp only [ev_mk, ev_fold]) | split | with_reducible apply foldl_ev | dsimp only

theorem Hw.renew_ev {g0 : Since} {h : Hw} (b : Bridge) (eh : Ev g0 h) : Ev g0 (Hw.renew h b) := by
  unfold Hw.renew
  repeat' first
    | (with_reducible first | assumption | intro _ | apply ev_ite | apply Hw.modCtl_ev | apply Hw.clearFault_ev)
    | (simp only [ev_mk, ev_fold]) | split | with_reducible apply foldl_ev | dsimp only

theorem Hw.holdSetpoint_ev {g0 : Since} {h : Hw} (b : Bridge) (p : SetReq) (eh : Ev g0 h) :
    Ev g0 (Hw.holdSetpoint h b p) := by
  unfold Hw.holdSetpoint
  repeat' first
    | (with_reducible first | assumption | intro _ | apply ev_ite | apply Hw.modCtl_ev | apply Hw.completeOpt_ev
                            | apply Hw.endHeldPair_ev)
    | (simp only [ev_mk, ev_fold]) | split | with_reducible apply foldl_ev | dsimp only

theorem Hw.supersedeHeld_ev {g0 : Since} {h : Hw} (b : Bridge) (eh : Ev g0 h) : Ev g0 (Hw.supersedeHeld h b) := by
  unfold Hw.supersedeHeld
  repeat' first
    | (with_reducible first | assumption | intro _ | apply ev_ite | apply Hw.modCtl_ev | apply Hw.completeOpt_ev)
    | (simp only [ev_mk, ev_fold]) | split | with_reducible apply foldl_ev | dsimp only

theorem Hw.holdPair_ev {g0 : Since} {h : Hw} (p : Setpoint × Setpoint × Option Req) (eh : Ev g0 h) :
    Ev g0 (Hw.holdPair h p) := by
  unfold Hw.holdPair
  repeat' first
    | (with_reducible first | assumption | intro _ | apply ev_ite | apply Hw.endHeldPair_ev
                            | apply Hw.supersedeHeld_ev)
    | (simp only [ev_mk, ev_fold]) | split | with_reducible apply foldl_ev | dsimp only

theorem Hw.storeSetpoint_ev {g0 : Since} {h : Hw} (b : Bridge) (p : SetReq) (eh : Ev g0 h) :
    Ev g0 (Hw.storeSetpoint h b p) := by
  unfold Hw.storeSetpoint
  repeat' first
    | (with_reducible first | assumption | intro _ | apply ev_ite | apply Hw.modCtl_ev | apply Hw.completeOpt_ev)
    | (simp only [ev_mk, ev_fold]) | split | with_reducible apply foldl_ev | dsimp only

theorem Hw.pendSetpoint_ev {g0 : Since} {h : Hw} (b : Bridge) (p : SetReq) (eh : Ev g0 h) :
    Ev g0 (Hw.pendSetpoint h b p) := by
  unfold Hw.pendSetpoint
  repeat' first
    | (with_reducible first | assumption | intro _ | apply ev_ite | apply Hw.modCtl_ev | apply Hw.completeOpt_ev
                            | apply Hw.endPair_ev)
    | (simp only [ev_mk, ev_fold]) | split | with_reducible apply foldl_ev | dsimp only

theorem Hw.acceptSetpoint_ev {g0 : Since} {h : Hw} (b : Bridge) (p : SetReq) (eh : Ev g0 h) :
    Ev g0 (Hw.acceptSetpoint h b p) := by
  unfold Hw.acceptSetpoint
  repeat' first
    | (with_reducible first | assumption | intro _ | apply ev_ite | apply Hw.renew_ev | apply Hw.holdSetpoint_ev
                            | apply Hw.storeSetpoint_ev | apply Hw.pendSetpoint_ev)
    | (simp only [ev_mk, ev_fold]) | split | with_reducible apply foldl_ev | dsimp only

theorem Hw.pendPair_ev {g0 : Since} {h : Hw} (p : Setpoint × Setpoint × Option Req) (eh : Ev g0 h) :
    Ev g0 (Hw.pendPair h p) := by
  unfold Hw.pendPair
  repeat' first
    | (with_reducible first | assumption | intro _ | apply ev_ite | apply Hw.endPair_ev | apply Hw.fixAB_ev)
    | (simp only [ev_mk, ev_fold]) | split | with_reducible apply foldl_ev | dsimp only

theorem Hw.acceptPair_ev {g0 : Since} {h : Hw} (d : Desc) (q : Req) (eh : Ev g0 h) : Ev g0 (Hw.acceptPair h d q) := by
  unfold Hw.acceptPair
  repeat' first
    | (with_reducible first | assumption | intro _ | apply ev_ite | apply Hw.renew_ev | apply Hw.holdPair_ev
                            | apply Hw.pendPair_ev)
    | (simp only [ev_mk, ev_fold]) | split | with_reducible apply foldl_ev | dsimp only

theorem Hw.freePair_ev {g0 : Since} {h : Hw} (eh : Ev g0 h) : Ev g0 (Hw.freePair h) := by
  unfold Hw.freePair
  repeat' first
    | (with_reducible first | assumption | intro _ | apply ev_ite | apply Hw.pendPair_ev)
    | (simp only [ev_mk, ev_fold]) | split | with_reducible apply foldl_ev | dsimp only

theorem Hw.applySetpoint_ev {g0 : Since} {h : Hw} (b : Bridge) (sp : Setpoint) (eh : Ev g0 h) :
    Ev g0 (Hw.applySetpoint h b sp) := by
  unfold Hw.applySetpoint
  repeat' first
    | (with_reducible first | assumption | intro _ | apply ev_ite | apply Hw.renew_ev | apply Hw.storeSetpoint_ev
                            | apply Hw.holdSetpoint_ev | apply Hw.modCtl_ev | apply Hw.completeOpt_ev)
    | (simp only [ev_mk, ev_fold]) | split | with_reducible apply foldl_ev | dsimp only

theorem Hw.countSwing_ev {g0 : Since} {h : Hw} (die : Nat) (x : Int) (n : Nat) (eh : Ev g0 h) :
    Ev g0 (Hw.countSwing h die x n) := by
  unfold Hw.countSwing
  repeat' first
    | (with_reducible first | assumption | intro _ | apply ev_ite | apply Hw.count_ev)
    | (simp only [ev_mk, ev_fold]) | split | with_reducible apply foldl_ev | dsimp only

theorem Hw.countOpen_ev {g : Since} (die : Nat) (l : List Int) {h : Hw} (e : Ev g h) : Ev g (Hw.countOpen die l h) := by
  fun_induction Hw.countOpen die l h <;> grind [Hw.countSwing_ev]

theorem Hw.closeHalfCycles_ev {g0 : Since} {h : Hw} (eh : Ev g0 h) : Ev g0 (Hw.closeHalfCycles h) := by
  unfold Hw.closeHalfCycles
  repeat' first
    | (with_reducible first | assumption | intro _ | apply ev_ite | apply Hw.countOpen_ev)
    | (simp only [ev_mk, ev_fold]) | split | with_reducible apply foldl_ev | dsimp only

theorem Hw.closeSwings_ev {g : Since} (die n : Nat) (l : List Int) {h : Hw} (e : Ev g h) : Ev g (Hw.closeSwings die n l h) := by
  fun_induction Hw.closeSwings die n l h <;> first | exact e | grind [Hw.countSwing_ev]

theorem Hw.rainflow_ev {g0 : Since} {h : Hw} (die : Nat) (t : Int) (eh : Ev g0 h) : Ev g0 (Hw.rainflow h die t) := by
  unfold Hw.rainflow
  repeat' first
    | (with_reducible first | assumption | intro _ | apply ev_ite | apply Hw.closeSwings_ev)
    | (simp only [ev_mk, ev_fold]) | split | with_reducible apply foldl_ev | dsimp only

theorem Hw.postBank_ev {g0 : Since} {h : Hw} (s : Snap) (unsynced : Bool) (bank : Tab Nat) (count : Nat)
     (eh : Ev g0 h) :
    Ev g0 (Hw.postBank h s unsynced bank count) := by
  unfold Hw.postBank
  repeat' first
    | (with_reducible first | assumption | intro _ | apply ev_ite | apply Hw.postTlm_ev)
    | (simp only [ev_mk, ev_fold]) | split | with_reducible apply foldl_ev | dsimp only

theorem Hw.postSnap_ev {g0 : Since} {h : Hw} (eh : Ev g0 h) : Ev g0 (Hw.postSnap h) := by
  unfold Hw.postSnap
  repeat' first
    | (with_reducible first | assumption | intro _ | apply ev_ite | apply Hw.postBank_ev)
    | (simp only [ev_mk, ev_fold]) | split | with_reducible apply foldl_ev | dsimp only

theorem Hw.settleSnap_ev {g0 : Since} {h : Hw} (eh : Ev g0 h) : Ev g0 (Hw.settleSnap h) := by
  unfold Hw.settleSnap
  repeat' first
    | (with_reducible first | assumption | intro _ | apply ev_ite | apply Hw.completeAt_ev)
    | (simp only [ev_mk, ev_fold]) | split | with_reducible apply foldl_ev | dsimp only

theorem Hw.abortSnap_ev {g0 : Since} {h : Hw} (eh : Ev g0 h) : Ev g0 (Hw.abortSnap h) := by
  unfold Hw.abortSnap
  repeat' first
    | (with_reducible first | assumption | intro _ | apply ev_ite | apply Hw.completeOpt_ev)
    | (simp only [ev_mk, ev_fold]) | split | with_reducible apply foldl_ev | dsimp only

theorem Hw.finalSnapshot_ev {g0 : Since} {h : Hw} (eh : Ev g0 h) : Ev g0 (Hw.finalSnapshot h) := by
  unfold Hw.finalSnapshot
  repeat' first
    | (with_reducible first | assumption | intro _ | apply ev_ite | apply Hw.abortSnap_ev
                            | apply Hw.closeHalfCycles_ev | apply Hw.postSnap_ev | apply Hw.settleSnap_ev)
    | (simp only [ev_mk, ev_fold]) | split | with_reducible apply foldl_ev | dsimp only

theorem Hw.drainBridge_ev {g0 : Since} {h : Hw} (b : Bridge) (eh : Ev g0 h) : Ev g0 (Hw.drainBridge h b) := by
  unfold Hw.drainBridge
  repeat' first
    | (with_reducible first | assumption | intro _ | apply ev_ite | apply Hw.modCtl_ev | apply Hw.completeOpt_ev)
    | (simp only [ev_mk, ev_fold]) | split | with_reducible apply foldl_ev | dsimp only

theorem Hw.drainBridges_ev {g0 : Since} {h : Hw} (eh : Ev g0 h) : Ev g0 (Hw.drainBridges h) := by
  unfold Hw.drainBridges
  repeat' first
    | (with_reducible first | assumption | intro _ | apply ev_ite | apply Hw.drainBridge_ev | apply Hw.endPair_ev)
    | (simp only [ev_mk, ev_fold]) | split | with_reducible apply foldl_ev | dsimp only

theorem Hw.chgDrained_ev {g0 : Since} {h : Hw} (eh : Ev g0 h) : Ev g0 (Hw.chgDrained h) := by
  unfold Hw.chgDrained
  repeat' first
    | (with_reducible first | assumption | intro _ | apply ev_ite | apply Hw.chgEndPhase_ev | apply Hw.chgOpen_ev
                            | apply Hw.chgGo_ev | apply Hw.chgCompleteAll_ev)
    | (simp only [ev_mk, ev_fold]) | split | with_reducible apply foldl_ev | dsimp only

theorem Hw.drainCharge_ev {g0 : Since} {h : Hw} (eh : Ev g0 h) : Ev g0 (Hw.drainCharge h) := by
  unfold Hw.drainCharge
  repeat' first
    | (with_reducible first | assumption | intro _ | apply ev_ite | apply Hw.chgDrained_ev)
    | (simp only [ev_mk, ev_fold]) | split | with_reducible apply foldl_ev | dsimp only

theorem Hw.drainLv_ev {g0 : Since} {h : Hw} (eh : Ev g0 h) : Ev g0 (Hw.drainLv h) := by
  unfold Hw.drainLv
  repeat' first
    | (with_reducible first | assumption | intro _ | apply ev_ite | apply Hw.lvRest_ev)
    | (simp only [ev_mk, ev_fold]) | split | with_reducible apply foldl_ev | dsimp only

theorem Hw.drainAct_ev {g0 : Since} {h : Hw} (eh : Ev g0 h) : Ev g0 (Hw.drainAct h) := by
  unfold Hw.drainAct
  repeat' first
    | (with_reducible first | assumption | intro _ | apply ev_ite)
    | (simp only [ev_mk, ev_fold]) | split | with_reducible apply foldl_ev | dsimp only

theorem Hw.drainsFor_ev {g0 : Since} {h : Hw} (m : Mode) (eh : Ev g0 h) : Ev g0 (Hw.drainsFor h m) := by
  unfold Hw.drainsFor
  repeat' first
    | (with_reducible first | assumption | intro _ | apply ev_ite | apply Hw.drainBridges_ev | apply Hw.drainAct_ev
                            | apply Hw.drainCharge_ev | apply Hw.drainLv_ev | apply Hw.finalSnapshot_ev)
    | (simp only [ev_mk, ev_fold]) | split | with_reducible apply foldl_ev | dsimp only

theorem Hw.grant_ev {g0 : Since} {h : Hw} (m : Mode) (q : Option Req) (cause : Byte) (cinch : Nat) (eh : Ev g0 h) :
    Ev g0 (Hw.grant h m q cause cinch) := by
  unfold Hw.grant
  repeat' first
    | (with_reducible first | assumption | intro _ | apply ev_ite | apply Hw.drainsFor_ev)
    | (simp only [ev_mk, ev_fold]) | split | with_reducible apply foldl_ev | dsimp only

theorem Hw.ownRequest_ev {g0 : Since} {h : Hw} (target : Mode) (cause : Byte) (eh : Ev g0 h) :
    Ev g0 (Hw.ownRequest h target cause) := by
  unfold Hw.ownRequest
  repeat' first
    | (with_reducible first | assumption | intro _ | apply ev_ite | apply Hw.grant_ev)
    | (simp only [ev_mk, ev_fold]) | split | with_reducible apply foldl_ev | dsimp only

theorem Hw.applySyscal_ev {g0 : Since} {h : Hw} (body : List Byte) (eh : Ev g0 h) :
    Ev g0 (Hw.applySyscal h body) := by
  unfold Hw.applySyscal
  repeat' first
    | (with_reducible first | assumption | intro _ | apply ev_ite | apply Hw.clearFault_ev)
    | (simp only [ev_mk, ev_fold]) | split | with_reducible apply foldl_ev | dsimp only

theorem Hw.trimSkew_ev {g0 : Since} {h : Hw} (eh : Ev g0 h) : Ev g0 (Hw.trimSkew h) := by
  unfold Hw.trimSkew
  repeat' first
    | (with_reducible first | assumption | intro _ | apply ev_ite | apply Hw.drawn_ev)
    | (simp only [ev_mk, ev_fold]) | split | with_reducible apply foldl_ev | dsimp only

theorem Hw.tracWindows_ev {g0 : Since} {h : Hw} (eh : Ev g0 h) : Ev g0 (Hw.tracWindows h) := by
  unfold Hw.tracWindows
  repeat' first
    | (with_reducible first | assumption | intro _ | apply ev_ite)
    | (simp only [ev_mk, ev_fold]) | split | with_reducible apply foldl_ev | dsimp only

theorem Hw.imageEvent_ev {g0 : Since} {h : Hw} (k : ImageKind) (t : Bridge) (step : Nat) (version : W32)
     (eh : Ev g0 h) :
    Ev g0 (Hw.imageEvent h k t step version) := by
  unfold Hw.imageEvent
  repeat' first
    | (with_reducible first | assumption | intro _ | apply ev_ite | apply Hw.postEvent_ev)
    | (simp only [ev_mk, ev_fold]) | split | with_reducible apply foldl_ev | dsimp only

theorem Hw.authFail_ev {g0 : Since} {h : Hw} (k : ImageKind) (step : Nat) (eh : Ev g0 h) :
    Ev g0 (Hw.authFail h k step) := by
  unfold Hw.authFail
  repeat' first
    | (with_reducible first | assumption | intro _ | apply ev_ite | apply Hw.raiseAs_ev)
    | (simp only [ev_mk, ev_fold]) | split | with_reducible apply foldl_ev | dsimp only

theorem Hw.swapReject_ev {g0 : Since} {h : Hw} (d : Desc) (i : ImageInfo) (st : Status) (eh : Ev g0 h) :
    Ev g0 (Hw.swapReject h d i st) := by
  unfold Hw.swapReject
  repeat' first
    | (with_reducible first | assumption | intro _ | apply ev_ite | apply Hw.authFail_ev | apply Hw.imageEvent_ev)
    | (simp only [ev_mk, ev_fold]) | split | with_reducible apply foldl_ev | dsimp only

theorem Hw.applySwap_ev {g0 : Since} {h : Hw} (slot : Nat) (k : ImageKind) (b : Bridge) (i : ImageInfo)
     (commit : Option Req) (eh : Ev g0 h) :
    Ev g0 (Hw.applySwap h slot k b i commit) := by
  unfold Hw.applySwap
  repeat' first
    | (with_reducible first | assumption | intro _ | apply ev_ite)
    | (simp only [ev_mk, ev_fold]) | split | with_reducible apply foldl_ev | dsimp only

theorem Hw.startWaiting_ev {g0 : Since} {h : Hw} (k : ImageKind) (eh : Ev g0 h) : Ev g0 (Hw.startWaiting h k) := by
  unfold Hw.startWaiting
  repeat' first
    | (with_reducible first | assumption | intro _ | apply ev_ite)
    | (simp only [ev_mk, ev_fold]) | split | with_reducible apply foldl_ev | dsimp only

theorem Hw.setSlot_ev {g0 : Since} {h : Hw} (n : Nat) (s : Slot) (eh : Ev g0 h) : Ev g0 (Hw.setSlot h n s) := by
  unfold Hw.setSlot
  repeat' first
    | (with_reducible first | assumption | intro _ | apply ev_ite)
    | (simp only [ev_mk, ev_fold]) | split | with_reducible apply foldl_ev | dsimp only

theorem Hw.poison_ev {g0 : Since} {h : Hw} (d : Desc) (eh : Ev g0 h) : Ev g0 (Hw.poison h d) := by
  unfold Hw.poison
  repeat' first
    | (with_reducible first | assumption | intro _ | apply ev_ite | apply Hw.setSlot_ev)
    | (simp only [ev_mk, ev_fold]) | split | with_reducible apply foldl_ev | dsimp only

theorem Hw.memberReject_ev {g0 : Since} {h : Hw} (op : Nat) (d : Desc) (i : Option ImageInfo) (st : Status)
     (eh : Ev g0 h) :
    Ev g0 (Hw.memberReject h op d i st) := by
  unfold Hw.memberReject
  repeat' first
    | (with_reducible first | assumption | intro _ | apply ev_ite | apply Hw.mapReject_ev | apply Hw.swapReject_ev)
    | (simp only [ev_mk, ev_fold]) | split | with_reducible apply foldl_ev | dsimp only

theorem Hw.reportImage_ev {g0 : Since} {h : Hw} (op : Nat) (d : Desc) (i : Option ImageInfo) (eh : Ev g0 h) :
    Ev g0 (Hw.reportImage h op d i) := by
  unfold Hw.reportImage
  repeat' first
    | (with_reducible first | assumption | intro _ | apply ev_ite | apply Hw.imageEvent_ev)
    | (simp only [ev_mk, ev_fold]) | split | with_reducible apply foldl_ev | dsimp only

theorem Hw.stage_ev {g0 : Since} {h : Hw} (op : Nat) (d : Desc) (i : Option ImageInfo) (eh : Ev g0 h) :
    Ev g0 (Hw.stage h op d i) := by
  unfold Hw.stage
  repeat' first
    | (with_reducible first | assumption | intro _ | apply ev_ite | apply Hw.memberReject_ev | apply Hw.poison_ev
                            | apply Hw.complete_ev | apply Hw.reportImage_ev | apply Hw.setSlot_ev)
    | (simp only [ev_mk, ev_fold]) | split | with_reducible apply foldl_ev | dsimp only

theorem Hw.stageMember_ev {g0 : Since} {h : Hw} (op : Nat) (d : Desc) (i : Option ImageInfo) (eh : Ev g0 h) :
    Ev g0 (Hw.stageMember h op d i) := by
  unfold Hw.stageMember
  repeat' first
    | (with_reducible first | assumption | intro _ | apply ev_ite | apply Hw.started_ev | apply Hw.pduFail_ev
                            | apply Hw.poison_ev | apply Hw.complete_ev | apply Hw.admitted_ev | apply Hw.stage_ev)
    | (simp only [ev_mk, ev_fold]) | split | with_reducible apply foldl_ev | dsimp only

theorem Hw.descriptor_ev {g0 : Since} {h : Hw} (op : Nat) (d : Desc) (own : Req → Hw → Hw) (eh : Ev g0 h)
     (eown : ∀ (q : Req) {x : Hw}, Ev g0 x → Ev g0 (own q x)) :
    Ev g0 (Hw.descriptor h op d own) := by
  unfold Hw.descriptor
  repeat' first
    | (with_reducible first | assumption | intro _ | apply ev_ite | apply eown | apply eown | apply Hw.stageMember_ev
                            | apply Hw.checked_ev)
    | (simp only [ev_mk, ev_fold]) | split | with_reducible apply foldl_ev | dsimp only

theorem Hw.finishCinch_ev {g0 : Since} {h : Hw} (n : Nat) (st : Status) (eh : Ev g0 h) :
    Ev g0 (Hw.finishCinch h n st) := by
  unfold Hw.finishCinch
  repeat' first
    | (with_reducible first | assumption | intro _ | apply ev_ite | apply Hw.setSlot_ev | apply Hw.completeOpt_ev
                            | apply Hw.count_ev)
    | (simp only [ev_mk, ev_fold]) | split | with_reducible apply foldl_ev | dsimp only

theorem Hw.dropCinch_ev {g0 : Since} {h : Hw} (n : Nat) (eh : Ev g0 h) : Ev g0 (Hw.dropCinch h n) := by
  unfold Hw.dropCinch
  repeat' first
    | (with_reducible first | assumption | intro _ | apply ev_ite | apply Hw.setSlot_ev | apply Hw.completeOpt_ev)
    | (simp only [ev_mk, ev_fold]) | split | with_reducible apply foldl_ev | dsimp only

theorem Hw.dropCinches_ev {g0 : Since} {h : Hw} (p : Slot → Bool) (eh : Ev g0 h) : Ev g0 (Hw.dropCinches h p) := by
  unfold Hw.dropCinches
  repeat' first
    | (with_reducible first | assumption | intro _ | apply ev_ite | apply Hw.dropCinch_ev)
    | (simp only [ev_mk, ev_fold]) | split | with_reducible apply foldl_ev | dsimp only

theorem Hw.cinchOpen_ev {g0 : Since} {h : Hw} (d : Desc) (q : Req) (eh : Ev g0 h) : Ev g0 (Hw.cinchOpen h d q) := by
  unfold Hw.cinchOpen
  repeat' first
    | (with_reducible first | assumption | intro _ | apply ev_ite | apply Hw.complete_ev | apply Hw.setSlot_ev)
    | (simp only [ev_mk, ev_fold]) | split | with_reducible apply foldl_ev | dsimp only

theorem Hw.cinchCommit_ev {g0 : Since} {h : Hw} (d : Desc) (q : Req) (eh : Ev g0 h) :
    Ev g0 (Hw.cinchCommit h d q) := by
  unfold Hw.cinchCommit
  repeat' first
    | (with_reducible first | assumption | intro _ | apply ev_ite | apply Hw.complete_ev | apply Hw.setSlot_ev
                            | apply Hw.finishCinch_ev)
    | (simp only [ev_mk, ev_fold]) | split | with_reducible apply foldl_ev | dsimp only

theorem Hw.cinchAbort_ev {g0 : Since} {h : Hw} (d : Desc) (q : Req) (eh : Ev g0 h) : Ev g0 (Hw.cinchAbort h d q) := by
  unfold Hw.cinchAbort
  repeat' first
    | (with_reducible first | assumption | intro _ | apply ev_ite | apply Hw.complete_ev | apply Hw.dropCinch_ev
                            | apply Hw.finishCinch_ev)
    | (simp only [ev_mk, ev_fold]) | split | with_reducible apply foldl_ev | dsimp only

theorem Hw.submitMember_ev {g0 : Since} {h : Hw} (n : Nat) (m : Member) (eh : Ev g0 h) :
    Ev g0 (Hw.submitMember h n m) := by
  unfold Hw.submitMember
  repeat' first
    | (with_reducible first | assumption | intro _ | apply ev_ite | apply Hw.finishCinch_ev | apply Hw.grant_ev)
    | (simp only [ev_mk, ev_fold]) | split | with_reducible apply foldl_ev | dsimp only

theorem Hw.cinchAccept_ev {g0 : Since} {h : Hw} (n : Nat) (eh : Ev g0 h) : Ev g0 (Hw.cinchAccept h n) := by
  unfold Hw.cinchAccept
  repeat' first
    | (with_reducible first | assumption | intro _ | apply ev_ite | apply Hw.pduFail_ev | apply Hw.finishCinch_ev
                            | apply Hw.setSlot_ev | apply Hw.submitMember_ev | apply Hw.fixAB_ev)
    | (simp only [ev_mk, ev_fold]) | split | with_reducible apply foldl_ev | dsimp only

theorem Hw.applyParam_ev {g0 : Since} {h : Hw} (s : Slot) (id v : Nat) (eh : Ev g0 h) :
    Ev g0 (Hw.applyParam h s id v) := by
  unfold Hw.applyParam
  repeat' first
    | (with_reducible first | assumption | intro _ | apply ev_ite | apply Hw.putPar_ev)
    | (simp only [ev_mk, ev_fold]) | split | with_reducible apply foldl_ev | dsimp only

theorem Hw.applyMember_ev {g0 : Since} {h : Hw} (n : Nat) (s : Slot) (m : Member) (eh : Ev g0 h) :
    Ev g0 (Hw.applyMember h n s m) := by
  unfold Hw.applyMember
  repeat' first
    | (with_reducible first | assumption | intro _ | apply ev_ite | apply Hw.applySetpoint_ev | apply Hw.modCtl_ev
                            | apply Hw.modRes_ev | apply Hw.harmActivate_ev | apply Hw.applyParam_ev
                            | apply Hw.applySyscal_ev | apply Hw.applySwap_ev)
    | (simp only [ev_mk, ev_fold]) | split | with_reducible apply foldl_ev | dsimp only

theorem Hw.applyMembers_ev {g0 : Since} {h : Hw} (n : Nat) (s : Slot) (eh : Ev g0 h) :
    Ev g0 (Hw.applyMembers h n s) := by
  unfold Hw.applyMembers
  repeat' first
    | (with_reducible first | assumption | intro _ | apply ev_ite | apply Hw.applyMember_ev)
    | (simp only [ev_mk, ev_fold]) | split | with_reducible apply foldl_ev | dsimp only

theorem Hw.applyCinch_ev {g0 : Since} {h : Hw} (n : Nat) (eh : Ev g0 h) : Ev g0 (Hw.applyCinch h n) := by
  unfold Hw.applyCinch
  repeat' first
    | (with_reducible first | assumption | intro _ | apply ev_ite | apply Hw.finishCinch_ev | apply Hw.applyMembers_ev)
    | (simp only [ev_mk, ev_fold]) | split | with_reducible apply foldl_ev | dsimp only

theorem Hw.seekCommon_ev {g0 : Since} {h : Hw} (s : Slot) (eh : Ev g0 h) : Ev g0 (Hw.seekCommon h s) := by
  unfold Hw.seekCommon
  repeat' first
    | (with_reducible first | assumption | intro _ | apply ev_ite | apply Hw.fixAB_ev)
    | (simp only [ev_mk, ev_fold]) | split | with_reducible apply foldl_ev | dsimp only

end Sys2Proof.Machine
end

