-- ==== Sys2Proof/Laws/EvolveModes.lean ====
section
/-!
SUPPORT. Laws/EvolveModes.lean: what every operation keeps of the limits and of what is never taken back, for modes, supplies, bring-up and the shared operations of charging: one lemma
for each operation, named after it.
-/
set_option linter.unusedSimpArgs false
namespace Sys2Proof.Machine

theorem Hw.outside_ev {g : Since} {h : Hw} (e : Ev g h) : Ev g h.outside :=
  ⟨⟨by simp [Hw.outside], by simp [Hw.outside], by simp [Hw.outside], e.1.2.2.2⟩, e.2⟩

theorem Hw.unpower_ev {g : Since} {h : Hw} (e : Ev g h) : Ev g h.unpower := Hw.outside_ev (h := h) e

theorem Hw.checkP11_ev {g0 : Since} {h : Hw} (eh : Ev g0 h) : Ev g0 (Hw.checkP11 h) := by
  unfold Hw.checkP11
  repeat' first
    | (with_reducible first | assumption | intro _ | apply ev_ite | apply Hw.unpower_ev)
    | (simp only [ev_mk, ev_fold]) | split | with_reducible apply foldl_ev | dsimp only

theorem Hw.setVdc_ev {g0 : Since} {h : Hw} (mv : Int) (eh : Ev g0 h) : Ev g0 (Hw.setVdc h mv) := by
  unfold Hw.setVdc
  repeat' first
    | (with_reducible first | assumption | intro _ | apply ev_ite | apply Hw.checkP11_ev)
    | (simp only [ev_mk, ev_fold]) | split | with_reducible apply foldl_ev | dsimp only

theorem Hw.enterPhase_ev {g0 : Since} {h : Hw} (target k equiv : Nat) (restarted : Bool) (eh : Ev g0 h) :
    Ev g0 (Hw.enterPhase h target k equiv restarted) := by
  unfold Hw.enterPhase
  repeat' first
    | (with_reducible first | assumption | intro _ | apply ev_ite)
    | (simp only [ev_mk, ev_fold]) | split | with_reducible apply foldl_ev | dsimp only

theorem Hw.flowEntry_ev {g0 : Since} {h : Hw} (eh : Ev g0 h) : Ev g0 (Hw.flowEntry h) := by
  unfold Hw.flowEntry
  repeat' first
    | (with_reducible first | assumption | intro _ | apply ev_ite | apply Hw.count_ev | apply Hw.enterPhase_ev)
    | (simp only [ev_mk, ev_fold]) | split | with_reducible apply foldl_ev | dsimp only

theorem Hw.lvMonitors_ev {g0 : Since} {h : Hw} (eh : Ev g0 h) : Ev g0 (Hw.lvMonitors h) := by
  unfold Hw.lvMonitors
  repeat' first
    | (with_reducible first | assumption | intro _ | apply ev_ite)
    | (simp only [ev_mk, ev_fold]) | split | with_reducible apply foldl_ev | dsimp only

theorem Hw.lvBegin_ev {g0 : Since} {h : Hw} (cells : BitVec 4) (st : LvState) (eh : Ev g0 h) :
    Ev g0 (Hw.lvBegin h cells st) := by
  unfold Hw.lvBegin
  repeat' first
    | (with_reducible first | assumption | intro _ | apply ev_ite | apply Hw.startWaiting_ev | apply Hw.lvMonitors_ev
                            | apply Hw.lvGo_ev)
    | (simp only [ev_mk, ev_fold]) | split | with_reducible apply foldl_ev | dsimp only

theorem Hw.lvStart_ev {g0 : Since} {h : Hw} (eh : Ev g0 h) : Ev g0 (Hw.lvStart h) := by
  unfold Hw.lvStart
  repeat' first
    | (with_reducible first | assumption | intro _ | apply ev_ite | apply Hw.lvBegin_ev)
    | (simp only [ev_mk, ev_fold]) | split | with_reducible apply foldl_ev | dsimp only

theorem Hw.lvRamp_ev {g0 : Since} {h : Hw} (from' : Int) (eh : Ev g0 h) : Ev g0 (Hw.lvRamp h from') := by
  unfold Hw.lvRamp
  repeat' first
    | (with_reducible first | assumption | intro _ | apply ev_ite)
    | (simp only [ev_mk, ev_fold]) | split | with_reducible apply foldl_ev | dsimp only

theorem Hw.lvFromHold_ev {g0 : Since} {h : Hw} (q : Option Req) (eh : Ev g0 h) : Ev g0 (Hw.lvFromHold h q) := by
  unfold Hw.lvFromHold
  repeat' first
    | (with_reducible first | assumption | intro _ | apply ev_ite | apply Hw.lvRamp_ev | apply Hw.lvGo_ev)
    | (simp only [ev_mk, ev_fold]) | split | with_reducible apply foldl_ev | dsimp only

theorem Hw.topupStart_ev {g0 : Since} {h : Hw} (eh : Ev g0 h) : Ev g0 (Hw.topupStart h) := by
  unfold Hw.topupStart
  repeat' first
    | (with_reducible first | assumption | intro _ | apply ev_ite | apply Hw.lvStart_ev | apply Hw.lvFromHold_ev)
    | (simp only [ev_mk, ev_fold]) | split | with_reducible apply foldl_ev | dsimp only

theorem Hw.startFlow_ev {g0 : Since} {h : Hw} (q : Option Req) (cause : Byte) (eh : Ev g0 h) :
    Ev g0 (Hw.startFlow h q cause) := by
  unfold Hw.startFlow
  repeat' first
    | (with_reducible first | assumption | intro _ | apply ev_ite | apply Hw.chgGo_ev | apply Hw.flowEntry_ev
                            | apply Hw.topupStart_ev)
    | (simp only [ev_mk, ev_fold]) | split | with_reducible apply foldl_ev | dsimp only

theorem Hw.chgSettle_ev {g0 : Since} {h : Hw} (eh : Ev g0 h) : Ev g0 (Hw.chgSettle h) := by
  unfold Hw.chgSettle
  repeat' first
    | (with_reducible first | assumption | intro _ | apply ev_ite | apply Hw.chgGo_ev | apply Hw.startFlow_ev)
    | (simp only [ev_mk, ev_fold]) | split | with_reducible apply foldl_ev | dsimp only

theorem Hw.chgIdle_ev {g0 : Since} {h : Hw} (eh : Ev g0 h) : Ev g0 (Hw.chgIdle h) := by
  unfold Hw.chgIdle
  repeat' first
    | (with_reducible first | assumption | intro _ | apply ev_ite)
    | (simp only [ev_mk, ev_fold]) | split | with_reducible apply foldl_ev | dsimp only

theorem Hw.chgStopTo_ev {g0 : Since} {h : Hw} (reason : Byte) (st : ChgState) (cause : Byte) (code : W16)
     (eh : Ev g0 h) :
    Ev g0 (Hw.chgStopTo h reason st cause code) := by
  unfold Hw.chgStopTo
  repeat' first
    | (with_reducible first | assumption | intro _ | apply ev_ite | apply Hw.chgEndPhase_ev | apply Hw.chgIdle_ev
                            | apply Hw.chgGo_ev | apply Hw.chgCompleteAll_ev)
    | (simp only [ev_mk, ev_fold]) | split | with_reducible apply foldl_ev | dsimp only

theorem Hw.chgSuspend_ev {g0 : Since} {h : Hw} (code : W16) (reason : Byte) (eh : Ev g0 h) :
    Ev g0 (Hw.chgSuspend h code reason) := by
  unfold Hw.chgSuspend
  repeat' first
    | (with_reducible first | assumption | intro _ | apply ev_ite | apply Hw.chgStopTo_ev)
    | (simp only [ev_mk, ev_fold]) | split | with_reducible apply foldl_ev | dsimp only

theorem Hw.chgUnsuspend_ev {g0 : Since} {h : Hw} (eh : Ev g0 h) : Ev g0 (Hw.chgUnsuspend h) := by
  unfold Hw.chgUnsuspend
  repeat' first
    | (with_reducible first | assumption | intro _ | apply ev_ite | apply Hw.startFlow_ev)
    | (simp only [ev_mk, ev_fold]) | split | with_reducible apply foldl_ev | dsimp only

theorem Hw.chgForced_ev {g0 : Since} {h : Hw} (eh : Ev g0 h) : Ev g0 (Hw.chgForced h) := by
  unfold Hw.chgForced
  repeat' first
    | (with_reducible first | assumption | intro _ | apply ev_ite | apply Hw.chgEndPhase_ev | apply Hw.chgOpen_ev
                            | apply Hw.chgGo_ev | apply Hw.chgCompleteAll_ev)
    | (simp only [ev_mk, ev_fold]) | split | with_reducible apply foldl_ev | dsimp only

theorem Hw.chgAtZero_ev {g0 : Since} {h : Hw} (eh : Ev g0 h) : Ev g0 (Hw.chgAtZero h) := by
  unfold Hw.chgAtZero
  repeat' first
    | (with_reducible first | assumption | intro _ | apply ev_ite | apply Hw.chgDrained_ev | apply Hw.chgStopTo_ev)
    | (simp only [ev_mk, ev_fold]) | split | with_reducible apply foldl_ev | dsimp only

theorem Hw.boostEnding_ev {g0 : Since} {h : Hw} (eh : Ev g0 h) : Ev g0 (Hw.boostEnding h) := by
  unfold Hw.boostEnding
  repeat' first
    | (with_reducible first | assumption | intro _ | apply ev_ite)
    | (simp only [ev_mk, ev_fold]) | split | with_reducible apply foldl_ev | dsimp only

theorem Hw.sessionComplete_ev {g0 : Since} {h : Hw} (eh : Ev g0 h) : Ev g0 (Hw.sessionComplete h) := by
  unfold Hw.sessionComplete
  repeat' first
    | (with_reducible first | assumption | intro _ | apply ev_ite | apply Hw.chgEndPhase_ev | apply Hw.boostEnding_ev
                            | apply Hw.chgIdle_ev | apply Hw.chgGo_ev | apply Hw.chgCompleteAll_ev
                            | apply Hw.ownRequest_ev)
    | (simp only [ev_mk, ev_fold]) | split | with_reducible apply foldl_ev | dsimp only

theorem Hw.rampLimit_ev {g0 : Since} {h : Hw} (target : Int) (ramp per : Nat) (eh : Ev g0 h) :
    Ev g0 (Hw.rampLimit h target ramp per) := by
  unfold Hw.rampLimit
  repeat' first
    | (with_reducible first | assumption | intro _ | apply ev_ite)
    | (simp only [ev_mk, ev_fold]) | split | with_reducible apply foldl_ev | dsimp only

theorem Hw.handOver_ev {g0 : Since} {h : Hw} (unplugged : Bool) (eh : Ev g0 h) : Ev g0 (Hw.handOver h unplugged) := by
  unfold Hw.handOver
  repeat' first
    | (with_reducible first | assumption | intro _ | apply ev_ite | apply Hw.chgGo_ev | apply Hw.count_ev
                            | apply Hw.chgCompleteAll_ev)
    | (simp only [ev_mk, ev_fold]) | split | with_reducible apply foldl_ev | dsimp only

theorem Hw.chgOutage_ev {g0 : Since} {h : Hw} (reason : Byte) (eh : Ev g0 h) : Ev g0 (Hw.chgOutage h reason) := by
  unfold Hw.chgOutage
  repeat' first
    | (with_reducible first | assumption | intro _ | apply ev_ite | apply Hw.chgStopTo_ev)
    | (simp only [ev_mk, ev_fold]) | split | with_reducible apply foldl_ev | dsimp only

theorem Hw.clearAll_ev {g0 : Since} {h : Hw} (codes : List W16) (eh : Ev g0 h) : Ev g0 (Hw.clearAll h codes) := by
  unfold Hw.clearAll
  repeat' first
    | (with_reducible first | assumption | intro _ | apply ev_ite | apply Hw.clearFault_ev)
    | (simp only [ev_mk, ev_fold]) | split | with_reducible apply foldl_ev | dsimp only

theorem Hw.closeSo_ev {g0 : Since} {h : Hw} (second : Bool) (eh : Ev g0 h) : Ev g0 (Hw.closeSo h second) := by
  unfold Hw.closeSo
  repeat' first
    | (with_reducible first | assumption | intro _ | apply ev_ite | apply Hw.count_ev)
    | (simp only [ev_mk, ev_fold]) | split | with_reducible apply foldl_ev | dsimp only

theorem Hw.matchFail_ev {g0 : Since} {h : Hw} (eh : Ev g0 h) : Ev g0 (Hw.matchFail h) := by
  unfold Hw.matchFail
  repeat' first
    | (with_reducible first | assumption | intro _ | apply ev_ite | apply Hw.occurThen_ev | apply Hw.completeOpt_ev)
    | (simp only [ev_mk, ev_fold]) | split | with_reducible apply foldl_ev | dsimp only

theorem Hw.matchStep_ev {g0 : Since} {h : Hw} (eh : Ev g0 h) : Ev g0 (Hw.matchStep h) := by
  unfold Hw.matchStep
  repeat' first
    | (with_reducible first | assumption | intro _ | apply ev_ite | apply Hw.closeSo_ev | apply Hw.matchFail_ev
                            | apply Hw.completeOpt_ev)
    | (simp only [ev_mk, ev_fold]) | split | with_reducible apply foldl_ev | dsimp only

theorem Hw.boostOpen_ev {g0 : Since} {h : Hw} (eh : Ev g0 h) : Ev g0 (Hw.boostOpen h) := by
  unfold Hw.boostOpen
  repeat' first
    | (with_reducible first | assumption | intro _ | apply ev_ite)
    | (simp only [ev_mk, ev_fold]) | split | with_reducible apply foldl_ev | dsimp only

theorem Hw.boostDone_ev {g0 : Since} {h : Hw} (eh : Ev g0 h) : Ev g0 (Hw.boostDone h) := by
  unfold Hw.boostDone
  repeat' first
    | (with_reducible first | assumption | intro _ | apply ev_ite | apply Hw.chgEndPhase_ev | apply Hw.chgOpen_ev
                            | apply Hw.chgGo_ev | apply Hw.chgCompleteAll_ev)
    | (simp only [ev_mk, ev_fold]) | split | with_reducible apply foldl_ev | dsimp only

theorem Hw.boostLost_ev {g0 : Since} {h : Hw} (eh : Ev g0 h) : Ev g0 (Hw.boostLost h) := by
  unfold Hw.boostLost
  repeat' first
    | (with_reducible first | assumption | intro _ | apply ev_ite | apply Hw.chgEndPhase_ev | apply Hw.boostOpen_ev)
    | (simp only [ev_mk, ev_fold]) | split | with_reducible apply foldl_ev | dsimp only

theorem Hw.boostEndStep_ev {g0 : Since} {h : Hw} (amps : Int) (eh : Ev g0 h) : Ev g0 (Hw.boostEndStep h amps) := by
  unfold Hw.boostEndStep
  repeat' first
    | (with_reducible first | assumption | intro _ | apply ev_ite | apply Hw.boostOpen_ev | apply Hw.boostDone_ev)
    | (simp only [ev_mk, ev_fold]) | split | with_reducible apply foldl_ev | dsimp only

theorem Hw.boostTrims_ev {g0 : Since} {h : Hw} (amps : Int) (eh : Ev g0 h) : Ev g0 (Hw.boostTrims h amps) := by
  unfold Hw.boostTrims
  repeat' first
    | (with_reducible first | assumption | intro _ | apply ev_ite | apply Hw.drawn_ev)
    | (simp only [ev_mk, ev_fold]) | split | with_reducible apply foldl_ev | dsimp only

theorem Hw.boostStep_ev {g0 : Since} {h : Hw} (volts amps : Int) (eh : Ev g0 h) :
    Ev g0 (Hw.boostStep h volts amps) := by
  unfold Hw.boostStep
  repeat' first
    | (with_reducible first | assumption | intro _ | apply ev_ite | apply Hw.boostOpen_ev | apply Hw.matchStep_ev
                            | apply Hw.boostEnding_ev | apply Hw.chgAtZero_ev | apply Hw.rampLimit_ev
                            | apply Hw.boostTrims_ev | apply Hw.addEnergy_ev | apply Hw.boostEndStep_ev)
    | (simp only [ev_mk, ev_fold]) | split | with_reducible apply foldl_ev | dsimp only

theorem Hw.sleep_ev {g0 : Since} {h : Hw} (eh : Ev g0 h) : Ev g0 (Hw.sleep h) := by
  unfold Hw.sleep
  repeat' first
    | (with_reducible first | assumption | intro _ | apply ev_ite | apply Hw.outside_ev)
    | (simp only [ev_mk, ev_fold]) | split | with_reducible apply foldl_ev | dsimp only

theorem Hw.wakeUp_ev {g : Since} {h : Hw} (code : Nat) (e : Ev g h) : Ev g (h.wakeUp code) := by
  unfold Hw.wakeUp
  exact Hw.postEvent_ev _ _ _ (Hw.count_ev (h := { h with otp := h.otp.resolve, prm := _, mode := _, time := _ }) _ _ e)

theorem Hw.topupFrame_ev {g0 : Since} {h : Hw} (eh : Ev g0 h) : Ev g0 (Hw.topupFrame h) := by
  unfold Hw.topupFrame
  repeat' first
    | (with_reducible first | assumption | intro _ | apply ev_ite | apply Hw.emit_ev)
    | (simp only [ev_mk, ev_fold]) | split | with_reducible apply foldl_ev | dsimp only

theorem Hw.wakeFrom_ev {g0 : Since} {h : Hw} (src : Nat) (eh : Ev g0 h) : Ev g0 (Hw.wakeFrom h src) := by
  unfold Hw.wakeFrom
  repeat' first
    | (with_reducible first | assumption | intro _ | apply ev_ite | apply Hw.wakeUp_ev | apply Hw.topupFrame_ev)
    | (simp only [ev_mk, ev_fold]) | split | with_reducible apply foldl_ev | dsimp only

theorem Hw.wakeBy_ev {g0 : Since} {h : Hw} (src : Nat) (eh : Ev g0 h) : Ev g0 (Hw.wakeBy h src) := by
  unfold Hw.wakeBy
  repeat' first
    | (with_reducible first | assumption | intro _ | apply ev_ite | apply Hw.wakeFrom_ev)
    | (simp only [ev_mk, ev_fold]) | split | with_reducible apply foldl_ev | dsimp only

theorem execWakeEvent_ev {g0 : Since} (source : Fin 14) (falling : Bool) (level : Int) {s : State} (es : Ev g0 s.hw) :
    OutEv g0 (execWakeEvent source falling level s) := by
  unfold execWakeEvent; with_reducible refine onHw_ev (fun {h} e => ?_) (by assumption)
  repeat' first
    | (with_reducible first | assumption | intro _ | apply ev_ite | apply onHw_ev | apply Hw.wakeBy_ev)
    | (simp only [ev_mk, ev_fold]) | split | with_reducible apply foldl_ev | dsimp only

theorem execWakeTimerExpiry_ev {g0 : Since} {s : State} (es : Ev g0 s.hw) : OutEv g0 (execWakeTimerExpiry s) := by
  unfold execWakeTimerExpiry; with_reducible refine onHw_ev (fun {h} e => ?_) (by assumption)
  repeat' first
    | (with_reducible first | assumption | intro _ | apply ev_ite | apply onHw_ev | apply Hw.wakeBy_ev)
    | (simp only [ev_mk, ev_fold]) | split | with_reducible apply foldl_ev | dsimp only

theorem execCanWakeFrame_ev {g0 : Since} (ch : Fin 4) (f : CanFrame) {s : State} (es : Ev g0 s.hw) :
    OutEv g0 (execCanWakeFrame ch f s) := by
  unfold execCanWakeFrame; with_reducible refine onHw_ev (fun {h} e => ?_) (by assumption)
  repeat' first
    | (with_reducible first | assumption | intro _ | apply ev_ite | apply onHw_ev | apply Hw.wakeBy_ev)
    | (simp only [ev_mk, ev_fold]) | split | with_reducible apply foldl_ev | dsimp only

theorem execCanWakeErrorCount_ev {g0 : Since} (ch : Fin 4) (errors : Nat) {s : State} (es : Ev g0 s.hw) :
    OutEv g0 (execCanWakeErrorCount ch errors s) := by
  unfold execCanWakeErrorCount; with_reducible refine onHw_ev (fun {h} e => ?_) (by assumption)
  repeat' first
    | (with_reducible first | assumption | intro _ | apply ev_ite | apply onHw_ev | apply Hw.wakeBy_ev)
    | (simp only [ev_mk, ev_fold]) | split | with_reducible apply foldl_ev | dsimp only

theorem Hw.latchedWake_ev {g0 : Since} {h : Hw} (eh : Ev g0 h) : Ev g0 (Hw.latchedWake h) := by
  unfold Hw.latchedWake
  repeat' first
    | (with_reducible first | assumption | intro _ | apply ev_ite | apply Hw.wakeFrom_ev | apply Hw.count_ev
                            | apply Hw.occur_ev)
    | (simp only [ev_mk, ev_fold]) | split | with_reducible apply foldl_ev | dsimp only

theorem execLatchedWake_ev {g0 : Since} {s : State} (es : Ev g0 s.hw) : OutEv g0 (execLatchedWake s) := by
  unfold execLatchedWake; with_reducible refine onHw_ev (fun {h} e => ?_) (by assumption)
  repeat' first
    | (with_reducible first | assumption | intro _ | apply ev_ite | apply onHw_ev | apply Hw.latchedWake_ev)
    | (simp only [ev_mk, ev_fold]) | split | with_reducible apply foldl_ev | dsimp only

theorem Hw.powerOn_ev {g0 : Since} {h : Hw} (vsup : Int) (eh : Ev g0 h) : Ev g0 (Hw.powerOn h vsup) := by
  unfold Hw.powerOn
  repeat' first
    | (with_reducible first | assumption | intro _ | apply ev_ite | apply Hw.wakeUp_ev)
    | (simp only [ev_mk, ev_fold]) | split | with_reducible apply foldl_ev | dsimp only

theorem execPowerOn_ev {g0 : Since} (vsup : Int) {s : State} (es : Ev g0 s.hw) : OutEv g0 (execPowerOn vsup s) := by
  unfold execPowerOn; with_reducible refine onHw_ev (fun {h} e => ?_) (by assumption)
  repeat' first
    | (with_reducible first | assumption | intro _ | apply ev_ite | apply onHw_ev | apply Hw.powerOn_ev)
    | (simp only [ev_mk, ev_fold]) | split | with_reducible apply foldl_ev | dsimp only

theorem Hw.dropImages_ev {g0 : Since} {h : Hw} (eh : Ev g0 h) : Ev g0 (Hw.dropImages h) := by
  unfold Hw.dropImages
  repeat' first
    | (with_reducible first | assumption | intro _ | apply ev_ite | apply Hw.completeOpt_ev)
    | (simp only [ev_mk, ev_fold]) | split | with_reducible apply foldl_ev | dsimp only

theorem Hw.dropVsupDomains_ev {g0 : Since} {h : Hw} (eh : Ev g0 h) : Ev g0 (Hw.dropVsupDomains h) := by
  unfold Hw.dropVsupDomains
  repeat' first
    | (with_reducible first | assumption | intro _ | apply ev_ite | apply Hw.lvRest_ev | apply Hw.actStop_ev
                            | apply Hw.dropImages_ev)
    | (simp only [ev_mk, ev_fold]) | split | with_reducible apply foldl_ev | dsimp only

theorem Hw.vsupLoss_ev {g0 : Since} {h : Hw} (eh : Ev g0 h) : Ev g0 (Hw.vsupLoss h) := by
  unfold Hw.vsupLoss
  repeat' first
    | (with_reducible first | assumption | intro _ | apply ev_ite | apply Hw.dropVsupDomains_ev
                            | apply Hw.raiseOnce_ev | apply Hw.refreshBoth_ev | apply Hw.unpower_ev)
    | (simp only [ev_mk, ev_fold]) | split | with_reducible apply foldl_ev | dsimp only

theorem execVsupLost_ev {g0 : Since} (below : Nat) {s : State} (es : Ev g0 s.hw) :
    OutEv g0 (execVsupLost below s) := by
  unfold execVsupLost; with_reducible refine onHw_ev (fun {h} e => ?_) (by assumption)
  repeat' first
    | (with_reducible first | assumption | intro _ | apply ev_ite | apply onHw_ev | apply Hw.vsupLoss_ev)
    | (simp only [ev_mk, ev_fold]) | split | with_reducible apply foldl_ev | dsimp only

theorem execVsupReturn_ev {g0 : Since} (vsup : Int) {s : State} (es : Ev g0 s.hw) :
    OutEv g0 (execVsupReturn vsup s) := by
  unfold execVsupReturn; with_reducible refine onHw_ev (fun {h} e => ?_) (by assumption)
  repeat' first
    | (with_reducible first | assumption | intro _ | apply ev_ite | apply onHw_ev | apply Hw.clearFault_ev)
    | (simp only [ev_mk, ev_fold]) | split | with_reducible apply foldl_ev | dsimp only

theorem execP11SupplyChange_ev {g0 : Since} (vdc : Int) {s : State} (es : Ev g0 s.hw) :
    OutEv g0 (execP11SupplyChange vdc s) := by
  unfold execP11SupplyChange; with_reducible refine onHw_ev (fun {h} e => ?_) (by assumption)
  repeat' first
    | (with_reducible first | assumption | intro _ | apply ev_ite | apply onHw_ev | apply Hw.setVdc_ev)
    | (simp only [ev_mk, ev_fold]) | split | with_reducible apply foldl_ev | dsimp only

theorem Hw.requestAnswered_ev {g0 : Since} {h : Hw} (eh : Ev g0 h) : Ev g0 (Hw.requestAnswered h) := by
  unfold Hw.requestAnswered
  repeat' first
    | (with_reducible first | assumption | intro _ | apply ev_ite | apply Hw.clearFault_ev)
    | (simp only [ev_mk, ev_fold]) | split | with_reducible apply foldl_ev | dsimp only

theorem Hw.requestImage_ev {g0 : Since} {h : Hw} (eh : Ev g0 h) : Ev g0 (Hw.requestImage h) := by
  unfold Hw.requestImage
  repeat' first
    | (with_reducible first | assumption | intro _ | apply ev_ite | apply Hw.requestAnswered_ev
                            | apply Hw.postEvent_ev)
    | (simp only [ev_mk, ev_fold]) | split | with_reducible apply foldl_ev | dsimp only

theorem Hw.otpFaults_ev {g0 : Since} {h : Hw} (eh : Ev g0 h) : Ev g0 (Hw.otpFaults h) := by
  unfold Hw.otpFaults
  repeat' first
    | (with_reducible first | assumption | intro _ | apply ev_ite | apply Hw.raiseOnce_ev)
    | (simp only [ev_mk, ev_fold]) | split | with_reducible apply foldl_ev | dsimp only

theorem Hw.stoAtStart_ev {g0 : Since} {h : Hw} (eh : Ev g0 h) : Ev g0 (Hw.stoAtStart h) := by
  unfold Hw.stoAtStart
  repeat' first
    | (with_reducible first | assumption | intro _ | apply ev_ite | apply Hw.enterArrest_ev)
    | (simp only [ev_mk, ev_fold]) | split | with_reducible apply foldl_ev | dsimp only

theorem Hw.reducedService_ev {g0 : Since} {h : Hw} (eh : Ev g0 h) : Ev g0 (Hw.reducedService h) := by
  unfold Hw.reducedService
  repeat' first
    | (with_reducible first | assumption | intro _ | apply ev_ite | apply Hw.postEvent_ev | apply Hw.edge_ev
                            | apply Hw.trimSkew_ev | apply Hw.tracWindows_ev | apply Hw.checkP11_ev
                            | apply Hw.otpFaults_ev | apply Hw.stoAtStart_ev | apply Hw.requestImage_ev
                            | apply Hw.chgSettle_ev)
    | (simp only [ev_mk, ev_fold]) | split | with_reducible apply foldl_ev | dsimp only

theorem execReducedService_ev {g0 : Since} {s : State} (es : Ev g0 s.hw) : OutEv g0 (execReducedService s) := by
  unfold execReducedService; with_reducible refine onHw_ev (fun {h} e => ?_) (by assumption)
  repeat' first
    | (with_reducible first | assumption | intro _ | apply ev_ite | apply onHw_ev | apply Hw.reducedService_ev)
    | (simp only [ev_mk, ev_fold]) | split | with_reducible apply foldl_ev | dsimp only

theorem Hw.imageRetry_ev {g0 : Since} {h : Hw} (eh : Ev g0 h) : Ev g0 (Hw.imageRetry h) := by
  unfold Hw.imageRetry
  repeat' first
    | (with_reducible first | assumption | intro _ | apply ev_ite | apply Hw.postEvent_ev | apply Hw.emit_ev)
    | (simp only [ev_mk, ev_fold]) | split | with_reducible apply foldl_ev | dsimp only

theorem execImageRequestRetry_ev {g0 : Since} {s : State} (es : Ev g0 s.hw) : OutEv g0 (execImageRequestRetry s) := by
  unfold execImageRequestRetry; with_reducible refine onHw_ev (fun {h} e => ?_) (by assumption)
  repeat' first
    | (with_reducible first | assumption | intro _ | apply ev_ite | apply onHw_ev | apply Hw.imageRetry_ev)
    | (simp only [ev_mk, ev_fold]) | split | with_reducible apply foldl_ev | dsimp only

theorem execHostAbsent_ev {g0 : Since} {s : State} (es : Ev g0 s.hw) : OutEv g0 (execHostAbsent s) := by
  unfold execHostAbsent; with_reducible refine onHw_ev (fun {h} e => ?_) (by assumption)
  repeat' first
    | (with_reducible first | assumption | intro _ | apply ev_ite | apply onHw_ev | apply Hw.raiseOnce_ev)
    | (simp only [ev_mk, ev_fold]) | split | with_reducible apply foldl_ev | dsimp only

theorem Hw.toReady_ev {g0 : Since} {h : Hw} (eh : Ev g0 h) : Ev g0 (Hw.toReady h) := by
  unfold Hw.toReady
  repeat' first
    | (with_reducible first | assumption | intro _ | apply ev_ite | apply Hw.grant_ev)
    | (simp only [ev_mk, ev_fold]) | split | with_reducible apply foldl_ev | dsimp only

theorem Hw.imageLoaded_ev {g0 : Since} {h : Hw} (k : ImageKind) (i : ImageInfo) (eh : Ev g0 h) :
    Ev g0 (Hw.imageLoaded h k i) := by
  unfold Hw.imageLoaded
  repeat' first
    | (with_reducible first | assumption | intro _ | apply ev_ite | apply Hw.authFail_ev | apply Hw.imageEvent_ev
                            | apply Hw.mailbox0_ev | apply Hw.requestImage_ev | apply Hw.toReady_ev)
    | (simp only [ev_mk, ev_fold]) | split | with_reducible apply foldl_ev | dsimp only

theorem execImageLoaded_ev {g0 : Since} (kind : ImageKind) (x_target : Bridge) (img : ImageInfo) {s : State} (es : Ev g0 s.hw) :
    OutEv g0 (execImageLoaded kind x_target img s) := by
  unfold execImageLoaded; with_reducible refine onHw_ev (fun {h} e => ?_) (by assumption)
  repeat' first
    | (with_reducible first | assumption | intro _ | apply ev_ite | apply onHw_ev | apply Hw.imageLoaded_ev)
    | (simp only [ev_mk, ev_fold]) | split | with_reducible apply foldl_ev | dsimp only

theorem execPartnerImageRequest_ev {g0 : Since} (kind : ImageKind) {s : State} (es : Ev g0 s.hw) :
    OutEv g0 (execPartnerImageRequest kind s) := by
  unfold execPartnerImageRequest; with_reducible refine onHw_ev (fun {h} e => ?_) (by assumption)
  repeat' first
    | (with_reducible first | assumption | intro _ | apply ev_ite | apply onHw_ev | apply Hw.count_ev
                            | apply Hw.emit_ev)
    | (simp only [ev_mk, ev_fold]) | split | with_reducible apply foldl_ev | dsimp only

theorem Hw.modeRequest_ev {g0 : Since} {h : Hw} (d : Desc) (q : Req) (eh : Ev g0 h) :
    Ev g0 (Hw.modeRequest h d q) := by
  unfold Hw.modeRequest
  repeat' first
    | (with_reducible first | assumption | intro _ | apply ev_ite | apply Hw.complete_ev | apply Hw.grant_ev)
    | (simp only [ev_mk, ev_fold]) | split | with_reducible apply foldl_ev | dsimp only

theorem execModeRequest_ev {g0 : Since} (d : Desc) {s : State} (es : Ev g0 s.hw) :
    OutEv g0 (execModeRequest d s) := by
  unfold execModeRequest; with_reducible refine onHw_ev (fun {h} e => ?_) (by assumption)
  repeat' first
    | (with_reducible first | assumption | intro _ | apply ev_ite | apply onHw_ev | apply Hw.descriptor_ev
                            | apply Hw.modeRequest_ev)
    | (simp only [ev_mk, ev_fold]) | split | with_reducible apply foldl_ev | dsimp only

theorem Hw.releaseHeld_ev {g0 : Since} {h : Hw} (b : Bridge) (eh : Ev g0 h) : Ev g0 (Hw.releaseHeld h b) := by
  unfold Hw.releaseHeld
  repeat' first
    | (with_reducible first | assumption | intro _ | apply ev_ite | apply Hw.modCtl_ev | apply Hw.completeOpt_ev
                            | apply Hw.storeSetpoint_ev)
    | (simp only [ev_mk, ev_fold]) | split | with_reducible apply foldl_ev | dsimp only

theorem Hw.releasePair_ev {g0 : Since} {h : Hw} (eh : Ev g0 h) : Ev g0 (Hw.releasePair h) := by
  unfold Hw.releasePair
  repeat' first
    | (with_reducible first | assumption | intro _ | apply ev_ite | apply Hw.completeOpt_ev | apply Hw.modCtl_ev)
    | (simp only [ev_mk, ev_fold]) | split | with_reducible apply foldl_ev | dsimp only

theorem Hw.offstateLook_ev {g0 : Since} {h : Hw} (b : Bridge) (eh : Ev g0 h) : Ev g0 (Hw.offstateLook h b) := by
  unfold Hw.offstateLook
  repeat' first
    | (with_reducible first | assumption | intro _ | apply ev_ite | apply Hw.modGate_ev)
    | (simp only [ev_mk, ev_fold]) | split | with_reducible apply foldl_ev | dsimp only

theorem Hw.offstateStart_ev {g0 : Since} {h : Hw} (b : Bridge) (eh : Ev g0 h) : Ev g0 (Hw.offstateStart h b) := by
  unfold Hw.offstateStart
  repeat' first
    | (with_reducible first | assumption | intro _ | apply ev_ite | apply Hw.modGate_ev | apply Hw.offstateLook_ev)
    | (simp only [ev_mk, ev_fold]) | split | with_reducible apply foldl_ev | dsimp only

theorem Hw.stoPathStart_ev {g0 : Since} {h : Hw} (eh : Ev g0 h) : Ev g0 (Hw.stoPathStart h) := by
  unfold Hw.stoPathStart
  repeat' first
    | (with_reducible first | assumption | intro _ | apply ev_ite)
    | (simp only [ev_mk, ev_fold]) | split | with_reducible apply foldl_ev | dsimp only

theorem Hw.configOverlay_ev {g0 : Since} {h : Hw} (eh : Ev g0 h) : Ev g0 (Hw.configOverlay h) := by
  unfold Hw.configOverlay
  repeat' first
    | (with_reducible first | assumption | intro _ | apply ev_ite)
    | (simp only [ev_mk, ev_fold]) | split | with_reducible apply foldl_ev | dsimp only

theorem Hw.holderDrives_ev {g0 : Since} {h : Hw} (eh : Ev g0 h) : Ev g0 (Hw.holderDrives h) := by
  unfold Hw.holderDrives
  repeat' first
    | (with_reducible first | assumption | intro _ | apply ev_ite)
    | (simp only [ev_mk, ev_fold]) | split | with_reducible apply foldl_ev | dsimp only

theorem Hw.takeLead_ev {g0 : Since} {h : Hw} (id lo hi : Nat) (eh : Ev g0 h) : Ev g0 (Hw.takeLead h id lo hi) := by
  unfold Hw.takeLead
  repeat' first
    | (with_reducible first | assumption | intro _ | apply ev_ite | apply Hw.putPar_ev | apply Hw.drawn_ev)
    | (simp only [ev_mk, ev_fold]) | split | with_reducible apply foldl_ev | dsimp only

theorem Hw.interleaveEdge_ev {g0 : Since} {h : Hw} (eh : Ev g0 h) : Ev g0 (Hw.interleaveEdge h) := by
  unfold Hw.interleaveEdge
  repeat' first
    | (with_reducible first | assumption | intro _ | apply ev_ite | apply Hw.takeLead_ev)
    | (simp only [ev_mk, ev_fold]) | split | with_reducible apply foldl_ev | dsimp only

theorem Hw.pairAtReady_ev {g0 : Since} {h : Hw} (eh : Ev g0 h) : Ev g0 (Hw.pairAtReady h) := by
  unfold Hw.pairAtReady
  repeat' first
    | (with_reducible first | assumption | intro _ | apply ev_ite | apply Hw.holderDrives_ev | apply Hw.occur_ev)
    | (simp only [ev_mk, ev_fold]) | split | with_reducible apply foldl_ev | dsimp only

theorem Hw.atReady_ev {g0 : Since} {h : Hw} (from' : Mode) (eh : Ev g0 h) : Ev g0 (Hw.atReady h from') := by
  unfold Hw.atReady
  repeat' first
    | (with_reducible first | assumption | intro _ | apply ev_ite | apply Hw.configOverlay_ev
                            | apply Hw.pairAtReady_ev | apply Hw.chgOpen_ev | apply Hw.chgGo_ev
                            | apply Hw.stoPathStart_ev | apply Hw.offstateStart_ev)
    | (simp only [ev_mk, ev_fold]) | split | with_reducible apply foldl_ev | dsimp only

theorem Hw.offstatePending_ev {g0 : Since} {h : Hw} (b : Bridge) (eh : Ev g0 h) : Ev g0 (Hw.offstatePending h b) := by
  unfold Hw.offstatePending
  repeat' first
    | (with_reducible first | assumption | intro _ | apply ev_ite | apply Hw.occur_ev)
    | (simp only [ev_mk, ev_fold]) | split | with_reducible apply foldl_ev | dsimp only

theorem Hw.atMode_ev {g0 : Since} {h : Hw} (from' m : Mode) (eh : Ev g0 h) : Ev g0 (Hw.atMode h from' m) := by
  unfold Hw.atMode
  repeat' first
    | (with_reducible first | assumption | intro _ | apply ev_ite | apply Hw.atReady_ev | apply Hw.releaseHeld_ev
                            | apply Hw.releasePair_ev | apply Hw.interleaveEdge_ev | apply Hw.offstatePending_ev
                            | apply Hw.chgSettle_ev | apply Hw.checkP11_ev | apply Hw.requestImage_ev
                            | apply Hw.toReady_ev)
    | (simp only [ev_mk, ev_fold]) | split | with_reducible apply foldl_ev | dsimp only

theorem Hw.makeEdge_ev {g0 : Since} {h : Hw} (m : Mode) (cause : Byte) (code : W16) (src : Byte) (q : Option Req)
     (eh : Ev g0 h) :
    Ev g0 (Hw.makeEdge h m cause code src q) := by
  unfold Hw.makeEdge
  repeat' first
    | (with_reducible first | assumption | intro _ | apply ev_ite | apply Hw.edge_ev | apply Hw.atMode_ev
                            | apply Hw.completeOpt_ev | apply Hw.sleep_ev)
    | (simp only [ev_mk, ev_fold]) | split | with_reducible apply foldl_ev | dsimp only

theorem Hw.cinchEdge_ev {g0 : Since} {h : Hw} (g : Grant) (eh : Ev g0 h) : Ev g0 (Hw.cinchEdge h g) := by
  unfold Hw.cinchEdge
  repeat' first
    | (with_reducible first | assumption | intro _ | apply ev_ite | apply Hw.finishCinch_ev | apply Hw.toReady_ev
                            | apply Hw.edge_ev | apply Hw.applyMembers_ev | apply Hw.atMode_ev | apply Hw.sleep_ev)
    | (simp only [ev_mk, ev_fold]) | split | with_reducible apply foldl_ev | dsimp only

theorem Hw.modeEdge_ev {g0 : Since} {h : Hw} (eh : Ev g0 h) : Ev g0 (Hw.modeEdge h) := by
  unfold Hw.modeEdge
  repeat' first
    | (with_reducible first | assumption | intro _ | apply ev_ite | apply Hw.fixAB_ev | apply Hw.makeEdge_ev
                            | apply Hw.cinchEdge_ev | apply Hw.modCtl_ev)
    | (simp only [ev_mk, ev_fold]) | split | with_reducible apply foldl_ev | dsimp only

theorem execModeEdge_ev {g0 : Since} {s : State} (es : Ev g0 s.hw) : OutEv g0 (execModeEdge s) := by
  unfold execModeEdge; with_reducible refine onHw_ev (fun {h} e => ?_) (by assumption)
  repeat' first
    | (with_reducible first | assumption | intro _ | apply ev_ite | apply onHw_ev | apply Hw.modeEdge_ev)
    | (simp only [ev_mk, ev_fold]) | split | with_reducible apply foldl_ev | dsimp only

theorem Hw.forceRing_ev {g0 : Since} {h : Hw} (n : Nat) (eh : Ev g0 h) : Ev g0 (Hw.forceRing h n) := by
  unfold Hw.forceRing
  repeat' first
    | (with_reducible first | assumption | intro _ | apply ev_ite | apply Hw.queueCompletion_ev
                            | apply Hw.occurThen_ev | apply Hw.setRing_ev | apply Hw.settleRing_ev)
    | (simp only [ev_mk, ev_fold]) | split | with_reducible apply foldl_ev | dsimp only

theorem Hw.forceBridge_ev {g0 : Since} {h : Hw} (b : Bridge) (eh : Ev g0 h) : Ev g0 (Hw.forceBridge h b) := by
  unfold Hw.forceBridge
  repeat' first
    | (with_reducible first | assumption | intro _ | apply ev_ite | apply Hw.occurThen_ev | apply Hw.orderSafe_ev)
    | (simp only [ev_mk, ev_fold]) | split | with_reducible apply foldl_ev | dsimp only

theorem Hw.forceCharge_ev {g0 : Since} {h : Hw} (eh : Ev g0 h) : Ev g0 (Hw.forceCharge h) := by
  unfold Hw.forceCharge
  repeat' first
    | (with_reducible first | assumption | intro _ | apply ev_ite | apply Hw.occurThen_ev | apply Hw.chgForced_ev)
    | (simp only [ev_mk, ev_fold]) | split | with_reducible apply foldl_ev | dsimp only

theorem Hw.forceLv_ev {g0 : Since} {h : Hw} (eh : Ev g0 h) : Ev g0 (Hw.forceLv h) := by
  unfold Hw.forceLv
  repeat' first
    | (with_reducible first | assumption | intro _ | apply ev_ite | apply Hw.occurThen_ev | apply Hw.completeAll_ev
                            | apply Hw.lvRest_ev | apply Hw.complete_ev)
    | (simp only [ev_mk, ev_fold]) | split | with_reducible apply foldl_ev | dsimp only

theorem Hw.forceAct_ev {g0 : Since} {h : Hw} (eh : Ev g0 h) : Ev g0 (Hw.forceAct h) := by
  unfold Hw.forceAct
  repeat' first
    | (with_reducible first | assumption | intro _ | apply ev_ite | apply Hw.occurThen_ev | apply Hw.actHold_ev)
    | (simp only [ev_mk, ev_fold]) | split | with_reducible apply foldl_ev | dsimp only

theorem execDrainForced_ev {g0 : Since} (fn : DrainFn) {s : State} (es : Ev g0 s.hw) :
    OutEv g0 (execDrainForced fn s) := by
  unfold execDrainForced; with_reducible refine onHw_ev (fun {h} e => ?_) (by assumption)
  repeat' first
    | (with_reducible first | assumption | intro _ | apply ev_ite | apply onHw_ev | apply Hw.forceRing_ev
                            | apply Hw.forceBridge_ev | apply Hw.forceCharge_ev | apply Hw.forceLv_ev
                            | apply Hw.forceAct_ev)
    | (simp only [ev_mk, ev_fold]) | split | with_reducible apply foldl_ev | dsimp only

theorem Hw.dcLinkLive_ev {g0 : Since} {h : Hw} (eh : Ev g0 h) : Ev g0 (Hw.dcLinkLive h) := by
  unfold Hw.dcLinkLive
  repeat' first
    | (with_reducible first | assumption | intro _ | apply ev_ite | apply Hw.clearFault_ev | apply Hw.completeOpt_ev
                            | apply Hw.finishCinch_ev | apply Hw.toReady_ev | apply Hw.occurThen_ev)
    | (simp only [ev_mk, ev_fold]) | split | with_reducible apply foldl_ev | dsimp only

theorem execDcLinkLive_ev {g0 : Since} {s : State} (es : Ev g0 s.hw) : OutEv g0 (execDcLinkLive s) := by
  unfold execDcLinkLive; with_reducible refine onHw_ev (fun {h} e => ?_) (by assumption)
  repeat' first
    | (with_reducible first | assumption | intro _ | apply ev_ite | apply onHw_ev | apply Hw.dcLinkLive_ev)
    | (simp only [ev_mk, ev_fold]) | split | with_reducible apply foldl_ev | dsimp only

theorem Hw.idleTimeout_ev {g0 : Since} {h : Hw} (wakeActive : Bool) (eh : Ev g0 h) :
    Ev g0 (Hw.idleTimeout h wakeActive) := by
  unfold Hw.idleTimeout
  repeat' first
    | (with_reducible first | assumption | intro _ | apply ev_ite | apply Hw.busyNow_ev | apply Hw.ownRequest_ev)
    | (simp only [ev_mk, ev_fold]) | split | with_reducible apply foldl_ev | dsimp only

theorem execBaseCampIdleTimeout_ev {g0 : Since} (wakeActive : Bool) {s : State} (es : Ev g0 s.hw) :
    OutEv g0 (execBaseCampIdleTimeout wakeActive s) := by
  unfold execBaseCampIdleTimeout; with_reducible refine onHw_ev (fun {h} e => ?_) (by assumption)
  repeat' first
    | (with_reducible first | assumption | intro _ | apply ev_ite | apply onHw_ev | apply Hw.idleTimeout_ev)
    | (simp only [ev_mk, ev_fold]) | split | with_reducible apply foldl_ev | dsimp only

theorem Hw.topupReturn_ev {g0 : Since} {h : Hw} (eh : Ev g0 h) : Ev g0 (Hw.topupReturn h) := by
  unfold Hw.topupReturn
  repeat' first
    | (with_reducible first | assumption | intro _ | apply ev_ite | apply Hw.ownRequest_ev)
    | (simp only [ev_mk, ev_fold]) | split | with_reducible apply foldl_ev | dsimp only

theorem Hw.topupNoPermit_ev {g0 : Since} {h : Hw} (eh : Ev g0 h) : Ev g0 (Hw.topupNoPermit h) := by
  unfold Hw.topupNoPermit
  repeat' first
    | (with_reducible first | assumption | intro _ | apply ev_ite | apply Hw.occur_ev | apply Hw.topupReturn_ev)
    | (simp only [ev_mk, ev_fold]) | split | with_reducible apply foldl_ev | dsimp only

theorem execTopupNoPermit_ev {g0 : Since} {s : State} (es : Ev g0 s.hw) : OutEv g0 (execTopupNoPermit s) := by
  unfold execTopupNoPermit; with_reducible refine onHw_ev (fun {h} e => ?_) (by assumption)
  repeat' first
    | (with_reducible first | assumption | intro _ | apply ev_ite | apply onHw_ev | apply Hw.topupNoPermit_ev)
    | (simp only [ev_mk, ev_fold]) | split | with_reducible apply foldl_ev | dsimp only

theorem Hw.belayExpiry_ev {g0 : Since} {h : Hw} (eh : Ev g0 h) : Ev g0 (Hw.belayExpiry h) := by
  unfold Hw.belayExpiry
  repeat' first
    | (with_reducible first | assumption | intro _ | apply ev_ite | apply Hw.occur_ev)
    | (simp only [ev_mk, ev_fold]) | split | with_reducible apply foldl_ev | dsimp only

theorem execBelayTimeExpiry_ev {g0 : Since} {s : State} (es : Ev g0 s.hw) : OutEv g0 (execBelayTimeExpiry s) := by
  unfold execBelayTimeExpiry; with_reducible refine onHw_ev (fun {h} e => ?_) (by assumption)
  repeat' first
    | (with_reducible first | assumption | intro _ | apply ev_ite | apply onHw_ev | apply Hw.belayExpiry_ev)
    | (simp only [ev_mk, ev_fold]) | split | with_reducible apply foldl_ev | dsimp only

theorem execAppSignal_ev {g0 : Since} {s : State} (es : Ev g0 s.hw) : OutEv g0 (execAppSignal s) := by
  unfold execAppSignal; with_reducible refine onHw_ev (fun {h} e => ?_) (by assumption)
  repeat' first
    | (with_reducible first | assumption | intro _ | apply ev_ite | apply onHw_ev | apply Hw.clearFault_ev)
    | (simp only [ev_mk, ev_fold]) | split | with_reducible apply foldl_ev | dsimp only

theorem Hw.appMiss_ev {g0 : Since} {h : Hw} (eh : Ev g0 h) : Ev g0 (Hw.appMiss h) := by
  unfold Hw.appMiss
  repeat' first
    | (with_reducible first | assumption | intro _ | apply ev_ite | apply Hw.raiseOnce_ev)
    | (simp only [ev_mk, ev_fold]) | split | with_reducible apply foldl_ev | dsimp only

theorem execAppSignalLost_ev {g0 : Since} {s : State} (es : Ev g0 s.hw) : OutEv g0 (execAppSignalLost s) := by
  unfold execAppSignalLost; with_reducible refine onHw_ev (fun {h} e => ?_) (by assumption)
  repeat' first
    | (with_reducible first | assumption | intro _ | apply ev_ite | apply onHw_ev | apply Hw.appMiss_ev)
    | (simp only [ev_mk, ev_fold]) | split | with_reducible apply foldl_ev | dsimp only

theorem Hw.thermalAllowance_ev {g0 : Since} {h : Hw} (a : Allowances) (eh : Ev g0 h) :
    Ev g0 (Hw.thermalAllowance h a) := by
  unfold Hw.thermalAllowance
  repeat' first
    | (with_reducible first | assumption | intro _ | apply ev_ite)
    | (simp only [ev_mk, ev_fold]) | split | with_reducible apply foldl_ev | dsimp only

theorem execThermalAllowance_ev {g0 : Since} (budget electronics lvLoad bridges charging lvAbove : Nat) {s : State} (es : Ev g0 s.hw) :
    OutEv g0 (execThermalAllowance budget electronics lvLoad bridges charging lvAbove s) := by
  unfold execThermalAllowance; with_reducible refine onHw_ev (fun {h} e => ?_) (by assumption)
  repeat' first
    | (with_reducible first | assumption | intro _ | apply ev_ite | apply onHw_ev | apply Hw.thermalAllowance_ev)
    | (simp only [ev_mk, ev_fold]) | split | with_reducible apply foldl_ev | dsimp only

theorem Hw.coolantHot_ev {g0 : Since} {h : Hw} (eh : Ev g0 h) : Ev g0 (Hw.coolantHot h) := by
  unfold Hw.coolantHot
  repeat' first
    | (with_reducible first | assumption | intro _ | apply ev_ite | apply Hw.clearFault_ev | apply Hw.raiseOnce_ev)
    | (simp only [ev_mk, ev_fold]) | split | with_reducible apply foldl_ev | dsimp only

theorem Hw.allowanceEnd_ev {g0 : Since} {h : Hw} (eh : Ev g0 h) : Ev g0 (Hw.allowanceEnd h) := by
  unfold Hw.allowanceEnd
  repeat' first
    | (with_reducible first | assumption | intro _ | apply ev_ite | apply Hw.coolantHot_ev)
    | (simp only [ev_mk, ev_fold]) | split | with_reducible apply foldl_ev | dsimp only

theorem execAllowanceTimeout_ev {g0 : Since} {s : State} (es : Ev g0 s.hw) : OutEv g0 (execAllowanceTimeout s) := by
  unfold execAllowanceTimeout; with_reducible refine onHw_ev (fun {h} e => ?_) (by assumption)
  repeat' first
    | (with_reducible first | assumption | intro _ | apply ev_ite | apply onHw_ev | apply Hw.allowanceEnd_ev)
    | (simp only [ev_mk, ev_fold]) | split | with_reducible apply foldl_ev | dsimp only

end Sys2Proof.Machine
end

