-- ==== Sys2Proof/Laws/EvolveTorque.lean ====
section
/-!
SUPPORT. Laws/EvolveTorque.lean: what every operation keeps of the limits and of what is never taken back, for gear shifts, control boundaries and torque control: one lemma
for each operation, named after it.
-/
set_option linter.unusedSimpArgs false
namespace Sys2Proof.Machine

theorem Hw.endDrive_ev {g0 : Since} {h : Hw} (i : Nat) (st : DriveState) (r : Status) (eh : Ev g0 h) :
    Ev g0 (Hw.endDrive h i st r) := by
  unfold Hw.endDrive
  repeat' first
    | (with_reducible first | assumption | intro _ | apply ev_ite | apply Hw.modDrive_ev | apply Hw.completeOpt_ev)
    | (simp only [ev_mk, ev_fold]) | split | with_reducible apply foldl_ev | dsimp only

theorem Hw.brakeDrive_ev {g0 : Since} {h : Hw} (i : Nat) (eh : Ev g0 h) : Ev g0 (Hw.brakeDrive h i) := by
  unfold Hw.brakeDrive
  repeat' first
    | (with_reducible first | assumption | intro _ | apply ev_ite | apply Hw.modDrive_ev)
    | (simp only [ev_mk, ev_fold]) | split | with_reducible apply foldl_ev | dsimp only

theorem Hw.hallObserver_ev {g0 : Since} {h : Hw} (i : Nat) (speed : Int) (eh : Ev g0 h) :
    Ev g0 (Hw.hallObserver h i speed) := by
  unfold Hw.hallObserver
  repeat' first
    | (with_reducible first | assumption | intro _ | apply ev_ite | apply Hw.modDrive_ev | apply Hw.raiseOnce_ev
                            | apply Hw.brakeDrive_ev)
    | (simp only [ev_mk, ev_fold]) | split | with_reducible apply foldl_ev | dsimp only

theorem Hw.hallsLost_ev {g0 : Since} {h : Hw} (i : Nat) (eh : Ev g0 h) : Ev g0 (Hw.hallsLost h i) := by
  unfold Hw.hallsLost
  repeat' first
    | (with_reducible first | assumption | intro _ | apply ev_ite | apply Hw.hallObserver_ev)
    | (simp only [ev_mk, ev_fold]) | split | with_reducible apply foldl_ev | dsimp only

theorem Hw.parkLost_ev {g0 : Since} {h : Hw} (eh : Ev g0 h) : Ev g0 (Hw.parkLost h) := by
  unfold Hw.parkLost
  repeat' first
    | (with_reducible first | assumption | intro _ | apply ev_ite | apply Hw.raiseOnce_ev | apply Hw.occurThen_ev
                            | apply Hw.boostAbort_ev)
    | (simp only [ev_mk, ev_fold]) | split | with_reducible apply foldl_ev | dsimp only

theorem Hw.posInvalid_ev {g0 : Since} {h : Hw} (i : Nat) (eh : Ev g0 h) : Ev g0 (Hw.posInvalid h i) := by
  unfold Hw.posInvalid
  repeat' first
    | (with_reducible first | assumption | intro _ | apply ev_ite | apply Hw.modDrive_ev | apply Hw.raiseOnce_ev
                            | apply Hw.parkLost_ev)
    | (simp only [ev_mk, ev_fold]) | split | with_reducible apply foldl_ev | dsimp only

theorem Hw.posGood_ev {g0 : Since} {h : Hw} (i : Nat) (eh : Ev g0 h) : Ev g0 (Hw.posGood h i) := by
  unfold Hw.posGood
  repeat' first
    | (with_reducible first | assumption | intro _ | apply ev_ite | apply Hw.modDrive_ev | apply Hw.clearFault_ev)
    | (simp only [ev_mk, ev_fold]) | split | with_reducible apply foldl_ev | dsimp only

theorem Hw.modGear_ev {g0 : Since} {h : Hw} (f : Shift → Shift) (eh : Ev g0 h) : Ev g0 (Hw.modGear h f) := by
  unfold Hw.modGear
  repeat' first
    | (with_reducible first | assumption | intro _ | apply ev_ite)
    | (simp only [ev_mk, ev_fold]) | split | with_reducible apply foldl_ev | dsimp only

theorem Hw.gearEvent_ev {g0 : Since} {h : Hw} (what : Nat) (eh : Ev g0 h) : Ev g0 (Hw.gearEvent h what) := by
  unfold Hw.gearEvent
  repeat' first
    | (with_reducible first | assumption | intro _ | apply ev_ite | apply Hw.postEvent_ev)
    | (simp only [ev_mk, ev_fold]) | split | with_reducible apply foldl_ev | dsimp only

theorem Hw.endShift_ev {g0 : Since} {h : Hw} (st : Status) (eh : Ev g0 h) : Ev g0 (Hw.endShift h st) := by
  unfold Hw.endShift
  repeat' first
    | (with_reducible first | assumption | intro _ | apply ev_ite | apply Hw.modCtl_ev | apply Hw.completeOpt_ev
                            | apply Hw.acceptSetpoint_ev | apply Hw.freePair_ev | apply Hw.drainBridges_ev)
    | (simp only [ev_mk, ev_fold]) | split | with_reducible apply foldl_ev | dsimp only

theorem Hw.rampBack_ev {g0 : Since} {h : Hw} (eh : Ev g0 h) : Ev g0 (Hw.rampBack h) := by
  unfold Hw.rampBack
  repeat' first
    | (with_reducible first | assumption | intro _ | apply ev_ite | apply Hw.modCtl_ev | apply Hw.completeOpt_ev
                            | apply Hw.freePair_ev | apply Hw.modGear_ev)
    | (simp only [ev_mk, ev_fold]) | split | with_reducible apply foldl_ev | dsimp only

theorem Hw.neutralHeld_ev {g0 : Since} {h : Hw} (eh : Ev g0 h) : Ev g0 (Hw.neutralHeld h) := by
  unfold Hw.neutralHeld
  repeat' first
    | (with_reducible first | assumption | intro _ | apply ev_ite | apply Hw.startDrive_ev | apply Hw.modCtl_ev
                            | apply Hw.count_ev | apply Hw.gearEvent_ev | apply Hw.endShift_ev | apply Hw.occur_ev)
    | (simp only [ev_mk, ev_fold]) | split | with_reducible apply foldl_ev | dsimp only

theorem Hw.trailSpeed_ev {g0 : Since} {h : Hw} (b : Bridge) (eh : Ev g0 h) : Ev g0 (Hw.trailSpeed h b) := by
  unfold Hw.trailSpeed
  repeat' first
    | (with_reducible first | assumption | intro _ | apply ev_ite | apply Hw.modCtl_ev)
    | (simp only [ev_mk, ev_fold]) | split | with_reducible apply foldl_ev | dsimp only

theorem Hw.trackShift_ev {g0 : Since} {h : Hw} (b : Bridge) (eh : Ev g0 h) : Ev g0 (Hw.trackShift h b) := by
  unfold Hw.trackShift
  repeat' first
    | (with_reducible first | assumption | intro _ | apply ev_ite | apply Hw.engage_ev | apply Hw.modCtl_ev
                            | apply Hw.modGear_ev)
    | (simp only [ev_mk, ev_fold]) | split | with_reducible apply foldl_ev | dsimp only

theorem Hw.seekGear_ev {g0 : Since} {h : Hw} (gear : Nat) (step : ShiftStep) (offset : Int) (eh : Ev g0 h) :
    Ev g0 (Hw.seekGear h gear step offset) := by
  unfold Hw.seekGear
  repeat' first
    | (with_reducible first | assumption | intro _ | apply ev_ite | apply Hw.startDrive_ev | apply Hw.modCtl_ev
                            | apply Hw.modGear_ev)
    | (simp only [ev_mk, ev_fold]) | split | with_reducible apply foldl_ev | dsimp only

theorem Hw.engage_ev {g0 : Since} {h : Hw} (eh : Ev g0 h) : Ev g0 (Hw.engage h) := by
  unfold Hw.engage
  repeat' first
    | (with_reducible first | assumption | intro _ | apply ev_ite | apply Hw.startDrive_ev | apply Hw.modGear_ev)
    | (simp only [ev_mk, ev_fold]) | split | with_reducible apply foldl_ev | dsimp only

theorem Hw.disengage_ev {g0 : Since} {h : Hw} (eh : Ev g0 h) : Ev g0 (Hw.disengage h) := by
  unfold Hw.disengage
  repeat' first
    | (with_reducible first | assumption | intro _ | apply ev_ite | apply Hw.startDrive_ev | apply Hw.modGear_ev)
    | (simp only [ev_mk, ev_fold]) | split | with_reducible apply foldl_ev | dsimp only

theorem Hw.shiftConfirmed_ev {g0 : Since} {h : Hw} (i : Nat) (eh : Ev g0 h) : Ev g0 (Hw.shiftConfirmed h i) := by
  unfold Hw.shiftConfirmed
  repeat' first
    | (with_reducible first | assumption | intro _ | apply ev_ite | apply Hw.modCtl_ev | apply Hw.gearEvent_ev
                            | apply Hw.count_ev | apply Hw.endShift_ev | apply Hw.seekGear_ev | apply Hw.rampBack_ev
                            | apply Hw.engage_ev)
    | (simp only [ev_mk, ev_fold]) | split | with_reducible apply foldl_ev | dsimp only

theorem Hw.shiftLost_ev {g0 : Since} {h : Hw} (eh : Ev g0 h) : Ev g0 (Hw.shiftLost h) := by
  unfold Hw.shiftLost
  repeat' first
    | (with_reducible first | assumption | intro _ | apply ev_ite | apply Hw.count_ev | apply Hw.endShift_ev
                            | apply Hw.modGear_ev | apply Hw.neutralHeld_ev)
    | (simp only [ev_mk, ev_fold]) | split | with_reducible apply foldl_ev | dsimp only

theorem Hw.shiftBoundary_ev {g0 : Since} {h : Hw} (b : Bridge) (eh : Ev g0 h) : Ev g0 (Hw.shiftBoundary h b) := by
  unfold Hw.shiftBoundary
  repeat' first
    | (with_reducible first | assumption | intro _ | apply ev_ite | apply Hw.shiftLost_ev | apply Hw.disengage_ev
                            | apply Hw.engage_ev | apply Hw.count_ev | apply Hw.endShift_ev)
    | (simp only [ev_mk, ev_fold]) | split | with_reducible apply foldl_ev | dsimp only

theorem Hw.fuse_ev {g0 : Since} {h : Hw} (b : Bridge) (m : BoundaryInput) (eh : Ev g0 h) : Ev g0 (Hw.fuse h b m) := by
  unfold Hw.fuse
  repeat' first
    | (with_reducible first | assumption | intro _ | apply ev_ite | apply Hw.residual_ev | apply Hw.modFus_ev
                            | apply Hw.modCtl_ev)
    | (simp only [ev_mk, ev_fold]) | split | with_reducible apply foldl_ev | dsimp only

theorem Hw.measure_ev {g0 : Since} {h : Hw} (b : Bridge) (eh : Ev g0 h) : Ev g0 (Hw.measure h b) := by
  unfold Hw.measure
  repeat' first
    | (with_reducible first | assumption | intro _ | apply ev_ite | apply Hw.modCtl_ev)
    | (simp only [ev_mk, ev_fold]) | split | with_reducible apply foldl_ev | dsimp only

theorem Hw.watchSources_ev {g0 : Since} {h : Hw} (b : Bridge) (m : BoundaryInput) (eh : Ev g0 h) :
    Ev g0 (Hw.watchSources h b m) := by
  unfold Hw.watchSources
  repeat' first
    | (with_reducible first | assumption | intro _ | apply ev_ite | apply Hw.modFus_ev)
    | (simp only [ev_mk, ev_fold]) | split | with_reducible apply foldl_ev | dsimp only

theorem Hw.loseObserver_ev {g0 : Since} {h : Hw} (b : Bridge) (eh : Ev g0 h) : Ev g0 (Hw.loseObserver h b) := by
  unfold Hw.loseObserver
  repeat' first
    | (with_reducible first | assumption | intro _ | apply ev_ite | apply Hw.modFus_ev | apply Hw.raiseOnce_ev)
    | (simp only [ev_mk, ev_fold]) | split | with_reducible apply foldl_ev | dsimp only

theorem Hw.loseSensor_ev {g0 : Since} {h : Hw} (b : Bridge) (eh : Ev g0 h) : Ev g0 (Hw.loseSensor h b) := by
  unfold Hw.loseSensor
  repeat' first
    | (with_reducible first | assumption | intro _ | apply ev_ite | apply Hw.modFus_ev | apply Hw.raiseOnce_ev)
    | (simp only [ev_mk, ev_fold]) | split | with_reducible apply foldl_ev | dsimp only

theorem Hw.loseBoth_ev {g0 : Since} {h : Hw} (b : Bridge) (eh : Ev g0 h) : Ev g0 (Hw.loseBoth h b) := by
  unfold Hw.loseBoth
  repeat' first
    | (with_reducible first | assumption | intro _ | apply ev_ite | apply Hw.modFus_ev | apply Hw.orderSafe_ev
                            | apply Hw.modCtl_ev | apply Hw.raiseAs_ev)
    | (simp only [ev_mk, ev_fold]) | split | with_reducible apply foldl_ev | dsimp only

theorem Hw.awaitSensor_ev {g0 : Since} {h : Hw} (b : Bridge) (eh : Ev g0 h) : Ev g0 (Hw.awaitSensor h b) := by
  unfold Hw.awaitSensor
  repeat' first
    | (with_reducible first | assumption | intro _ | apply ev_ite | apply Hw.modFus_ev | apply Hw.orderSafe_ev)
    | (simp only [ev_mk, ev_fold]) | split | with_reducible apply foldl_ev | dsimp only

theorem Hw.judge_ev {g0 : Since} {h : Hw} (b : Bridge) (eh : Ev g0 h) : Ev g0 (Hw.judge h b) := by
  unfold Hw.judge
  repeat' first
    | (with_reducible first | assumption | intro _ | apply ev_ite | apply Hw.noSource_ev | apply Hw.awaitSensor_ev
                            | apply Hw.loseBoth_ev | apply Hw.modFus_ev | apply Hw.loseObserver_ev
                            | apply Hw.loseSensor_ev)
    | (simp only [ev_mk, ev_fold]) | split | with_reducible apply foldl_ev | dsimp only

theorem Hw.returnSources_ev {g0 : Since} {h : Hw} (b : Bridge) (eh : Ev g0 h) : Ev g0 (Hw.returnSources h b) := by
  unfold Hw.returnSources
  repeat' first
    | (with_reducible first | assumption | intro _ | apply ev_ite | apply Hw.clearFault_ev | apply Hw.modFus_ev)
    | (simp only [ev_mk, ev_fold]) | split | with_reducible apply foldl_ev | dsimp only

theorem Hw.commandVolts_ev {g0 : Since} {h : Hw} (b : Bridge) (eh : Ev g0 h) : Ev g0 (Hw.commandVolts h b) := by
  unfold Hw.commandVolts
  repeat' first
    | (with_reducible first | assumption | intro _ | apply ev_ite | apply Hw.modGate_ev)
    | (simp only [ev_mk, ev_fold]) | split | with_reducible apply foldl_ev | dsimp only

theorem Hw.regulateCurrent_ev {g0 : Since} {h : Hw} (b : Bridge) (ticks : Nat) (ref : Int × Int) (eh : Ev g0 h) :
    Ev g0 (Hw.regulateCurrent h b ticks ref) := by
  unfold Hw.regulateCurrent
  repeat' first
    | (with_reducible first | assumption | intro _ | apply ev_ite | apply Hw.modCtl_ev | apply Hw.commandVolts_ev)
    | (simp only [ev_mk, ev_fold]) | split | with_reducible apply foldl_ev | dsimp only

theorem Hw.restCurrent_ev {g0 : Since} {h : Hw} (b : Bridge) (eh : Ev g0 h) : Ev g0 (Hw.restCurrent h b) := by
  unfold Hw.restCurrent
  repeat' first
    | (with_reducible first | assumption | intro _ | apply ev_ite | apply Hw.modCtl_ev)
    | (simp only [ev_mk, ev_fold]) | split | with_reducible apply foldl_ev | dsimp only

theorem Hw.voltageLoop_ev {g0 : Since} {h : Hw} (b : Bridge) (eh : Ev g0 h) : Ev g0 (Hw.voltageLoop h b) := by
  unfold Hw.voltageLoop
  repeat' first
    | (with_reducible first | assumption | intro _ | apply ev_ite | apply Hw.modCtl_ev | apply Hw.drawn_ev)
    | (simp only [ev_mk, ev_fold]) | split | with_reducible apply foldl_ev | dsimp only

theorem Hw.takeMaps_ev {g0 : Since} {h : Hw} (b : Bridge) (eh : Ev g0 h) : Ev g0 (Hw.takeMaps h b) := by
  unfold Hw.takeMaps
  repeat' first
    | (with_reducible first | assumption | intro _ | apply ev_ite | apply Hw.completeAll_ev | apply Hw.modCtl_ev
                            | apply Hw.complete_ev)
    | (simp only [ev_mk, ev_fold]) | split | with_reducible apply foldl_ev | dsimp only

theorem Hw.takeTable_ev {g0 : Since} {h : Hw} (b : Bridge) (eh : Ev g0 h) : Ev g0 (Hw.takeTable h b) := by
  unfold Hw.takeTable
  repeat' first
    | (with_reducible first | assumption | intro _ | apply ev_ite | apply Hw.harmActivate_ev)
    | (simp only [ev_mk, ev_fold]) | split | with_reducible apply foldl_ev | dsimp only

theorem Hw.takeSetpoint_ev {g0 : Since} {h : Hw} (b : Bridge) (eh : Ev g0 h) : Ev g0 (Hw.takeSetpoint h b) := by
  unfold Hw.takeSetpoint
  repeat' first
    | (with_reducible first | assumption | intro _ | apply ev_ite | apply Hw.modCtl_ev | apply Hw.completeOpt_ev
                            | apply Hw.storeSetpoint_ev | apply Hw.holdSetpoint_ev)
    | (simp only [ev_mk, ev_fold]) | split | with_reducible apply foldl_ev | dsimp only

theorem Hw.preload_ev {g0 : Since} {h : Hw} (b : Bridge) (eh : Ev g0 h) : Ev g0 (Hw.preload h b) := by
  unfold Hw.preload
  repeat' first
    | (with_reducible first | assumption | intro _ | apply ev_ite | apply Hw.modCtl_ev)
    | (simp only [ev_mk, ev_fold]) | split | with_reducible apply foldl_ev | dsimp only

theorem Hw.syncAdvance_ev {g0 : Since} {h : Hw} (b : Bridge) (eh : Ev g0 h) : Ev g0 (Hw.syncAdvance h b) := by
  unfold Hw.syncAdvance
  repeat' first
    | (with_reducible first | assumption | intro _ | apply ev_ite | apply Hw.preload_ev | apply Hw.modCtl_ev
                            | apply Hw.orderSafe_ev)
    | (simp only [ev_mk, ev_fold]) | split | with_reducible apply foldl_ev | dsimp only

theorem Hw.supersedePending_ev {g0 : Since} {h : Hw} (b : Bridge) (eh : Ev g0 h) :
    Ev g0 (Hw.supersedePending h b) := by
  unfold Hw.supersedePending
  repeat' first
    | (with_reducible first | assumption | intro _ | apply ev_ite | apply Hw.modCtl_ev | apply Hw.completeOpt_ev)
    | (simp only [ev_mk, ev_fold]) | split | with_reducible apply foldl_ev | dsimp only

theorem Hw.takePair_ev {g0 : Since} {h : Hw} (eh : Ev g0 h) : Ev g0 (Hw.takePair h) := by
  unfold Hw.takePair
  repeat' first
    | (with_reducible first | assumption | intro _ | apply ev_ite | apply Hw.completeOpt_ev
                            | apply Hw.supersedePending_ev | apply Hw.modCtl_ev)
    | (simp only [ev_mk, ev_fold]) | split | with_reducible apply foldl_ev | dsimp only

theorem Hw.takeSyscal_ev {g0 : Since} {h : Hw} (eh : Ev g0 h) : Ev g0 (Hw.takeSyscal h) := by
  unfold Hw.takeSyscal
  repeat' first
    | (with_reducible first | assumption | intro _ | apply ev_ite | apply Hw.applySyscal_ev | apply Hw.completeOpt_ev)
    | (simp only [ev_mk, ev_fold]) | split | with_reducible apply foldl_ev | dsimp only

theorem Hw.takeAB_ev {g0 : Since} {h : Hw} (eh : Ev g0 h) : Ev g0 (Hw.takeAB h) := by
  unfold Hw.takeAB
  repeat' first
    | (with_reducible first | assumption | intro _ | apply ev_ite | apply Hw.takePair_ev | apply Hw.applyWaiting_ev
                            | apply Hw.takeSyscal_ev | apply Hw.fixAB_ev)
    | (simp only [ev_mk, ev_fold]) | split | with_reducible apply foldl_ev | dsimp only

theorem Hw.demand_ev {g0 : Since} {h : Hw} (b : Bridge) (ticks : Nat) (eh : Ev g0 h) :
    Ev g0 (Hw.demand h b ticks) := by
  unfold Hw.demand
  repeat' first
    | (with_reducible first | assumption | intro _ | apply ev_ite | apply Hw.modCtl_ev)
    | (simp only [ev_mk, ev_fold]) | split | with_reducible apply foldl_ev | dsimp only

theorem Hw.lagTo_ev {g0 : Since} {h : Hw} (b : Bridge) (eh : Ev g0 h) : Ev g0 (Hw.lagTo h b) := by
  unfold Hw.lagTo
  repeat' first
    | (with_reducible first | assumption | intro _ | apply ev_ite | apply Hw.modCtl_ev)
    | (simp only [ev_mk, ev_fold]) | split | with_reducible apply foldl_ev | dsimp only

theorem Hw.regulate_ev {g0 : Since} {h : Hw} (b : Bridge) (ticks : Nat) (eh : Ev g0 h) :
    Ev g0 (Hw.regulate h b ticks) := by
  unfold Hw.regulate
  repeat' first
    | (with_reducible first | assumption | intro _ | apply ev_ite | apply Hw.lagTo_ev | apply Hw.demand_ev
                            | apply Hw.modCtl_ev | apply Hw.voltageLoop_ev | apply Hw.regulateCurrent_ev
                            | apply Hw.restCurrent_ev)
    | (simp only [ev_mk, ev_fold]) | split | with_reducible apply foldl_ev | dsimp only

theorem Hw.watchLow_ev {g0 : Since} {h : Hw} (b : Bridge) (eh : Ev g0 h) : Ev g0 (Hw.watchLow h b) := by
  unfold Hw.watchLow
  repeat' first
    | (with_reducible first | assumption | intro _ | apply ev_ite | apply Hw.modCtl_ev)
    | (simp only [ev_mk, ev_fold]) | split | with_reducible apply foldl_ev | dsimp only

theorem Hw.windowCheck_ev {g0 : Since} {h : Hw} (b : Bridge) (eh : Ev g0 h) : Ev g0 (Hw.windowCheck h b) := by
  unfold Hw.windowCheck
  repeat' first
    | (with_reducible first | assumption | intro _ | apply ev_ite | apply Hw.modCtl_ev)
    | (simp only [ev_mk, ev_fold]) | split | with_reducible apply foldl_ev | dsimp only

theorem Hw.magnetObserved_ev {g0 : Since} {h : Hw} (b : Bridge) (residual : Int) (ticks : Nat) (eh : Ev g0 h) :
    Ev g0 (Hw.magnetObserved h b residual ticks) := by
  unfold Hw.magnetObserved
  repeat' first
    | (with_reducible first | assumption | intro _ | apply ev_ite | apply Hw.modCtl_ev)
    | (simp only [ev_mk, ev_fold]) | split | with_reducible apply foldl_ev | dsimp only

theorem Hw.magnetModelled_ev {g0 : Since} {h : Hw} (b : Bridge) (eh : Ev g0 h) : Ev g0 (Hw.magnetModelled h b) := by
  unfold Hw.magnetModelled
  repeat' first
    | (with_reducible first | assumption | intro _ | apply ev_ite | apply Hw.modCtl_ev)
    | (simp only [ev_mk, ev_fold]) | split | with_reducible apply foldl_ev | dsimp only

theorem Hw.magnet_ev {g0 : Since} {h : Hw} (b : Bridge) (residual : Int) (ticks : Nat) (eh : Ev g0 h) :
    Ev g0 (Hw.magnet h b residual ticks) := by
  unfold Hw.magnet
  repeat' first
    | (with_reducible first | assumption | intro _ | apply ev_ite | apply Hw.modCtl_ev | apply Hw.magnetObserved_ev
                            | apply Hw.magnetModelled_ev | apply Hw.raiseOnce_ev | apply Hw.clearFault_ev)
    | (simp only [ev_mk, ev_fold]) | split | with_reducible apply foldl_ev | dsimp only

theorem Hw.bridgeEnergy_ev {g0 : Since} {h : Hw} (b : Bridge) (ticks : Nat) (eh : Ev g0 h) :
    Ev g0 (Hw.bridgeEnergy h b ticks) := by
  unfold Hw.bridgeEnergy
  repeat' first
    | (with_reducible first | assumption | intro _ | apply ev_ite | apply Hw.addEnergy_ev)
    | (simp only [ev_mk, ev_fold]) | split | with_reducible apply foldl_ev | dsimp only

theorem Hw.dcAccount_ev {g0 : Since} {h : Hw} (ticks : Nat) (eh : Ev g0 h) : Ev g0 (Hw.dcAccount h ticks) := by
  unfold Hw.dcAccount
  repeat' first
    | (with_reducible first | assumption | intro _ | apply ev_ite | apply Hw.addEnergy_ev)
    | (simp only [ev_mk, ev_fold]) | split | with_reducible apply foldl_ev | dsimp only

theorem Hw.torqueFaults_ev {g0 : Since} {h : Hw} (b : Bridge) (eh : Ev g0 h) : Ev g0 (Hw.torqueFaults h b) := by
  unfold Hw.torqueFaults
  repeat' first
    | (with_reducible first | assumption | intro _ | apply ev_ite | apply Hw.modCtl_ev | apply Hw.raiseOnce_ev
                            | apply Hw.clearFault_ev)
    | (simp only [ev_mk, ev_fold]) | split | with_reducible apply foldl_ev | dsimp only

theorem Hw.drainEnd_ev {g0 : Since} {h : Hw} (b : Bridge) (eh : Ev g0 h) : Ev g0 (Hw.drainEnd h b) := by
  unfold Hw.drainEnd
  repeat' first
    | (with_reducible first | assumption | intro _ | apply ev_ite | apply Hw.orderSafe_ev)
    | (simp only [ev_mk, ev_fold]) | split | with_reducible apply foldl_ev | dsimp only

theorem Hw.outFollow_ev {g0 : Since} {h : Hw} (k : Nat) (count rate : Int) (healthy : Bool) (eh : Ev g0 h) :
    Ev g0 (Hw.outFollow h k count rate healthy) := by
  unfold Hw.outFollow
  repeat' first
    | (with_reducible first | assumption | intro _ | apply ev_ite | apply Hw.demand_ev | apply Hw.occur_ev)
    | (simp only [ev_mk, ev_fold]) | split | with_reducible apply foldl_ev | dsimp only

theorem Hw.outFused_ev {g0 : Since} {h : Hw} (b : Bridge) (eh : Ev g0 h) : Ev g0 (Hw.outFused h b) := by
  unfold Hw.outFused
  repeat' first
    | (with_reducible first | assumption | intro _ | apply ev_ite | apply Hw.outFollow_ev)
    | (simp only [ev_mk, ev_fold]) | split | with_reducible apply foldl_ev | dsimp only

theorem Hw.ceilingEnd_ev {g0 : Since} {h : Hw} (eh : Ev g0 h) : Ev g0 (Hw.ceilingEnd h) := by
  unfold Hw.ceilingEnd
  repeat' first
    | (with_reducible first | assumption | intro _ | apply ev_ite | apply Hw.clearFault_ev)
    | (simp only [ev_mk, ev_fold]) | split | with_reducible apply foldl_ev | dsimp only

theorem Hw.takeShare_ev {g0 : Since} {h : Hw} (eh : Ev g0 h) : Ev g0 (Hw.takeShare h) := by
  unfold Hw.takeShare
  repeat' first
    | (with_reducible first | assumption | intro _ | apply ev_ite)
    | (simp only [ev_mk, ev_fold]) | split | with_reducible apply foldl_ev | dsimp only

theorem Hw.armAsc_ev {g0 : Since} {h : Hw} (b : Bridge) (eh : Ev g0 h) : Ev g0 (Hw.armAsc h b) := by
  unfold Hw.armAsc
  repeat' first
    | (with_reducible first | assumption | intro _ | apply ev_ite | apply Hw.modGate_ev | apply Hw.refreshSafe_ev)
    | (simp only [ev_mk, ev_fold]) | split | with_reducible apply foldl_ev | dsimp only

theorem Hw.controlBoundary_ev {g0 : Since} {h : Hw} (b : Bridge) (m : BoundaryInput) (eh : Ev g0 h) :
    Ev g0 (Hw.controlBoundary h b m) := by
  unfold Hw.controlBoundary
  repeat' first
    | (with_reducible first | assumption | intro _ | apply ev_ite | apply Hw.ceilingEnd_ev | apply Hw.fuse_ev
                            | apply Hw.measure_ev | apply Hw.watchSources_ev | apply Hw.judge_ev
                            | apply Hw.returnSources_ev | apply Hw.takeMaps_ev | apply Hw.takeTable_ev
                            | apply Hw.applyWaiting_ev | apply Hw.takeShare_ev | apply Hw.syncAdvance_ev
                            | apply Hw.takeAB_ev | apply Hw.takeSetpoint_ev | apply Hw.modCtl_ev
                            | apply Hw.dcAccount_ev | apply Hw.trailSpeed_ev | apply Hw.trackShift_ev
                            | apply Hw.windowCheck_ev | apply Hw.regulate_ev | apply Hw.watchLow_ev
                            | apply Hw.magnet_ev | apply Hw.bridgeEnergy_ev | apply Hw.torqueFaults_ev
                            | apply Hw.coolantHot_ev | apply Hw.drainEnd_ev | apply Hw.refreshSafe_ev
                            | apply Hw.armAsc_ev | apply Hw.outFused_ev | apply Hw.shiftBoundary_ev
                            | apply Hw.offstateLook_ev)
    | (simp only [ev_mk, ev_fold]) | split | with_reducible apply foldl_ev | dsimp only

theorem execControlBoundary_ev {g0 : Since} (b : Bridge) (m : BoundaryInput) {s : State} (es : Ev g0 s.hw) :
    OutEv g0 (execControlBoundary b m s) := by
  unfold execControlBoundary; with_reducible refine onHw_ev (fun {h} e => ?_) (by assumption)
  repeat' first
    | (with_reducible first | assumption | intro _ | apply ev_ite | apply onHw_ev | apply Hw.controlBoundary_ev)
    | (simp only [ev_mk, ev_fold]) | split | with_reducible apply foldl_ev | dsimp only

theorem Hw.noteFallback_ev {g0 : Since} {h : Hw} (d : Desc) (eh : Ev g0 h) : Ev g0 (Hw.noteFallback h d) := by
  unfold Hw.noteFallback
  repeat' first
    | (with_reducible first | assumption | intro _ | apply ev_ite | apply Hw.occur_ev)
    | (simp only [ev_mk, ev_fold]) | split | with_reducible apply foldl_ev | dsimp only

theorem Hw.setpoint_ev {g0 : Since} {h : Hw} (speed : Bool) (d : Desc) (q : Req) (eh : Ev g0 h) :
    Ev g0 (Hw.setpoint h speed d q) := by
  unfold Hw.setpoint
  repeat' first
    | (with_reducible first | assumption | intro _ | apply ev_ite | apply Hw.complete_ev | apply Hw.noteFallback_ev
                            | apply Hw.acceptSetpoint_ev)
    | (simp only [ev_mk, ev_fold]) | split | with_reducible apply foldl_ev | dsimp only

theorem execTorqueSet_ev {g0 : Since} (d : Desc) {s : State} (es : Ev g0 s.hw) : OutEv g0 (execTorqueSet d s) := by
  unfold execTorqueSet; with_reducible refine onHw_ev (fun {h} e => ?_) (by assumption)
  repeat' first
    | (with_reducible first | assumption | intro _ | apply ev_ite | apply onHw_ev | apply Hw.descriptor_ev
                            | apply Hw.setpoint_ev)
    | (simp only [ev_mk, ev_fold]) | split | with_reducible apply foldl_ev | dsimp only

theorem execSpeedSet_ev {g0 : Since} (d : Desc) {s : State} (es : Ev g0 s.hw) : OutEv g0 (execSpeedSet d s) := by
  unfold execSpeedSet; with_reducible refine onHw_ev (fun {h} e => ?_) (by assumption)
  repeat' first
    | (with_reducible first | assumption | intro _ | apply ev_ite | apply onHw_ev | apply Hw.descriptor_ev
                            | apply Hw.setpoint_ev)
    | (simp only [ev_mk, ev_fold]) | split | with_reducible apply foldl_ev | dsimp only

theorem Hw.pairSet_ev {g0 : Since} {h : Hw} (d : Desc) (q : Req) (eh : Ev g0 h) : Ev g0 (Hw.pairSet h d q) := by
  unfold Hw.pairSet
  repeat' first
    | (with_reducible first | assumption | intro _ | apply ev_ite | apply Hw.complete_ev | apply Hw.acceptPair_ev)
    | (simp only [ev_mk, ev_fold]) | split | with_reducible apply foldl_ev | dsimp only

theorem execTorquePair_ev {g0 : Since} (d : Desc) {s : State} (es : Ev g0 s.hw) : OutEv g0 (execTorquePair d s) := by
  unfold execTorquePair; with_reducible refine onHw_ev (fun {h} e => ?_) (by assumption)
  repeat' first
    | (with_reducible first | assumption | intro _ | apply ev_ite | apply onHw_ev | apply Hw.descriptor_ev
                            | apply Hw.pairSet_ev)
    | (simp only [ev_mk, ev_fold]) | split | with_reducible apply foldl_ev | dsimp only

theorem Hw.mapLoad_ev {g0 : Since} {h : Hw} (d : Desc) (q : Req) (eh : Ev g0 h) : Ev g0 (Hw.mapLoad h d q) := by
  unfold Hw.mapLoad
  repeat' first
    | (with_reducible first | assumption | intro _ | apply ev_ite | apply Hw.mapReject_ev | apply Hw.complete_ev
                            | apply Hw.modCtl_ev)
    | (simp only [ev_mk, ev_fold]) | split | with_reducible apply foldl_ev | dsimp only

theorem execMotorMapLoad_ev {g0 : Since} (d : Desc) {s : State} (es : Ev g0 s.hw) :
    OutEv g0 (execMotorMapLoad d s) := by
  unfold execMotorMapLoad; with_reducible refine onHw_ev (fun {h} e => ?_) (by assumption)
  repeat' first
    | (with_reducible first | assumption | intro _ | apply ev_ite | apply onHw_ev | apply Hw.descriptor_ev
                            | apply Hw.mapLoad_ev)
    | (simp only [ev_mk, ev_fold]) | split | with_reducible apply foldl_ev | dsimp only

theorem Hw.toZero_ev {g0 : Since} {h : Hw} (b : Bridge) (eh : Ev g0 h) : Ev g0 (Hw.toZero h b) := by
  unfold Hw.toZero
  repeat' first
    | (with_reducible first | assumption | intro _ | apply ev_ite | apply Hw.modCtl_ev)
    | (simp only [ev_mk, ev_fold]) | split | with_reducible apply foldl_ev | dsimp only

theorem Hw.setpointTimeout_ev {g0 : Since} {h : Hw} (b : Bridge) (eh : Ev g0 h) : Ev g0 (Hw.setpointTimeout h b) := by
  unfold Hw.setpointTimeout
  repeat' first
    | (with_reducible first | assumption | intro _ | apply ev_ite | apply Hw.toZero_ev | apply Hw.raiseOnce_ev)
    | (simp only [ev_mk, ev_fold]) | split | with_reducible apply foldl_ev | dsimp only

theorem execSetpointTimeout_ev {g0 : Since} (b : Bridge) {s : State} (es : Ev g0 s.hw) :
    OutEv g0 (execSetpointTimeout b s) := by
  unfold execSetpointTimeout; with_reducible refine onHw_ev (fun {h} e => ?_) (by assumption)
  repeat' first
    | (with_reducible first | assumption | intro _ | apply ev_ite | apply onHw_ev | apply Hw.setpointTimeout_ev)
    | (simp only [ev_mk, ev_fold]) | split | with_reducible apply foldl_ev | dsimp only

theorem Hw.syncStart_ev {g0 : Since} {h : Hw} (b : Bridge) (eh : Ev g0 h) : Ev g0 (Hw.syncStart h b) := by
  unfold Hw.syncStart
  repeat' first
    | (with_reducible first | assumption | intro _ | apply ev_ite | apply Hw.modCtl_ev | apply Hw.noSource_ev)
    | (simp only [ev_mk, ev_fold]) | split | with_reducible apply foldl_ev | dsimp only

theorem execSyncStart_ev {g0 : Since} (b : Bridge) {s : State} (es : Ev g0 s.hw) : OutEv g0 (execSyncStart b s) := by
  unfold execSyncStart; with_reducible refine onHw_ev (fun {h} e => ?_) (by assumption)
  repeat' first
    | (with_reducible first | assumption | intro _ | apply ev_ite | apply onHw_ev | apply Hw.syncStart_ev)
    | (simp only [ev_mk, ev_fold]) | split | with_reducible apply foldl_ev | dsimp only

theorem Hw.onObserver_ev {g0 : Since} {h : Hw} (b : Bridge) (eh : Ev g0 h) : Ev g0 (Hw.onObserver h b) := by
  unfold Hw.onObserver
  repeat' first
    | (with_reducible first | assumption | intro _ | apply ev_ite | apply Hw.modFus_ev | apply Hw.clearFault_ev)
    | (simp only [ev_mk, ev_fold]) | split | with_reducible apply foldl_ev | dsimp only

theorem Hw.syncMeasured_ev {g0 : Since} {h : Hw} (b : Bridge) (angle : W32) (speed emf : Int) (eh : Ev g0 h) :
    Ev g0 (Hw.syncMeasured h b angle speed emf) := by
  unfold Hw.syncMeasured
  repeat' first
    | (with_reducible first | assumption | intro _ | apply ev_ite | apply Hw.noSource_ev | apply Hw.onObserver_ev
                            | apply Hw.modCtl_ev | apply Hw.occurThen_ev | apply Hw.refreshSafe_ev)
    | (simp only [ev_mk, ev_fold]) | split | with_reducible apply foldl_ev | dsimp only

theorem execSyncMeasureDone_ev {g0 : Since} (b : Bridge) (angle : W32) (speed emf : Int) {s : State} (es : Ev g0 s.hw) :
    OutEv g0 (execSyncMeasureDone b angle speed emf s) := by
  unfold execSyncMeasureDone; with_reducible refine onHw_ev (fun {h} e => ?_) (by assumption)
  repeat' first
    | (with_reducible first | assumption | intro _ | apply ev_ite | apply onHw_ev | apply Hw.syncMeasured_ev)
    | (simp only [ev_mk, ev_fold]) | split | with_reducible apply foldl_ev | dsimp only

theorem Hw.reacquired_ev {g0 : Since} {h : Hw} (b : Bridge) (eh : Ev g0 h) : Ev g0 (Hw.reacquired h b) := by
  unfold Hw.reacquired
  repeat' first
    | (with_reducible first | assumption | intro _ | apply ev_ite | apply Hw.onObserver_ev | apply Hw.modFus_ev
                            | apply Hw.modCtl_ev | apply Hw.syncStart_ev)
    | (simp only [ev_mk, ev_fold]) | split | with_reducible apply foldl_ev | dsimp only

theorem execReacquireLock_ev {g0 : Since} (b : Bridge) {s : State} (es : Ev g0 s.hw) :
    OutEv g0 (execReacquireLock b s) := by
  unfold execReacquireLock; with_reducible refine onHw_ev (fun {h} e => ?_) (by assumption)
  repeat' first
    | (with_reducible first | assumption | intro _ | apply ev_ite | apply onHw_ev | apply Hw.reacquired_ev)
    | (simp only [ev_mk, ev_fold]) | split | with_reducible apply foldl_ev | dsimp only

theorem Hw.reacquireFail_ev {g0 : Since} {h : Hw} (b : Bridge) (eh : Ev g0 h) : Ev g0 (Hw.reacquireFail h b) := by
  unfold Hw.reacquireFail
  repeat' first
    | (with_reducible first | assumption | intro _ | apply ev_ite | apply Hw.modCtl_ev | apply Hw.occur_ev)
    | (simp only [ev_mk, ev_fold]) | split | with_reducible apply foldl_ev | dsimp only

theorem execTrqReacquireFail_ev {g0 : Since} (b : Bridge) {s : State} (es : Ev g0 s.hw) :
    OutEv g0 (execTrqReacquireFail b s) := by
  unfold execTrqReacquireFail; with_reducible refine onHw_ev (fun {h} e => ?_) (by assumption)
  repeat' first
    | (with_reducible first | assumption | intro _ | apply ev_ite | apply onHw_ev | apply Hw.reacquireFail_ev)
    | (simp only [ev_mk, ev_fold]) | split | with_reducible apply foldl_ev | dsimp only

theorem Hw.plausibility_ev {g0 : Since} {h : Hw} (b : Bridge) (eh : Ev g0 h) : Ev g0 (Hw.plausibility h b) := by
  unfold Hw.plausibility
  repeat' first
    | (with_reducible first | assumption | intro _ | apply ev_ite | apply Hw.modCtl_ev | apply Hw.lagTo_ev
                            | apply Hw.occurThen_ev | apply Hw.faultSafe_ev)
    | (simp only [ev_mk, ev_fold]) | split | with_reducible apply foldl_ev | dsimp only

theorem execTorquePlausibility_ev {g0 : Since} (b : Bridge) {s : State} (es : Ev g0 s.hw) :
    OutEv g0 (execTorquePlausibility b s) := by
  unfold execTorquePlausibility; with_reducible refine onHw_ev (fun {h} e => ?_) (by assumption)
  repeat' first
    | (with_reducible first | assumption | intro _ | apply ev_ite | apply onHw_ev | apply Hw.plausibility_ev)
    | (simp only [ev_mk, ev_fold]) | split | with_reducible apply foldl_ev | dsimp only

theorem Hw.dcCeiling_ev {g0 : Since} {h : Hw} (eh : Ev g0 h) : Ev g0 (Hw.dcCeiling h) := by
  unfold Hw.dcCeiling
  repeat' first
    | (with_reducible first | assumption | intro _ | apply ev_ite | apply Hw.raiseOnce_ev)
    | (simp only [ev_mk, ev_fold]) | split | with_reducible apply foldl_ev | dsimp only

theorem execTrqDcCeiling_ev {g0 : Since} {s : State} (es : Ev g0 s.hw) : OutEv g0 (execTrqDcCeiling s) := by
  unfold execTrqDcCeiling; with_reducible refine onHw_ev (fun {h} e => ?_) (by assumption)
  repeat' first
    | (with_reducible first | assumption | intro _ | apply ev_ite | apply onHw_ev | apply Hw.dcCeiling_ev)
    | (simp only [ev_mk, ev_fold]) | split | with_reducible apply foldl_ev | dsimp only

end Sys2Proof.Machine
end

