-- ==== Sys2Proof/Laws/EvolveEnergy.lean ====
section
/-!
SUPPORT. Laws/EvolveEnergy.lean: what every operation keeps of the limits and of what is never taken back, for HV-to-LV conversion, actuators and charging: one lemma
for each operation, named after it.
-/
set_option linter.unusedSimpArgs false
namespace Sys2Proof.Machine

theorem Hw.lvAnswer_ev {g0 : Since} {h : Hw} (st : Status) (eh : Ev g0 h) : Ev g0 (Hw.lvAnswer h st) := by
  unfold Hw.lvAnswer
  repeat' first
    | (with_reducible first | assumption | intro _ | apply ev_ite | apply Hw.completeAll_ev | apply Hw.completeOpt_ev
                            | apply Hw.complete_ev)
    | (simp only [ev_mk, ev_fold]) | split | with_reducible apply foldl_ev | dsimp only

theorem Hw.lvAutoStart_ev {g0 : Since} {h : Hw} (eh : Ev g0 h) : Ev g0 (Hw.lvAutoStart h) := by
  unfold Hw.lvAutoStart
  repeat' first
    | (with_reducible first | assumption | intro _ | apply ev_ite | apply Hw.resume_ev | apply Hw.lvStart_ev)
    | (simp only [ev_mk, ev_fold]) | split | with_reducible apply foldl_ev | dsimp only

theorem Hw.preStop_ev {g0 : Since} {h : Hw} (st : Status) (eh : Ev g0 h) : Ev g0 (Hw.preStop h st) := by
  unfold Hw.preStop
  repeat' first
    | (with_reducible first | assumption | intro _ | apply ev_ite | apply Hw.completeOpt_ev | apply Hw.lvRest_ev
                            | apply Hw.lvAutoStart_ev)
    | (simp only [ev_mk, ev_fold]) | split | with_reducible apply foldl_ev | dsimp only

theorem Hw.lvLatch_ev {g0 : Since} {h : Hw} (f : FaultId) (eh : Ev g0 h) : Ev g0 (Hw.lvLatch h f) := by
  unfold Hw.lvLatch
  repeat' first
    | (with_reducible first | assumption | intro _ | apply ev_ite | apply Hw.lvGo_ev | apply Hw.raiseOnce_ev
                            | apply Hw.completeAll_ev | apply Hw.lvAnswer_ev | apply Hw.completeOpt_ev
                            | apply Hw.complete_ev)
    | (simp only [ev_mk, ev_fold]) | split | with_reducible apply foldl_ev | dsimp only

theorem Hw.lvFailed_ev {g0 : Since} {h : Hw} (short : Bool) (eh : Ev g0 h) : Ev g0 (Hw.lvFailed h short) := by
  unfold Hw.lvFailed
  repeat' first
    | (with_reducible first | assumption | intro _ | apply ev_ite | apply Hw.count_ev | apply Hw.lvGo_ev
                            | apply Hw.lvLatch_ev)
    | (simp only [ev_mk, ev_fold]) | split | with_reducible apply foldl_ev | dsimp only

theorem Hw.isoswFailed_ev {g0 : Since} {h : Hw} (eh : Ev g0 h) : Ev g0 (Hw.isoswFailed h) := by
  unfold Hw.isoswFailed
  repeat' first
    | (with_reducible first | assumption | intro _ | apply ev_ite | apply Hw.lvFailed_ev | apply Hw.lvLatch_ev
                            | apply Hw.raiseOnce_ev)
    | (simp only [ev_mk, ev_fold]) | split | with_reducible apply foldl_ev | dsimp only

theorem Hw.lvDrained_ev {g0 : Since} {h : Hw} (eh : Ev g0 h) : Ev g0 (Hw.lvDrained h) := by
  unfold Hw.lvDrained
  repeat' first
    | (with_reducible first | assumption | intro _ | apply ev_ite | apply Hw.lvOff_ev | apply Hw.lvGo_ev
                            | apply Hw.lvRest_ev | apply Hw.lvAutoStart_ev)
    | (simp only [ev_mk, ev_fold]) | split | with_reducible apply foldl_ev | dsimp only

theorem Hw.lvWrite_ev {g0 : Since} {h : Hw} (d : Desc) (eh : Ev g0 h) : Ev g0 (Hw.lvWrite h d) := by
  unfold Hw.lvWrite
  repeat' first
    | (with_reducible first | assumption | intro _ | apply ev_ite | apply Hw.putPar_ev)
    | (simp only [ev_mk, ev_fold]) | split | with_reducible apply foldl_ev | dsimp only

theorem Hw.lvForward_ev {g0 : Since} {h : Hw} (d : Desc) (q : Req) (eh : Ev g0 h) : Ev g0 (Hw.lvForward h d q) := by
  unfold Hw.lvForward
  repeat' first
    | (with_reducible first | assumption | intro _ | apply ev_ite | apply Hw.complete_ev | apply Hw.lvWrite_ev
                            | apply Hw.lvStart_ev | apply Hw.lvFromHold_ev)
    | (simp only [ev_mk, ev_fold]) | split | with_reducible apply foldl_ev | dsimp only

theorem execLvControlForward_ev {g0 : Since} (d : Desc) {s : State} (es : Ev g0 s.hw) :
    OutEv g0 (execLvControlForward d s) := by
  unfold execLvControlForward; with_reducible refine onHw_ev (fun {h} e => ?_) (by assumption)
  repeat' first
    | (with_reducible first | assumption | intro _ | apply ev_ite | apply onHw_ev | apply Hw.descriptor_ev
                            | apply Hw.lvForward_ev)
    | (simp only [ev_mk, ev_fold]) | split | with_reducible apply foldl_ev | dsimp only

theorem Hw.preStart_ev {g0 : Since} {h : Hw} (target : Int) (q : Option Req) (eh : Ev g0 h) :
    Ev g0 (Hw.preStart h target q) := by
  unfold Hw.preStart
  repeat' first
    | (with_reducible first | assumption | intro _ | apply ev_ite | apply Hw.lvBegin_ev)
    | (simp only [ev_mk, ev_fold]) | split | with_reducible apply foldl_ev | dsimp only

theorem Hw.lvPrecharge_ev {g0 : Since} {h : Hw} (d : Desc) (q : Req) (eh : Ev g0 h) :
    Ev g0 (Hw.lvPrecharge h d q) := by
  unfold Hw.lvPrecharge
  repeat' first
    | (with_reducible first | assumption | intro _ | apply ev_ite | apply Hw.complete_ev | apply Hw.preStart_ev)
    | (simp only [ev_mk, ev_fold]) | split | with_reducible apply foldl_ev | dsimp only

theorem execLvControlPrecharge_ev {g0 : Since} (d : Desc) {s : State} (es : Ev g0 s.hw) :
    OutEv g0 (execLvControlPrecharge d s) := by
  unfold execLvControlPrecharge; with_reducible refine onHw_ev (fun {h} e => ?_) (by assumption)
  repeat' first
    | (with_reducible first | assumption | intro _ | apply ev_ite | apply onHw_ev | apply Hw.descriptor_ev
                            | apply Hw.lvPrecharge_ev)
    | (simp only [ev_mk, ev_fold]) | split | with_reducible apply foldl_ev | dsimp only

theorem Hw.lvStop_ev {g0 : Since} {h : Hw} (q : Req) (eh : Ev g0 h) : Ev g0 (Hw.lvStop h q) := by
  unfold Hw.lvStop
  repeat' first
    | (with_reducible first | assumption | intro _ | apply ev_ite | apply Hw.lvAnswer_ev | apply Hw.complete_ev
                            | apply Hw.lvRest_ev | apply Hw.lvDrained_ev | apply Hw.drainLv_ev)
    | (simp only [ev_mk, ev_fold]) | split | with_reducible apply foldl_ev | dsimp only

theorem execLvControlStop_ev {g0 : Since} (d : Desc) {s : State} (es : Ev g0 s.hw) :
    OutEv g0 (execLvControlStop d s) := by
  unfold execLvControlStop; with_reducible refine onHw_ev (fun {h} e => ?_) (by assumption)
  repeat' first
    | (with_reducible first | assumption | intro _ | apply ev_ite | apply onHw_ev | apply Hw.descriptor_ev
                            | apply Hw.lvStop_ev)
    | (simp only [ev_mk, ev_fold]) | split | with_reducible apply foldl_ev | dsimp only

theorem Hw.softStartDone_ev {g0 : Since} {h : Hw} (eh : Ev g0 h) : Ev g0 (Hw.softStartDone h) := by
  unfold Hw.softStartDone
  repeat' first
    | (with_reducible first | assumption | intro _ | apply ev_ite | apply Hw.lvGo_ev | apply Hw.lvAnswer_ev)
    | (simp only [ev_mk, ev_fold]) | split | with_reducible apply foldl_ev | dsimp only

theorem execLvSoftStartDone_ev {g0 : Since} {s : State} (es : Ev g0 s.hw) : OutEv g0 (execLvSoftStartDone s) := by
  unfold execLvSoftStartDone; with_reducible refine onHw_ev (fun {h} e => ?_) (by assumption)
  repeat' first
    | (with_reducible first | assumption | intro _ | apply ev_ite | apply onHw_ev | apply Hw.softStartDone_ev)
    | (simp only [ev_mk, ev_fold]) | split | with_reducible apply foldl_ev | dsimp only

theorem execLvShort_ev {g0 : Since} {s : State} (es : Ev g0 s.hw) : OutEv g0 (execLvShort s) := by
  unfold execLvShort; with_reducible refine onHw_ev (fun {h} e => ?_) (by assumption)
  repeat' first
    | (with_reducible first | assumption | intro _ | apply ev_ite | apply onHw_ev | apply Hw.lvFailed_ev)
    | (simp only [ev_mk, ev_fold]) | split | with_reducible apply foldl_ev | dsimp only

theorem Hw.lvRestart_ev {g0 : Since} {h : Hw} (eh : Ev g0 h) : Ev g0 (Hw.lvRestart h) := by
  unfold Hw.lvRestart
  repeat' first
    | (with_reducible first | assumption | intro _ | apply ev_ite | apply Hw.lvRest_ev | apply Hw.lvBegin_ev
                            | apply Hw.lvStart_ev | apply Hw.lvGo_ev)
    | (simp only [ev_mk, ev_fold]) | split | with_reducible apply foldl_ev | dsimp only

theorem execLvRestartTimer_ev {g0 : Since} {s : State} (es : Ev g0 s.hw) : OutEv g0 (execLvRestartTimer s) := by
  unfold execLvRestartTimer; with_reducible refine onHw_ev (fun {h} e => ?_) (by assumption)
  repeat' first
    | (with_reducible first | assumption | intro _ | apply ev_ite | apply onHw_ev | apply Hw.lvRestart_ev)
    | (simp only [ev_mk, ev_fold]) | split | with_reducible apply foldl_ev | dsimp only

theorem Hw.lvBusFault_ev {g0 : Since} {h : Hw} (eh : Ev g0 h) : Ev g0 (Hw.lvBusFault h) := by
  unfold Hw.lvBusFault
  repeat' first
    | (with_reducible first | assumption | intro _ | apply ev_ite | apply Hw.occurThen_ev | apply Hw.lvFailed_ev)
    | (simp only [ev_mk, ev_fold]) | split | with_reducible apply foldl_ev | dsimp only

theorem execLvBusFault_ev {g0 : Since} {s : State} (es : Ev g0 s.hw) : OutEv g0 (execLvBusFault s) := by
  unfold execLvBusFault; with_reducible refine onHw_ev (fun {h} e => ?_) (by assumption)
  repeat' first
    | (with_reducible first | assumption | intro _ | apply ev_ite | apply onHw_ev | apply Hw.lvBusFault_ev)
    | (simp only [ev_mk, ev_fold]) | split | with_reducible apply foldl_ev | dsimp only

theorem Hw.cellOut_ev {g0 : Since} {h : Hw} (cell : Nat) (eh : Ev g0 h) : Ev g0 (Hw.cellOut h cell) := by
  unfold Hw.cellOut
  repeat' first
    | (with_reducible first | assumption | intro _ | apply ev_ite | apply Hw.raiseOnce_ev)
    | (simp only [ev_mk, ev_fold]) | split | with_reducible apply foldl_ev | dsimp only

theorem Hw.lvCellFail_ev {g0 : Since} {h : Hw} (cell : Nat) (eh : Ev g0 h) : Ev g0 (Hw.lvCellFail h cell) := by
  unfold Hw.lvCellFail
  repeat' first
    | (with_reducible first | assumption | intro _ | apply ev_ite | apply Hw.cellOut_ev)
    | (simp only [ev_mk, ev_fold]) | split | with_reducible apply foldl_ev | dsimp only

theorem execLvCellFail_ev {g0 : Since} (cell : Fin 4) {s : State} (es : Ev g0 s.hw) :
    OutEv g0 (execLvCellFail cell s) := by
  unfold execLvCellFail; with_reducible refine onHw_ev (fun {h} e => ?_) (by assumption)
  repeat' first
    | (with_reducible first | assumption | intro _ | apply ev_ite | apply onHw_ev | apply Hw.lvCellFail_ev)
    | (simp only [ev_mk, ev_fold]) | split | with_reducible apply foldl_ev | dsimp only

theorem Hw.dropPhases_ev {g0 : Since} {h : Hw} (eh : Ev g0 h) : Ev g0 (Hw.dropPhases h) := by
  unfold Hw.dropPhases
  repeat' first
    | (with_reducible first | assumption | intro _ | apply ev_ite)
    | (simp only [ev_mk, ev_fold]) | split | with_reducible apply foldl_ev | dsimp only

theorem Hw.addPhases_ev {g0 : Since} {h : Hw} (load : Int) (eh : Ev g0 h) : Ev g0 (Hw.addPhases h load) := by
  unfold Hw.addPhases
  repeat' first
    | (with_reducible first | assumption | intro _ | apply ev_ite | apply Hw.count_ev)
    | (simp only [ev_mk, ev_fold]) | split | with_reducible apply foldl_ev | dsimp only

theorem Hw.adjustCells_ev {g0 : Since} {h : Hw} (power : Int) (eh : Ev g0 h) : Ev g0 (Hw.adjustCells h power) := by
  unfold Hw.adjustCells
  repeat' first
    | (with_reducible first | assumption | intro _ | apply ev_ite)
    | (simp only [ev_mk, ev_fold]) | split | with_reducible apply foldl_ev | dsimp only

theorem Hw.watchLoad_ev {g0 : Since} {h : Hw} (load : Int) (eh : Ev g0 h) : Ev g0 (Hw.watchLoad h load) := by
  unfold Hw.watchLoad
  repeat' first
    | (with_reducible first | assumption | intro _ | apply ev_ite)
    | (simp only [ev_mk, ev_fold]) | split | with_reducible apply foldl_ev | dsimp only

theorem Hw.shedStep_ev {g0 : Since} {h : Hw} (eh : Ev g0 h) : Ev g0 (Hw.shedStep h) := by
  unfold Hw.shedStep
  repeat' first
    | (with_reducible first | assumption | intro _ | apply ev_ite | apply Hw.count_ev)
    | (simp only [ev_mk, ev_fold]) | split | with_reducible apply foldl_ev | dsimp only

theorem Hw.lvBalance_ev {g0 : Since} {h : Hw} (eh : Ev g0 h) : Ev g0 (Hw.lvBalance h) := by
  unfold Hw.lvBalance
  repeat' first
    | (with_reducible first | assumption | intro _ | apply ev_ite | apply Hw.drawn_ev)
    | (simp only [ev_mk, ev_fold]) | split | with_reducible apply foldl_ev | dsimp only

theorem Hw.spreadPhases_ev {g0 : Since} {h : Hw} (load : Int) (eh : Ev g0 h) : Ev g0 (Hw.spreadPhases h load) := by
  unfold Hw.spreadPhases
  repeat' first
    | (with_reducible first | assumption | intro _ | apply ev_ite)
    | (simp only [ev_mk, ev_fold]) | split | with_reducible apply foldl_ev | dsimp only

theorem Hw.watchShort_ev {g0 : Since} {h : Hw} (ref limit load : Int) (eh : Ev g0 h) :
    Ev g0 (Hw.watchShort h ref limit load) := by
  unfold Hw.watchShort
  repeat' first
    | (with_reducible first | assumption | intro _ | apply ev_ite)
    | (simp only [ev_mk, ev_fold]) | split | with_reducible apply foldl_ev | dsimp only

theorem Hw.lvStep_ev {g0 : Since} {h : Hw} (eh : Ev g0 h) : Ev g0 (Hw.lvStep h) := by
  unfold Hw.lvStep
  repeat' first
    | (with_reducible first | assumption | intro _ | apply ev_ite | apply Hw.count_ev)
    | (simp only [ev_mk, ev_fold]) | split | with_reducible apply foldl_ev | dsimp only

theorem Hw.demandStep_ev {g0 : Since} {h : Hw} (old new : Int) (eh : Ev g0 h) : Ev g0 (Hw.demandStep h old new) := by
  unfold Hw.demandStep
  repeat' first
    | (with_reducible first | assumption | intro _ | apply ev_ite | apply Hw.lvStep_ev)
    | (simp only [ev_mk, ev_fold]) | split | with_reducible apply foldl_ev | dsimp only

theorem Hw.lvForwardPeriod_ev {g0 : Since} {h : Hw} (load : Int) (ticks : Nat) (fell : BitVec 8) (eh : Ev g0 h) :
    Ev g0 (Hw.lvForwardPeriod h load ticks fell) := by
  unfold Hw.lvForwardPeriod
  repeat' first
    | (with_reducible first | assumption | intro _ | apply ev_ite | apply Hw.watchShort_ev | apply Hw.shedStep_ev
                            | apply Hw.addPhases_ev | apply Hw.watchLoad_ev | apply Hw.lvBalance_ev
                            | apply Hw.spreadPhases_ev | apply Hw.adjustCells_ev | apply Hw.addEnergy_ev
                            | apply Hw.completeAll_ev | apply Hw.lvDrained_ev | apply Hw.complete_ev)
    | (simp only [ev_mk, ev_fold]) | split | with_reducible apply foldl_ev | dsimp only

theorem Hw.topupPeriod_ev {g0 : Since} {h : Hw} (load : Int) (eh : Ev g0 h) : Ev g0 (Hw.topupPeriod h load) := by
  unfold Hw.topupPeriod
  repeat' first
    | (with_reducible first | assumption | intro _ | apply ev_ite | apply Hw.completeOpt_ev)
    | (simp only [ev_mk, ev_fold]) | split | with_reducible apply foldl_ev | dsimp only

theorem Hw.lvPrePeriod_ev {g0 : Since} {h : Hw} (load : Int) (ticks : Nat) (eh : Ev g0 h) :
    Ev g0 (Hw.lvPrePeriod h load ticks) := by
  unfold Hw.lvPrePeriod
  repeat' first
    | (with_reducible first | assumption | intro _ | apply ev_ite | apply Hw.lvDrained_ev)
    | (simp only [ev_mk, ev_fold]) | split | with_reducible apply foldl_ev | dsimp only

theorem Hw.isoswStep_ev {g0 : Since} {h : Hw} (load : Int) (eh : Ev g0 h) : Ev g0 (Hw.isoswStep h load) := by
  unfold Hw.isoswStep
  repeat' first
    | (with_reducible first | assumption | intro _ | apply ev_ite | apply Hw.isoswFailed_ev)
    | (simp only [ev_mk, ev_fold]) | split | with_reducible apply foldl_ev | dsimp only

theorem Hw.lvApproach_ev {g0 : Since} {h : Hw} (load : Int) (eh : Ev g0 h) : Ev g0 (Hw.lvApproach h load) := by
  unfold Hw.lvApproach
  repeat' first
    | (with_reducible first | assumption | intro _ | apply ev_ite | apply Hw.isoswStep_ev | apply Hw.lvRamp_ev)
    | (simp only [ev_mk, ev_fold]) | split | with_reducible apply foldl_ev | dsimp only

theorem Hw.lvWatch_ev {g0 : Since} {h : Hw} (eh : Ev g0 h) : Ev g0 (Hw.lvWatch h) := by
  unfold Hw.lvWatch
  repeat' first
    | (with_reducible first | assumption | intro _ | apply ev_ite)
    | (simp only [ev_mk, ev_fold]) | split | with_reducible apply foldl_ev | dsimp only

theorem Hw.lvOpen_ev {g0 : Since} {h : Hw} (load : Int) (eh : Ev g0 h) : Ev g0 (Hw.lvOpen h load) := by
  unfold Hw.lvOpen
  repeat' first
    | (with_reducible first | assumption | intro _ | apply ev_ite)
    | (simp only [ev_mk, ev_fold]) | split | with_reducible apply foldl_ev | dsimp only

theorem Hw.lvPeriod_ev {g0 : Since} {h : Hw} (inner vout load bus demand : Int) (fell : BitVec 8) (eh : Ev g0 h) :
    Ev g0 (Hw.lvPeriod h inner vout load bus demand fell) := by
  unfold Hw.lvPeriod
  repeat' first
    | (with_reducible first | assumption | intro _ | apply ev_ite | apply Hw.count_ev | apply Hw.lvMonitors_ev
                            | apply Hw.lvWatch_ev | apply Hw.lvOpen_ev | apply Hw.dropPhases_ev
                            | apply Hw.demandStep_ev | apply Hw.demand_ev | apply Hw.lvForwardPeriod_ev
                            | apply Hw.topupPeriod_ev | apply Hw.lvApproach_ev | apply Hw.lvPrePeriod_ev)
    | (simp only [ev_mk, ev_fold]) | split | with_reducible apply foldl_ev | dsimp only

theorem execLvSwitchingPeriod_ev {g0 : Since} (inner vout load bus demand : Int) (fell : BitVec 8) {s : State} (es : Ev g0 s.hw) :
    OutEv g0 (execLvSwitchingPeriod inner vout load bus demand fell s) := by
  unfold execLvSwitchingPeriod; with_reducible refine onHw_ev (fun {h} e => ?_) (by assumption)
  repeat' first
    | (with_reducible first | assumption | intro _ | apply ev_ite | apply onHw_ev | apply Hw.lvPeriod_ev
                            | apply Hw.periodLatch_ev)
    | (simp only [ev_mk, ev_fold]) | split | with_reducible apply foldl_ev | dsimp only

theorem Hw.lvShed_ev {g0 : Since} {h : Hw} (load : Int) (eh : Ev g0 h) : Ev g0 (Hw.lvShed h load) := by
  unfold Hw.lvShed
  repeat' first
    | (with_reducible first | assumption | intro _ | apply ev_ite | apply Hw.spreadPhases_ev)
    | (simp only [ev_mk, ev_fold]) | split | with_reducible apply foldl_ev | dsimp only

theorem execLvPhaseShed_ev {g0 : Since} (load : Int) {s : State} (es : Ev g0 s.hw) :
    OutEv g0 (execLvPhaseShed load s) := by
  unfold execLvPhaseShed; with_reducible refine onHw_ev (fun {h} e => ?_) (by assumption)
  repeat' first
    | (with_reducible first | assumption | intro _ | apply ev_ite | apply onHw_ev | apply Hw.lvShed_ev)
    | (simp only [ev_mk, ev_fold]) | split | with_reducible apply foldl_ev | dsimp only

theorem execLvLoadStep_ev {g0 : Since} (mv : Int) {s : State} (es : Ev g0 s.hw) : OutEv g0 (execLvLoadStep mv s) := by
  unfold execLvLoadStep; with_reducible refine onHw_ev (fun {h} e => ?_) (by assumption)
  repeat' first
    | (with_reducible first | assumption | intro _ | apply ev_ite | apply onHw_ev | apply Hw.lvStep_ev)
    | (simp only [ev_mk, ev_fold]) | split | with_reducible apply foldl_ev | dsimp only

theorem Hw.lvOver_ev {g0 : Since} {h : Hw} (onCh14 : Bool) (mv : Int) (eh : Ev g0 h) :
    Ev g0 (Hw.lvOver h onCh14 mv) := by
  unfold Hw.lvOver
  repeat' first
    | (with_reducible first | assumption | intro _ | apply ev_ite | apply Hw.raiseOnce_ev | apply Hw.lvFailed_ev)
    | (simp only [ev_mk, ev_fold]) | split | with_reducible apply foldl_ev | dsimp only

theorem execLvOvervoltage_ev {g0 : Since} (onCh14 : Bool) (mv : Int) {s : State} (es : Ev g0 s.hw) :
    OutEv g0 (execLvOvervoltage onCh14 mv s) := by
  unfold execLvOvervoltage; with_reducible refine onHw_ev (fun {h} e => ?_) (by assumption)
  repeat' first
    | (with_reducible first | assumption | intro _ | apply ev_ite | apply onHw_ev | apply Hw.lvOver_ev)
    | (simp only [ev_mk, ev_fold]) | split | with_reducible apply foldl_ev | dsimp only

theorem Hw.lvOvResume_ev {g0 : Since} {h : Hw} (eh : Ev g0 h) : Ev g0 (Hw.lvOvResume h) := by
  unfold Hw.lvOvResume
  repeat' first
    | (with_reducible first | assumption | intro _ | apply ev_ite | apply Hw.clearFault_ev | apply Hw.lvRamp_ev
                            | apply Hw.lvGo_ev)
    | (simp only [ev_mk, ev_fold]) | split | with_reducible apply foldl_ev | dsimp only

theorem execLvOvResume_ev {g0 : Since} {s : State} (es : Ev g0 s.hw) : OutEv g0 (execLvOvResume s) := by
  unfold execLvOvResume; with_reducible refine onHw_ev (fun {h} e => ?_) (by assumption)
  repeat' first
    | (with_reducible first | assumption | intro _ | apply ev_ite | apply onHw_ev | apply Hw.lvOvResume_ev)
    | (simp only [ev_mk, ev_fold]) | split | with_reducible apply foldl_ev | dsimp only

theorem Hw.lvReverse_ev {g0 : Since} {h : Hw} (amps : Int) (eh : Ev g0 h) : Ev g0 (Hw.lvReverse h amps) := by
  unfold Hw.lvReverse
  repeat' first
    | (with_reducible first | assumption | intro _ | apply ev_ite | apply Hw.occurThen_ev | apply Hw.lvFailed_ev)
    | (simp only [ev_mk, ev_fold]) | split | with_reducible apply foldl_ev | dsimp only

theorem execLvoutReverse_ev {g0 : Since} (amps : Int) {s : State} (es : Ev g0 s.hw) :
    OutEv g0 (execLvoutReverse amps s) := by
  unfold execLvoutReverse; with_reducible refine onHw_ev (fun {h} e => ?_) (by assumption)
  repeat' first
    | (with_reducible first | assumption | intro _ | apply ev_ite | apply onHw_ev | apply Hw.lvReverse_ev)
    | (simp only [ev_mk, ev_fold]) | split | with_reducible apply foldl_ev | dsimp only

theorem Hw.lvResume_ev {g0 : Since} {h : Hw} (eh : Ev g0 h) : Ev g0 (Hw.lvResume h) := by
  unfold Hw.lvResume
  repeat' first
    | (with_reducible first | assumption | intro _ | apply ev_ite | apply Hw.clearFault_ev | apply Hw.lvAutoStart_ev)
    | (simp only [ev_mk, ev_fold]) | split | with_reducible apply foldl_ev | dsimp only

theorem Hw.lvShutdown_ev {g0 : Since} {h : Hw} (eh : Ev g0 h) : Ev g0 (Hw.lvShutdown h) := by
  unfold Hw.lvShutdown
  repeat' first
    | (with_reducible first | assumption | intro _ | apply ev_ite | apply Hw.preStop_ev | apply Hw.drainLv_ev
                            | apply Hw.lvDrained_ev)
    | (simp only [ev_mk, ev_fold]) | split | with_reducible apply foldl_ev | dsimp only

theorem Hw.lvTemp_ev {g0 : Since} {h : Hw} (sensor : LvSensor) (t : Int) (eh : Ev g0 h) :
    Ev g0 (Hw.lvTemp h sensor t) := by
  unfold Hw.lvTemp
  repeat' first
    | (with_reducible first | assumption | intro _ | apply ev_ite | apply Hw.occur_ev | apply Hw.raiseOnce_ev
                            | apply Hw.lvShutdown_ev | apply Hw.lvResume_ev)
    | (simp only [ev_mk, ev_fold]) | split | with_reducible apply foldl_ev | dsimp only

theorem execLvOvertemp_ev {g0 : Since} (sensor : LvSensor) (temp : Int) {s : State} (es : Ev g0 s.hw) :
    OutEv g0 (execLvOvertemp sensor temp s) := by
  unfold execLvOvertemp; with_reducible refine onHw_ev (fun {h} e => ?_) (by assumption)
  repeat' first
    | (with_reducible first | assumption | intro _ | apply ev_ite | apply onHw_ev | apply Hw.lvTemp_ev)
    | (simp only [ev_mk, ev_fold]) | split | with_reducible apply foldl_ev | dsimp only

theorem Hw.preVdc_ev {g0 : Since} {h : Hw} (vdc : Int) (eh : Ev g0 h) : Ev g0 (Hw.preVdc h vdc) := by
  unfold Hw.preVdc
  repeat' first
    | (with_reducible first | assumption | intro _ | apply ev_ite | apply Hw.addEnergy_ev | apply Hw.setVdc_ev)
    | (simp only [ev_mk, ev_fold]) | split | with_reducible apply foldl_ev | dsimp only

theorem Hw.preDone_ev {g0 : Since} {h : Hw} (vdc : Int) (eh : Ev g0 h) : Ev g0 (Hw.preDone h vdc) := by
  unfold Hw.preDone
  repeat' first
    | (with_reducible first | assumption | intro _ | apply ev_ite | apply Hw.preVdc_ev | apply Hw.lvGo_ev
                            | apply Hw.completeOpt_ev)
    | (simp only [ev_mk, ev_fold]) | split | with_reducible apply foldl_ev | dsimp only

theorem execPrechargeDone_ev {g0 : Since} (vdc : Int) {s : State} (es : Ev g0 s.hw) :
    OutEv g0 (execPrechargeDone vdc s) := by
  unfold execPrechargeDone; with_reducible refine onHw_ev (fun {h} e => ?_) (by assumption)
  repeat' first
    | (with_reducible first | assumption | intro _ | apply ev_ite | apply onHw_ev | apply Hw.preDone_ev)
    | (simp only [ev_mk, ev_fold]) | split | with_reducible apply foldl_ev | dsimp only

theorem Hw.preTimeout_ev {g0 : Since} {h : Hw} (eh : Ev g0 h) : Ev g0 (Hw.preTimeout h) := by
  unfold Hw.preTimeout
  repeat' first
    | (with_reducible first | assumption | intro _ | apply ev_ite | apply Hw.preStop_ev)
    | (simp only [ev_mk, ev_fold]) | split | with_reducible apply foldl_ev | dsimp only

theorem execPrechargeTimeout_ev {g0 : Since} {s : State} (es : Ev g0 s.hw) : OutEv g0 (execPrechargeTimeout s) := by
  unfold execPrechargeTimeout; with_reducible refine onHw_ev (fun {h} e => ?_) (by assumption)
  repeat' first
    | (with_reducible first | assumption | intro _ | apply ev_ite | apply onHw_ev | apply Hw.preTimeout_ev)
    | (simp only [ev_mk, ev_fold]) | split | with_reducible apply foldl_ev | dsimp only

theorem Hw.preFault_ev {g0 : Since} {h : Hw} (vdc : Int) (eh : Ev g0 h) : Ev g0 (Hw.preFault h vdc) := by
  unfold Hw.preFault
  repeat' first
    | (with_reducible first | assumption | intro _ | apply ev_ite | apply Hw.preVdc_ev | apply Hw.occurThen_ev
                            | apply Hw.preStop_ev)
    | (simp only [ev_mk, ev_fold]) | split | with_reducible apply foldl_ev | dsimp only

theorem execLvPrechargeFault_ev {g0 : Since} (vdc : Int) {s : State} (es : Ev g0 s.hw) :
    OutEv g0 (execLvPrechargeFault vdc s) := by
  unfold execLvPrechargeFault; with_reducible refine onHw_ev (fun {h} e => ?_) (by assumption)
  repeat' first
    | (with_reducible first | assumption | intro _ | apply ev_ite | apply onHw_ev | apply Hw.preFault_ev)
    | (simp only [ev_mk, ev_fold]) | split | with_reducible apply foldl_ev | dsimp only

theorem Hw.holdExpiry_ev {g0 : Since} {h : Hw} (eh : Ev g0 h) : Ev g0 (Hw.holdExpiry h) := by
  unfold Hw.holdExpiry
  repeat' first
    | (with_reducible first | assumption | intro _ | apply ev_ite | apply Hw.preStop_ev)
    | (simp only [ev_mk, ev_fold]) | split | with_reducible apply foldl_ev | dsimp only

theorem execPrechargeHoldExpiry_ev {g0 : Since} {s : State} (es : Ev g0 s.hw) :
    OutEv g0 (execPrechargeHoldExpiry s) := by
  unfold execPrechargeHoldExpiry; with_reducible refine onHw_ev (fun {h} e => ?_) (by assumption)
  repeat' first
    | (with_reducible first | assumption | intro _ | apply ev_ite | apply onHw_ev | apply Hw.holdExpiry_ev)
    | (simp only [ev_mk, ev_fold]) | split | with_reducible apply foldl_ev | dsimp only

theorem Hw.dcLinkChange_ev {g0 : Since} {h : Hw} (vdc : Int) (eh : Ev g0 h) : Ev g0 (Hw.dcLinkChange h vdc) := by
  unfold Hw.dcLinkChange
  repeat' first
    | (with_reducible first | assumption | intro _ | apply ev_ite | apply Hw.setVdc_ev | apply Hw.lvOff_ev
                            | apply Hw.lvGo_ev | apply Hw.lvFromHold_ev | apply Hw.lvAutoStart_ev)
    | (simp only [ev_mk, ev_fold]) | split | with_reducible apply foldl_ev | dsimp only

theorem execDcLinkLow_ev {g0 : Since} (vdc : Int) {s : State} (es : Ev g0 s.hw) : OutEv g0 (execDcLinkLow vdc s) := by
  unfold execDcLinkLow; with_reducible refine onHw_ev (fun {h} e => ?_) (by assumption)
  repeat' first
    | (with_reducible first | assumption | intro _ | apply ev_ite | apply onHw_ev | apply Hw.dcLinkChange_ev)
    | (simp only [ev_mk, ev_fold]) | split | with_reducible apply foldl_ev | dsimp only

theorem Hw.parkInhibited_ev {g0 : Since} {h : Hw} (eh : Ev g0 h) : Ev g0 (Hw.parkInhibited h) := by
  unfold Hw.parkInhibited
  repeat' first
    | (with_reducible first | assumption | intro _ | apply ev_ite | apply Hw.count_ev | apply Hw.occur_ev)
    | (simp only [ev_mk, ev_fold]) | split | with_reducible apply foldl_ev | dsimp only

theorem Hw.actMove_ev {g0 : Since} {h : Hw} (d : Desc) (q : Req) (eh : Ev g0 h) : Ev g0 (Hw.actMove h d q) := by
  unfold Hw.actMove
  repeat' first
    | (with_reducible first | assumption | intro _ | apply ev_ite | apply Hw.complete_ev | apply Hw.parkInhibited_ev
                            | apply Hw.startWaiting_ev | apply Hw.startDrive_ev)
    | (simp only [ev_mk, ev_fold]) | split | with_reducible apply foldl_ev | dsimp only

theorem execActMove_ev {g0 : Since} (d : Desc) {s : State} (es : Ev g0 s.hw) : OutEv g0 (execActMove d s) := by
  unfold execActMove; with_reducible refine onHw_ev (fun {h} e => ?_) (by assumption)
  repeat' first
    | (with_reducible first | assumption | intro _ | apply ev_ite | apply onHw_ev | apply Hw.descriptor_ev
                            | apply Hw.actMove_ev)
    | (simp only [ev_mk, ev_fold]) | split | with_reducible apply foldl_ev | dsimp only

theorem Hw.shiftBegin_ev {g0 : Since} {h : Hw} (t us : Nat) (q : Req) (eh : Ev g0 h) :
    Ev g0 (Hw.shiftBegin h t us q) := by
  unfold Hw.shiftBegin
  repeat' first
    | (with_reducible first | assumption | intro _ | apply ev_ite | apply Hw.startWaiting_ev | apply Hw.modGear_ev
                            | apply Hw.drawn_ev | apply Hw.seekGear_ev)
    | (simp only [ev_mk, ev_fold]) | split | with_reducible apply foldl_ev | dsimp only

theorem Hw.gearShift_ev {g0 : Since} {h : Hw} (d : Desc) (q : Req) (eh : Ev g0 h) : Ev g0 (Hw.gearShift h d q) := by
  unfold Hw.gearShift
  repeat' first
    | (with_reducible first | assumption | intro _ | apply ev_ite | apply Hw.complete_ev | apply Hw.shiftBegin_ev)
    | (simp only [ev_mk, ev_fold]) | split | with_reducible apply foldl_ev | dsimp only

theorem execGearShift_ev {g0 : Since} (d : Desc) {s : State} (es : Ev g0 s.hw) : OutEv g0 (execGearShift d s) := by
  unfold execGearShift; with_reducible refine onHw_ev (fun {h} e => ?_) (by assumption)
  repeat' first
    | (with_reducible first | assumption | intro _ | apply ev_ite | apply onHw_ev | apply Hw.descriptor_ev
                            | apply Hw.gearShift_ev)
    | (simp only [ev_mk, ev_fold]) | split | with_reducible apply foldl_ev | dsimp only

theorem Hw.parkNow_ev {g0 : Since} {h : Hw} (eh : Ev g0 h) : Ev g0 (Hw.parkNow h) := by
  unfold Hw.parkNow
  repeat' first
    | (with_reducible first | assumption | intro _ | apply ev_ite | apply Hw.clearFault_ev)
    | (simp only [ev_mk, ev_fold]) | split | with_reducible apply foldl_ev | dsimp only

theorem Hw.countMotion_ev {g0 : Since} {h : Hw} (i code : Nat) (eh : Ev g0 h) : Ev g0 (Hw.countMotion h i code) := by
  unfold Hw.countMotion
  repeat' first
    | (with_reducible first | assumption | intro _ | apply ev_ite | apply Hw.count_ev)
    | (simp only [ev_mk, ev_fold]) | split | with_reducible apply foldl_ev | dsimp only

theorem Hw.confirmAt_ev {g0 : Since} {h : Hw} (i code : Nat) (eh : Ev g0 h) : Ev g0 (Hw.confirmAt h i code) := by
  unfold Hw.confirmAt
  repeat' first
    | (with_reducible first | assumption | intro _ | apply ev_ite | apply Hw.modDrive_ev | apply Hw.endDrive_ev
                            | apply Hw.parkNow_ev | apply Hw.countMotion_ev | apply Hw.shiftConfirmed_ev)
    | (simp only [ev_mk, ev_fold]) | split | with_reducible apply foldl_ev | dsimp only

theorem Hw.posConfirmed_ev {g0 : Since} {h : Hw} (i position : Nat) (eh : Ev g0 h) :
    Ev g0 (Hw.posConfirmed h i position) := by
  unfold Hw.posConfirmed
  repeat' first
    | (with_reducible first | assumption | intro _ | apply ev_ite | apply Hw.seePosition_ev | apply Hw.place_ev
                            | apply Hw.confirmAt_ev)
    | (simp only [ev_mk, ev_fold]) | split | with_reducible apply foldl_ev | dsimp only

theorem execActPositionConfirmed_ev {g0 : Since} (drive : Fin 3) (position : Nat) {s : State} (es : Ev g0 s.hw) :
    OutEv g0 (execActPositionConfirmed drive position s) := by
  unfold execActPositionConfirmed; with_reducible refine onHw_ev (fun {h} e => ?_) (by assumption)
  repeat' first
    | (with_reducible first | assumption | intro _ | apply ev_ite | apply onHw_ev | apply Hw.posConfirmed_ev)
    | (simp only [ev_mk, ev_fold]) | split | with_reducible apply foldl_ev | dsimp only

theorem Hw.parkOut_ev {g0 : Since} {h : Hw} (eh : Ev g0 h) : Ev g0 (Hw.parkOut h) := by
  unfold Hw.parkOut
  repeat' first
    | (with_reducible first | assumption | intro _ | apply ev_ite | apply Hw.place_ev | apply Hw.modDrive_ev
                            | apply Hw.parkLost_ev)
    | (simp only [ev_mk, ev_fold]) | split | with_reducible apply foldl_ev | dsimp only

theorem execParkConfirmLost_ev {g0 : Since} {s : State} (es : Ev g0 s.hw) : OutEv g0 (execParkConfirmLost s) := by
  unfold execParkConfirmLost; with_reducible refine onHw_ev (fun {h} e => ?_) (by assumption)
  repeat' first
    | (with_reducible first | assumption | intro _ | apply ev_ite | apply onHw_ev | apply Hw.parkOut_ev)
    | (simp only [ev_mk, ev_fold]) | split | with_reducible apply foldl_ev | dsimp only

theorem Hw.actLocked_ev {g0 : Since} {h : Hw} (i : Nat) (eh : Ev g0 h) : Ev g0 (Hw.actLocked h i) := by
  unfold Hw.actLocked
  repeat' first
    | (with_reducible first | assumption | intro _ | apply ev_ite | apply Hw.count_ev | apply Hw.confirmAt_ev
                            | apply Hw.modDrive_ev | apply Hw.occurThen_ev | apply Hw.endDrive_ev)
    | (simp only [ev_mk, ev_fold]) | split | with_reducible apply foldl_ev | dsimp only

theorem execActLocked_ev {g0 : Since} (drive : Fin 3) {s : State} (es : Ev g0 s.hw) :
    OutEv g0 (execActLocked drive s) := by
  unfold execActLocked; with_reducible refine onHw_ev (fun {h} e => ?_) (by assumption)
  repeat' first
    | (with_reducible first | assumption | intro _ | apply ev_ite | apply onHw_ev | apply Hw.actLocked_ev)
    | (simp only [ev_mk, ev_fold]) | split | with_reducible apply foldl_ev | dsimp only

theorem Hw.toothEnd_ev {g0 : Since} {h : Hw} (eh : Ev g0 h) : Ev g0 (Hw.toothEnd h) := by
  unfold Hw.toothEnd
  repeat' first
    | (with_reducible first | assumption | intro _ | apply ev_ite | apply Hw.occurThen_ev | apply Hw.endDrive_ev)
    | (simp only [ev_mk, ev_fold]) | split | with_reducible apply foldl_ev | dsimp only

theorem execParkToothTimeout_ev {g0 : Since} {s : State} (es : Ev g0 s.hw) : OutEv g0 (execParkToothTimeout s) := by
  unfold execParkToothTimeout; with_reducible refine onHw_ev (fun {h} e => ?_) (by assumption)
  repeat' first
    | (with_reducible first | assumption | intro _ | apply ev_ite | apply onHw_ev | apply Hw.toothEnd_ev)
    | (simp only [ev_mk, ev_fold]) | split | with_reducible apply foldl_ev | dsimp only

theorem Hw.parkSpeed_ev {g0 : Since} {h : Hw} (eh : Ev g0 h) : Ev g0 (Hw.parkSpeed h) := by
  unfold Hw.parkSpeed
  repeat' first
    | (with_reducible first | assumption | intro _ | apply ev_ite | apply Hw.endDrive_ev | apply Hw.startDrive_ev
                            | apply Hw.modDrive_ev | apply Hw.parkInhibited_ev)
    | (simp only [ev_mk, ev_fold]) | split | with_reducible apply foldl_ev | dsimp only

theorem execParkSpeedCheck_ev {g0 : Since} {s : State} (es : Ev g0 s.hw) : OutEv g0 (execParkSpeedCheck s) := by
  unfold execParkSpeedCheck; with_reducible refine onHw_ev (fun {h} e => ?_) (by assumption)
  repeat' first
    | (with_reducible first | assumption | intro _ | apply ev_ite | apply onHw_ev | apply Hw.parkSpeed_ev)
    | (simp only [ev_mk, ev_fold]) | split | with_reducible apply foldl_ev | dsimp only

theorem Hw.rappelHold_ev {g0 : Since} {h : Hw} (i : Nat) (eh : Ev g0 h) : Ev g0 (Hw.rappelHold h i) := by
  unfold Hw.rappelHold
  repeat' first
    | (with_reducible first | assumption | intro _ | apply ev_ite | apply Hw.modDrive_ev)
    | (simp only [ev_mk, ev_fold]) | split | with_reducible apply foldl_ev | dsimp only

theorem Hw.actVs_ev {g0 : Since} {h : Hw} (mv : Int) (eh : Ev g0 h) : Ev g0 (Hw.actVs h mv) := by
  unfold Hw.actVs
  repeat' first
    | (with_reducible first | assumption | intro _ | apply ev_ite | apply Hw.raiseOnce_ev | apply Hw.clearFault_ev
                            | apply Hw.brakeDrive_ev | apply Hw.rappelHold_ev | apply Hw.drawn_ev)
    | (simp only [ev_mk, ev_fold]) | split | with_reducible apply foldl_ev | dsimp only

theorem execActVsOutOfRange_ev {g0 : Since} (mv : Int) {s : State} (es : Ev g0 s.hw) :
    OutEv g0 (execActVsOutOfRange mv s) := by
  unfold execActVsOutOfRange; with_reducible refine onHw_ev (fun {h} e => ?_) (by assumption)
  repeat' first
    | (with_reducible first | assumption | intro _ | apply ev_ite | apply onHw_ev | apply Hw.actVs_ev)
    | (simp only [ev_mk, ev_fold]) | split | with_reducible apply foldl_ev | dsimp only

theorem Hw.senseLost_ev {g0 : Since} {h : Hw} (i : Nat) (eh : Ev g0 h) : Ev g0 (Hw.senseLost h i) := by
  unfold Hw.senseLost
  repeat' first
    | (with_reducible first | assumption | intro _ | apply ev_ite | apply Hw.occurThen_ev | apply Hw.brakeDrive_ev
                            | apply Hw.modDrive_ev)
    | (simp only [ev_mk, ev_fold]) | split | with_reducible apply foldl_ev | dsimp only

theorem execActSenseLost_ev {g0 : Since} (drive : Fin 3) {s : State} (es : Ev g0 s.hw) :
    OutEv g0 (execActSenseLost drive s) := by
  unfold execActSenseLost; with_reducible refine onHw_ev (fun {h} e => ?_) (by assumption)
  repeat' first
    | (with_reducible first | assumption | intro _ | apply ev_ite | apply onHw_ev | apply Hw.senseLost_ev)
    | (simp only [ev_mk, ev_fold]) | split | with_reducible apply foldl_ev | dsimp only

theorem Hw.hallCompare_ev {g0 : Since} {h : Hw} (i : Nat) (obs : List W32) (speed : Int) (eh : Ev g0 h) :
    Ev g0 (Hw.hallCompare h i obs speed) := by
  unfold Hw.hallCompare
  repeat' first
    | (with_reducible first | assumption | intro _ | apply ev_ite | apply Hw.hallObserver_ev)
    | (simp only [ev_mk, ev_fold]) | split | with_reducible apply foldl_ev | dsimp only

theorem execActHallObserver_ev {g0 : Since} (drive : Fin 3) (a1 a2 a3 : W32) (speed : Int) {s : State} (es : Ev g0 s.hw) :
    OutEv g0 (execActHallObserver drive a1 a2 a3 speed s) := by
  unfold execActHallObserver; with_reducible refine onHw_ev (fun {h} e => ?_) (by assumption)
  repeat' first
    | (with_reducible first | assumption | intro _ | apply ev_ite | apply onHw_ev | apply Hw.hallCompare_ev)
    | (simp only [ev_mk, ev_fold]) | split | with_reducible apply foldl_ev | dsimp only

theorem Hw.rappelEnd_ev {g0 : Since} {h : Hw} (i : Nat) (eh : Ev g0 h) : Ev g0 (Hw.rappelEnd h i) := by
  unfold Hw.rappelEnd
  repeat' first
    | (with_reducible first | assumption | intro _ | apply ev_ite | apply Hw.endDrive_ev | apply Hw.modDrive_ev)
    | (simp only [ev_mk, ev_fold]) | split | with_reducible apply foldl_ev | dsimp only

theorem execActRappelEnd_ev {g0 : Since} (drive : Fin 3) {s : State} (es : Ev g0 s.hw) :
    OutEv g0 (execActRappelEnd drive s) := by
  unfold execActRappelEnd; with_reducible refine onHw_ev (fun {h} e => ?_) (by assumption)
  repeat' first
    | (with_reducible first | assumption | intro _ | apply ev_ite | apply onHw_ev | apply Hw.rappelEnd_ev)
    | (simp only [ev_mk, ev_fold]) | split | with_reducible apply foldl_ev | dsimp only

theorem Hw.actRefresh_ev {g0 : Since} {h : Hw} (i : Nat) (eh : Ev g0 h) : Ev g0 (Hw.actRefresh h i) := by
  unfold Hw.actRefresh
  repeat' first
    | (with_reducible first | assumption | intro _ | apply ev_ite | apply Hw.count_ev)
    | (simp only [ev_mk, ev_fold]) | split | with_reducible apply foldl_ev | dsimp only

theorem Hw.actPeriod_ev {g0 : Since} {h : Hw} (i : Nat) (m1 m2 : Option Int) (on : List Nat) (obs : W32)
     (eh : Ev g0 h) :
    Ev g0 (Hw.actPeriod h i m1 m2 on obs) := by
  unfold Hw.actPeriod
  repeat' first
    | (with_reducible first | assumption | intro _ | apply ev_ite | apply Hw.rappelHold_ev | apply Hw.modDrive_ev
                            | apply Hw.actRefresh_ev | apply Hw.addEnergy_ev | apply Hw.periodLatch_ev
                            | apply Hw.drawn_ev)
    | (simp only [ev_mk, ev_fold]) | split | with_reducible apply foldl_ev | dsimp only

theorem execActPwmPeriod_ev {g0 : Since} (drive : Fin 3) (m1 m2 : Option Int) (onU onV onW : Nat) (obs : W32) {s : State} (es : Ev g0 s.hw) :
    OutEv g0 (execActPwmPeriod drive m1 m2 onU onV onW obs s) := by
  unfold execActPwmPeriod; with_reducible refine onHw_ev (fun {h} e => ?_) (by assumption)
  repeat' first
    | (with_reducible first | assumption | intro _ | apply ev_ite | apply onHw_ev | apply Hw.actPeriod_ev)
    | (simp only [ev_mk, ev_fold]) | split | with_reducible apply foldl_ev | dsimp only

theorem Hw.revertShift_ev {g0 : Since} {h : Hw} (eh : Ev g0 h) : Ev g0 (Hw.revertShift h) := by
  unfold Hw.revertShift
  repeat' first
    | (with_reducible first | assumption | intro _ | apply ev_ite | apply Hw.modGear_ev | apply Hw.seekGear_ev)
    | (simp only [ev_mk, ev_fold]) | split | with_reducible apply foldl_ev | dsimp only

theorem Hw.shiftTimeout_ev {g0 : Since} {h : Hw} (eh : Ev g0 h) : Ev g0 (Hw.shiftTimeout h) := by
  unfold Hw.shiftTimeout
  repeat' first
    | (with_reducible first | assumption | intro _ | apply ev_ite | apply Hw.modGear_ev | apply Hw.rampBack_ev
                            | apply Hw.occur_ev | apply Hw.neutralHeld_ev | apply Hw.startDrive_ev
                            | apply Hw.occurThen_ev | apply Hw.revertShift_ev | apply Hw.engage_ev | apply Hw.count_ev
                            | apply Hw.endShift_ev | apply Hw.seekGear_ev)
    | (simp only [ev_mk, ev_fold]) | split | with_reducible apply foldl_ev | dsimp only

theorem execShiftTimeout_ev {g0 : Since} {s : State} (es : Ev g0 s.hw) : OutEv g0 (execShiftTimeout s) := by
  unfold execShiftTimeout; with_reducible refine onHw_ev (fun {h} e => ?_) (by assumption)
  repeat' first
    | (with_reducible first | assumption | intro _ | apply ev_ite | apply onHw_ev | apply Hw.shiftTimeout_ev)
    | (simp only [ev_mk, ev_fold]) | split | with_reducible apply foldl_ev | dsimp only

theorem Hw.chargeSetup_ev {g0 : Since} {h : Hw} (d : Desc) (q : Req) (eh : Ev g0 h) :
    Ev g0 (Hw.chargeSetup h d q) := by
  unfold Hw.chargeSetup
  repeat' first
    | (with_reducible first | assumption | intro _ | apply ev_ite | apply Hw.complete_ev | apply Hw.clearAll_ev
                            | apply Hw.chgGo_ev | apply Hw.chgSettle_ev)
    | (simp only [ev_mk, ev_fold]) | split | with_reducible apply foldl_ev | dsimp only

theorem execChargeSetup_ev {g0 : Since} (d : Desc) {s : State} (es : Ev g0 s.hw) :
    OutEv g0 (execChargeSetup d s) := by
  unfold execChargeSetup; with_reducible refine onHw_ev (fun {h} e => ?_) (by assumption)
  repeat' first
    | (with_reducible first | assumption | intro _ | apply ev_ite | apply onHw_ev | apply Hw.descriptor_ev
                            | apply Hw.chargeSetup_ev)
    | (simp only [ev_mk, ev_fold]) | split | with_reducible apply foldl_ev | dsimp only

theorem Hw.chargeProfile_ev {g0 : Since} {h : Hw} (d : Desc) (q : Req) (eh : Ev g0 h) :
    Ev g0 (Hw.chargeProfile h d q) := by
  unfold Hw.chargeProfile
  repeat' first
    | (with_reducible first | assumption | intro _ | apply ev_ite | apply Hw.complete_ev)
    | (simp only [ev_mk, ev_fold]) | split | with_reducible apply foldl_ev | dsimp only

theorem execChargeProfile_ev {g0 : Since} (d : Desc) {s : State} (es : Ev g0 s.hw) :
    OutEv g0 (execChargeProfile d s) := by
  unfold execChargeProfile; with_reducible refine onHw_ev (fun {h} e => ?_) (by assumption)
  repeat' first
    | (with_reducible first | assumption | intro _ | apply ev_ite | apply onHw_ev | apply Hw.descriptor_ev
                            | apply Hw.chargeProfile_ev)
    | (simp only [ev_mk, ev_fold]) | split | with_reducible apply foldl_ev | dsimp only

theorem Hw.chargeStart_ev {g0 : Since} {h : Hw} (d : Desc) (q : Req) (resume : Bool) (eh : Ev g0 h) :
    Ev g0 (Hw.chargeStart h d q resume) := by
  unfold Hw.chargeStart
  repeat' first
    | (with_reducible first | assumption | intro _ | apply ev_ite | apply Hw.startFlow_ev | apply Hw.complete_ev)
    | (simp only [ev_mk, ev_fold]) | split | with_reducible apply foldl_ev | dsimp only

theorem execChargeControlStart_ev {g0 : Since} (d : Desc) {s : State} (es : Ev g0 s.hw) :
    OutEv g0 (execChargeControlStart d s) := by
  unfold execChargeControlStart; with_reducible refine onHw_ev (fun {h} e => ?_) (by assumption)
  repeat' first
    | (with_reducible first | assumption | intro _ | apply ev_ite | apply onHw_ev | apply Hw.descriptor_ev
                            | apply Hw.chargeStart_ev)
    | (simp only [ev_mk, ev_fold]) | split | with_reducible apply foldl_ev | dsimp only

theorem execChargeControlResume_ev {g0 : Since} (d : Desc) {s : State} (es : Ev g0 s.hw) :
    OutEv g0 (execChargeControlResume d s) := by
  unfold execChargeControlResume; with_reducible refine onHw_ev (fun {h} e => ?_) (by assumption)
  repeat' first
    | (with_reducible first | assumption | intro _ | apply ev_ite | apply onHw_ev | apply Hw.descriptor_ev
                            | apply Hw.chargeStart_ev)
    | (simp only [ev_mk, ev_fold]) | split | with_reducible apply foldl_ev | dsimp only

theorem Hw.chargeStop_ev {g0 : Since} {h : Hw} (d : Desc) (q : Req) (eh : Ev g0 h) : Ev g0 (Hw.chargeStop h d q) := by
  unfold Hw.chargeStop
  repeat' first
    | (with_reducible first | assumption | intro _ | apply ev_ite | apply Hw.complete_ev | apply Hw.drainCharge_ev)
    | (simp only [ev_mk, ev_fold]) | split | with_reducible apply foldl_ev | dsimp only

theorem execChargeControlStop_ev {g0 : Since} (d : Desc) {s : State} (es : Ev g0 s.hw) :
    OutEv g0 (execChargeControlStop d s) := by
  unfold execChargeControlStop; with_reducible refine onHw_ev (fun {h} e => ?_) (by assumption)
  repeat' first
    | (with_reducible first | assumption | intro _ | apply ev_ite | apply onHw_ev | apply Hw.descriptor_ev
                            | apply Hw.chargeStop_ev)
    | (simp only [ev_mk, ev_fold]) | split | with_reducible apply foldl_ev | dsimp only

theorem Hw.chargePause_ev {g0 : Since} {h : Hw} (d : Desc) (q : Req) (eh : Ev g0 h) :
    Ev g0 (Hw.chargePause h d q) := by
  unfold Hw.chargePause
  repeat' first
    | (with_reducible first | assumption | intro _ | apply ev_ite | apply Hw.complete_ev | apply Hw.chgAtZero_ev)
    | (simp only [ev_mk, ev_fold]) | split | with_reducible apply foldl_ev | dsimp only

theorem execChargeControlPause_ev {g0 : Since} (d : Desc) {s : State} (es : Ev g0 s.hw) :
    OutEv g0 (execChargeControlPause d s) := by
  unfold execChargeControlPause; with_reducible refine onHw_ev (fun {h} e => ?_) (by assumption)
  repeat' first
    | (with_reducible first | assumption | intro _ | apply ev_ite | apply onHw_ev | apply Hw.descriptor_ev
                            | apply Hw.chargePause_ev)
    | (simp only [ev_mk, ev_fold]) | split | with_reducible apply foldl_ev | dsimp only

theorem Hw.chargeLimits_ev {g0 : Since} {h : Hw} (d : Desc) (q : Req) (eh : Ev g0 h) :
    Ev g0 (Hw.chargeLimits h d q) := by
  unfold Hw.chargeLimits
  repeat' first
    | (with_reducible first | assumption | intro _ | apply ev_ite | apply Hw.complete_ev | apply Hw.chgSettle_ev)
    | (simp only [ev_mk, ev_fold]) | split | with_reducible apply foldl_ev | dsimp only

theorem execChargeControlSetLimits_ev {g0 : Since} (d : Desc) {s : State} (es : Ev g0 s.hw) :
    OutEv g0 (execChargeControlSetLimits d s) := by
  unfold execChargeControlSetLimits; with_reducible refine onHw_ev (fun {h} e => ?_) (by assumption)
  repeat' first
    | (with_reducible first | assumption | intro _ | apply ev_ite | apply onHw_ev | apply Hw.descriptor_ev
                            | apply Hw.chargeLimits_ev)
    | (simp only [ev_mk, ev_fold]) | split | with_reducible apply foldl_ev | dsimp only

theorem Hw.inletMatch_ev {g0 : Since} {h : Hw} (d : Desc) (q : Req) (eh : Ev g0 h) : Ev g0 (Hw.inletMatch h d q) := by
  unfold Hw.inletMatch
  repeat' first
    | (with_reducible first | assumption | intro _ | apply ev_ite | apply Hw.complete_ev | apply Hw.fixAB_ev)
    | (simp only [ev_mk, ev_fold]) | split | with_reducible apply foldl_ev | dsimp only

theorem execChargeControlInletMatch_ev {g0 : Since} (d : Desc) {s : State} (es : Ev g0 s.hw) :
    OutEv g0 (execChargeControlInletMatch d s) := by
  unfold execChargeControlInletMatch; with_reducible refine onHw_ev (fun {h} e => ?_) (by assumption)
  repeat' first
    | (with_reducible first | assumption | intro _ | apply ev_ite | apply onHw_ev | apply Hw.descriptor_ev
                            | apply Hw.inletMatch_ev)
    | (simp only [ev_mk, ev_fold]) | split | with_reducible apply foldl_ev | dsimp only

theorem Hw.restartPhase_ev {g0 : Since} {h : Hw} (q : Req) (eh : Ev g0 h) : Ev g0 (Hw.restartPhase h q) := by
  unfold Hw.restartPhase
  repeat' first
    | (with_reducible first | assumption | intro _ | apply ev_ite | apply Hw.complete_ev | apply Hw.clearFault_ev
                            | apply Hw.chgUnsuspend_ev)
    | (simp only [ev_mk, ev_fold]) | split | with_reducible apply foldl_ev | dsimp only

theorem execChargeControlRestartPhase_ev {g0 : Since} (d : Desc) {s : State} (es : Ev g0 s.hw) :
    OutEv g0 (execChargeControlRestartPhase d s) := by
  unfold execChargeControlRestartPhase; with_reducible refine onHw_ev (fun {h} e => ?_) (by assumption)
  repeat' first
    | (with_reducible first | assumption | intro _ | apply ev_ite | apply onHw_ev | apply Hw.descriptor_ev
                            | apply Hw.restartPhase_ev)
    | (simp only [ev_mk, ev_fold]) | split | with_reducible apply foldl_ev | dsimp only

theorem Hw.battStatus_ev {g0 : Since} {h : Hw} (d : Desc) (q : Req) (eh : Ev g0 h) : Ev g0 (Hw.battStatus h d q) := by
  unfold Hw.battStatus
  repeat' first
    | (with_reducible first | assumption | intro _ | apply ev_ite | apply Hw.complete_ev)
    | (simp only [ev_mk, ev_fold]) | split | with_reducible apply foldl_ev | dsimp only

theorem execChgBattStatus_ev {g0 : Since} (d : Desc) {s : State} (es : Ev g0 s.hw) :
    OutEv g0 (execChgBattStatus d s) := by
  unfold execChgBattStatus; with_reducible refine onHw_ev (fun {h} e => ?_) (by assumption)
  repeat' first
    | (with_reducible first | assumption | intro _ | apply ev_ite | apply onHw_ev | apply Hw.descriptor_ev
                            | apply Hw.battStatus_ev)
    | (simp only [ev_mk, ev_fold]) | split | with_reducible apply foldl_ev | dsimp only

theorem Hw.plugLeft_ev {g0 : Since} {h : Hw} (eh : Ev g0 h) : Ev g0 (Hw.plugLeft h) := by
  unfold Hw.plugLeft
  repeat' first
    | (with_reducible first | assumption | intro _ | apply ev_ite | apply Hw.handOver_ev | apply Hw.boostLost_ev
                            | apply Hw.chgStopTo_ev | apply Hw.chgOpen_ev | apply Hw.chgGo_ev)
    | (simp only [ev_mk, ev_fold]) | split | with_reducible apply foldl_ev | dsimp only

theorem Hw.plugBack_ev {g0 : Since} {h : Hw} (eh : Ev g0 h) : Ev g0 (Hw.plugBack h) := by
  unfold Hw.plugBack
  repeat' first
    | (with_reducible first | assumption | intro _ | apply ev_ite | apply Hw.count_ev | apply Hw.clearAll_ev
                            | apply Hw.chgSettle_ev)
    | (simp only [ev_mk, ev_fold]) | split | with_reducible apply foldl_ev | dsimp only

theorem Hw.ppChange_ev {g0 : Since} {h : Hw} (ohms : Nat) (eh : Ev g0 h) : Ev g0 (Hw.ppChange h ohms) := by
  unfold Hw.ppChange
  repeat' first
    | (with_reducible first | assumption | intro _ | apply ev_ite | apply Hw.busyNow_ev | apply Hw.plugLeft_ev
                            | apply Hw.plugBack_ev)
    | (simp only [ev_mk, ev_fold]) | split | with_reducible apply foldl_ev | dsimp only

theorem execPpClassChange_ev {g0 : Since} (ohms held : Nat) {s : State} (es : Ev g0 s.hw) :
    OutEv g0 (execPpClassChange ohms held s) := by
  unfold execPpClassChange; with_reducible refine onHw_ev (fun {h} e => ?_) (by assumption)
  repeat' first
    | (with_reducible first | assumption | intro _ | apply ev_ite | apply onHw_ev | apply Hw.ppChange_ev)
    | (simp only [ev_mk, ev_fold]) | split | with_reducible apply foldl_ev | dsimp only

theorem Hw.pwmReturn_ev {g0 : Since} {h : Hw} (eh : Ev g0 h) : Ev g0 (Hw.pwmReturn h) := by
  unfold Hw.pwmReturn
  repeat' first
    | (with_reducible first | assumption | intro _ | apply ev_ite | apply Hw.startFlow_ev)
    | (simp only [ev_mk, ev_fold]) | split | with_reducible apply foldl_ev | dsimp only

theorem Hw.cpActs_ev {g0 : Since} {h : Hw} (was : CpState) (eh : Ev g0 h) : Ev g0 (Hw.cpActs h was) := by
  unfold Hw.cpActs
  repeat' first
    | (with_reducible first | assumption | intro _ | apply ev_ite | apply Hw.handOver_ev | apply Hw.chgOutage_ev
                            | apply Hw.chgGo_ev | apply Hw.chgCompleteAll_ev | apply Hw.boostLost_ev
                            | apply Hw.pwmReturn_ev | apply Hw.chgSettle_ev)
    | (simp only [ev_mk, ev_fold]) | split | with_reducible apply foldl_ev | dsimp only

theorem Hw.cpChange_ev {g0 : Since} {h : Hw} (posMv negMv : Int) (freq : Option Nat) (duty held : Nat)
     (eh : Ev g0 h) :
    Ev g0 (Hw.cpChange h posMv negMv freq duty held) := by
  unfold Hw.cpChange
  repeat' first
    | (with_reducible first | assumption | intro _ | apply ev_ite | apply Hw.clearFault_ev | apply Hw.cpActs_ev
                            | apply Hw.raiseOnce_ev)
    | (simp only [ev_mk, ev_fold]) | split | with_reducible apply foldl_ev | dsimp only

theorem execCpStateChange_ev {g0 : Since} (posMv negMv : Int) (freq : Option Nat) (duty held : Nat) {s : State} (es : Ev g0 s.hw) :
    OutEv g0 (execCpStateChange posMv negMv freq duty held s) := by
  unfold execCpStateChange; with_reducible refine onHw_ev (fun {h} e => ?_) (by assumption)
  repeat' first
    | (with_reducible first | assumption | intro _ | apply ev_ite | apply onHw_ev | apply Hw.cpChange_ev)
    | (simp only [ev_mk, ev_fold]) | split | with_reducible apply foldl_ev | dsimp only

theorem Hw.handOverEnd_ev {g0 : Since} {h : Hw} (eh : Ev g0 h) : Ev g0 (Hw.handOverEnd h) := by
  unfold Hw.handOverEnd
  repeat' first
    | (with_reducible first | assumption | intro _ | apply ev_ite | apply Hw.handOver_ev | apply Hw.chgEndPhase_ev
                            | apply Hw.chgGo_ev | apply Hw.chgSettle_ev)
    | (simp only [ev_mk, ev_fold]) | split | with_reducible apply foldl_ev | dsimp only

theorem execHandOverEnd_ev {g0 : Since} {s : State} (es : Ev g0 s.hw) : OutEv g0 (execHandOverEnd s) := by
  unfold execHandOverEnd; with_reducible refine onHw_ev (fun {h} e => ?_) (by assumption)
  repeat' first
    | (with_reducible first | assumption | intro _ | apply ev_ite | apply onHw_ev | apply Hw.handOverEnd_ev)
    | (simp only [ev_mk, ev_fold]) | split | with_reducible apply foldl_ev | dsimp only

theorem Hw.outageEnd_ev {g0 : Since} {h : Hw} (eh : Ev g0 h) : Ev g0 (Hw.outageEnd h) := by
  unfold Hw.outageEnd
  repeat' first
    | (with_reducible first | assumption | intro _ | apply ev_ite | apply Hw.startFlow_ev)
    | (simp only [ev_mk, ev_fold]) | split | with_reducible apply foldl_ev | dsimp only

theorem execOutageHoldoffExpiry_ev {g0 : Since} {s : State} (es : Ev g0 s.hw) :
    OutEv g0 (execOutageHoldoffExpiry s) := by
  unfold execOutageHoldoffExpiry; with_reducible refine onHw_ev (fun {h} e => ?_) (by assumption)
  repeat' first
    | (with_reducible first | assumption | intro _ | apply ev_ite | apply onHw_ev | apply Hw.outageEnd_ev)
    | (simp only [ev_mk, ev_fold]) | split | with_reducible apply foldl_ev | dsimp only

theorem Hw.measureRef_ev {g0 : Since} {h : Hw} (v : List Int) (eh : Ev g0 h) : Ev g0 (Hw.measureRef h v) := by
  unfold Hw.measureRef
  repeat' first
    | (with_reducible first | assumption | intro _ | apply ev_ite)
    | (simp only [ev_mk, ev_fold]) | split | with_reducible apply foldl_ev | dsimp only

theorem Hw.gridTrip_ev {g0 : Since} {h : Hw} (eh : Ev g0 h) : Ev g0 (Hw.gridTrip h) := by
  unfold Hw.gridTrip
  repeat' first
    | (with_reducible first | assumption | intro _ | apply ev_ite | apply Hw.occur_ev | apply Hw.chgOutage_ev)
    | (simp only [ev_mk, ev_fold]) | split | with_reducible apply foldl_ev | dsimp only

theorem Hw.acEnergy_ev {g0 : Since} {h : Hw} (v : List Int) (freq : Nat) (amps : Int) (eh : Ev g0 h) :
    Ev g0 (Hw.acEnergy h v freq amps) := by
  unfold Hw.acEnergy
  repeat' first
    | (with_reducible first | assumption | intro _ | apply ev_ite | apply Hw.addEnergy_ev)
    | (simp only [ev_mk, ev_fold]) | split | with_reducible apply foldl_ev | dsimp only

theorem Hw.islandLoad_ev {g0 : Since} {h : Hw} (amps : Int) (eh : Ev g0 h) : Ev g0 (Hw.islandLoad h amps) := by
  unfold Hw.islandLoad
  repeat' first
    | (with_reducible first | assumption | intro _ | apply ev_ite)
    | (simp only [ev_mk, ev_fold]) | split | with_reducible apply foldl_ev | dsimp only

theorem Hw.flowCycle_ev {g0 : Since} {h : Hw} (v : List Int) (freq : Nat) (amps : Int) (eh : Ev g0 h) :
    Ev g0 (Hw.flowCycle h v freq amps) := by
  unfold Hw.flowCycle
  repeat' first
    | (with_reducible first | assumption | intro _ | apply ev_ite | apply Hw.rampLimit_ev | apply Hw.islandLoad_ev
                            | apply Hw.acEnergy_ev | apply Hw.completeOpt_ev | apply Hw.chgAtZero_ev
                            | apply Hw.raiseOnce_ev | apply Hw.chgSuspend_ev)
    | (simp only [ev_mk, ev_fold]) | split | with_reducible apply foldl_ev | dsimp only

theorem Hw.coolantStop_ev {g0 : Since} {h : Hw} (eh : Ev g0 h) : Ev g0 (Hw.coolantStop h) := by
  unfold Hw.coolantStop
  repeat' first
    | (with_reducible first | assumption | intro _ | apply ev_ite | apply Hw.chgSuspend_ev | apply Hw.chgUnsuspend_ev)
    | (simp only [ev_mk, ev_fold]) | split | with_reducible apply foldl_ev | dsimp only

theorem Hw.acCycle_ev {g0 : Since} {h : Hw} (volts : List Int) (freq : Nat) (amps : Int) (eh : Ev g0 h) :
    Ev g0 (Hw.acCycle h volts freq amps) := by
  unfold Hw.acCycle
  repeat' first
    | (with_reducible first | assumption | intro _ | apply ev_ite | apply Hw.flowCycle_ev | apply Hw.chgAtZero_ev
                            | apply Hw.measureRef_ev | apply Hw.coolantStop_ev | apply Hw.handOver_ev
                            | apply Hw.gridTrip_ev | apply Hw.clearFault_ev | apply Hw.chgUnsuspend_ev)
    | (simp only [ev_mk, ev_fold]) | split | with_reducible apply foldl_ev | dsimp only

theorem Hw.boostCycle_ev {g0 : Since} {h : Hw} (v amps : Int) (eh : Ev g0 h) : Ev g0 (Hw.boostCycle h v amps) := by
  unfold Hw.boostCycle
  repeat' first
    | (with_reducible first | assumption | intro _ | apply ev_ite | apply Hw.boostStep_ev | apply Hw.raiseOnce_ev
                            | apply Hw.chgSuspend_ev | apply Hw.clearFault_ev | apply Hw.chgUnsuspend_ev)
    | (simp only [ev_mk, ev_fold]) | split | with_reducible apply foldl_ev | dsimp only

theorem execMainsHalfCycle_ev {g0 : Since} (v1 v2 v3 : Int) (freq : Nat) (amps : Int) {s : State} (es : Ev g0 s.hw) :
    OutEv g0 (execMainsHalfCycle v1 v2 v3 freq amps s) := by
  unfold execMainsHalfCycle; with_reducible refine onHw_ev (fun {h} e => ?_) (by assumption)
  repeat' first
    | (with_reducible first | assumption | intro _ | apply ev_ite | apply onHw_ev | apply Hw.boostCycle_ev
                            | apply Hw.acCycle_ev)
    | (simp only [ev_mk, ev_fold]) | split | with_reducible apply foldl_ev | dsimp only

theorem Hw.noSource_ev {g0 : Since} {h : Hw} (eh : Ev g0 h) : Ev g0 (Hw.noSource h) := by
  unfold Hw.noSource
  repeat' first
    | (with_reducible first | assumption | intro _ | apply ev_ite | apply Hw.occurThen_ev | apply Hw.chgStopTo_ev)
    | (simp only [ev_mk, ev_fold]) | split | with_reducible apply foldl_ev | dsimp only

theorem execChgNoSource_ev {g0 : Since} {s : State} (es : Ev g0 s.hw) : OutEv g0 (execChgNoSource s) := by
  unfold execChgNoSource; with_reducible refine onHw_ev (fun {h} e => ?_) (by assumption)
  repeat' first
    | (with_reducible first | assumption | intro _ | apply ev_ite | apply onHw_ev | apply Hw.noSource_ev)
    | (simp only [ev_mk, ev_fold]) | split | with_reducible apply foldl_ev | dsimp only

theorem Hw.residual_ev {g0 : Since} {h : Hw} (acMa dcMa peMv : Int) (eh : Ev g0 h) :
    Ev g0 (Hw.residual h acMa dcMa peMv) := by
  unfold Hw.residual
  repeat' first
    | (with_reducible first | assumption | intro _ | apply ev_ite | apply Hw.raiseOnce_ev | apply Hw.chgSuspend_ev)
    | (simp only [ev_mk, ev_fold]) | split | with_reducible apply foldl_ev | dsimp only

theorem execChgResidual_ev {g0 : Since} (acMa dcMa peMv : Int) {s : State} (es : Ev g0 s.hw) :
    OutEv g0 (execChgResidual acMa dcMa peMv s) := by
  unfold execChgResidual; with_reducible refine onHw_ev (fun {h} e => ?_) (by assumption)
  repeat' first
    | (with_reducible first | assumption | intro _ | apply ev_ite | apply onHw_ev | apply Hw.residual_ev)
    | (simp only [ev_mk, ev_fold]) | split | with_reducible apply foldl_ev | dsimp only

theorem execChgGridTrip_ev {g0 : Since} {s : State} (es : Ev g0 s.hw) : OutEv g0 (execChgGridTrip s) := by
  unfold execChgGridTrip; with_reducible refine onHw_ev (fun {h} e => ?_) (by assumption)
  repeat' first
    | (with_reducible first | assumption | intro _ | apply ev_ite | apply onHw_ev | apply Hw.gridTrip_ev)
    | (simp only [ev_mk, ev_fold]) | split | with_reducible apply foldl_ev | dsimp only

theorem Hw.islandOverload_ev {g0 : Since} {h : Hw} (eh : Ev g0 h) : Ev g0 (Hw.islandOverload h) := by
  unfold Hw.islandOverload
  repeat' first
    | (with_reducible first | assumption | intro _ | apply ev_ite | apply Hw.occurThen_ev | apply Hw.chgStopTo_ev)
    | (simp only [ev_mk, ev_fold]) | split | with_reducible apply foldl_ev | dsimp only

theorem execChgIslandOverload_ev {g0 : Since} {s : State} (es : Ev g0 s.hw) : OutEv g0 (execChgIslandOverload s) := by
  unfold execChgIslandOverload; with_reducible refine onHw_ev (fun {h} e => ?_) (by assumption)
  repeat' first
    | (with_reducible first | assumption | intro _ | apply ev_ite | apply onHw_ev | apply Hw.islandOverload_ev)
    | (simp only [ev_mk, ev_fold]) | split | with_reducible apply foldl_ev | dsimp only

theorem Hw.backfeed_ev {g0 : Since} {h : Hw} (volts : List Int) (held : Nat) (eh : Ev g0 h) :
    Ev g0 (Hw.backfeed h volts held) := by
  unfold Hw.backfeed
  repeat' first
    | (with_reducible first | assumption | intro _ | apply ev_ite | apply Hw.raiseOnce_ev | apply Hw.chgSuspend_ev)
    | (simp only [ev_mk, ev_fold]) | split | with_reducible apply foldl_ev | dsimp only

theorem execChgBackfeed_ev {g0 : Since} (v1 v2 v3 : Int) (held : Nat) {s : State} (es : Ev g0 s.hw) :
    OutEv g0 (execChgBackfeed v1 v2 v3 held s) := by
  unfold execChgBackfeed; with_reducible refine onHw_ev (fun {h} e => ?_) (by assumption)
  repeat' first
    | (with_reducible first | assumption | intro _ | apply ev_ite | apply onHw_ev | apply Hw.backfeed_ev)
    | (simp only [ev_mk, ev_fold]) | split | with_reducible apply foldl_ev | dsimp only

theorem Hw.obcHeat_ev {g0 : Since} {h : Hw} (t : Int) (eh : Ev g0 h) : Ev g0 (Hw.obcHeat h t) := by
  unfold Hw.obcHeat
  repeat' first
    | (with_reducible first | assumption | intro _ | apply ev_ite | apply Hw.raiseOnce_ev | apply Hw.occur_ev
                            | apply Hw.clearFault_ev)
    | (simp only [ev_mk, ev_fold]) | split | with_reducible apply foldl_ev | dsimp only

theorem execObcOvertemp_ev {g0 : Since} (temp : Int) {s : State} (es : Ev g0 s.hw) :
    OutEv g0 (execObcOvertemp temp s) := by
  unfold execObcOvertemp; with_reducible refine onHw_ev (fun {h} e => ?_) (by assumption)
  repeat' first
    | (with_reducible first | assumption | intro _ | apply ev_ite | apply onHw_ev | apply Hw.obcHeat_ev)
    | (simp only [ev_mk, ev_fold]) | split | with_reducible apply foldl_ev | dsimp only

theorem Hw.phaseChange_ev {g0 : Since} {h : Hw} (amps : Int) (eh : Ev g0 h) : Ev g0 (Hw.phaseChange h amps) := by
  unfold Hw.phaseChange
  repeat' first
    | (with_reducible first | assumption | intro _ | apply ev_ite | apply Hw.chgEndPhase_ev | apply Hw.enterPhase_ev)
    | (simp only [ev_mk, ev_fold]) | split | with_reducible apply foldl_ev | dsimp only

theorem execChargePhaseChange_ev {g0 : Since} (amps : Int) {s : State} (es : Ev g0 s.hw) :
    OutEv g0 (execChargePhaseChange amps s) := by
  unfold execChargePhaseChange; with_reducible refine onHw_ev (fun {h} e => ?_) (by assumption)
  repeat' first
    | (with_reducible first | assumption | intro _ | apply ev_ite | apply onHw_ev | apply Hw.phaseChange_ev)
    | (simp only [ev_mk, ev_fold]) | split | with_reducible apply foldl_ev | dsimp only

theorem Hw.chgTime_ev {g0 : Since} {h : Hw} (own : Int) (eh : Ev g0 h) : Ev g0 (Hw.chgTime h own) := by
  unfold Hw.chgTime
  repeat' first
    | (with_reducible first | assumption | intro _ | apply ev_ite | apply Hw.sessionComplete_ev | apply Hw.count_ev
                            | apply Hw.raiseOnce_ev | apply Hw.chgSuspend_ev)
    | (simp only [ev_mk, ev_fold]) | split | with_reducible apply foldl_ev | dsimp only

theorem execChgTimer_ev {g0 : Since} (amps : Int) {s : State} (es : Ev g0 s.hw) : OutEv g0 (execChgTimer amps s) := by
  unfold execChgTimer; with_reducible refine onHw_ev (fun {h} e => ?_) (by assumption)
  repeat' first
    | (with_reducible first | assumption | intro _ | apply ev_ite | apply onHw_ev | apply Hw.chgTime_ev)
    | (simp only [ev_mk, ev_fold]) | split | with_reducible apply foldl_ev | dsimp only

theorem Hw.battFault_ev {g0 : Since} {h : Hw} (f : BattFault) (eh : Ev g0 h) : Ev g0 (Hw.battFault h f) := by
  unfold Hw.battFault
  repeat' first
    | (with_reducible first | assumption | intro _ | apply ev_ite | apply Hw.raiseOnce_ev | apply Hw.chgSuspend_ev
                            | apply Hw.chgEndPhase_ev | apply Hw.enterPhase_ev)
    | (simp only [ev_mk, ev_fold]) | split | with_reducible apply foldl_ev | dsimp only

theorem execChgBattFault_ev {g0 : Since} (f : BattFault) {s : State} (es : Ev g0 s.hw) :
    OutEv g0 (execChgBattFault f s) := by
  unfold execChgBattFault; with_reducible refine onHw_ev (fun {h} e => ?_) (by assumption)
  repeat' first
    | (with_reducible first | assumption | intro _ | apply ev_ite | apply onHw_ev | apply Hw.battFault_ev)
    | (simp only [ev_mk, ev_fold]) | split | with_reducible apply foldl_ev | dsimp only

theorem Hw.seeProbe_ev {g0 : Since} {h : Hw} (probe : Option Int) (eh : Ev g0 h) : Ev g0 (Hw.seeProbe h probe) := by
  unfold Hw.seeProbe
  repeat' first
    | (with_reducible first | assumption | intro _ | apply ev_ite)
    | (simp only [ev_mk, ev_fold]) | split | with_reducible apply foldl_ev | dsimp only

theorem Hw.tempWindow_ev {g0 : Since} {h : Hw} (t : Option Int) (eh : Ev g0 h) : Ev g0 (Hw.tempWindow h t) := by
  unfold Hw.tempWindow
  repeat' first
    | (with_reducible first | assumption | intro _ | apply ev_ite | apply Hw.occur_ev | apply Hw.chgSuspend_ev
                            | apply Hw.chgUnsuspend_ev)
    | (simp only [ev_mk, ev_fold]) | split | with_reducible apply foldl_ev | dsimp only

theorem execChgTempWindow_ev {g0 : Since} (probe : Option Int) {s : State} (es : Ev g0 s.hw) :
    OutEv g0 (execChgTempWindow probe s) := by
  unfold execChgTempWindow; with_reducible refine onHw_ev (fun {h} e => ?_) (by assumption)
  repeat' first
    | (with_reducible first | assumption | intro _ | apply ev_ite | apply onHw_ev | apply Hw.seeProbe_ev
                            | apply Hw.tempWindow_ev)
    | (simp only [ev_mk, ev_fold]) | split | with_reducible apply foldl_ev | dsimp only

theorem Hw.inductance_ev {g0 : Since} {h : Hw} (spans : List Int) (duty : Nat) (eh : Ev g0 h) :
    Ev g0 (Hw.inductance h spans duty) := by
  unfold Hw.inductance
  repeat' first
    | (with_reducible first | assumption | intro _ | apply ev_ite | apply Hw.completeOpt_ev | apply Hw.raiseOnce_ev
                            | apply Hw.boostEnding_ev)
    | (simp only [ev_mk, ev_fold]) | split | with_reducible apply foldl_ev | dsimp only

theorem execDcbInductanceCheck_ev {g0 : Since} (spans : List Int) (duty : Nat) {s : State} (es : Ev g0 s.hw) :
    OutEv g0 (execDcbInductanceCheck spans duty s) := by
  unfold execDcbInductanceCheck; with_reducible refine onHw_ev (fun {h} e => ?_) (by assumption)
  repeat' first
    | (with_reducible first | assumption | intro _ | apply ev_ite | apply onHw_ev | apply Hw.inductance_ev)
    | (simp only [ev_mk, ev_fold]) | split | with_reducible apply foldl_ev | dsimp only

theorem Hw.dcbEnd_ev {g0 : Since} {h : Hw} (e : DcbEvent) (eh : Ev g0 h) : Ev g0 (Hw.dcbEnd h e) := by
  unfold Hw.dcbEnd
  repeat' first
    | (with_reducible first | assumption | intro _ | apply ev_ite | apply Hw.occurThen_ev | apply Hw.boostLost_ev
                            | apply Hw.boostAbort_ev | apply Hw.faultSafe_ev)
    | (simp only [ev_mk, ev_fold]) | split | with_reducible apply foldl_ev | dsimp only

theorem execDcbEndEvent_ev {g0 : Since} (e : DcbEvent) {s : State} (es : Ev g0 s.hw) :
    OutEv g0 (execDcbEndEvent e s) := by
  unfold execDcbEndEvent; with_reducible refine onHw_ev (fun {h} e => ?_) (by assumption)
  repeat' first
    | (with_reducible first | assumption | intro _ | apply ev_ite | apply onHw_ev | apply Hw.dcbEnd_ev)
    | (simp only [ev_mk, ev_fold]) | split | with_reducible apply foldl_ev | dsimp only

theorem Hw.contactorWeld_ev {g0 : Since} {h : Hw} (ch33 : Int) (eh : Ev g0 h) : Ev g0 (Hw.contactorWeld h ch33) := by
  unfold Hw.contactorWeld
  repeat' first
    | (with_reducible first | assumption | intro _ | apply ev_ite | apply Hw.boostDone_ev | apply Hw.raiseOnce_ev)
    | (simp only [ev_mk, ev_fold]) | split | with_reducible apply foldl_ev | dsimp only

theorem execDcbContactorWeld_ev {g0 : Since} (ch33 : Int) {s : State} (es : Ev g0 s.hw) :
    OutEv g0 (execDcbContactorWeld ch33 s) := by
  unfold execDcbContactorWeld; with_reducible refine onHw_ev (fun {h} e => ?_) (by assumption)
  repeat' first
    | (with_reducible first | assumption | intro _ | apply ev_ite | apply onHw_ev | apply Hw.contactorWeld_ev)
    | (simp only [ev_mk, ev_fold]) | split | with_reducible apply foldl_ev | dsimp only

theorem Hw.chargeHoldEnd_ev {g0 : Since} {h : Hw} (eh : Ev g0 h) : Ev g0 (Hw.chargeHoldEnd h) := by
  unfold Hw.chargeHoldEnd
  repeat' first
    | (with_reducible first | assumption | intro _ | apply ev_ite | apply Hw.drainCharge_ev)
    | (simp only [ev_mk, ev_fold]) | split | with_reducible apply foldl_ev | dsimp only

theorem execBaseCampChargeHoldExpiry_ev {g0 : Since} {s : State} (es : Ev g0 s.hw) :
    OutEv g0 (execBaseCampChargeHoldExpiry s) := by
  unfold execBaseCampChargeHoldExpiry; with_reducible refine onHw_ev (fun {h} e => ?_) (by assumption)
  repeat' first
    | (with_reducible first | assumption | intro _ | apply ev_ite | apply onHw_ev | apply Hw.chargeHoldEnd_ev)
    | (simp only [ev_mk, ev_fold]) | split | with_reducible apply foldl_ev | dsimp only

end Sys2Proof.Machine
end

