-- ==== Sys2Proof/Laws/EvolveSensing.lean ====
section
/-!
SUPPORT. Laws/EvolveSensing.lean: what every operation keeps of the limits and of what is never taken back, for gate drive, sensing, tests and position: one lemma
for each operation, named after it.
-/
set_option linter.unusedSimpArgs false
namespace Sys2Proof.Machine

theorem Hw.kindFault_ev {g0 : Since} {h : Hw} (b : Bridge) (leg : Nat) (f : FaultId) (bad : EdgeKind → Bool)
     (eh : Ev g0 h) :
    Ev g0 (Hw.kindFault h b leg f bad) := by
  unfold Hw.kindFault
  repeat' first
    | (with_reducible first | assumption | intro _ | apply ev_ite | apply Hw.raiseOnce_ev | apply Hw.clearFault_ev)
    | (simp only [ev_mk, ev_fold]) | split | with_reducible apply foldl_ev | dsimp only

theorem Hw.edgeStep_ev {g0 : Since} {h : Hw} (b : Bridge) (e : EdgeMeas) (eh : Ev g0 h) :
    Ev g0 (Hw.edgeStep h b e) := by
  unfold Hw.edgeStep
  repeat' first
    | (with_reducible first | assumption | intro _ | apply ev_ite | apply Hw.modGate_ev | apply Hw.kindFault_ev)
    | (simp only [ev_mk, ev_fold]) | split | with_reducible apply foldl_ev | dsimp only

theorem Hw.edgeSteps_ev {g0 : Since} {h : Hw} (b : Bridge) (edges : List EdgeMeas) (eh : Ev g0 h) :
    Ev g0 (Hw.edgeSteps h b edges) := by
  unfold Hw.edgeSteps
  repeat' first
    | (with_reducible first | assumption | intro _ | apply ev_ite | apply Hw.edgeStep_ev)
    | (simp only [ev_mk, ev_fold]) | split | with_reducible apply foldl_ev | dsimp only

theorem Hw.takeCorrections_ev {g0 : Since} {h : Hw} (b : Bridge) (eh : Ev g0 h) : Ev g0 (Hw.takeCorrections h b) := by
  unfold Hw.takeCorrections
  repeat' first
    | (with_reducible first | assumption | intro _ | apply ev_ite)
    | (simp only [ev_mk, ev_fold]) | split | with_reducible apply foldl_ev | dsimp only

theorem Hw.pwmPeriod_ev {g0 : Since} {h : Hw} (b : Bridge) (edges : List EdgeMeas) (eh : Ev g0 h) :
    Ev g0 (Hw.pwmPeriod h b edges) := by
  unfold Hw.pwmPeriod
  repeat' first
    | (with_reducible first | assumption | intro _ | apply ev_ite | apply Hw.edgeSteps_ev | apply Hw.modGate_ev
                            | apply Hw.applyWaiting_ev | apply Hw.modCtl_ev | apply Hw.takeCorrections_ev
                            | apply Hw.periodLatch_ev | apply Hw.count_ev | apply Hw.drawn_ev)
    | (simp only [ev_mk, ev_fold]) | split | with_reducible apply foldl_ev | dsimp only

theorem execPwmPeriodStart_ev {g0 : Since} (b : Bridge) (edges : List EdgeMeas) {s : State} (es : Ev g0 s.hw) :
    OutEv g0 (execPwmPeriodStart b edges s) := by
  unfold execPwmPeriodStart; with_reducible refine onHw_ev (fun {h} e => ?_) (by assumption)
  repeat' first
    | (with_reducible first | assumption | intro _ | apply ev_ite | apply onHw_ev | apply Hw.pwmPeriod_ev)
    | (simp only [ev_mk, ev_fold]) | split | with_reducible apply foldl_ev | dsimp only

theorem Hw.xcmdTraction_ev {g0 : Since} {h : Hw} (leg : Nat) (eh : Ev g0 h) : Ev g0 (Hw.xcmdTraction h leg) := by
  unfold Hw.xcmdTraction
  repeat' first
    | (with_reducible first | assumption | intro _ | apply ev_ite | apply Hw.modGate_ev | apply Hw.count_ev
                            | apply Hw.occur_ev | apply Hw.occurThen_ev | apply Hw.faultSafe_ev)
    | (simp only [ev_mk, ev_fold]) | split | with_reducible apply foldl_ev | dsimp only

theorem Hw.xcmdConverter_ev {g0 : Since} {h : Hw} (leg : Nat) (eh : Ev g0 h) : Ev g0 (Hw.xcmdConverter h leg) := by
  unfold Hw.xcmdConverter
  repeat' first
    | (with_reducible first | assumption | intro _ | apply ev_ite | apply Hw.count_ev | apply Hw.occur_ev
                            | apply Hw.occurThen_ev | apply Hw.lvFailed_ev)
    | (simp only [ev_mk, ev_fold]) | split | with_reducible apply foldl_ev | dsimp only

theorem Hw.xcmdActuator_ev {g0 : Since} {h : Hw} (leg : Nat) (eh : Ev g0 h) : Ev g0 (Hw.xcmdActuator h leg) := by
  unfold Hw.xcmdActuator
  repeat' first
    | (with_reducible first | assumption | intro _ | apply ev_ite | apply Hw.count_ev | apply Hw.occur_ev
                            | apply Hw.occurThen_ev | apply Hw.endDrive_ev)
    | (simp only [ev_mk, ev_fold]) | split | with_reducible apply foldl_ev | dsimp only

theorem execLegCrossCommand_ev {g0 : Since} (leg : Fin 64) {s : State} (es : Ev g0 s.hw) :
    OutEv g0 (execLegCrossCommand leg s) := by
  unfold execLegCrossCommand; with_reducible refine onHw_ev (fun {h} e => ?_) (by assumption)
  repeat' first
    | (with_reducible first | assumption | intro _ | apply ev_ite | apply onHw_ev | apply Hw.xcmdTraction_ev
                            | apply Hw.xcmdConverter_ev | apply Hw.xcmdActuator_ev)
    | (simp only [ev_mk, ev_fold]) | split | with_reducible apply foldl_ev | dsimp only

theorem Hw.checkInhibit_ev {g0 : Since} {h : Hw} (b : Bridge) (eh : Ev g0 h) : Ev g0 (Hw.checkInhibit h b) := by
  unfold Hw.checkInhibit
  repeat' first
    | (with_reducible first | assumption | intro _ | apply ev_ite | apply Hw.modGate_ev | apply Hw.occur_ev)
    | (simp only [ev_mk, ev_fold]) | split | with_reducible apply foldl_ev | dsimp only

theorem Hw.desatReport_ev {g0 : Since} {h : Hw} (p : Nat) (eh : Ev g0 h) : Ev g0 (Hw.desatReport h p) := by
  unfold Hw.desatReport
  repeat' first
    | (with_reducible first | assumption | intro _ | apply ev_ite | apply Hw.modGate_ev | apply Hw.count_ev
                            | apply Hw.checkInhibit_ev | apply Hw.occurThen_ev | apply Hw.faultSafe_ev
                            | apply Hw.raiseOnce_ev)
    | (simp only [ev_mk, ev_fold]) | split | with_reducible apply foldl_ev | dsimp only

theorem execDesatReport_ev {g0 : Since} (pos : Fin 12) {s : State} (es : Ev g0 s.hw) :
    OutEv g0 (execDesatReport pos s) := by
  unfold execDesatReport; with_reducible refine onHw_ev (fun {h} e => ?_) (by assumption)
  repeat' first
    | (with_reducible first | assumption | intro _ | apply ev_ite | apply onHw_ev | apply Hw.desatReport_ev)
    | (simp only [ev_mk, ev_fold]) | split | with_reducible apply foldl_ev | dsimp only

theorem Hw.gateUvlo_ev {g0 : Since} {h : Hw} (p : Nat) (neg : Bool) (mv : Int) (eh : Ev g0 h) :
    Ev g0 (Hw.gateUvlo h p neg mv) := by
  unfold Hw.gateUvlo
  repeat' first
    | (with_reducible first | assumption | intro _ | apply ev_ite | apply Hw.modGate_ev | apply Hw.clearFault_ev
                            | apply Hw.refreshSafe_ev | apply Hw.faultSafe_ev | apply Hw.raiseAs_ev)
    | (simp only [ev_mk, ev_fold]) | split | with_reducible apply foldl_ev | dsimp only

theorem execGateUvloReport_ev {g0 : Since} (pos : Fin 12) (neg : Bool) (mv : Int) {s : State} (es : Ev g0 s.hw) :
    OutEv g0 (execGateUvloReport pos neg mv s) := by
  unfold execGateUvloReport; with_reducible refine onHw_ev (fun {h} e => ?_) (by assumption)
  repeat' first
    | (with_reducible first | assumption | intro _ | apply ev_ite | apply onHw_ev | apply Hw.gateUvlo_ev)
    | (simp only [ev_mk, ev_fold]) | split | with_reducible apply foldl_ev | dsimp only

theorem Hw.gateOver_ev {g0 : Since} {h : Hw} (p : Nat) (neg : Bool) (mv : Int) (eh : Ev g0 h) :
    Ev g0 (Hw.gateOver h p neg mv) := by
  unfold Hw.gateOver
  repeat' first
    | (with_reducible first | assumption | intro _ | apply ev_ite | apply Hw.modGate_ev | apply Hw.clearFault_ev
                            | apply Hw.raiseOnce_ev)
    | (simp only [ev_mk, ev_fold]) | split | with_reducible apply foldl_ev | dsimp only

theorem execGateRailOvReport_ev {g0 : Since} (pos : Fin 12) (neg : Bool) (mv : Int) {s : State} (es : Ev g0 s.hw) :
    OutEv g0 (execGateRailOvReport pos neg mv s) := by
  unfold execGateRailOvReport; with_reducible refine onHw_ev (fun {h} e => ?_) (by assumption)
  repeat' first
    | (with_reducible first | assumption | intro _ | apply ev_ite | apply onHw_ev | apply Hw.gateOver_ev)
    | (simp only [ev_mk, ev_fold]) | split | with_reducible apply foldl_ev | dsimp only

theorem Hw.dieFault_ev {g0 : Since} {h : Hw} (f : FaultId) (p : Nat) (old bad : List Nat) (eh : Ev g0 h) :
    Ev g0 (Hw.dieFault h f p old bad) := by
  unfold Hw.dieFault
  repeat' first
    | (with_reducible first | assumption | intro _ | apply ev_ite | apply Hw.clearFault_ev | apply Hw.raiseAs_ev)
    | (simp only [ev_mk, ev_fold]) | split | with_reducible apply foldl_ev | dsimp only

theorem Hw.dieTemps_ev {g0 : Since} {h : Hw} (p : Nat) (raw : List (Option Int)) (eh : Ev g0 h) :
    Ev g0 (Hw.dieTemps h p raw) := by
  unfold Hw.dieTemps
  repeat' first
    | (with_reducible first | assumption | intro _ | apply ev_ite | apply Hw.rainflow_ev | apply Hw.modGate_ev
                            | apply Hw.dieFault_ev | apply Hw.faultSafe_ev | apply Hw.raiseAs_ev
                            | apply Hw.clearFault_ev)
    | (simp only [ev_mk, ev_fold]) | split | with_reducible apply foldl_ev | dsimp only

theorem execDieTempReport_ev {g0 : Since} (pos : Fin 12) (t0 t1 t2 t3 t4 t5 t6 t7 : Option Int) {s : State} (es : Ev g0 s.hw) :
    OutEv g0 (execDieTempReport pos t0 t1 t2 t3 t4 t5 t6 t7 s) := by
  unfold execDieTempReport; with_reducible refine onHw_ev (fun {h} e => ?_) (by assumption)
  repeat' first
    | (with_reducible first | assumption | intro _ | apply ev_ite | apply onHw_ev | apply Hw.dieTemps_ev)
    | (simp only [ev_mk, ev_fold]) | split | with_reducible apply foldl_ev | dsimp only

theorem Hw.bootLow_ev {g0 : Since} {h : Hw} (n : Nat) (mv : Int) (eh : Ev g0 h) : Ev g0 (Hw.bootLow h n mv) := by
  unfold Hw.bootLow
  repeat' first
    | (with_reducible first | assumption | intro _ | apply ev_ite | apply Hw.count_ev | apply Hw.occur_ev)
    | (simp only [ev_mk, ev_fold]) | split | with_reducible apply foldl_ev | dsimp only

theorem execBootLowReport_ev {g0 : Since} (leg : Fin 64) (mv : Int) {s : State} (es : Ev g0 s.hw) :
    OutEv g0 (execBootLowReport leg mv s) := by
  unfold execBootLowReport; with_reducible refine onHw_ev (fun {h} e => ?_) (by assumption)
  repeat' first
    | (with_reducible first | assumption | intro _ | apply ev_ite | apply onHw_ev | apply Hw.bootLow_ev)
    | (simp only [ev_mk, ev_fold]) | split | with_reducible apply foldl_ev | dsimp only

theorem Hw.bootDrive_ev {g0 : Since} {h : Hw} (i : Nat) (eh : Ev g0 h) : Ev g0 (Hw.bootDrive h i) := by
  unfold Hw.bootDrive
  repeat' first
    | (with_reducible first | assumption | intro _ | apply ev_ite | apply Hw.modDrive_ev | apply Hw.occurThen_ev
                            | apply Hw.endDrive_ev)
    | (simp only [ev_mk, ev_fold]) | split | with_reducible apply foldl_ev | dsimp only

theorem Hw.lockConv_ev {g0 : Since} {h : Hw} (n : Nat) (on : Bool) (eh : Ev g0 h) : Ev g0 (Hw.lockConv h n on) := by
  unfold Hw.lockConv
  repeat' first
    | (with_reducible first | assumption | intro _ | apply ev_ite)
    | (simp only [ev_mk, ev_fold]) | split | with_reducible apply foldl_ev | dsimp only

theorem Hw.lockAct_ev {g0 : Since} {h : Hw} (n : Nat) (on : Bool) (eh : Ev g0 h) : Ev g0 (Hw.lockAct h n on) := by
  unfold Hw.lockAct
  repeat' first
    | (with_reducible first | assumption | intro _ | apply ev_ite)
    | (simp only [ev_mk, ev_fold]) | split | with_reducible apply foldl_ev | dsimp only

theorem Hw.bootUvlo_ev {g0 : Since} {h : Hw} (n : Nat) (mv : Int) (eh : Ev g0 h) : Ev g0 (Hw.bootUvlo h n mv) := by
  unfold Hw.bootUvlo
  repeat' first
    | (with_reducible first | assumption | intro _ | apply ev_ite | apply Hw.raiseOnce_ev | apply Hw.clearFault_ev
                            | apply Hw.lockConv_ev | apply Hw.lockAct_ev | apply Hw.bootDrive_ev)
    | (simp only [ev_mk, ev_fold]) | split | with_reducible apply foldl_ev | dsimp only

theorem execBootUvloReport_ev {g0 : Since} (leg : Fin 64) (mv : Int) {s : State} (es : Ev g0 s.hw) :
    OutEv g0 (execBootUvloReport leg mv s) := by
  unfold execBootUvloReport; with_reducible refine onHw_ev (fun {h} e => ?_) (by assumption)
  repeat' first
    | (with_reducible first | assumption | intro _ | apply ev_ite | apply onHw_ev | apply Hw.bootUvlo_ev)
    | (simp only [ev_mk, ev_fold]) | split | with_reducible apply foldl_ev | dsimp only

theorem Hw.ascTimeout_ev {g0 : Since} {h : Hw} (b : Bridge) (eh : Ev g0 h) : Ev g0 (Hw.ascTimeout h b) := by
  unfold Hw.ascTimeout
  repeat' first
    | (with_reducible first | assumption | intro _ | apply ev_ite | apply Hw.modGate_ev | apply Hw.refreshSafe_ev)
    | (simp only [ev_mk, ev_fold]) | split | with_reducible apply foldl_ev | dsimp only

theorem execAscArmTimeout_ev {g0 : Since} (b : Bridge) {s : State} (es : Ev g0 s.hw) :
    OutEv g0 (execAscArmTimeout b s) := by
  unfold execAscArmTimeout; with_reducible refine onHw_ev (fun {h} e => ?_) (by assumption)
  repeat' first
    | (with_reducible first | assumption | intro _ | apply ev_ite | apply onHw_ev | apply Hw.ascTimeout_ev)
    | (simp only [ev_mk, ev_fold]) | split | with_reducible apply foldl_ev | dsimp only

theorem Hw.comparatorFail_ev {g0 : Since} {h : Hw} (src : Byte) (arg : W32) (eh : Ev g0 h) :
    Ev g0 (Hw.comparatorFail h src arg) := by
  unfold Hw.comparatorFail
  repeat' first
    | (with_reducible first | assumption | intro _ | apply ev_ite | apply Hw.modGate_ev | apply Hw.raiseAs_ev)
    | (simp only [ev_mk, ev_fold]) | split | with_reducible apply foldl_ev | dsimp only

theorem execUvloComparator_ev {g0 : Since} (pos : Fin 12) (neg pass : Bool) {s : State} (es : Ev g0 s.hw) :
    OutEv g0 (execUvloComparator pos neg pass s) := by
  unfold execUvloComparator; with_reducible refine onHw_ev (fun {h} e => ?_) (by assumption)
  repeat' first
    | (with_reducible first | assumption | intro _ | apply ev_ite | apply onHw_ev | apply Hw.comparatorFail_ev)
    | (simp only [ev_mk, ev_fold]) | split | with_reducible apply foldl_ev | dsimp only

theorem Hw.setAcc_ev {g0 : Since} {h : Hw} (n : Nat) (a : Acc) (eh : Ev g0 h) : Ev g0 (Hw.setAcc h n a) := by
  unfold Hw.setAcc
  repeat' first
    | (with_reducible first | assumption | intro _ | apply ev_ite)
    | (simp only [ev_mk, ev_fold]) | split | with_reducible apply foldl_ev | dsimp only

theorem Hw.unlessCamp_ev {g0 : Since} {h : Hw} (q : Req) (own : Hw → Hw) (eh : Ev g0 h)
     (eown : ∀ {x : Hw}, Ev g0 x → Ev g0 (own x)) :
    Ev g0 (Hw.unlessCamp h q own) := by
  unfold Hw.unlessCamp
  repeat' first
    | (with_reducible first | assumption | intro _ | apply ev_ite | apply eown | apply Hw.complete_ev)
    | (simp only [ev_mk, ev_fold]) | split | with_reducible apply foldl_ev | dsimp only

theorem Hw.accSet_ev {g0 : Since} {h : Hw} (d : Desc) (q : Req) (eh : Ev g0 h) : Ev g0 (Hw.accSet h d q) := by
  unfold Hw.accSet
  repeat' first
    | (with_reducible first | assumption | intro _ | apply ev_ite | apply Hw.complete_ev | apply Hw.setAcc_ev)
    | (simp only [ev_mk, ev_fold]) | split | with_reducible apply foldl_ev | dsimp only

theorem execAccSet_ev {g0 : Since} (d : Desc) {s : State} (es : Ev g0 s.hw) : OutEv g0 (execAccSet d s) := by
  unfold execAccSet; with_reducible refine onHw_ev (fun {h} e => ?_) (by assumption)
  repeat' first
    | (with_reducible first | assumption | intro _ | apply ev_ite | apply onHw_ev | apply Hw.descriptor_ev
                            | apply Hw.unlessCamp_ev | apply Hw.accSet_ev)
    | (simp only [ev_mk, ev_fold]) | split | with_reducible apply foldl_ev | dsimp only

theorem Hw.analogPos_ev {g0 : Since} {h : Hw} (i : Nat) (mv : Int) (eh : Ev g0 h) : Ev g0 (Hw.analogPos h i mv) := by
  unfold Hw.analogPos
  repeat' first
    | (with_reducible first | assumption | intro _ | apply ev_ite | apply Hw.posInvalid_ev | apply Hw.posGood_ev
                            | apply Hw.seePosition_ev)
    | (simp only [ev_mk, ev_fold]) | split | with_reducible apply foldl_ev | dsimp only

theorem Hw.takeReading_ev {g0 : Since} {h : Hw} (i : Nat) (x : Int) (eh : Ev g0 h) :
    Ev g0 (Hw.takeReading h i x) := by
  unfold Hw.takeReading
  repeat' first
    | (with_reducible first | assumption | intro _ | apply ev_ite | apply Hw.setVdc_ev | apply Hw.actVs_ev
                            | apply Hw.obcHeat_ev | apply Hw.analogPos_ev)
    | (simp only [ev_mk, ev_fold]) | split | with_reducible apply foldl_ev | dsimp only

theorem Hw.accClose_ev {g0 : Since} {h : Hw} (n : Nat) (samples : List Sample) (eh : Ev g0 h) :
    Ev g0 (Hw.accClose h n samples) := by
  unfold Hw.accClose
  repeat' first
    | (with_reducible first | assumption | intro _ | apply ev_ite | apply Hw.setAcc_ev | apply Hw.count_ev
                            | apply Hw.takeReading_ev | apply Hw.occur_ev)
    | (simp only [ev_mk, ev_fold]) | split | with_reducible apply foldl_ev | dsimp only

theorem execAccWindowClose_ev {g0 : Since} (acc : Fin 128) (samples : List Sample) {s : State} (es : Ev g0 s.hw) :
    OutEv g0 (execAccWindowClose acc samples s) := by
  unfold execAccWindowClose; with_reducible refine onHw_ev (fun {h} e => ?_) (by assumption)
  repeat' first
    | (with_reducible first | assumption | intro _ | apply ev_ite | apply onHw_ev | apply Hw.accClose_ev)
    | (simp only [ev_mk, ev_fold]) | split | with_reducible apply foldl_ev | dsimp only

theorem Hw.abortConversion_ev {g0 : Since} {h : Hw} (use : PairUse) (eh : Ev g0 h) :
    Ev g0 (Hw.abortConversion h use) := by
  unfold Hw.abortConversion
  repeat' first
    | (with_reducible first | assumption | intro _ | apply ev_ite | apply Hw.setAcc_ev | apply Hw.count_ev)
    | (simp only [ev_mk, ev_fold]) | split | with_reducible apply foldl_ev | dsimp only

theorem Hw.burstFor_ev {g0 : Since} {h : Hw} (input : Nat) (eh : Ev g0 h) : Ev g0 (Hw.burstFor h input) := by
  unfold Hw.burstFor
  repeat' first
    | (with_reducible first | assumption | intro _ | apply ev_ite)
    | (simp only [ev_mk, ev_fold]) | split | with_reducible apply foldl_ev | dsimp only

theorem Hw.urgent_ev {g0 : Since} {h : Hw} (input : Nat) (uses : List PairUse) (eh : Ev g0 h) :
    Ev g0 (Hw.urgent h input uses) := by
  unfold Hw.urgent
  repeat' first
    | (with_reducible first | assumption | intro _ | apply ev_ite | apply Hw.count_ev | apply Hw.occur_ev
                            | apply Hw.abortConversion_ev | apply Hw.burstFor_ev)
    | (simp only [ev_mk, ev_fold]) | split | with_reducible apply foldl_ev | dsimp only

theorem execUrgentRequest_ev {g0 : Since} (input : Fin 96) (p12 p13 p14 p15 : PairUse) {s : State} (es : Ev g0 s.hw) :
    OutEv g0 (execUrgentRequest input p12 p13 p14 p15 s) := by
  unfold execUrgentRequest; with_reducible refine onHw_ev (fun {h} e => ?_) (by assumption)
  repeat' first
    | (with_reducible first | assumption | intro _ | apply ev_ite | apply onHw_ev | apply Hw.urgent_ev)
    | (simp only [ev_mk, ev_fold]) | split | with_reducible apply foldl_ev | dsimp only

theorem Hw.matchPair_ev {g0 : Since} {h : Hw} (p : Nat) (off gain : Int) (eh : Ev g0 h) :
    Ev g0 (Hw.matchPair h p off gain) := by
  unfold Hw.matchPair
  repeat' first
    | (with_reducible first | assumption | intro _ | apply ev_ite | apply Hw.raiseOnce_ev)
    | (simp only [ev_mk, ev_fold]) | split | with_reducible apply foldl_ev | dsimp only

theorem execInterleaveMatch_ev {g0 : Since} (pair : Fin 16) (offsetTrim gainTrim : Int) {s : State} (es : Ev g0 s.hw) :
    OutEv g0 (execInterleaveMatch pair offsetTrim gainTrim s) := by
  unfold execInterleaveMatch; with_reducible refine onHw_ev (fun {h} e => ?_) (by assumption)
  repeat' first
    | (with_reducible first | assumption | intro _ | apply ev_ite | apply onHw_ev | apply Hw.matchPair_ev)
    | (simp only [ev_mk, ev_fold]) | split | with_reducible apply foldl_ev | dsimp only

theorem Hw.modTest_ev {g0 : Since} {h : Hw} (id inst : Nat) (f : TestRun → TestRun) (eh : Ev g0 h) :
    Ev g0 (Hw.modTest h id inst f) := by
  unfold Hw.modTest
  repeat' first
    | (with_reducible first | assumption | intro _ | apply ev_ite)
    | (simp only [ev_mk, ev_fold]) | split | with_reducible apply foldl_ev | dsimp only

theorem Hw.endTest_ev {g0 : Since} {h : Hw} (id inst : Nat) (st : Status) (eh : Ev g0 h) :
    Ev g0 (Hw.endTest h id inst st) := by
  unfold Hw.endTest
  repeat' first
    | (with_reducible first | assumption | intro _ | apply ev_ite | apply Hw.completeOpt_ev)
    | (simp only [ev_mk, ev_fold]) | split | with_reducible apply foldl_ev | dsimp only

theorem Hw.stepTest_ev {g0 : Since} {h : Hw} (id inst last : Nat) (eh : Ev g0 h) :
    Ev g0 (Hw.stepTest h id inst last) := by
  unfold Hw.stepTest
  repeat' first
    | (with_reducible first | assumption | intro _ | apply ev_ite | apply Hw.modTest_ev | apply Hw.count_ev
                            | apply Hw.endTest_ev)
    | (simp only [ev_mk, ev_fold]) | split | with_reducible apply foldl_ev | dsimp only

theorem Hw.offsetRun_ev {g0 : Since} {h : Hw} (b : Bridge) (eh : Ev g0 h) : Ev g0 (Hw.offsetRun h b) := by
  unfold Hw.offsetRun
  repeat' first
    | (with_reducible first | assumption | intro _ | apply ev_ite)
    | (simp only [ev_mk, ev_fold]) | split | with_reducible apply foldl_ev | dsimp only

theorem Hw.offsetStart_ev {g0 : Since} {h : Hw} (b : Bridge) (eh : Ev g0 h) : Ev g0 (Hw.offsetStart h b) := by
  unfold Hw.offsetStart
  repeat' first
    | (with_reducible first | assumption | intro _ | apply ev_ite | apply Hw.offsetRun_ev)
    | (simp only [ev_mk, ev_fold]) | split | with_reducible apply foldl_ev | dsimp only

theorem execOffsetTrackStart_ev {g0 : Since} (b : Bridge) {s : State} (es : Ev g0 s.hw) :
    OutEv g0 (execOffsetTrackStart b s) := by
  unfold execOffsetTrackStart; with_reducible refine onHw_ev (fun {h} e => ?_) (by assumption)
  repeat' first
    | (with_reducible first | assumption | intro _ | apply ev_ite | apply onHw_ev | apply Hw.offsetStart_ev)
    | (simp only [ev_mk, ev_fold]) | split | with_reducible apply foldl_ev | dsimp only

theorem Hw.offsetDone_ev {g0 : Since} {h : Hw} (b : Bridge) (phases : List (List Int)) (idc : List (Int × Bool))
     (eh : Ev g0 h) :
    Ev g0 (Hw.offsetDone h b phases idc) := by
  unfold Hw.offsetDone
  repeat' first
    | (with_reducible first | assumption | intro _ | apply ev_ite | apply Hw.stepTest_ev | apply Hw.offsetRun_ev)
    | (simp only [ev_mk, ev_fold]) | split | with_reducible apply foldl_ev | dsimp only

theorem execOffsetTrackDone_ev {g0 : Since} (b : Bridge) (u v w : List Int) (idc : List (Int × Bool)) {s : State} (es : Ev g0 s.hw) :
    OutEv g0 (execOffsetTrackDone b u v w idc s) := by
  unfold execOffsetTrackDone; with_reducible refine onHw_ev (fun {h} e => ?_) (by assumption)
  repeat' first
    | (with_reducible first | assumption | intro _ | apply ev_ite | apply onHw_ev | apply Hw.offsetDone_ev)
    | (simp only [ev_mk, ev_fold]) | split | with_reducible apply foldl_ev | dsimp only

theorem Hw.trackGain_ev {g0 : Since} {h : Hw} (leg : Nat) (fit : Int) (eh : Ev g0 h) :
    Ev g0 (Hw.trackGain h leg fit) := by
  unfold Hw.trackGain
  repeat' first
    | (with_reducible first | assumption | intro _ | apply ev_ite | apply Hw.raiseOnce_ev)
    | (simp only [ev_mk, ev_fold]) | split | with_reducible apply foldl_ev | dsimp only

theorem Hw.gainFit_ev {g0 : Since} {h : Hw} (ws : List GainWindow) (eh : Ev g0 h) : Ev g0 (Hw.gainFit h ws) := by
  unfold Hw.gainFit
  repeat' first
    | (with_reducible first | assumption | intro _ | apply ev_ite | apply Hw.trackGain_ev | apply Hw.modFus_ev
                            | apply Hw.drawn_ev)
    | (simp only [ev_mk, ev_fold]) | split | with_reducible apply foldl_ev | dsimp only

theorem execGainTrackFit_ev {g0 : Since} (windows : List GainWindow) {s : State} (es : Ev g0 s.hw) :
    OutEv g0 (execGainTrackFit windows s) := by
  unfold execGainTrackFit; with_reducible refine onHw_ev (fun {h} e => ?_) (by assumption)
  repeat' first
    | (with_reducible first | assumption | intro _ | apply ev_ite | apply onHw_ev | apply Hw.gainFit_ev)
    | (simp only [ev_mk, ev_fold]) | split | with_reducible apply foldl_ev | dsimp only

theorem Hw.calPoint_ev {g0 : Since} {h : Hw} (b : Bridge) (point : Nat) (eh : Ev g0 h) :
    Ev g0 (Hw.calPoint h b point) := by
  unfold Hw.calPoint
  repeat' first
    | (with_reducible first | assumption | intro _ | apply ev_ite | apply Hw.postEvent_ev)
    | (simp only [ev_mk, ev_fold]) | split | with_reducible apply foldl_ev | dsimp only

theorem Hw.calTo_ev {g0 : Since} {h : Hw} (c : Cal) (point : Nat) (eh : Ev g0 h) : Ev g0 (Hw.calTo h c point) := by
  unfold Hw.calTo
  repeat' first
    | (with_reducible first | assumption | intro _ | apply ev_ite)
    | (simp only [ev_mk, ev_fold]) | split | with_reducible apply foldl_ev | dsimp only

theorem Hw.calStart_ev {g0 : Since} {h : Hw} (b : Bridge) (both : Bool) (eh : Ev g0 h) :
    Ev g0 (Hw.calStart h b both) := by
  unfold Hw.calStart
  repeat' first
    | (with_reducible first | assumption | intro _ | apply ev_ite | apply Hw.setPattern_ev | apply Hw.calTo_ev
                            | apply Hw.calPoint_ev)
    | (simp only [ev_mk, ev_fold]) | split | with_reducible apply foldl_ev | dsimp only

theorem Hw.calMeans_ev {g0 : Since} {h : Hw} (means : List Int) (gatedPhase gatedShunt : Int) (eh : Ev g0 h) :
    Ev g0 (Hw.calMeans h means gatedPhase gatedShunt) := by
  unfold Hw.calMeans
  repeat' first
    | (with_reducible first | assumption | intro _ | apply ev_ite | apply Hw.calTo_ev | apply Hw.postEvent_ev
                            | apply Hw.calPoint_ev)
    | (simp only [ev_mk, ev_fold]) | split | with_reducible apply foldl_ev | dsimp only

theorem execCalAccumulationDone_ev {g0 : Since} (means : List Int) (gatedPhase gatedShunt : Int) {s : State} (es : Ev g0 s.hw) :
    OutEv g0 (execCalAccumulationDone means gatedPhase gatedShunt s) := by
  unfold execCalAccumulationDone; with_reducible refine onHw_ev (fun {h} e => ?_) (by assumption)
  repeat' first
    | (with_reducible first | assumption | intro _ | apply ev_ite | apply onHw_ev | apply Hw.calMeans_ev)
    | (simp only [ev_mk, ev_fold]) | split | with_reducible apply foldl_ev | dsimp only

theorem Hw.calResult_ev {g0 : Since} {h : Hw} (c : Cal) (bad : Option Nat) (eh : Ev g0 h) :
    Ev g0 (Hw.calResult h c bad) := by
  unfold Hw.calResult
  repeat' first
    | (with_reducible first | assumption | intro _ | apply ev_ite | apply Hw.postEvent_ev)
    | (simp only [ev_mk, ev_fold]) | split | with_reducible apply foldl_ev | dsimp only

theorem Hw.calFinish_ev {g0 : Since} {h : Hw} (c : Cal) (eh : Ev g0 h) : Ev g0 (Hw.calFinish h c) := by
  unfold Hw.calFinish
  repeat' first
    | (with_reducible first | assumption | intro _ | apply ev_ite | apply Hw.trimSkew_ev | apply Hw.calResult_ev
                            | apply Hw.endTest_ev | apply Hw.raiseAs_ev | apply Hw.applySyscal_ev
                            | apply Hw.calStart_ev)
    | (simp only [ev_mk, ev_fold]) | split | with_reducible apply foldl_ev | dsimp only

theorem Hw.calReference_ev {g0 : Since} {h : Hw} (d : Desc) (q : Req) (eh : Ev g0 h) :
    Ev g0 (Hw.calReference h d q) := by
  unfold Hw.calReference
  repeat' first
    | (with_reducible first | assumption | intro _ | apply ev_ite | apply Hw.complete_ev | apply Hw.calTo_ev
                            | apply Hw.calFinish_ev)
    | (simp only [ev_mk, ev_fold]) | split | with_reducible apply foldl_ev | dsimp only

theorem execCalReference_ev {g0 : Since} (d : Desc) {s : State} (es : Ev g0 s.hw) :
    OutEv g0 (execCalReference d s) := by
  unfold execCalReference; with_reducible refine onHw_ev (fun {h} e => ?_) (by assumption)
  repeat' first
    | (with_reducible first | assumption | intro _ | apply ev_ite | apply onHw_ev | apply Hw.descriptor_ev
                            | apply Hw.unlessCamp_ev | apply Hw.calReference_ev)
    | (simp only [ev_mk, ev_fold]) | split | with_reducible apply foldl_ev | dsimp only

theorem Hw.calTimeout_ev {g0 : Since} {h : Hw} (eh : Ev g0 h) : Ev g0 (Hw.calTimeout h) := by
  unfold Hw.calTimeout
  repeat' first
    | (with_reducible first | assumption | intro _ | apply ev_ite | apply Hw.endTest_ev)
    | (simp only [ev_mk, ev_fold]) | split | with_reducible apply foldl_ev | dsimp only

theorem execCalReferenceTimeout_ev {g0 : Since} {s : State} (es : Ev g0 s.hw) :
    OutEv g0 (execCalReferenceTimeout s) := by
  unfold execCalReferenceTimeout; with_reducible refine onHw_ev (fun {h} e => ?_) (by assumption)
  repeat' first
    | (with_reducible first | assumption | intro _ | apply ev_ite | apply onHw_ev | apply Hw.calTimeout_ev)
    | (simp only [ev_mk, ev_fold]) | split | with_reducible apply foldl_ev | dsimp only

theorem Hw.setMon_ev {g0 : Since} {h : Hw} (n : Nat) (m : Monitor) (eh : Ev g0 h) : Ev g0 (Hw.setMon h n m) := by
  unfold Hw.setMon
  repeat' first
    | (with_reducible first | assumption | intro _ | apply ev_ite)
    | (simp only [ev_mk, ev_fold]) | split | with_reducible apply foldl_ev | dsimp only

theorem Hw.monSet_ev {g0 : Since} {h : Hw} (d : Desc) (q : Req) (eh : Ev g0 h) : Ev g0 (Hw.monSet h d q) := by
  unfold Hw.monSet
  repeat' first
    | (with_reducible first | assumption | intro _ | apply ev_ite | apply Hw.setMon_ev | apply Hw.complete_ev)
    | (simp only [ev_mk, ev_fold]) | split | with_reducible apply foldl_ev | dsimp only

theorem execMonSet_ev {g0 : Since} (d : Desc) {s : State} (es : Ev g0 s.hw) : OutEv g0 (execMonSet d s) := by
  unfold execMonSet; with_reducible refine onHw_ev (fun {h} e => ?_) (by assumption)
  repeat' first
    | (with_reducible first | assumption | intro _ | apply ev_ite | apply onHw_ev | apply Hw.descriptor_ev
                            | apply Hw.unlessCamp_ev | apply Hw.monSet_ev)
    | (simp only [ev_mk, ev_fold]) | split | with_reducible apply foldl_ev | dsimp only

theorem Hw.monClear_ev {g0 : Since} {h : Hw} (d : Desc) (q : Req) (eh : Ev g0 h) : Ev g0 (Hw.monClear h d q) := by
  unfold Hw.monClear
  repeat' first
    | (with_reducible first | assumption | intro _ | apply ev_ite | apply Hw.complete_ev | apply Hw.setMon_ev)
    | (simp only [ev_mk, ev_fold]) | split | with_reducible apply foldl_ev | dsimp only

theorem execMonClear_ev {g0 : Since} (d : Desc) {s : State} (es : Ev g0 s.hw) : OutEv g0 (execMonClear d s) := by
  unfold execMonClear; with_reducible refine onHw_ev (fun {h} e => ?_) (by assumption)
  repeat' first
    | (with_reducible first | assumption | intro _ | apply ev_ite | apply onHw_ev | apply Hw.descriptor_ev
                            | apply Hw.unlessCamp_ev | apply Hw.monClear_ev)
    | (simp only [ev_mk, ev_fold]) | split | with_reducible apply foldl_ev | dsimp only

theorem Hw.monSafe_ev {g0 : Since} {h : Hw} (n base : Nat) (eh : Ev g0 h) : Ev g0 (Hw.monSafe h n base) := by
  unfold Hw.monSafe
  repeat' first
    | (with_reducible first | assumption | intro _ | apply ev_ite | apply Hw.count_ev | apply Hw.occurThen_ev
                            | apply Hw.faultSafe_ev)
    | (simp only [ev_mk, ev_fold]) | split | with_reducible apply foldl_ev | dsimp only

theorem Hw.fire_ev {g0 : Since} {h : Hw} (n pwm : Nat) (eh : Ev g0 h) : Ev g0 (Hw.fire h n pwm) := by
  unfold Hw.fire
  repeat' first
    | (with_reducible first | assumption | intro _ | apply ev_ite | apply Hw.setMon_ev | apply Hw.monSafe_ev)
    | (simp only [ev_mk, ev_fold]) | split | with_reducible apply foldl_ev | dsimp only

theorem Hw.crossing_ev {g0 : Since} {h : Hw} (n : Nat) (level : Int) (pwm : Nat) (eh : Ev g0 h) :
    Ev g0 (Hw.crossing h n level pwm) := by
  unfold Hw.crossing
  repeat' first
    | (with_reducible first | assumption | intro _ | apply ev_ite | apply Hw.setMon_ev | apply Hw.fire_ev)
    | (simp only [ev_mk, ev_fold]) | split | with_reducible apply foldl_ev | dsimp only

theorem execMonitorCrossing_ev {g0 : Since} (mon : Fin 52) (level : Int) (pwmCount : Nat) {s : State} (es : Ev g0 s.hw) :
    OutEv g0 (execMonitorCrossing mon level pwmCount s) := by
  unfold execMonitorCrossing; with_reducible refine onHw_ev (fun {h} e => ?_) (by assumption)
  repeat' first
    | (with_reducible first | assumption | intro _ | apply ev_ite | apply onHw_ev | apply Hw.crossing_ev)
    | (simp only [ev_mk, ev_fold]) | split | with_reducible apply foldl_ev | dsimp only

theorem Hw.wakeTest_ev {g0 : Since} {h : Hw} (n : Nat) (pass : Bool) (eh : Ev g0 h) :
    Ev g0 (Hw.wakeTest h n pass) := by
  unfold Hw.wakeTest
  repeat' first
    | (with_reducible first | assumption | intro _ | apply ev_ite | apply Hw.raiseAs_ev)
    | (simp only [ev_mk, ev_fold]) | split | with_reducible apply foldl_ev | dsimp only

theorem Hw.comparatorTest_ev {g0 : Since} {h : Hw} (n : Nat) (pass : Bool) (eh : Ev g0 h) :
    Ev g0 (Hw.comparatorTest h n pass) := by
  unfold Hw.comparatorTest
  repeat' first
    | (with_reducible first | assumption | intro _ | apply ev_ite | apply Hw.wakeTest_ev | apply Hw.setMon_ev
                            | apply Hw.raiseAs_ev)
    | (simp only [ev_mk, ev_fold]) | split | with_reducible apply foldl_ev | dsimp only

theorem execMonitorComparatorTest_ev {g0 : Since} (mon : Fin 52) (agreed toggled : Bool) {s : State} (es : Ev g0 s.hw) :
    OutEv g0 (execMonitorComparatorTest mon agreed toggled s) := by
  unfold execMonitorComparatorTest; with_reducible refine onHw_ev (fun {h} e => ?_) (by assumption)
  repeat' first
    | (with_reducible first | assumption | intro _ | apply ev_ite | apply onHw_ev | apply Hw.comparatorTest_ev)
    | (simp only [ev_mk, ev_fold]) | split | with_reducible apply foldl_ev | dsimp only

theorem Hw.reference_ev {g0 : Since} {h : Hw} (pass : Bool) (eh : Ev g0 h) : Ev g0 (Hw.reference h pass) := by
  unfold Hw.reference
  repeat' first
    | (with_reducible first | assumption | intro _ | apply ev_ite | apply Hw.clearFault_ev | apply Hw.raiseOnce_ev)
    | (simp only [ev_mk, ev_fold]) | split | with_reducible apply foldl_ev | dsimp only

theorem execReferenceCheck_ev {g0 : Since} (pass : Bool) {s : State} (es : Ev g0 s.hw) :
    OutEv g0 (execReferenceCheck pass s) := by
  unfold execReferenceCheck; with_reducible refine onHw_ev (fun {h} e => ?_) (by assumption)
  repeat' first
    | (with_reducible first | assumption | intro _ | apply ev_ite | apply onHw_ev | apply Hw.reference_ev)
    | (simp only [ev_mk, ev_fold]) | split | with_reducible apply foldl_ev | dsimp only

theorem Hw.startIdent_ev {g0 : Since} {h : Hw} (b : Bridge) (eh : Ev g0 h) : Ev g0 (Hw.startIdent h b) := by
  unfold Hw.startIdent
  repeat' first
    | (with_reducible first | assumption | intro _ | apply ev_ite | apply Hw.modCtl_ev)
    | (simp only [ev_mk, ev_fold]) | split | with_reducible apply foldl_ev | dsimp only

theorem Hw.testBegin_ev {g0 : Since} {h : Hw} (id inst : Nat) (eh : Ev g0 h) : Ev g0 (Hw.testBegin h id inst) := by
  unfold Hw.testBegin
  repeat' first
    | (with_reducible first | assumption | intro _ | apply ev_ite | apply Hw.offsetRun_ev | apply Hw.calStart_ev
                            | apply Hw.modRes_ev | apply Hw.startIdent_ev | apply Hw.postEvent_ev
                            | apply Hw.modGate_ev)
    | (simp only [ev_mk, ev_fold]) | split | with_reducible apply foldl_ev | dsimp only

theorem Hw.testAccept_ev {g0 : Since} {h : Hw} (d : Desc) (q : Req) (eh : Ev g0 h) : Ev g0 (Hw.testAccept h d q) := by
  unfold Hw.testAccept
  repeat' first
    | (with_reducible first | assumption | intro _ | apply ev_ite | apply Hw.testBegin_ev)
    | (simp only [ev_mk, ev_fold]) | split | with_reducible apply foldl_ev | dsimp only

theorem execTestRequest_ev {g0 : Since} (d : Desc) {s : State} (es : Ev g0 s.hw) :
    OutEv g0 (execTestRequest d s) := by
  unfold execTestRequest; with_reducible refine onHw_ev (fun {h} e => ?_) (by assumption)
  repeat' first
    | (with_reducible first | assumption | intro _ | apply ev_ite | apply onHw_ev | apply Hw.descriptor_ev
                            | apply Hw.complete_ev | apply Hw.testAccept_ev)
    | (simp only [ev_mk, ev_fold]) | split | with_reducible apply foldl_ev | dsimp only

theorem Hw.testFault_ev {g0 : Since} {h : Hw} (id inst : Nat) (eh : Ev g0 h) : Ev g0 (Hw.testFault h id inst) := by
  unfold Hw.testFault
  repeat' first
    | (with_reducible first | assumption | intro _ | apply ev_ite | apply Hw.comparatorFail_ev | apply Hw.raiseOnce_ev
                            | apply Hw.isoswFailed_ev | apply Hw.cellOut_ev | apply Hw.occur_ev)
    | (simp only [ev_mk, ev_fold]) | split | with_reducible apply foldl_ev | dsimp only

theorem Hw.identValues_ev {g0 : Since} {h : Hw} (id : Nat) (b : Bridge) (r : IdentResult) (eh : Ev g0 h) :
    Ev g0 (Hw.identValues h id b r) := by
  unfold Hw.identValues
  repeat' first
    | (with_reducible first | assumption | intro _ | apply ev_ite | apply Hw.paramWait_ev | apply Hw.modEnc_ev)
    | (simp only [ev_mk, ev_fold]) | split | with_reducible apply foldl_ev | dsimp only

theorem Hw.identEvent_ev {g0 : Since} {h : Hw} (id : Nat) (b : Bridge) (bad : Bool) (r : IdentResult) (eh : Ev g0 h) :
    Ev g0 (Hw.identEvent h id b bad r) := by
  unfold Hw.identEvent
  repeat' first
    | (with_reducible first | assumption | intro _ | apply ev_ite | apply Hw.postEvent_ev)
    | (simp only [ev_mk, ev_fold]) | split | with_reducible apply foldl_ev | dsimp only

theorem Hw.harmLearned_ev {g0 : Since} {h : Hw} (r : Nat) (l : Learn) (eh : Ev g0 h) :
    Ev g0 (Hw.harmLearned h r l) := by
  unfold Hw.harmLearned
  repeat' first
    | (with_reducible first | assumption | intro _ | apply ev_ite | apply Hw.modRes_ev | apply Hw.postEvent_ev)
    | (simp only [ev_mk, ev_fold]) | split | with_reducible apply foldl_ev | dsimp only

theorem Hw.testPassed_ev {g0 : Since} {h : Hw} (id inst : Nat) (d : IdentData) (w : List (Nat × W32)) (eh : Ev g0 h) :
    Ev g0 (Hw.testPassed h id inst d w) := by
  unfold Hw.testPassed
  repeat' first
    | (with_reducible first | assumption | intro _ | apply ev_ite | apply Hw.harmLearned_ev | apply Hw.identValues_ev
                            | apply Hw.identEvent_ev | apply Hw.endIdent_ev | apply Hw.trimSkew_ev)
    | (simp only [ev_mk, ev_fold]) | split | with_reducible apply foldl_ev | dsimp only

theorem Hw.testRejected_ev {g0 : Since} {h : Hw} (id inst : Nat) (d : IdentData) (w : List (Nat × W32))
     (eh : Ev g0 h) :
    Ev g0 (Hw.testRejected h id inst d w) := by
  unfold Hw.testRejected
  repeat' first
    | (with_reducible first | assumption | intro _ | apply ev_ite | apply Hw.identEvent_ev | apply Hw.endIdent_ev
                            | apply Hw.occur_ev | apply Hw.modRes_ev)
    | (simp only [ev_mk, ev_fold]) | split | with_reducible apply foldl_ev | dsimp only

theorem Hw.testEnd_ev {g0 : Since} {h : Hw} (id inst : Nat) (out : TestOutcome) (d : IdentData) (w : List
     (Nat × W32)) (eh : Ev g0 h) :
    Ev g0 (Hw.testEnd h id inst out d w) := by
  unfold Hw.testEnd
  repeat' first
    | (with_reducible first | assumption | intro _ | apply ev_ite | apply Hw.testPassed_ev | apply Hw.stepTest_ev
                            | apply Hw.testBegin_ev | apply Hw.testRejected_ev | apply Hw.endTest_ev
                            | apply Hw.endIdent_ev | apply Hw.testFault_ev)
    | (simp only [ev_mk, ev_fold]) | split | with_reducible apply foldl_ev | dsimp only

theorem Hw.testComplete_ev {g0 : Since} {h : Hw} (id inst : Nat) (out : TestOutcome) (d : IdentData) (eh : Ev g0 h) :
    Ev g0 (Hw.testComplete h id inst out d) := by
  unfold Hw.testComplete
  repeat' first
    | (with_reducible first | assumption | intro _ | apply ev_ite | apply Hw.testEnd_ev)
    | (simp only [ev_mk, ev_fold]) | split | with_reducible apply foldl_ev | dsimp only

theorem execTestComplete_ev {g0 : Since} (testId : W16) (inst : Byte) (outcome : TestOutcome) (data : IdentData) {s : State} (es : Ev g0 s.hw) :
    OutEv g0 (execTestComplete testId inst outcome data s) := by
  unfold execTestComplete; with_reducible refine onHw_ev (fun {h} e => ?_) (by assumption)
  repeat' first
    | (with_reducible first | assumption | intro _ | apply ev_ite | apply onHw_ev | apply Hw.testComplete_ev)
    | (simp only [ev_mk, ev_fold]) | split | with_reducible apply foldl_ev | dsimp only

theorem Hw.resumeGap_ev {g0 : Since} {h : Hw} (b : Bridge) (eh : Ev g0 h) : Ev g0 (Hw.resumeGap h b) := by
  unfold Hw.resumeGap
  repeat' first
    | (with_reducible first | assumption | intro _ | apply ev_ite | apply Hw.modCtl_ev)
    | (simp only [ev_mk, ev_fold]) | split | with_reducible apply foldl_ev | dsimp only

theorem Hw.magnetGap_ev {g0 : Since} {h : Hw} (inst psiM : Nat) (elecOffset : W32) (eh : Ev g0 h) :
    Ev g0 (Hw.magnetGap h inst psiM elecOffset) := by
  unfold Hw.magnetGap
  repeat' first
    | (with_reducible first | assumption | intro _ | apply ev_ite | apply Hw.modTest_ev | apply Hw.resumeGap_ev
                            | apply Hw.modCtl_ev)
    | (simp only [ev_mk, ev_fold]) | split | with_reducible apply foldl_ev | dsimp only

theorem Hw.gapWindow_ev {g0 : Since} {h : Hw} (id inst : Nat) (out : TestOutcome) (psiM : Nat) (elecOffset : W32)
     (eh : Ev g0 h) :
    Ev g0 (Hw.gapWindow h id inst out psiM elecOffset) := by
  unfold Hw.gapWindow
  repeat' first
    | (with_reducible first | assumption | intro _ | apply ev_ite | apply Hw.magnetGap_ev | apply Hw.testEnd_ev)
    | (simp only [ev_mk, ev_fold]) | split | with_reducible apply foldl_ev | dsimp only

theorem execGapWindow_ev {g0 : Since} (testId : W16) (inst : Byte) (outcome : TestOutcome) (psiM : Nat) (elecOffset : W32) {s : State} (es : Ev g0 s.hw) :
    OutEv g0 (execGapWindow testId inst outcome psiM elecOffset s) := by
  unfold execGapWindow; with_reducible refine onHw_ev (fun {h} e => ?_) (by assumption)
  repeat' first
    | (with_reducible first | assumption | intro _ | apply ev_ite | apply onHw_ev | apply Hw.gapWindow_ev)
    | (simp only [ev_mk, ev_fold]) | split | with_reducible apply foldl_ev | dsimp only

theorem Hw.testDeadline_ev {g0 : Since} {h : Hw} (id inst : Nat) (eh : Ev g0 h) :
    Ev g0 (Hw.testDeadline h id inst) := by
  unfold Hw.testDeadline
  repeat' first
    | (with_reducible first | assumption | intro _ | apply ev_ite | apply Hw.endTest_ev | apply Hw.count_ev)
    | (simp only [ev_mk, ev_fold]) | split | with_reducible apply foldl_ev | dsimp only

theorem execTestDeadline_ev {g0 : Since} (testId : W16) (inst : Byte) {s : State} (es : Ev g0 s.hw) :
    OutEv g0 (execTestDeadline testId inst s) := by
  unfold execTestDeadline; with_reducible refine onHw_ev (fun {h} e => ?_) (by assumption)
  repeat' first
    | (with_reducible first | assumption | intro _ | apply ev_ite | apply onHw_ev | apply Hw.testDeadline_ev)
    | (simp only [ev_mk, ev_fold]) | split | with_reducible apply foldl_ev | dsimp only

theorem Hw.offstateFound_ev {g0 : Since} {h : Hw} (b : Bridge) (f : OffstateFinding) (eh : Ev g0 h) :
    Ev g0 (Hw.offstateFound h b f) := by
  unfold Hw.offstateFound
  repeat' first
    | (with_reducible first | assumption | intro _ | apply ev_ite | apply Hw.modGate_ev | apply Hw.checkInhibit_ev
                            | apply Hw.raiseOnce_ev | apply Hw.refreshSafe_ev)
    | (simp only [ev_mk, ev_fold]) | split | with_reducible apply foldl_ev | dsimp only

theorem Hw.offstate_ev {g0 : Since} {h : Hw} (b : Bridge) (found : List OffstateFinding) (eh : Ev g0 h) :
    Ev g0 (Hw.offstate h b found) := by
  unfold Hw.offstate
  repeat' first
    | (with_reducible first | assumption | intro _ | apply ev_ite | apply Hw.modGate_ev | apply Hw.stepTest_ev
                            | apply Hw.offstateFound_ev | apply Hw.endTest_ev)
    | (simp only [ev_mk, ev_fold]) | split | with_reducible apply foldl_ev | dsimp only

theorem execOffstateDiag_ev {g0 : Since} (b : Bridge) (findings : List OffstateFinding) {s : State} (es : Ev g0 s.hw) :
    OutEv g0 (execOffstateDiag b findings s) := by
  unfold execOffstateDiag; with_reducible refine onHw_ev (fun {h} e => ?_) (by assumption)
  repeat' first
    | (with_reducible first | assumption | intro _ | apply ev_ite | apply onHw_ev | apply Hw.offstate_ev)
    | (simp only [ev_mk, ev_fold]) | split | with_reducible apply foldl_ev | dsimp only

theorem Hw.offstateBoth_ev {g0 : Since} {h : Hw} (eh : Ev g0 h) : Ev g0 (Hw.offstateBoth h) := by
  unfold Hw.offstateBoth
  repeat' first
    | (with_reducible first | assumption | intro _ | apply ev_ite | apply Hw.offstateLook_ev)
    | (simp only [ev_mk, ev_fold]) | split | with_reducible apply foldl_ev | dsimp only

theorem Hw.stoPath_ev {g0 : Since} {h : Hw} (chB : Bool) (rails : List (Nat × Nat)) (eh : Ev g0 h) :
    Ev g0 (Hw.stoPath h chB rails) := by
  unfold Hw.stoPath
  repeat' first
    | (with_reducible first | assumption | intro _ | apply ev_ite | apply Hw.count_ev | apply Hw.endTest_ev
                            | apply Hw.raiseOnce_ev | apply Hw.offstateBoth_ev | apply Hw.modTest_ev)
    | (simp only [ev_mk, ev_fold]) | split | with_reducible apply foldl_ev | dsimp only

theorem execStoPath_ev {g0 : Since} (chB : Bool) (rails : List (Nat × Nat)) {s : State} (es : Ev g0 s.hw) :
    OutEv g0 (execStoPath chB rails s) := by
  unfold execStoPath; with_reducible refine onHw_ev (fun {h} e => ?_) (by assumption)
  repeat' first
    | (with_reducible first | assumption | intro _ | apply ev_ite | apply onHw_ev | apply Hw.stoPath_ev)
    | (simp only [ev_mk, ev_fold]) | split | with_reducible apply foldl_ev | dsimp only

theorem Hw.slotBurst_ev {g0 : Since} {h : Hw} (acc input p : Nat) (codes : Option (List Int)) (t : W64)
     (eh : Ev g0 h) :
    Ev g0 (Hw.slotBurst h acc input p codes t) := by
  unfold Hw.slotBurst
  repeat' first
    | (with_reducible first | assumption | intro _ | apply ev_ite | apply Hw.setAcc_ev)
    | (simp only [ev_mk, ev_fold]) | split | with_reducible apply foldl_ev | dsimp only

theorem Hw.slotPeak_ev {g0 : Since} {h : Hw} (n neg : Nat) (x : PeakSlots) (eh : Ev g0 h) :
    Ev g0 (Hw.slotPeak h n neg x) := by
  unfold Hw.slotPeak
  repeat' first
    | (with_reducible first | assumption | intro _ | apply ev_ite | apply Hw.slotBurst_ev)
    | (simp only [ev_mk, ev_fold]) | split | with_reducible apply foldl_ev | dsimp only

theorem Hw.followFault_ev {g0 : Since} {h : Hw} (f : FaultId) (src : Byte) (bad : Bool) (eh : Ev g0 h) :
    Ev g0 (Hw.followFault h f src bad) := by
  unfold Hw.followFault
  repeat' first
    | (with_reducible first | assumption | intro _ | apply ev_ite | apply Hw.raiseOnce_ev | apply Hw.clearFault_ev)
    | (simp only [ev_mk, ev_fold]) | split | with_reducible apply foldl_ev | dsimp only

theorem Hw.peakPeriod_ev {g0 : Since} {h : Hw} (n : Nat) (pos neg : Option (Int × Int)) (p m : W64)
     (exc : Option Int) (eh : Ev g0 h) :
    Ev g0 (Hw.peakPeriod h n pos neg p m exc) := by
  unfold Hw.peakPeriod
  repeat' first
    | (with_reducible first | assumption | intro _ | apply ev_ite | apply Hw.modRes_ev | apply Hw.followFault_ev)
    | (simp only [ev_mk, ev_fold]) | split | with_reducible apply foldl_ev | dsimp only

theorem Hw.quarterPeriod_ev {g0 : Since} {h : Hw} (n : Nat) (pos neg : Option (Int × Int)) (eh : Ev g0 h) :
    Ev g0 (Hw.quarterPeriod h n pos neg) := by
  unfold Hw.quarterPeriod
  repeat' first
    | (with_reducible first | assumption | intro _ | apply ev_ite | apply Hw.modRes_ev)
    | (simp only [ev_mk, ev_fold]) | split | with_reducible apply foldl_ev | dsimp only

theorem Hw.resolverPeriod_ev {g0 : Since} {h : Hw} (n : Nat) (pos neg : PeakSlots) (eh : Ev g0 h) :
    Ev g0 (Hw.resolverPeriod h n pos neg) := by
  unfold Hw.resolverPeriod
  repeat' first
    | (with_reducible first | assumption | intro _ | apply ev_ite | apply Hw.slotPeak_ev | apply Hw.count_ev
                            | apply Hw.occur_ev | apply Hw.quarterPeriod_ev | apply Hw.peakPeriod_ev)
    | (simp only [ev_mk, ev_fold]) | split | with_reducible apply foldl_ev | dsimp only

theorem execResolverPeriod_ev {g0 : Since} (r : Fin 2) (pos neg : PeakSlots) {s : State} (es : Ev g0 s.hw) :
    OutEv g0 (execResolverPeriod r pos neg s) := by
  unfold execResolverPeriod; with_reducible refine onHw_ev (fun {h} e => ?_) (by assumption)
  repeat' first
    | (with_reducible first | assumption | intro _ | apply ev_ite | apply onHw_ev | apply Hw.resolverPeriod_ev)
    | (simp only [ev_mk, ev_fold]) | split | with_reducible apply foldl_ev | dsimp only

theorem Hw.harmLoad_ev {g0 : Since} {h : Hw} (d : Desc) (q : Req) (eh : Ev g0 h) : Ev g0 (Hw.harmLoad h d q) := by
  unfold Hw.harmLoad
  repeat' first
    | (with_reducible first | assumption | intro _ | apply ev_ite | apply Hw.complete_ev | apply Hw.modRes_ev
                            | apply Hw.harmActivate_ev)
    | (simp only [ev_mk, ev_fold]) | split | with_reducible apply foldl_ev | dsimp only

theorem execPosHarmLoad_ev {g0 : Since} (d : Desc) {s : State} (es : Ev g0 s.hw) :
    OutEv g0 (execPosHarmLoad d s) := by
  unfold execPosHarmLoad; with_reducible refine onHw_ev (fun {h} e => ?_) (by assumption)
  repeat' first
    | (with_reducible first | assumption | intro _ | apply ev_ite | apply onHw_ev | apply Hw.descriptor_ev
                            | apply Hw.unlessCamp_ev | apply Hw.harmLoad_ev)
    | (simp only [ev_mk, ev_fold]) | split | with_reducible apply foldl_ev | dsimp only

theorem Hw.outEncoder_ev {g0 : Since} {h : Hw} (n : Nat) (eh : Ev g0 h) : Ev g0 (Hw.outEncoder h n) := by
  unfold Hw.outEncoder
  repeat' first
    | (with_reducible first | assumption | intro _ | apply ev_ite | apply Hw.outFollow_ev | apply Hw.count_ev)
    | (simp only [ev_mk, ev_fold]) | split | with_reducible apply foldl_ev | dsimp only

theorem Hw.encEdge_ev {g0 : Since} {h : Hw} (n : Nat) (a b : Bool) (stable : Nat) (eh : Ev g0 h) :
    Ev g0 (Hw.encEdge h n a b stable) := by
  unfold Hw.encEdge
  repeat' first
    | (with_reducible first | assumption | intro _ | apply ev_ite | apply Hw.modEnc_ev | apply Hw.outEncoder_ev
                            | apply Hw.count_ev | apply Hw.raiseOnce_ev)
    | (simp only [ev_mk, ev_fold]) | split | with_reducible apply foldl_ev | dsimp only

theorem execEncEdge_ev {g0 : Since} (e : Fin 2) (a b : Bool) (stable : Nat) {s : State} (es : Ev g0 s.hw) :
    OutEv g0 (execEncEdge e a b stable s) := by
  unfold execEncEdge; with_reducible refine onHw_ev (fun {h} e => ?_) (by assumption)
  repeat' first
    | (with_reducible first | assumption | intro _ | apply ev_ite | apply onHw_ev | apply Hw.encEdge_ev)
    | (simp only [ev_mk, ev_fold]) | split | with_reducible apply foldl_ev | dsimp only

theorem Hw.encIndex_ev {g0 : Since} {h : Hw} (n : Nat) (a b : Bool) (stable : Nat) (eh : Ev g0 h) :
    Ev g0 (Hw.encIndex h n a b stable) := by
  unfold Hw.encIndex
  repeat' first
    | (with_reducible first | assumption | intro _ | apply ev_ite | apply Hw.modEnc_ev | apply Hw.postEvent_ev
                            | apply Hw.count_ev | apply Hw.outEncoder_ev | apply Hw.raiseOnce_ev)
    | (simp only [ev_mk, ev_fold]) | split | with_reducible apply foldl_ev | dsimp only

theorem execEncIndex_ev {g0 : Since} (e : Fin 2) (a b : Bool) (stable : Nat) {s : State} (es : Ev g0 s.hw) :
    OutEv g0 (execEncIndex e a b stable s) := by
  unfold execEncIndex; with_reducible refine onHw_ev (fun {h} e => ?_) (by assumption)
  repeat' first
    | (with_reducible first | assumption | intro _ | apply ev_ite | apply onHw_ev | apply Hw.encIndex_ev)
    | (simp only [ev_mk, ev_fold]) | split | with_reducible apply foldl_ev | dsimp only

theorem execPosIndexArm_ev {g0 : Since} (d : Desc) {s : State} (es : Ev g0 s.hw) :
    OutEv g0 (execPosIndexArm d s) := by
  unfold execPosIndexArm; with_reducible refine onHw_ev (fun {h} e => ?_) (by assumption)
  repeat' first
    | (with_reducible first | assumption | intro _ | apply ev_ite | apply onHw_ev | apply Hw.descriptor_ev
                            | apply Hw.unlessCamp_ev | apply Hw.complete_ev | apply Hw.modEnc_ev)
    | (simp only [ev_mk, ev_fold]) | split | with_reducible apply foldl_ev | dsimp only

theorem execEncSpeedWindow_ev {g0 : Since} (e : Fin 2) {s : State} (es : Ev g0 s.hw) :
    OutEv g0 (execEncSpeedWindow e s) := by
  unfold execEncSpeedWindow; with_reducible refine onHw_ev (fun {h} e => ?_) (by assumption)
  repeat' first
    | (with_reducible first | assumption | intro _ | apply ev_ite | apply onHw_ev | apply Hw.modEnc_ev)
    | (simp only [ev_mk, ev_fold]) | split | with_reducible apply foldl_ev | dsimp only

theorem Hw.hallTrust_ev {g0 : Since} {h : Hw} (i : Nat) (since : Nat) (eh : Ev g0 h) :
    Ev g0 (Hw.hallTrust h i since) := by
  unfold Hw.hallTrust
  repeat' first
    | (with_reducible first | assumption | intro _ | apply ev_ite | apply Hw.modDrive_ev | apply Hw.clearFault_ev)
    | (simp only [ev_mk, ev_fold]) | split | with_reducible apply foldl_ev | dsimp only

theorem Hw.commute_ev {g0 : Since} {h : Hw} (k : Nat) (st : Nat) (forward : Bool) (eh : Ev g0 h) :
    Ev g0 (Hw.commute h k st forward) := by
  unfold Hw.commute
  repeat' first
    | (with_reducible first | assumption | intro _ | apply ev_ite | apply Hw.hallTrust_ev)
    | (simp only [ev_mk, ev_fold]) | split | with_reducible apply foldl_ev | dsimp only

theorem Hw.hallChange_ev {g0 : Since} {h : Hw} (k st stable : Nat) (eh : Ev g0 h) :
    Ev g0 (Hw.hallChange h k st stable) := by
  unfold Hw.hallChange
  repeat' first
    | (with_reducible first | assumption | intro _ | apply ev_ite | apply Hw.raiseOnce_ev | apply Hw.hallsLost_ev
                            | apply Hw.clearFault_ev | apply Hw.commute_ev | apply Hw.count_ev)
    | (simp only [ev_mk, ev_fold]) | split | with_reducible apply foldl_ev | dsimp only

theorem execHallChange_ev {g0 : Since} (k : Fin 3) (st : Fin 8) (stable : Nat) {s : State} (es : Ev g0 s.hw) :
    OutEv g0 (execHallChange k st stable s) := by
  unfold execHallChange; with_reducible refine onHw_ev (fun {h} e => ?_) (by assumption)
  repeat' first
    | (with_reducible first | assumption | intro _ | apply ev_ite | apply onHw_ev | apply Hw.hallChange_ev)
    | (simp only [ev_mk, ev_fold]) | split | with_reducible apply foldl_ev | dsimp only

theorem Hw.sentPosition_ev {g0 : Since} {h : Hw} (ch value nibbles : Nat) (eh : Ev g0 h) :
    Ev g0 (Hw.sentPosition h ch value nibbles) := by
  unfold Hw.sentPosition
  repeat' first
    | (with_reducible first | assumption | intro _ | apply ev_ite | apply Hw.posGood_ev | apply Hw.seePosition_ev)
    | (simp only [ev_mk, ev_fold]) | split | with_reducible apply foldl_ev | dsimp only

theorem Hw.sentFrame_ev {g0 : Since} {h : Hw} (ch sync : Nat) (lengths nibbles : List Nat) (crc : Nat)
     (pause : Option Nat) (eh : Ev g0 h) :
    Ev g0 (Hw.sentFrame h ch sync lengths nibbles crc pause) := by
  unfold Hw.sentFrame
  repeat' first
    | (with_reducible first | assumption | intro _ | apply ev_ite | apply Hw.clearFault_ev | apply Hw.sentPosition_ev
                            | apply Hw.count_ev | apply Hw.occur_ev)
    | (simp only [ev_mk, ev_fold]) | split | with_reducible apply foldl_ev | dsimp only

theorem execSentFrame_ev {g0 : Since} (ch : Fin 4) (sync : Nat) (lengths nibbles : List Nat) (crc : Nat) (pause : Option Nat) {s : State} (es : Ev g0 s.hw) :
    OutEv g0 (execSentFrame ch sync lengths nibbles crc pause s) := by
  unfold execSentFrame; with_reducible refine onHw_ev (fun {h} e => ?_) (by assumption)
  repeat' first
    | (with_reducible first | assumption | intro _ | apply ev_ite | apply onHw_ev | apply Hw.sentFrame_ev)
    | (simp only [ev_mk, ev_fold]) | split | with_reducible apply foldl_ev | dsimp only

theorem Hw.sentTimeout_ev {g0 : Since} {h : Hw} (ch : Nat) (eh : Ev g0 h) : Ev g0 (Hw.sentTimeout h ch) := by
  unfold Hw.sentTimeout
  repeat' first
    | (with_reducible first | assumption | intro _ | apply ev_ite | apply Hw.raiseOnce_ev | apply Hw.posInvalid_ev)
    | (simp only [ev_mk, ev_fold]) | split | with_reducible apply foldl_ev | dsimp only

theorem execSentTimeout_ev {g0 : Since} (ch : Fin 4) {s : State} (es : Ev g0 s.hw) :
    OutEv g0 (execSentTimeout ch s) := by
  unfold execSentTimeout; with_reducible refine onHw_ev (fun {h} e => ?_) (by assumption)
  repeat' first
    | (with_reducible first | assumption | intro _ | apply ev_ite | apply onHw_ev | apply Hw.sentTimeout_ev)
    | (simp only [ev_mk, ev_fold]) | split | with_reducible apply foldl_ev | dsimp only

end Sys2Proof.Machine
end

