-- ==== Sys2Proof/Laws/EvolveSafety.lean ====
section
/-!
SUPPORT. Laws/EvolveSafety.lean: what every operation keeps of the limits and of what is never taken back, for the safety functions and the debugger: one lemma
for each operation, named after it.
-/
set_option linter.unusedSimpArgs false
namespace Sys2Proof.Machine

theorem Hw.safetyCheckRead_ev {g0 : Since} {h : Hw} (q : Req) (eh : Ev g0 h) : Ev g0 (Hw.safetyCheckRead h q) := by
  unfold Hw.safetyCheckRead
  repeat' first
    | (with_reducible first | assumption | intro _ | apply ev_ite | apply Hw.postEvent_ev | apply Hw.complete_ev)
    | (simp only [ev_mk, ev_fold]) | split | with_reducible apply foldl_ev | dsimp only

theorem execSafetyCheckRead_ev {g0 : Since} (d : Desc) {s : State} (es : Ev g0 s.hw) :
    OutEv g0 (execSafetyCheckRead d s) := by
  unfold execSafetyCheckRead; with_reducible refine onHw_ev (fun {h} e => ?_) (by assumption)
  repeat' first
    | (with_reducible first | assumption | intro _ | apply ev_ite | apply onHw_ev | apply Hw.descriptor_ev
                            | apply Hw.safetyCheckRead_ev)
    | (simp only [ev_mk, ev_fold]) | split | with_reducible apply foldl_ev | dsimp only

theorem Hw.confirmMismatch_ev {g0 : Since} {h : Hw} (target : Nat) (eh : Ev g0 h) :
    Ev g0 (Hw.confirmMismatch h target) := by
  unfold Hw.confirmMismatch
  repeat' first
    | (with_reducible first | assumption | intro _ | apply ev_ite | apply Hw.occur_ev)
    | (simp only [ev_mk, ev_fold]) | split | with_reducible apply foldl_ev | dsimp only

theorem Hw.safetyProgram_ev {g0 : Since} {h : Hw} (set : Tab Nat) (q : Req) (eh : Ev g0 h) :
    Ev g0 (Hw.safetyProgram h set q) := by
  unfold Hw.safetyProgram
  repeat' first
    | (with_reducible first | assumption | intro _ | apply ev_ite | apply Hw.complete_ev | apply Hw.occur_ev)
    | (simp only [ev_mk, ev_fold]) | split | with_reducible apply foldl_ev | dsimp only

theorem Hw.safetyConfirm_ev {g0 : Since} {h : Hw} (d : Desc) (q : Req) (eh : Ev g0 h) :
    Ev g0 (Hw.safetyConfirm h d q) := by
  unfold Hw.safetyConfirm
  repeat' first
    | (with_reducible first | assumption | intro _ | apply ev_ite | apply Hw.complete_ev | apply Hw.confirmMismatch_ev
                            | apply Hw.safetyProgram_ev)
    | (simp only [ev_mk, ev_fold]) | split | with_reducible apply foldl_ev | dsimp only

theorem execSafetyConfirm_ev {g0 : Since} (d : Desc) {s : State} (es : Ev g0 s.hw) :
    OutEv g0 (execSafetyConfirm d s) := by
  unfold execSafetyConfirm; with_reducible refine onHw_ev (fun {h} e => ?_) (by assumption)
  repeat' first
    | (with_reducible first | assumption | intro _ | apply ev_ite | apply onHw_ev | apply Hw.descriptor_ev
                            | apply Hw.safetyConfirm_ev)
    | (simp only [ev_mk, ev_fold]) | split | with_reducible apply foldl_ev | dsimp only

theorem Hw.loseMajority_ev {g0 : Since} {h : Hw} (eh : Ev g0 h) : Ev g0 (Hw.loseMajority h) := by
  unfold Hw.loseMajority
  repeat' first
    | (with_reducible first | assumption | intro _ | apply ev_ite | apply Hw.orderBoth_ev | apply Hw.boostAbort_ev
                            | apply Hw.raiseOnce_ev)
    | (simp only [ev_mk, ev_fold]) | split | with_reducible apply foldl_ev | dsimp only

theorem Hw.oneDiffers_ev {g0 : Since} {h : Hw} (c : Nat) (eh : Ev g0 h) : Ev g0 (Hw.oneDiffers h c) := by
  unfold Hw.oneDiffers
  repeat' first
    | (with_reducible first | assumption | intro _ | apply ev_ite | apply Hw.loseMajority_ev | apply Hw.count_ev
                            | apply Hw.occur_ev | apply Hw.raiseOnce_ev)
    | (simp only [ev_mk, ev_fold]) | split | with_reducible apply foldl_ev | dsimp only

theorem execNegoacMismatch_ev {g0 : Since} (f : VoteFinding) {s : State} (es : Ev g0 s.hw) :
    OutEv g0 (execNegoacMismatch f s) := by
  unfold execNegoacMismatch; with_reducible refine onHw_ev (fun {h} e => ?_) (by assumption)
  repeat' first
    | (with_reducible first | assumption | intro _ | apply ev_ite | apply onHw_ev | apply Hw.oneDiffers_ev
                            | apply Hw.loseMajority_ev)
    | (simp only [ev_mk, ev_fold]) | split | with_reducible apply foldl_ev | dsimp only

theorem Hw.safeRestart_ev {g0 : Since} {h : Hw} (eh : Ev g0 h) : Ev g0 (Hw.safeRestart h) := by
  unfold Hw.safeRestart
  repeat' first
    | (with_reducible first | assumption | intro _ | apply ev_ite | apply Hw.mailbox0_ev | apply Hw.requestImage_ev)
    | (simp only [ev_mk, ev_fold]) | split | with_reducible apply foldl_ev | dsimp only

theorem Hw.negoacRestart_ev {g0 : Since} {h : Hw} (eh : Ev g0 h) : Ev g0 (Hw.negoacRestart h) := by
  unfold Hw.negoacRestart
  repeat' first
    | (with_reducible first | assumption | intro _ | apply ev_ite | apply Hw.senseLost_ev | apply Hw.clearFault_ev
                            | apply Hw.safeRestart_ev | apply Hw.refreshBoth_ev)
    | (simp only [ev_mk, ev_fold]) | split | with_reducible apply foldl_ev | dsimp only

theorem execNegoacRestart_ev {g0 : Since} {s : State} (es : Ev g0 s.hw) : OutEv g0 (execNegoacRestart s) := by
  unfold execNegoacRestart; with_reducible refine onHw_ev (fun {h} e => ?_) (by assumption)
  repeat' first
    | (with_reducible first | assumption | intro _ | apply ev_ite | apply onHw_ev | apply Hw.negoacRestart_ev)
    | (simp only [ev_mk, ev_fold]) | split | with_reducible apply foldl_ev | dsimp only

theorem execVoterTest_ev {g0 : Since} (masked : List Bool) {s : State} (es : Ev g0 s.hw) :
    OutEv g0 (execVoterTest masked s) := by
  unfold execVoterTest; with_reducible refine onHw_ev (fun {h} e => ?_) (by assumption)
  repeat' first
    | (with_reducible first | assumption | intro _ | apply ev_ite | apply onHw_ev | apply Hw.endTest_ev)
    | (simp only [ev_mk, ev_fold]) | split | with_reducible apply foldl_ev | dsimp only

theorem Hw.checkerMismatch_ev {g0 : Since} {h : Hw} (b : Bridge) (eh : Ev g0 h) : Ev g0 (Hw.checkerMismatch h b) := by
  unfold Hw.checkerMismatch
  repeat' first
    | (with_reducible first | assumption | intro _ | apply ev_ite | apply Hw.occurThen_ev | apply Hw.faultSafe_ev)
    | (simp only [ev_mk, ev_fold]) | split | with_reducible apply foldl_ev | dsimp only

theorem execCheckerMismatch_ev {g0 : Since} (b : Bridge) {s : State} (es : Ev g0 s.hw) :
    OutEv g0 (execCheckerMismatch b s) := by
  unfold execCheckerMismatch; with_reducible refine onHw_ev (fun {h} e => ?_) (by assumption)
  repeat' first
    | (with_reducible first | assumption | intro _ | apply ev_ite | apply onHw_ev | apply Hw.checkerMismatch_ev)
    | (simp only [ev_mk, ev_fold]) | split | with_reducible apply foldl_ev | dsimp only

theorem execCheckerInject_ev {g0 : Since} (b : Bridge) (field : Nat) (flagged : List Nat) (cycles : Nat) {s : State} (es : Ev g0 s.hw) :
    OutEv g0 (execCheckerInject b field flagged cycles s) := by
  unfold execCheckerInject; with_reducible refine onHw_ev (fun {h} e => ?_) (by assumption)
  repeat' first
    | (with_reducible first | assumption | intro _ | apply ev_ite | apply onHw_ev | apply Hw.endTest_ev
                            | apply Hw.raiseOnce_ev)
    | (simp only [ev_mk, ev_fold]) | split | with_reducible apply foldl_ev | dsimp only

theorem Hw.stopConversion_ev {g0 : Since} {h : Hw} (eh : Ev g0 h) : Ev g0 (Hw.stopConversion h) := by
  unfold Hw.stopConversion
  repeat' first
    | (with_reducible first | assumption | intro _ | apply ev_ite | apply Hw.lvRest_ev | apply Hw.chgArrest_ev)
    | (simp only [ev_mk, ev_fold]) | split | with_reducible apply foldl_ev | dsimp only

theorem Hw.stopActuators_ev {g0 : Since} {h : Hw} (eh : Ev g0 h) : Ev g0 (Hw.stopActuators h) := by
  unfold Hw.stopActuators
  repeat' first
    | (with_reducible first | assumption | intro _ | apply ev_ite | apply Hw.shiftArrest_ev | apply Hw.actStop_ev)
    | (simp only [ev_mk, ev_fold]) | split | with_reducible apply foldl_ev | dsimp only

theorem Hw.memoryFault_ev {g0 : Since} {h : Hw} (o : MemOwner) (eh : Ev g0 h) : Ev g0 (Hw.memoryFault h o) := by
  unfold Hw.memoryFault
  repeat' first
    | (with_reducible first | assumption | intro _ | apply ev_ite | apply Hw.appMiss_ev | apply Hw.oneDiffers_ev
                            | apply Hw.faultSafe_ev | apply Hw.stopConversion_ev | apply Hw.stopActuators_ev)
    | (simp only [ev_mk, ev_fold]) | split | with_reducible apply foldl_ev | dsimp only

theorem execMemoryError_ev {g0 : Since} (owner : MemOwner) (correctable : Bool) {s : State} (es : Ev g0 s.hw) :
    OutEv g0 (execMemoryError owner correctable s) := by
  unfold execMemoryError; with_reducible refine onHw_ev (fun {h} e => ?_) (by assumption)
  repeat' first
    | (with_reducible first | assumption | intro _ | apply ev_ite | apply onHw_ev | apply Hw.count_ev
                            | apply Hw.memoryFault_ev)
    | (simp only [ev_mk, ev_fold]) | split | with_reducible apply foldl_ev | dsimp only

theorem Hw.clockLoss_ev {g0 : Since} {h : Hw} (c : ClockLoss) (eh : Ev g0 h) : Ev g0 (Hw.clockLoss h c) := by
  unfold Hw.clockLoss
  repeat' first
    | (with_reducible first | assumption | intro _ | apply ev_ite | apply Hw.orderBoth_ev | apply Hw.boostAbort_ev
                            | apply Hw.raiseOnce_ev)
    | (simp only [ev_mk, ev_fold]) | split | with_reducible apply foldl_ev | dsimp only

theorem Hw.clockBack_ev {g0 : Since} {h : Hw} (c : ClockLoss) (eh : Ev g0 h) : Ev g0 (Hw.clockBack h c) := by
  unfold Hw.clockBack
  repeat' first
    | (with_reducible first | assumption | intro _ | apply ev_ite | apply Hw.clearFault_ev)
    | (simp only [ev_mk, ev_fold]) | split | with_reducible apply foldl_ev | dsimp only

theorem execClockLoss_ev {g0 : Since} (c : ClockLoss) (lost : Bool) {s : State} (es : Ev g0 s.hw) :
    OutEv g0 (execClockLoss c lost s) := by
  unfold execClockLoss; with_reducible refine onHw_ev (fun {h} e => ?_) (by assumption)
  repeat' first
    | (with_reducible first | assumption | intro _ | apply ev_ite | apply onHw_ev | apply Hw.clockLoss_ev
                            | apply Hw.clockBack_ev)
    | (simp only [ev_mk, ev_fold]) | split | with_reducible apply foldl_ev | dsimp only

theorem execCk0Fallback_ev {g0 : Since} {s : State} (es : Ev g0 s.hw) : OutEv g0 (execCk0Fallback s) := by
  unfold execCk0Fallback; with_reducible refine onHw_ev (fun {h} e => ?_) (by assumption)
  repeat' first
    | (with_reducible first | assumption | intro _ | apply ev_ite | apply onHw_ev | apply Hw.raiseOnce_ev)
    | (simp only [ev_mk, ev_fold]) | split | with_reducible apply foldl_ev | dsimp only

theorem Hw.senseSupplyLost_ev {g0 : Since} {h : Hw} (eh : Ev g0 h) : Ev g0 (Hw.senseSupplyLost h) := by
  unfold Hw.senseSupplyLost
  repeat' first
    | (with_reducible first | assumption | intro _ | apply ev_ite | apply Hw.orderBoth_ev | apply Hw.stopConversion_ev
                            | apply Hw.stopActuators_ev | apply Hw.raiseOnce_ev)
    | (simp only [ev_mk, ev_fold]) | split | with_reducible apply foldl_ev | dsimp only

theorem Hw.senseSupplyBack_ev {g0 : Since} {h : Hw} (eh : Ev g0 h) : Ev g0 (Hw.senseSupplyBack h) := by
  unfold Hw.senseSupplyBack
  repeat' first
    | (with_reducible first | assumption | intro _ | apply ev_ite | apply Hw.clearFault_ev)
    | (simp only [ev_mk, ev_fold]) | split | with_reducible apply foldl_ev | dsimp only

theorem execSenseSupplyLost_ev {g0 : Since} (lost : Bool) {s : State} (es : Ev g0 s.hw) :
    OutEv g0 (execSenseSupplyLost lost s) := by
  unfold execSenseSupplyLost; with_reducible refine onHw_ev (fun {h} e => ?_) (by assumption)
  repeat' first
    | (with_reducible first | assumption | intro _ | apply ev_ite | apply onHw_ev | apply Hw.senseSupplyLost_ev
                            | apply Hw.senseLost_ev | apply Hw.senseSupplyBack_ev)
    | (simp only [ev_mk, ev_fold]) | split | with_reducible apply foldl_ev | dsimp only

theorem Hw.setSto_ev {g0 : Since} {h : Hw} (chB closed : Bool) (eh : Ev g0 h) : Ev g0 (Hw.setSto h chB closed) := by
  unfold Hw.setSto
  repeat' first
    | (with_reducible first | assumption | intro _ | apply ev_ite)
    | (simp only [ev_mk, ev_fold]) | split | with_reducible apply foldl_ev | dsimp only

theorem Hw.stoNote_ev {g0 : Since} {h : Hw} (chB : Bool) (eh : Ev g0 h) : Ev g0 (Hw.stoNote h chB) := by
  unfold Hw.stoNote
  repeat' first
    | (with_reducible first | assumption | intro _ | apply ev_ite)
    | (simp only [ev_mk, ev_fold]) | split | with_reducible apply foldl_ev | dsimp only

theorem Hw.stoOpens_ev {g0 : Since} {h : Hw} (chB : Bool) (eh : Ev g0 h) : Ev g0 (Hw.stoOpens h chB) := by
  unfold Hw.stoOpens
  repeat' first
    | (with_reducible first | assumption | intro _ | apply ev_ite | apply Hw.setSto_ev | apply Hw.stoNote_ev
                            | apply Hw.count_ev | apply Hw.orderBoth_ev | apply Hw.boostAbort_ev | apply Hw.occur_ev
                            | apply Hw.enterArrest_ev)
    | (simp only [ev_mk, ev_fold]) | split | with_reducible apply foldl_ev | dsimp only

theorem Hw.stoInput_ev {g0 : Since} {h : Hw} (chB : Bool) (mv : Int) (held : Nat) (eh : Ev g0 h) :
    Ev g0 (Hw.stoInput h chB mv held) := by
  unfold Hw.stoInput
  repeat' first
    | (with_reducible first | assumption | intro _ | apply ev_ite | apply Hw.stoOpens_ev | apply Hw.setSto_ev)
    | (simp only [ev_mk, ev_fold]) | split | with_reducible apply foldl_ev | dsimp only

theorem execStoOpen_ev {g0 : Since} (chB : Bool) (mv : Int) (held : Nat) {s : State} (es : Ev g0 s.hw) :
    OutEv g0 (execStoOpen chB mv held s) := by
  unfold execStoOpen; with_reducible refine onHw_ev (fun {h} e => ?_) (by assumption)
  repeat' first
    | (with_reducible first | assumption | intro _ | apply ev_ite | apply onHw_ev | apply Hw.stoInput_ev)
    | (simp only [ev_mk, ev_fold]) | split | with_reducible apply foldl_ev | dsimp only

theorem Hw.stoCloses_ev {g0 : Since} {h : Hw} (chB : Bool) (eh : Ev g0 h) : Ev g0 (Hw.stoCloses h chB) := by
  unfold Hw.stoCloses
  repeat' first
    | (with_reducible first | assumption | intro _ | apply ev_ite | apply Hw.setSto_ev | apply Hw.refreshBoth_ev)
    | (simp only [ev_mk, ev_fold]) | split | with_reducible apply foldl_ev | dsimp only

theorem execStoClose_ev {g0 : Since} (chB : Bool) (mv ua : Int) {s : State} (es : Ev g0 s.hw) :
    OutEv g0 (execStoClose chB mv ua s) := by
  unfold execStoClose; with_reducible refine onHw_ev (fun {h} e => ?_) (by assumption)
  repeat' first
    | (with_reducible first | assumption | intro _ | apply ev_ite | apply onHw_ev | apply Hw.stoCloses_ev)
    | (simp only [ev_mk, ev_fold]) | split | with_reducible apply foldl_ev | dsimp only

theorem Hw.stoDiscrepancy_ev {g0 : Since} {h : Hw} (eh : Ev g0 h) : Ev g0 (Hw.stoDiscrepancy h) := by
  unfold Hw.stoDiscrepancy
  repeat' first
    | (with_reducible first | assumption | intro _ | apply ev_ite | apply Hw.occur_ev)
    | (simp only [ev_mk, ev_fold]) | split | with_reducible apply foldl_ev | dsimp only

theorem execStoDiscrepancy_ev {g0 : Since} {s : State} (es : Ev g0 s.hw) : OutEv g0 (execStoDiscrepancy s) := by
  unfold execStoDiscrepancy; with_reducible refine onHw_ev (fun {h} e => ?_) (by assumption)
  repeat' first
    | (with_reducible first | assumption | intro _ | apply ev_ite | apply onHw_ev | apply Hw.stoDiscrepancy_ev)
    | (simp only [ev_mk, ev_fold]) | split | with_reducible apply foldl_ev | dsimp only

theorem Hw.soOpenLoad_ev {g0 : Since} {h : Hw} (out : Byte) (eh : Ev g0 h) : Ev g0 (Hw.soOpenLoad h out) := by
  unfold Hw.soOpenLoad
  repeat' first
    | (with_reducible first | assumption | intro _ | apply ev_ite | apply Hw.raiseOnce_ev | apply Hw.endTest_ev)
    | (simp only [ev_mk, ev_fold]) | split | with_reducible apply foldl_ev | dsimp only

theorem Hw.soPass_ev {g0 : Since} {h : Hw} (out : Byte) (eh : Ev g0 h) : Ev g0 (Hw.soPass h out) := by
  unfold Hw.soPass
  repeat' first
    | (with_reducible first | assumption | intro _ | apply ev_ite | apply Hw.clearFault_ev | apply Hw.endTest_ev)
    | (simp only [ev_mk, ev_fold]) | split | with_reducible apply foldl_ev | dsimp only

theorem Hw.soShort_ev {g0 : Since} {h : Hw} (out : Byte) (arg : W32) (eh : Ev g0 h) :
    Ev g0 (Hw.soShort h out arg) := by
  unfold Hw.soShort
  repeat' first
    | (with_reducible first | assumption | intro _ | apply ev_ite | apply Hw.raiseAs_ev | apply Hw.endTest_ev)
    | (simp only [ev_mk, ev_fold]) | split | with_reducible apply foldl_ev | dsimp only

theorem Hw.soGap_ev {g0 : Since} {h : Hw} (second collapsed : Bool) (eh : Ev g0 h) :
    Ev g0 (Hw.soGap h second collapsed) := by
  unfold Hw.soGap
  repeat' first
    | (with_reducible first | assumption | intro _ | apply ev_ite | apply Hw.soPass_ev | apply Hw.raiseOnce_ev
                            | apply Hw.endTest_ev)
    | (simp only [ev_mk, ev_fold]) | split | with_reducible apply foldl_ev | dsimp only

theorem Hw.soTest_ev {g0 : Since} {h : Hw} (second : Bool) (f : SoFinding) (eh : Ev g0 h) :
    Ev g0 (Hw.soTest h second f) := by
  unfold Hw.soTest
  repeat' first
    | (with_reducible first | assumption | intro _ | apply ev_ite | apply Hw.soGap_ev | apply Hw.soOpenLoad_ev
                            | apply Hw.soShort_ev | apply Hw.soPass_ev)
    | (simp only [ev_mk, ev_fold]) | split | with_reducible apply foldl_ev | dsimp only

theorem execSoTest_ev {g0 : Since} (second : Bool) (finding : SoFinding) {s : State} (es : Ev g0 s.hw) :
    OutEv g0 (execSoTest second finding s) := by
  unfold execSoTest; with_reducible refine onHw_ev (fun {h} e => ?_) (by assumption)
  repeat' first
    | (with_reducible first | assumption | intro _ | apply ev_ite | apply onHw_ev | apply Hw.soTest_ev)
    | (simp only [ev_mk, ev_fold]) | split | with_reducible apply foldl_ev | dsimp only

theorem execFaultOutWatchdogExpiry_ev {g0 : Since} (since : Nat) {s : State} (es : Ev g0 s.hw) :
    OutEv g0 (execFaultOutWatchdogExpiry since s) := by
  unfold execFaultOutWatchdogExpiry; with_reducible refine onHw_ev (fun {h} e => ?_) (by assumption)
  repeat' first
    | (with_reducible first | assumption | intro _ | apply ev_ite | apply onHw_ev)
    | (simp only [ev_mk, ev_fold]) | split | with_reducible apply foldl_ev | dsimp only

theorem Hw.dischargeEnd_ev {g0 : Since} {h : Hw} (eh : Ev g0 h) : Ev g0 (Hw.dischargeEnd h) := by
  unfold Hw.dischargeEnd
  repeat' first
    | (with_reducible first | assumption | intro _ | apply ev_ite | apply Hw.completeAll_ev | apply Hw.clearFault_ev
                            | apply Hw.complete_ev)
    | (simp only [ev_mk, ev_fold]) | split | with_reducible apply foldl_ev | dsimp only

theorem Hw.dischargeLook_ev {g0 : Since} {h : Hw} (eh : Ev g0 h) : Ev g0 (Hw.dischargeLook h) := by
  unfold Hw.dischargeLook
  repeat' first
    | (with_reducible first | assumption | intro _ | apply ev_ite | apply Hw.dischargeEnd_ev | apply Hw.drainCharge_ev
                            | apply Hw.drainLv_ev)
    | (simp only [ev_mk, ev_fold]) | split | with_reducible apply foldl_ev | dsimp only

theorem execDischargeStart_ev {g0 : Since} {s : State} (es : Ev g0 s.hw) : OutEv g0 (execDischargeStart s) := by
  unfold execDischargeStart; with_reducible refine onHw_ev (fun {h} e => ?_) (by assumption)
  repeat' first
    | (with_reducible first | assumption | intro _ | apply ev_ite | apply onHw_ev | apply Hw.dischargeLook_ev)
    | (simp only [ev_mk, ev_fold]) | split | with_reducible apply foldl_ev | dsimp only

theorem Hw.dischargeAsk_ev {g0 : Since} {h : Hw} (q : Req) (eh : Ev g0 h) : Ev g0 (Hw.dischargeAsk h q) := by
  unfold Hw.dischargeAsk
  repeat' first
    | (with_reducible first | assumption | intro _ | apply ev_ite | apply Hw.complete_ev | apply Hw.dischargeLook_ev)
    | (simp only [ev_mk, ev_fold]) | split | with_reducible apply foldl_ev | dsimp only

theorem execDischarge_ev {g0 : Since} (d : Desc) {s : State} (es : Ev g0 s.hw) : OutEv g0 (execDischarge d s) := by
  unfold execDischarge; with_reducible refine onHw_ev (fun {h} e => ?_) (by assumption)
  repeat' first
    | (with_reducible first | assumption | intro _ | apply ev_ite | apply onHw_ev | apply Hw.descriptor_ev
                            | apply Hw.dischargeAsk_ev)
    | (simp only [ev_mk, ev_fold]) | split | with_reducible apply foldl_ev | dsimp only

theorem Hw.dischargeEnergy_ev {g0 : Since} {h : Hw} (vdc : Int) (eh : Ev g0 h) :
    Ev g0 (Hw.dischargeEnergy h vdc) := by
  unfold Hw.dischargeEnergy
  repeat' first
    | (with_reducible first | assumption | intro _ | apply ev_ite | apply Hw.addEnergy_ev)
    | (simp only [ev_mk, ev_fold]) | split | with_reducible apply foldl_ev | dsimp only

theorem Hw.dischargeHeld_ev {g0 : Since} {h : Hw} (vdc : Int) (eh : Ev g0 h) : Ev g0 (Hw.dischargeHeld h vdc) := by
  unfold Hw.dischargeHeld
  repeat' first
    | (with_reducible first | assumption | intro _ | apply ev_ite | apply Hw.setVdc_ev | apply Hw.addEnergy_ev
                            | apply Hw.raiseOnce_ev)
    | (simp only [ev_mk, ev_fold]) | split | with_reducible apply foldl_ev | dsimp only

theorem execDischargeHeld_ev {g0 : Since} (vdc : Int) {s : State} (es : Ev g0 s.hw) :
    OutEv g0 (execDischargeHeld vdc s) := by
  unfold execDischargeHeld; with_reducible refine onHw_ev (fun {h} e => ?_) (by assumption)
  repeat' first
    | (with_reducible first | assumption | intro _ | apply ev_ite | apply onHw_ev | apply Hw.dischargeHeld_ev)
    | (simp only [ev_mk, ev_fold]) | split | with_reducible apply foldl_ev | dsimp only

theorem Hw.dischargeRetry_ev {g0 : Since} {h : Hw} (eh : Ev g0 h) : Ev g0 (Hw.dischargeRetry h) := by
  unfold Hw.dischargeRetry
  repeat' first
    | (with_reducible first | assumption | intro _ | apply ev_ite | apply Hw.dischargeLook_ev)
    | (simp only [ev_mk, ev_fold]) | split | with_reducible apply foldl_ev | dsimp only

theorem execDischargeRetry_ev {g0 : Since} {s : State} (es : Ev g0 s.hw) : OutEv g0 (execDischargeRetry s) := by
  unfold execDischargeRetry; with_reducible refine onHw_ev (fun {h} e => ?_) (by assumption)
  repeat' first
    | (with_reducible first | assumption | intro _ | apply ev_ite | apply onHw_ev | apply Hw.dischargeRetry_ev)
    | (simp only [ev_mk, ev_fold]) | split | with_reducible apply foldl_ev | dsimp only

theorem Hw.dischargeFail_ev {g0 : Since} {h : Hw} (ma : Int) (eh : Ev g0 h) : Ev g0 (Hw.dischargeFail h ma) := by
  unfold Hw.dischargeFail
  repeat' first
    | (with_reducible first | assumption | intro _ | apply ev_ite | apply Hw.raiseOnce_ev)
    | (simp only [ev_mk, ev_fold]) | split | with_reducible apply foldl_ev | dsimp only

theorem execDischargeFail_ev {g0 : Since} (ma : Int) {s : State} (es : Ev g0 s.hw) :
    OutEv g0 (execDischargeFail ma s) := by
  unfold execDischargeFail; with_reducible refine onHw_ev (fun {h} e => ?_) (by assumption)
  repeat' first
    | (with_reducible first | assumption | intro _ | apply ev_ite | apply onHw_ev | apply Hw.dischargeFail_ev)
    | (simp only [ev_mk, ev_fold]) | split | with_reducible apply foldl_ev | dsimp only

theorem Hw.dischargeDone_ev {g0 : Since} {h : Hw} (vdc : Int) (eh : Ev g0 h) : Ev g0 (Hw.dischargeDone h vdc) := by
  unfold Hw.dischargeDone
  repeat' first
    | (with_reducible first | assumption | intro _ | apply ev_ite | apply Hw.dischargeEnergy_ev | apply Hw.setVdc_ev
                            | apply Hw.dischargeEnd_ev)
    | (simp only [ev_mk, ev_fold]) | split | with_reducible apply foldl_ev | dsimp only

theorem execDischargeDone_ev {g0 : Since} (vdc : Int) {s : State} (es : Ev g0 s.hw) :
    OutEv g0 (execDischargeDone vdc s) := by
  unfold execDischargeDone; with_reducible refine onHw_ev (fun {h} e => ?_) (by assumption)
  repeat' first
    | (with_reducible first | assumption | intro _ | apply ev_ite | apply onHw_ev | apply Hw.dischargeDone_ev)
    | (simp only [ev_mk, ev_fold]) | split | with_reducible apply foldl_ev | dsimp only

theorem Hw.hvilOpen_ev {g0 : Since} {h : Hw} (eh : Ev g0 h) : Ev g0 (Hw.hvilOpen h) := by
  unfold Hw.hvilOpen
  repeat' first
    | (with_reducible first | assumption | intro _ | apply ev_ite | apply Hw.raiseOnce_ev | apply Hw.drainCharge_ev
                            | apply Hw.enterArrest_ev | apply Hw.raiseAs_ev)
    | (simp only [ev_mk, ev_fold]) | split | with_reducible apply foldl_ev | dsimp only

theorem Hw.hvilChange_ev {g0 : Since} {h : Hw} (ua : Int) (eh : Ev g0 h) : Ev g0 (Hw.hvilChange h ua) := by
  unfold Hw.hvilChange
  repeat' first
    | (with_reducible first | assumption | intro _ | apply ev_ite | apply Hw.clearFault_ev | apply Hw.hvilOpen_ev
                            | apply Hw.raiseOnce_ev)
    | (simp only [ev_mk, ev_fold]) | split | with_reducible apply foldl_ev | dsimp only

theorem execHvilLoopChange_ev {g0 : Since} (microamps : HvilCurrent) (held : Nat) {s : State} (es : Ev g0 s.hw) :
    OutEv g0 (execHvilLoopChange microamps held s) := by
  unfold execHvilLoopChange; with_reducible refine onHw_ev (fun {h} e => ?_) (by assumption)
  repeat' first
    | (with_reducible first | assumption | intro _ | apply ev_ite | apply onHw_ev | apply Hw.hvilChange_ev)
    | (simp only [ev_mk, ev_fold]) | split | with_reducible apply foldl_ev | dsimp only

theorem Hw.newChallenge_ev {g0 : Since} {h : Hw} (eh : Ev g0 h) : Ev g0 (Hw.newChallenge h) := by
  unfold Hw.newChallenge
  repeat' first
    | (with_reducible first | assumption | intro _ | apply ev_ite | apply Hw.drawn_ev)
    | (simp only [ev_mk, ev_fold]) | split | with_reducible apply foldl_ev | dsimp only

theorem Hw.debugAttach_ev {g0 : Since} {h : Hw} (eh : Ev g0 h) : Ev g0 (Hw.debugAttach h) := by
  unfold Hw.debugAttach
  repeat' first
    | (with_reducible first | assumption | intro _ | apply ev_ite | apply Hw.newChallenge_ev | apply Hw.raiseOnce_ev)
    | (simp only [ev_mk, ev_fold]) | split | with_reducible apply foldl_ev | dsimp only

theorem execDebugAttach_ev {g0 : Since} {s : State} (es : Ev g0 s.hw) : OutEv g0 (execDebugAttach s) := by
  unfold execDebugAttach; with_reducible refine onHw_ev (fun {h} e => ?_) (by assumption)
  repeat' first
    | (with_reducible first | assumption | intro _ | apply ev_ite | apply onHw_ev | apply Hw.debugAttach_ev)
    | (simp only [ev_mk, ev_fold]) | split | with_reducible apply foldl_ev | dsimp only

theorem Hw.splitEnd_ev {g0 : Since} {h : Hw} (eh : Ev g0 h) : Ev g0 (Hw.splitEnd h) := by
  unfold Hw.splitEnd
  repeat' first
    | (with_reducible first | assumption | intro _ | apply ev_ite)
    | (simp only [ev_mk, ev_fold]) | split | with_reducible apply foldl_ev | dsimp only

theorem Hw.overdueArrest_ev {g0 : Since} {h : Hw} (eh : Ev g0 h) : Ev g0 (Hw.overdueArrest h) := by
  unfold Hw.overdueArrest
  repeat' first
    | (with_reducible first | assumption | intro _ | apply ev_ite | apply Hw.enterArrest_ev)
    | (simp only [ev_mk, ev_fold]) | split | with_reducible apply foldl_ev | dsimp only

theorem Hw.debugDetach_ev {g0 : Since} {h : Hw} (eh : Ev g0 h) : Ev g0 (Hw.debugDetach h) := by
  unfold Hw.debugDetach
  repeat' first
    | (with_reducible first | assumption | intro _ | apply ev_ite | apply Hw.clearFault_ev | apply Hw.splitEnd_ev
                            | apply Hw.overdueArrest_ev)
    | (simp only [ev_mk, ev_fold]) | split | with_reducible apply foldl_ev | dsimp only

theorem execDebugDetach_ev {g0 : Since} {s : State} (es : Ev g0 s.hw) : OutEv g0 (execDebugDetach s) := by
  unfold execDebugDetach; with_reducible refine onHw_ev (fun {h} e => ?_) (by assumption)
  repeat' first
    | (with_reducible first | assumption | intro _ | apply ev_ite | apply onHw_ev | apply Hw.debugDetach_ev)
    | (simp only [ev_mk, ev_fold]) | split | with_reducible apply foldl_ev | dsimp only

theorem execDebugAuthenticate_ev {g0 : Since} (sigOk : Bool) {s : State} (es : Ev g0 s.hw) :
    OutEv g0 (execDebugAuthenticate sigOk s) := by
  unfold execDebugAuthenticate; with_reducible refine onHw_ev (fun {h} e => ?_) (by assumption)
  repeat' first
    | (with_reducible first | assumption | intro _ | apply ev_ite | apply onHw_ev | apply Hw.newChallenge_ev
                            | apply Hw.emit_ev)
    | (simp only [ev_mk, ev_fold]) | split | with_reducible apply foldl_ev | dsimp only

theorem execDebugRead_ev {g0 : Since} (addr : DebugAddr) {s : State} (es : Ev g0 s.hw) :
    OutEv g0 (execDebugRead addr s) := by
  unfold execDebugRead; with_reducible refine onHw_ev (fun {h} e => ?_) (by assumption)
  repeat' first
    | (with_reducible first | assumption | intro _ | apply ev_ite | apply onHw_ev | apply Hw.emit_ev
                            | apply Hw.drawn_ev)
    | (simp only [ev_mk, ev_fold]) | split | with_reducible apply foldl_ev | dsimp only

theorem execDebugHalt_ev {g0 : Since} {s : State} (es : Ev g0 s.hw) : OutEv g0 (execDebugHalt s) := by
  unfold execDebugHalt; with_reducible refine onHw_ev (fun {h} e => ?_) (by assumption)
  repeat' first
    | (with_reducible first | assumption | intro _ | apply ev_ite | apply onHw_ev | apply Hw.orderBoth_ev
                            | apply Hw.occur_ev | apply Hw.emit_ev)
    | (simp only [ev_mk, ev_fold]) | split | with_reducible apply foldl_ev | dsimp only

theorem execDebugStep_ev {g0 : Since} {s : State} (es : Ev g0 s.hw) : OutEv g0 (execDebugStep s) := by
  unfold execDebugStep; with_reducible refine onHw_ev (fun {h} e => ?_) (by assumption)
  repeat' first
    | (with_reducible first | assumption | intro _ | apply ev_ite | apply onHw_ev | apply Hw.occur_ev
                            | apply Hw.emit_ev)
    | (simp only [ev_mk, ev_fold]) | split | with_reducible apply foldl_ev | dsimp only

theorem execDebugWrite_ev {g0 : Since} (addr : DebugAddr) (value : W32) {s : State} (es : Ev g0 s.hw) :
    OutEv g0 (execDebugWrite addr value s) := by
  unfold execDebugWrite; with_reducible refine onHw_ev (fun {h} e => ?_) (by assumption)
  repeat' first
    | (with_reducible first | assumption | intro _ | apply ev_ite | apply onHw_ev | apply Hw.occur_ev
                            | apply Hw.emit_ev)
    | (simp only [ev_mk, ev_fold]) | split | with_reducible apply foldl_ev | dsimp only

end Sys2Proof.Machine
end

