-- ==== Sys2Proof/Laws/EvolveHost.lean ====
section
/-!
SUPPORT. Laws/EvolveHost.lean: what every operation keeps of the limits and of what is never taken back, for rings, mailboxes, images, OTP programming, time and reports: one lemma
for each operation, named after it.
-/
set_option linter.unusedSimpArgs false
namespace Sys2Proof.Machine

theorem Hw.ringStops_ev {g0 : Since} {h : Hw} (n : Nat) (eh : Ev g0 h) : Ev g0 (Hw.ringStops h n) := by
  unfold Hw.ringStops
  repeat' first
    | (with_reducible first | assumption | intro _ | apply ev_ite | apply Hw.completeAll_ev | apply Hw.abortSnap_ev
                            | apply Hw.complete_ev)
    | (simp only [ev_mk, ev_fold]) | split | with_reducible apply foldl_ev | dsimp only

theorem Hw.settleClosing_ev {g0 : Since} {h : Hw} (eh : Ev g0 h) : Ev g0 (Hw.settleClosing h) := by
  unfold Hw.settleClosing
  repeat' first
    | (with_reducible first | assumption | intro _ | apply ev_ite | apply Hw.settleSession_ev)
    | (simp only [ev_mk, ev_fold]) | split | with_reducible apply foldl_ev | dsimp only

theorem Hw.ringError_ev {g0 : Since} {h : Hw} (n cause : Nat) (eh : Ev g0 h) : Ev g0 (Hw.ringError h n cause) := by
  unfold Hw.ringError
  repeat' first
    | (with_reducible first | assumption | intro _ | apply ev_ite | apply Hw.setRing_ev | apply Hw.ringStops_ev
                            | apply Hw.completeOpt_ev | apply Hw.settleClosing_ev)
    | (simp only [ev_mk, ev_fold]) | split | with_reducible apply foldl_ev | dsimp only

theorem Hw.adoptEvents_ev {g : Since} {h : Hw} (n : Nat) (e : Ev g h) : Ev g (h.adoptEvents n) := by
  unfold Hw.adoptEvents
  exact Hw.postWaiting_ev _ _ ⟨⟨e.1.1, e.1.2.1, Nat.zero_le _, e.1.2.2.2⟩, e.2⟩

theorem Hw.ringCreate_ev {g0 : Since} {h : Hw} (d : Desc) (q : Req) (eh : Ev g0 h) : Ev g0 (Hw.ringCreate h d q) := by
  unfold Hw.ringCreate
  repeat' first
    | (with_reducible first | assumption | intro _ | apply ev_ite | apply Hw.complete_ev | apply Hw.setRing_ev
                            | apply Hw.adoptEvents_ev)
    | (simp only [ev_mk, ev_fold]) | split | with_reducible apply foldl_ev | dsimp only

theorem execRingCreate_ev {g0 : Since} (d : Desc) {s : State} (es : Ev g0 s.hw) : OutEv g0 (execRingCreate d s) := by
  unfold execRingCreate; with_reducible refine onHw_ev (fun {h} e => ?_) (by assumption)
  repeat' first
    | (with_reducible first | assumption | intro _ | apply ev_ite | apply onHw_ev | apply Hw.descriptor_ev
                            | apply Hw.ringCreate_ev)
    | (simp only [ev_mk, ev_fold]) | split | with_reducible apply foldl_ev | dsimp only

theorem Hw.drainRing_ev {g0 : Since} {h : Hw} (n : Nat) (q : Option Req) (eh : Ev g0 h) :
    Ev g0 (Hw.drainRing h n q) := by
  unfold Hw.drainRing
  repeat' first
    | (with_reducible first | assumption | intro _ | apply ev_ite | apply Hw.setRing_ev | apply Hw.ringStops_ev
                            | apply Hw.settleRing_ev)
    | (simp only [ev_mk, ev_fold]) | split | with_reducible apply foldl_ev | dsimp only

theorem Hw.ringDisable_ev {g0 : Since} {h : Hw} (n : Nat) (q : Req) (eh : Ev g0 h) :
    Ev g0 (Hw.ringDisable h n q) := by
  unfold Hw.ringDisable
  repeat' first
    | (with_reducible first | assumption | intro _ | apply ev_ite | apply Hw.complete_ev | apply Hw.drainRing_ev)
    | (simp only [ev_mk, ev_fold]) | split | with_reducible apply foldl_ev | dsimp only

theorem execRingDisable_ev {g0 : Since} (d : Desc) {s : State} (es : Ev g0 s.hw) :
    OutEv g0 (execRingDisable d s) := by
  unfold execRingDisable; with_reducible refine onHw_ev (fun {h} e => ?_) (by assumption)
  repeat' first
    | (with_reducible first | assumption | intro _ | apply ev_ite | apply onHw_ev | apply Hw.descriptor_ev
                            | apply Hw.ringDisable_ev)
    | (simp only [ev_mk, ev_fold]) | split | with_reducible apply foldl_ev | dsimp only

theorem Hw.ringReset_ev {g0 : Since} {h : Hw} (n : Nat) (q : Req) (eh : Ev g0 h) : Ev g0 (Hw.ringReset h n q) := by
  unfold Hw.ringReset
  repeat' first
    | (with_reducible first | assumption | intro _ | apply ev_ite | apply Hw.complete_ev | apply Hw.setRing_ev)
    | (simp only [ev_mk, ev_fold]) | split | with_reducible apply foldl_ev | dsimp only

theorem execRingReset_ev {g0 : Since} (d : Desc) {s : State} (es : Ev g0 s.hw) : OutEv g0 (execRingReset d s) := by
  unfold execRingReset; with_reducible refine onHw_ev (fun {h} e => ?_) (by assumption)
  repeat' first
    | (with_reducible first | assumption | intro _ | apply ev_ite | apply onHw_ev | apply Hw.descriptor_ev
                            | apply Hw.ringReset_ev)
    | (simp only [ev_mk, ev_fold]) | split | with_reducible apply foldl_ev | dsimp only

theorem Hw.evict_ev {g0 : Since} {h : Hw} (n : Nat) (s : Session) (eh : Ev g0 h) : Ev g0 (Hw.evict h n s) := by
  unfold Hw.evict
  repeat' first
    | (with_reducible first | assumption | intro _ | apply ev_ite | apply Hw.emit_ev | apply Hw.drawn_ev
                            | apply Hw.setSession_ev | apply Hw.count_ev)
    | (simp only [ev_mk, ev_fold]) | split | with_reducible apply foldl_ev | dsimp only

theorem Hw.makeRoom_ev {g0 : Since} {h : Hw} (eh : Ev g0 h) : Ev g0 (Hw.makeRoom h) := by
  unfold Hw.makeRoom
  repeat' first
    | (with_reducible first | assumption | intro _ | apply ev_ite | apply Hw.evict_ev)
    | (simp only [ev_mk, ev_fold]) | split | with_reducible apply foldl_ev | dsimp only

theorem Hw.openSession_ev {g : Since} {h : Hw} (a : Auth) (pinned viaCan : Bool) (src : W32) (e : Ev g h) :
    Ev g (h.openSession a pinned viaCan src).1 := by
  unfold Hw.openSession
  split
  · exact e
  · exact Hw.setSession_ev _ _ (Hw.drawn_ev (ev_ite e (Hw.makeRoom_ev e)))

theorem Hw.sessionOpen_ev {g : Since} {h : Hw} (d : Desc) (q : Req) (e : Ev g h) : Ev g (h.sessionOpen d q) := by
  unfold Hw.sessionOpen
  dsimp only
  generalize hu : (if d.num 16 1 = 3 then _ else h : Hw) = u
  have eu : Ev g u := by subst hu; exact ev_ite e e
  split
  · exact Hw.complete_ev _ _ eu
  · have e1 := Hw.openSession_ev (Auth.ofCode (d.num 16 1))
      (Auth.ofCode (d.num 16 1) == Auth.motion || decide (d.num 17 1 = 1)) false (BitVec.ofNat 32 (d.num 20 4)) eu
    split
    · exact Hw.complete_ev _ _ (Hw.emit_ev _ e1)
    · exact Hw.complete_ev _ _ e1

theorem execSessionOpen_ev {g0 : Since} (d : Desc) {s : State} (es : Ev g0 s.hw) :
    OutEv g0 (execSessionOpen d s) := by
  unfold execSessionOpen; with_reducible refine onHw_ev (fun {h} e => ?_) (by assumption)
  repeat' first
    | (with_reducible first | assumption | intro _ | apply ev_ite | apply onHw_ev | apply Hw.descriptor_ev
                            | apply Hw.sessionOpen_ev)
    | (simp only [ev_mk, ev_fold]) | split | with_reducible apply foldl_ev | dsimp only

theorem Hw.sessionChallenge_ev {g : Since} {h : Hw} (d : Desc) (q : Req) (e : Ev g h) : Ev g (h.sessionChallenge d q) :=
  Hw.complete_ev _ _ (Hw.emit_ev _ (Hw.drawn_ev e))

theorem execSessionChallenge_ev {g0 : Since} (d : Desc) {s : State} (es : Ev g0 s.hw) :
    OutEv g0 (execSessionChallenge d s) := by
  unfold execSessionChallenge; with_reducible refine onHw_ev (fun {h} e => ?_) (by assumption)
  repeat' first
    | (with_reducible first | assumption | intro _ | apply ev_ite | apply onHw_ev | apply Hw.descriptor_ev
                            | apply Hw.sessionChallenge_ev)
    | (simp only [ev_mk, ev_fold]) | split | with_reducible apply foldl_ev | dsimp only

theorem Hw.rampOut_ev {g0 : Since} {h : Hw} (b : Bridge) (n : Nat) (eh : Ev g0 h) : Ev g0 (Hw.rampOut h b n) := by
  unfold Hw.rampOut
  repeat' first
    | (with_reducible first | assumption | intro _ | apply ev_ite | apply Hw.toZero_ev)
    | (simp only [ev_mk, ev_fold]) | split | with_reducible apply foldl_ev | dsimp only

theorem Hw.leaveWorkshop_ev {g0 : Since} {h : Hw} (eh : Ev g0 h) : Ev g0 (Hw.leaveWorkshop h) := by
  unfold Hw.leaveWorkshop
  repeat' first
    | (with_reducible first | assumption | intro _ | apply ev_ite | apply Hw.grant_ev)
    | (simp only [ev_mk, ev_fold]) | split | with_reducible apply foldl_ev | dsimp only

theorem Hw.closeEffects_ev {g0 : Since} {h : Hw} (n : Nat) (s : Session) (eh : Ev g0 h) :
    Ev g0 (Hw.closeEffects h n s) := by
  unfold Hw.closeEffects
  repeat' first
    | (with_reducible first | assumption | intro _ | apply ev_ite | apply Hw.rampOut_ev | apply Hw.completeAll_ev
                            | apply Hw.dropCinches_ev | apply Hw.leaveWorkshop_ev | apply Hw.complete_ev)
    | (simp only [ev_mk, ev_fold]) | split | with_reducible apply foldl_ev | dsimp only

theorem Hw.endSession_ev {g0 : Since} {h : Hw} (n : Nat) (eh : Ev g0 h) : Ev g0 (Hw.endSession h n) := by
  unfold Hw.endSession
  repeat' first
    | (with_reducible first | assumption | intro _ | apply ev_ite | apply Hw.closeEffects_ev | apply Hw.clearFault_ev
                            | apply Hw.completeOpt_ev)
    | (simp only [ev_mk, ev_fold]) | split | with_reducible apply foldl_ev | dsimp only

theorem Hw.sessionClose_ev {g0 : Since} {h : Hw} (n : Nat) (q : Req) (eh : Ev g0 h) :
    Ev g0 (Hw.sessionClose h n q) := by
  unfold Hw.sessionClose
  repeat' first
    | (with_reducible first | assumption | intro _ | apply ev_ite | apply Hw.complete_ev | apply Hw.closeEffects_ev
                            | apply Hw.setSession_ev | apply Hw.settleSession_ev)
    | (simp only [ev_mk, ev_fold]) | split | with_reducible apply foldl_ev | dsimp only

theorem execSessionClose_ev {g0 : Since} (d : Desc) {s : State} (es : Ev g0 s.hw) :
    OutEv g0 (execSessionClose d s) := by
  unfold execSessionClose; with_reducible refine onHw_ev (fun {h} e => ?_) (by assumption)
  repeat' first
    | (with_reducible first | assumption | intro _ | apply ev_ite | apply onHw_ev | apply Hw.descriptor_ev
                            | apply Hw.sessionClose_ev)
    | (simp only [ev_mk, ev_fold]) | split | with_reducible apply foldl_ev | dsimp only

theorem Hw.doorbell_ev {g0 : Since} {h : Hw} (n : Nat) (value : W32) (eh : Ev g0 h) :
    Ev g0 (Hw.doorbell h n value) := by
  unfold Hw.doorbell
  repeat' first
    | (with_reducible first | assumption | intro _ | apply ev_ite | apply Hw.ringError_ev | apply Hw.occurActed_ev
                            | apply Hw.setRing_ev)
    | (simp only [ev_mk, ev_fold]) | split | with_reducible apply foldl_ev | dsimp only

theorem execDoorbellWrite_ev {g0 : Since} (offset : BitVec 14) (width : Nat) (value : W32) {s : State} (es : Ev g0 s.hw) :
    OutEv g0 (execDoorbellWrite offset width value s) := by
  unfold execDoorbellWrite; with_reducible refine onHw_ev (fun {h} e => ?_) (by assumption)
  repeat' first
    | (with_reducible first | assumption | intro _ | apply ev_ite | apply onHw_ev | apply Hw.doorbell_ev)
    | (simp only [ev_mk, ev_fold]) | split | with_reducible apply foldl_ev | dsimp only

theorem execBufferedEntryPost_ev {g0 : Since} (ring : Fin 64) {s : State} (es : Ev g0 s.hw) :
    OutEv g0 (execBufferedEntryPost ring s) := by
  unfold execBufferedEntryPost; with_reducible refine onHw_ev (fun {h} e => ?_) (by assumption)
  repeat' first
    | (with_reducible first | assumption | intro _ | apply ev_ite | apply onHw_ev | apply Hw.postWaiting_ev
                            | apply Hw.settleRing_ev | apply Hw.postSnap_ev | apply Hw.settleSnap_ev)
    | (simp only [ev_mk, ev_fold]) | split | with_reducible apply foldl_ev | dsimp only

theorem Hw.cqStall_ev {g0 : Since} {h : Hw} (n : Nat) (eh : Ev g0 h) : Ev g0 (Hw.cqStall h n) := by
  unfold Hw.cqStall
  repeat' first
    | (with_reducible first | assumption | intro _ | apply ev_ite | apply Hw.ringError_ev | apply Hw.occurActed_ev)
    | (simp only [ev_mk, ev_fold]) | split | with_reducible apply foldl_ev | dsimp only

theorem execCqStall_ev {g0 : Since} (ring : Fin 64) {s : State} (es : Ev g0 s.hw) :
    OutEv g0 (execCqStall ring s) := by
  unfold execCqStall; with_reducible refine onHw_ev (fun {h} e => ?_) (by assumption)
  repeat' first
    | (with_reducible first | assumption | intro _ | apply ev_ite | apply onHw_ev | apply Hw.cqStall_ev)
    | (simp only [ev_mk, ev_fold]) | split | with_reducible apply foldl_ev | dsimp only

theorem execCoalesceTimeout_ev {g0 : Since} (ring : Fin 64) {s : State} (es : Ev g0 s.hw) :
    OutEv g0 (execCoalesceTimeout ring s) := by
  unfold execCoalesceTimeout; with_reducible refine onHw_ev (fun {h} e => ?_) (by assumption)
  repeat' first
    | (with_reducible first | assumption | intro _ | apply ev_ite | apply onHw_ev | apply Hw.signalRing_ev)
    | (simp only [ev_mk, ev_fold]) | split | with_reducible apply foldl_ev | dsimp only

theorem Hw.sendPending_ev {g0 : Since} {h : Hw} (v : Nat) (eh : Ev g0 h) : Ev g0 (Hw.sendPending h v) := by
  unfold Hw.sendPending
  repeat' first
    | (with_reducible first | assumption | intro _ | apply ev_ite | apply Hw.msix_ev | apply Hw.emit_ev)
    | (simp only [ev_mk, ev_fold]) | split | with_reducible apply foldl_ev | dsimp only

theorem execMsixUnmask_ev {g0 : Since} (vector : Fin 65) {s : State} (es : Ev g0 s.hw) :
    OutEv g0 (execMsixUnmask vector s) := by
  unfold execMsixUnmask; with_reducible refine onHw_ev (fun {h} e => ?_) (by assumption)
  repeat' first
    | (with_reducible first | assumption | intro _ | apply ev_ite | apply onHw_ev | apply Hw.msix_ev
                            | apply Hw.sendPending_ev)
    | (simp only [ev_mk, ev_fold]) | split | with_reducible apply foldl_ev | dsimp only

theorem Hw.ring0Reset_ev {g0 : Since} {h : Hw} (eh : Ev g0 h) : Ev g0 (Hw.ring0Reset h) := by
  unfold Hw.ring0Reset
  repeat' first
    | (with_reducible first | assumption | intro _ | apply ev_ite | apply Hw.setRing_ev | apply Hw.dropCinches_ev
                            | apply Hw.settleClosing_ev)
    | (simp only [ev_mk, ev_fold]) | split | with_reducible apply foldl_ev | dsimp only

theorem Hw.ring0Enable_ev {g0 : Since} {h : Hw} (value : W32) (eh : Ev g0 h) : Ev g0 (Hw.ring0Enable h value) := by
  unfold Hw.ring0Enable
  repeat' first
    | (with_reducible first | assumption | intro _ | apply ev_ite | apply Hw.setRing_ev)
    | (simp only [ev_mk, ev_fold]) | split | with_reducible apply foldl_ev | dsimp only

theorem Hw.ring0Disable_ev {g0 : Since} {h : Hw} (value : W32) (eh : Ev g0 h) : Ev g0 (Hw.ring0Disable h value) := by
  unfold Hw.ring0Disable
  repeat' first
    | (with_reducible first | assumption | intro _ | apply ev_ite | apply Hw.drainRing_ev)
    | (simp only [ev_mk, ev_fold]) | split | with_reducible apply foldl_ev | dsimp only

theorem Hw.ring0Write_ev {g0 : Since} {h : Hw} (value : W32) (eh : Ev g0 h) : Ev g0 (Hw.ring0Write h value) := by
  unfold Hw.ring0Write
  repeat' first
    | (with_reducible first | assumption | intro _ | apply ev_ite | apply Hw.ring0Reset_ev | apply Hw.ring0Enable_ev
                            | apply Hw.ring0Disable_ev)
    | (simp only [ev_mk, ev_fold]) | split | with_reducible apply foldl_ev | dsimp only

theorem execRing0CtrlEnable_ev {g0 : Since} (value : W32) {s : State} (es : Ev g0 s.hw) :
    OutEv g0 (execRing0CtrlEnable value s) := by
  unfold execRing0CtrlEnable; with_reducible refine onHw_ev (fun {h} e => ?_) (by assumption)
  repeat' first
    | (with_reducible first | assumption | intro _ | apply ev_ite | apply onHw_ev | apply Hw.ring0Write_ev)
    | (simp only [ev_mk, ev_fold]) | split | with_reducible apply foldl_ev | dsimp only

theorem execRing0CtrlDisable_ev {g0 : Since} (value : W32) {s : State} (es : Ev g0 s.hw) :
    OutEv g0 (execRing0CtrlDisable value s) := by
  unfold execRing0CtrlDisable; with_reducible refine onHw_ev (fun {h} e => ?_) (by assumption)
  repeat' first
    | (with_reducible first | assumption | intro _ | apply ev_ite | apply onHw_ev | apply Hw.ring0Write_ev)
    | (simp only [ev_mk, ev_fold]) | split | with_reducible apply foldl_ev | dsimp only

theorem execRing0CtrlReset_ev {g0 : Since} (value : W32) {s : State} (es : Ev g0 s.hw) :
    OutEv g0 (execRing0CtrlReset value s) := by
  unfold execRing0CtrlReset; with_reducible refine onHw_ev (fun {h} e => ?_) (by assumption)
  repeat' first
    | (with_reducible first | assumption | intro _ | apply ev_ite | apply onHw_ev | apply Hw.ring0Write_ev)
    | (simp only [ev_mk, ev_fold]) | split | with_reducible apply foldl_ev | dsimp only

theorem Hw.tableWrite_ev {g0 : Since} {h : Hw} (value : W32) (eh : Ev g0 h) : Ev g0 (Hw.tableWrite h value) := by
  unfold Hw.tableWrite
  repeat' first
    | (with_reducible first | assumption | intro _ | apply ev_ite)
    | (simp only [ev_mk, ev_fold]) | split | with_reducible apply foldl_ev | dsimp only

theorem execSessionTableEnable_ev {g0 : Since} (value : W32) {s : State} (es : Ev g0 s.hw) :
    OutEv g0 (execSessionTableEnable value s) := by
  unfold execSessionTableEnable; with_reducible refine onHw_ev (fun {h} e => ?_) (by assumption)
  repeat' first
    | (with_reducible first | assumption | intro _ | apply ev_ite | apply onHw_ev | apply Hw.tableWrite_ev)
    | (simp only [ev_mk, ev_fold]) | split | with_reducible apply foldl_ev | dsimp only

theorem execSessionTableDisable_ev {g0 : Since} (value : W32) {s : State} (es : Ev g0 s.hw) :
    OutEv g0 (execSessionTableDisable value s) := by
  unfold execSessionTableDisable; with_reducible refine onHw_ev (fun {h} e => ?_) (by assumption)
  repeat' first
    | (with_reducible first | assumption | intro _ | apply ev_ite | apply onHw_ev | apply Hw.tableWrite_ev)
    | (simp only [ev_mk, ev_fold]) | split | with_reducible apply foldl_ev | dsimp only

theorem execModuleTimeLoRead_ev {g0 : Since} {s : State} (es : Ev g0 s.hw) : OutEv g0 (execModuleTimeLoRead s) := by
  unfold execModuleTimeLoRead; with_reducible refine onHw_ev (fun {h} e => ?_) (by assumption)
  repeat' first
    | (with_reducible first | assumption | intro _ | apply ev_ite | apply onHw_ev | apply Hw.emit_ev)
    | (simp only [ev_mk, ev_fold]) | split | with_reducible apply foldl_ev | dsimp only

theorem Hw.setMb_ev {g0 : Since} {h : Hw} (m : Nat) (x : Mailbox) (eh : Ev g0 h) : Ev g0 (Hw.setMb h m x) := by
  unfold Hw.setMb
  repeat' first
    | (with_reducible first | assumption | intro _ | apply ev_ite)
    | (simp only [ev_mk, ev_fold]) | split | with_reducible apply foldl_ev | dsimp only

theorem Hw.mbLockRead_ev {g0 : Since} {h : Hw} (m agent : Nat) (eh : Ev g0 h) : Ev g0 (Hw.mbLockRead h m agent) := by
  unfold Hw.mbLockRead
  repeat' first
    | (with_reducible first | assumption | intro _ | apply ev_ite | apply Hw.emit_ev | apply Hw.setMb_ev)
    | (simp only [ev_mk, ev_fold]) | split | with_reducible apply foldl_ev | dsimp only

theorem execMbLockRead_ev {g0 : Since} (mb : Fin 16) (agent : Fin 12) {s : State} (es : Ev g0 s.hw) :
    OutEv g0 (execMbLockRead mb agent s) := by
  unfold execMbLockRead; with_reducible refine onHw_ev (fun {h} e => ?_) (by assumption)
  repeat' first
    | (with_reducible first | assumption | intro _ | apply ev_ite | apply onHw_ev | apply Hw.mbLockRead_ev)
    | (simp only [ev_mk, ev_fold]) | split | with_reducible apply foldl_ev | dsimp only

theorem Hw.mbRelease_ev {g0 : Since} {h : Hw} (m agent : Nat) (eh : Ev g0 h) : Ev g0 (Hw.mbRelease h m agent) := by
  unfold Hw.mbRelease
  repeat' first
    | (with_reducible first | assumption | intro _ | apply ev_ite | apply Hw.setMb_ev)
    | (simp only [ev_mk, ev_fold]) | split | with_reducible apply foldl_ev | dsimp only

theorem execMbLockRelease_ev {g0 : Since} (mb : Fin 16) (agent : Fin 12) {s : State} (es : Ev g0 s.hw) :
    OutEv g0 (execMbLockRelease mb agent s) := by
  unfold execMbLockRelease; with_reducible refine onHw_ev (fun {h} e => ?_) (by assumption)
  repeat' first
    | (with_reducible first | assumption | intro _ | apply ev_ite | apply onHw_ev | apply Hw.mbRelease_ev)
    | (simp only [ev_mk, ev_fold]) | split | with_reducible apply foldl_ev | dsimp only

theorem Hw.mbWrite_ev {g0 : Since} {h : Hw} (m agent : Nat) (word : W32) (eh : Ev g0 h) :
    Ev g0 (Hw.mbWrite h m agent word) := by
  unfold Hw.mbWrite
  repeat' first
    | (with_reducible first | assumption | intro _ | apply ev_ite | apply Hw.setMb_ev)
    | (simp only [ev_mk, ev_fold]) | split | with_reducible apply foldl_ev | dsimp only

theorem execMbDataWrite_ev {g0 : Since} (mb : Fin 16) (agent : Fin 12) (word : W32) {s : State} (es : Ev g0 s.hw) :
    OutEv g0 (execMbDataWrite mb agent word s) := by
  unfold execMbDataWrite; with_reducible refine onHw_ev (fun {h} e => ?_) (by assumption)
  repeat' first
    | (with_reducible first | assumption | intro _ | apply ev_ite | apply onHw_ev | apply Hw.mbWrite_ev)
    | (simp only [ev_mk, ev_fold]) | split | with_reducible apply foldl_ev | dsimp only

theorem Hw.mbAck_ev {g0 : Since} {h : Hw} (m : Nat) (code : Byte) (eh : Ev g0 h) : Ev g0 (Hw.mbAck h m code) := by
  unfold Hw.mbAck
  repeat' first
    | (with_reducible first | assumption | intro _ | apply ev_ite | apply Hw.setMb_ev)
    | (simp only [ev_mk, ev_fold]) | split | with_reducible apply foldl_ev | dsimp only

theorem execMbAcknowledge_ev {g0 : Since} (mb : Fin 16) (agent : Fin 12) (code : Byte) {s : State} (es : Ev g0 s.hw) :
    OutEv g0 (execMbAcknowledge mb agent code s) := by
  unfold execMbAcknowledge; with_reducible refine onHw_ev (fun {h} e => ?_) (by assumption)
  repeat' first
    | (with_reducible first | assumption | intro _ | apply ev_ite | apply onHw_ev | apply Hw.mbAck_ev)
    | (simp only [ev_mk, ev_fold]) | split | with_reducible apply foldl_ev | dsimp only

theorem Hw.mbTimeoutClear_ev {g0 : Since} {h : Hw} (m : Nat) (eh : Ev g0 h) : Ev g0 (Hw.mbTimeoutClear h m) := by
  unfold Hw.mbTimeoutClear
  repeat' first
    | (with_reducible first | assumption | intro _ | apply ev_ite | apply Hw.setMb_ev)
    | (simp only [ev_mk, ev_fold]) | split | with_reducible apply foldl_ev | dsimp only

theorem execMbTimeoutClear_ev {g0 : Since} (mb : Fin 16) {s : State} (es : Ev g0 s.hw) :
    OutEv g0 (execMbTimeoutClear mb s) := by
  unfold execMbTimeoutClear; with_reducible refine onHw_ev (fun {h} e => ?_) (by assumption)
  repeat' first
    | (with_reducible first | assumption | intro _ | apply ev_ite | apply onHw_ev | apply Hw.mbTimeoutClear_ev)
    | (simp only [ev_mk, ev_fold]) | split | with_reducible apply foldl_ev | dsimp only

theorem execMbTimeout_ev {g0 : Since} (mb : Fin 16) {s : State} (es : Ev g0 s.hw) :
    OutEv g0 (execMbTimeout mb s) := by
  unfold execMbTimeout; with_reducible refine onHw_ev (fun {h} e => ?_) (by assumption)
  repeat' first
    | (with_reducible first | assumption | intro _ | apply ev_ite | apply onHw_ev | apply Hw.setMb_ev)
    | (simp only [ev_mk, ev_fold]) | split | with_reducible apply foldl_ev | dsimp only

theorem execMbLockExpiry_ev {g0 : Since} (mb : Fin 16) (ownerReset : Bool) {s : State} (es : Ev g0 s.hw) :
    OutEv g0 (execMbLockExpiry mb ownerReset s) := by
  unfold execMbLockExpiry; with_reducible refine onHw_ev (fun {h} e => ?_) (by assumption)
  repeat' first
    | (with_reducible first | assumption | intro _ | apply ev_ite | apply onHw_ev | apply Hw.setMb_ev)
    | (simp only [ev_mk, ev_fold]) | split | with_reducible apply foldl_ev | dsimp only

theorem execPing_ev {g0 : Since} {s : State} (es : Ev g0 s.hw) : OutEv g0 (execPing s) := by
  unfold execPing; with_reducible refine onHw_ev (fun {h} e => ?_) (by assumption)
  repeat' first
    | (with_reducible first | assumption | intro _ | apply ev_ite | apply onHw_ev | apply Hw.busyNow_ev
                            | apply Hw.mbAck_ev)
    | (simp only [ev_mk, ev_fold]) | split | with_reducible apply foldl_ev | dsimp only

theorem Hw.mbSleep_ev {g0 : Since} {h : Hw} (eh : Ev g0 h) : Ev g0 (Hw.mbSleep h) := by
  unfold Hw.mbSleep
  repeat' first
    | (with_reducible first | assumption | intro _ | apply ev_ite | apply Hw.mbAck_ev | apply Hw.busyNow_ev
                            | apply Hw.grant_ev)
    | (simp only [ev_mk, ev_fold]) | split | with_reducible apply foldl_ev | dsimp only

theorem execSleep_ev {g0 : Since} {s : State} (es : Ev g0 s.hw) : OutEv g0 (execSleep s) := by
  unfold execSleep; with_reducible refine onHw_ev (fun {h} e => ?_) (by assumption)
  repeat' first
    | (with_reducible first | assumption | intro _ | apply ev_ite | apply onHw_ev | apply Hw.mbSleep_ev)
    | (simp only [ev_mk, ev_fold]) | split | with_reducible apply foldl_ev | dsimp only

theorem execRing0Reset_ev {g0 : Since} {s : State} (es : Ev g0 s.hw) : OutEv g0 (execRing0Reset s) := by
  unfold execRing0Reset; with_reducible refine onHw_ev (fun {h} e => ?_) (by assumption)
  repeat' first
    | (with_reducible first | assumption | intro _ | apply ev_ite | apply onHw_ev | apply Hw.busyNow_ev
                            | apply Hw.ring0Reset_ev | apply Hw.mbAck_ev)
    | (simp only [ev_mk, ev_fold]) | split | with_reducible apply foldl_ev | dsimp only

theorem Hw.appWord_ev {g0 : Since} {h : Hw} (m : Nat) (code : Byte) (eh : Ev g0 h) : Ev g0 (Hw.appWord h m code) := by
  unfold Hw.appWord
  repeat' first
    | (with_reducible first | assumption | intro _ | apply ev_ite | apply Hw.mbAck_ev | apply Hw.busyNow_ev)
    | (simp only [ev_mk, ev_fold]) | split | with_reducible apply foldl_ev | dsimp only

theorem execAppMailboxWord_ev {g0 : Since} (third : Bool) (code : Byte) {s : State} (es : Ev g0 s.hw) :
    OutEv g0 (execAppMailboxWord third code s) := by
  unfold execAppMailboxWord; with_reducible refine onHw_ev (fun {h} e => ?_) (by assumption)
  repeat' first
    | (with_reducible first | assumption | intro _ | apply ev_ite | apply onHw_ev | apply Hw.appWord_ev)
    | (simp only [ev_mk, ev_fold]) | split | with_reducible apply foldl_ev | dsimp only

theorem Hw.msixWrite_ev {g0 : Since} {h : Hw} (off : Nat) (v : W32) (eh : Ev g0 h) :
    Ev g0 (Hw.msixWrite h off v) := by
  unfold Hw.msixWrite
  repeat' first
    | (with_reducible first | assumption | intro _ | apply ev_ite | apply Hw.msix_ev | apply Hw.sendPending_ev)
    | (simp only [ev_mk, ev_fold]) | split | with_reducible apply foldl_ev | dsimp only

theorem Hw.mbRegWrite_ev {g0 : Since} {h : Hw} (off : Nat) (v : W32) (eh : Ev g0 h) :
    Ev g0 (Hw.mbRegWrite h off v) := by
  unfold Hw.mbRegWrite
  repeat' first
    | (with_reducible first | assumption | intro _ | apply ev_ite | apply Hw.mbWrite_ev | apply Hw.mbTimeoutClear_ev
                            | apply Hw.mbRelease_ev)
    | (simp only [ev_mk, ev_fold]) | split | with_reducible apply foldl_ev | dsimp only

theorem Hw.regWrite_ev {g0 : Since} {h : Hw} (off : Nat) (v : W32) (eh : Ev g0 h) : Ev g0 (Hw.regWrite h off v) := by
  unfold Hw.regWrite
  repeat' first
    | (with_reducible first | assumption | intro _ | apply ev_ite | apply Hw.ring0Write_ev | apply Hw.tableWrite_ev
                            | apply Hw.mbRegWrite_ev | apply Hw.msixWrite_ev)
    | (simp only [ev_mk, ev_fold]) | split | with_reducible apply foldl_ev | dsimp only

theorem Hw.regWrite64_ev {g0 : Since} {h : Hw} (o : Nat) (v : W64) (eh : Ev g0 h) : Ev g0 (Hw.regWrite64 h o v) := by
  unfold Hw.regWrite64
  repeat' first
    | (with_reducible first | assumption | intro _ | apply ev_ite | apply Hw.regWrite_ev)
    | (simp only [ev_mk, ev_fold]) | split | with_reducible apply foldl_ev | dsimp only

theorem execRegisterWrite_ev {g0 : Since} (offset : W16) (width : Nat) (value : W64) {s : State} (es : Ev g0 s.hw) :
    OutEv g0 (execRegisterWrite offset width value s) := by
  unfold execRegisterWrite; with_reducible refine onHw_ev (fun {h} e => ?_) (by assumption)
  repeat' first
    | (with_reducible first | assumption | intro _ | apply ev_ite | apply onHw_ev | apply Hw.regWrite_ev
                            | apply Hw.regWrite64_ev)
    | (simp only [ev_mk, ev_fold]) | split | with_reducible apply foldl_ev | dsimp only

theorem Hw.allRingsError_ev {g0 : Since} {h : Hw} (eh : Ev g0 h) : Ev g0 (Hw.allRingsError h) := by
  unfold Hw.allRingsError
  repeat' first
    | (with_reducible first | assumption | intro _ | apply ev_ite | apply Hw.ringError_ev)
    | (simp only [ev_mk, ev_fold]) | split | with_reducible apply foldl_ev | dsimp only

theorem Hw.closeSessions_ev {g0 : Since} {h : Hw} (eh : Ev g0 h) : Ev g0 (Hw.closeSessions h) := by
  unfold Hw.closeSessions
  repeat' first
    | (with_reducible first | assumption | intro _ | apply ev_ite | apply Hw.endSession_ev)
    | (simp only [ev_mk, ev_fold]) | split | with_reducible apply foldl_ev | dsimp only

theorem Hw.releaseHost_ev {g0 : Since} {h : Hw} (eh : Ev g0 h) : Ev g0 (Hw.releaseHost h) := by
  unfold Hw.releaseHost
  repeat' first
    | (with_reducible first | assumption | intro _ | apply ev_ite)
    | (simp only [ev_mk, ev_fold]) | split | with_reducible apply foldl_ev | dsimp only

theorem Hw.loseHost_ev {g0 : Since} {h : Hw} (eh : Ev g0 h) : Ev g0 (Hw.loseHost h) := by
  unfold Hw.loseHost
  repeat' first
    | (with_reducible first | assumption | intro _ | apply ev_ite | apply Hw.raiseOnce_ev | apply Hw.allRingsError_ev
                            | apply Hw.abortSnap_ev | apply Hw.dropCinches_ev | apply Hw.closeSessions_ev
                            | apply Hw.releaseHost_ev)
    | (simp only [ev_mk, ev_fold]) | split | with_reducible apply foldl_ev | dsimp only

theorem execHostLinkLost_ev {g0 : Since} (down : Nat) {s : State} (es : Ev g0 s.hw) :
    OutEv g0 (execHostLinkLost down s) := by
  unfold execHostLinkLost; with_reducible refine onHw_ev (fun {h} e => ?_) (by assumption)
  repeat' first
    | (with_reducible first | assumption | intro _ | apply ev_ite | apply onHw_ev | apply Hw.loseHost_ev)
    | (simp only [ev_mk, ev_fold]) | split | with_reducible apply foldl_ev | dsimp only

theorem execHotReset_ev {g0 : Since} {s : State} (es : Ev g0 s.hw) : OutEv g0 (execHotReset s) := by
  unfold execHotReset; with_reducible refine onHw_ev (fun {h} e => ?_) (by assumption)
  repeat' first
    | (with_reducible first | assumption | intro _ | apply ev_ite | apply onHw_ev | apply Hw.loseHost_ev)
    | (simp only [ev_mk, ev_fold]) | split | with_reducible apply foldl_ev | dsimp only

theorem execHostLinkUp_ev {g0 : Since} {s : State} (es : Ev g0 s.hw) : OutEv g0 (execHostLinkUp s) := by
  unfold execHostLinkUp; with_reducible refine onHw_ev (fun {h} e => ?_) (by assumption)
  repeat' first
    | (with_reducible first | assumption | intro _ | apply ev_ite | apply onHw_ev | apply Hw.clearFault_ev)
    | (simp only [ev_mk, ev_fold]) | split | with_reducible apply foldl_ev | dsimp only

theorem Hw.dmaError_ev {g0 : Since} {h : Hw} (n : Nat) (sessionTable : Bool) (eh : Ev g0 h) :
    Ev g0 (Hw.dmaError h n sessionTable) := by
  unfold Hw.dmaError
  repeat' first
    | (with_reducible first | assumption | intro _ | apply ev_ite | apply Hw.ringError_ev | apply Hw.occurActed_ev)
    | (simp only [ev_mk, ev_fold]) | split | with_reducible apply foldl_ev | dsimp only

theorem execHostDmaError_ev {g0 : Since} (ring : Fin 64) (sessionTable : Bool) {s : State} (es : Ev g0 s.hw) :
    OutEv g0 (execHostDmaError ring sessionTable s) := by
  unfold execHostDmaError; with_reducible refine onHw_ev (fun {h} e => ?_) (by assumption)
  repeat' first
    | (with_reducible first | assumption | intro _ | apply ev_ite | apply onHw_ev | apply Hw.dmaError_ev)
    | (simp only [ev_mk, ev_fold]) | split | with_reducible apply foldl_ev | dsimp only

theorem execCinchOpen_ev {g0 : Since} (d : Desc) {s : State} (es : Ev g0 s.hw) : OutEv g0 (execCinchOpen d s) := by
  unfold execCinchOpen; with_reducible refine onHw_ev (fun {h} e => ?_) (by assumption)
  repeat' first
    | (with_reducible first | assumption | intro _ | apply ev_ite | apply onHw_ev | apply Hw.descriptor_ev
                            | apply Hw.cinchOpen_ev)
    | (simp only [ev_mk, ev_fold]) | split | with_reducible apply foldl_ev | dsimp only

theorem execCinchMemberStage_ev {g0 : Since} (op : W16) (d : Desc) {s : State} (es : Ev g0 s.hw) :
    OutEv g0 (execCinchMemberStage op d s) := by
  unfold execCinchMemberStage; with_reducible refine onHw_ev (fun {h} e => ?_) (by assumption)
  repeat' first
    | (with_reducible first | assumption | intro _ | apply ev_ite | apply onHw_ev | apply Hw.stageMember_ev)
    | (simp only [ev_mk, ev_fold]) | split | with_reducible apply foldl_ev | dsimp only

theorem execCinchCommit_ev {g0 : Since} (d : Desc) {s : State} (es : Ev g0 s.hw) :
    OutEv g0 (execCinchCommit d s) := by
  unfold execCinchCommit; with_reducible refine onHw_ev (fun {h} e => ?_) (by assumption)
  repeat' first
    | (with_reducible first | assumption | intro _ | apply ev_ite | apply onHw_ev | apply Hw.descriptor_ev
                            | apply Hw.cinchCommit_ev)
    | (simp only [ev_mk, ev_fold]) | split | with_reducible apply foldl_ev | dsimp only

theorem execCinchAbort_ev {g0 : Since} (d : Desc) {s : State} (es : Ev g0 s.hw) : OutEv g0 (execCinchAbort d s) := by
  unfold execCinchAbort; with_reducible refine onHw_ev (fun {h} e => ?_) (by assumption)
  repeat' first
    | (with_reducible first | assumption | intro _ | apply ev_ite | apply onHw_ev | apply Hw.descriptor_ev
                            | apply Hw.cinchAbort_ev)
    | (simp only [ev_mk, ev_fold]) | split | with_reducible apply foldl_ev | dsimp only

theorem execCinchAccept_ev {g0 : Since} (slot : Fin 33) {s : State} (es : Ev g0 s.hw) :
    OutEv g0 (execCinchAccept slot s) := by
  unfold execCinchAccept; with_reducible refine onHw_ev (fun {h} e => ?_) (by assumption)
  repeat' first
    | (with_reducible first | assumption | intro _ | apply ev_ite | apply onHw_ev | apply Hw.cinchAccept_ev)
    | (simp only [ev_mk, ev_fold]) | split | with_reducible apply foldl_ev | dsimp only

theorem Hw.cinchInstant_ev {g0 : Since} {h : Hw} (n : Nat) (eh : Ev g0 h) : Ev g0 (Hw.cinchInstant h n) := by
  unfold Hw.cinchInstant
  repeat' first
    | (with_reducible first | assumption | intro _ | apply ev_ite | apply Hw.applyCinch_ev | apply Hw.seekCommon_ev)
    | (simp only [ev_mk, ev_fold]) | split | with_reducible apply foldl_ev | dsimp only

theorem execCinchInstant_ev {g0 : Since} (slot : Fin 33) {s : State} (es : Ev g0 s.hw) :
    OutEv g0 (execCinchInstant slot s) := by
  unfold execCinchInstant; with_reducible refine onHw_ev (fun {h} e => ?_) (by assumption)
  repeat' first
    | (with_reducible first | assumption | intro _ | apply ev_ite | apply onHw_ev | apply Hw.cinchInstant_ev)
    | (simp only [ev_mk, ev_fold]) | split | with_reducible apply foldl_ev | dsimp only

theorem Hw.cinchExpired_ev {g0 : Since} {h : Hw} (n : Nat) (eh : Ev g0 h) : Ev g0 (Hw.cinchExpired h n) := by
  unfold Hw.cinchExpired
  repeat' first
    | (with_reducible first | assumption | intro _ | apply ev_ite | apply Hw.dropCinch_ev | apply Hw.occur_ev)
    | (simp only [ev_mk, ev_fold]) | split | with_reducible apply foldl_ev | dsimp only

theorem execCinchExpired_ev {g0 : Since} (slot : Fin 33) {s : State} (es : Ev g0 s.hw) :
    OutEv g0 (execCinchExpired slot s) := by
  unfold execCinchExpired; with_reducible refine onHw_ev (fun {h} e => ?_) (by assumption)
  repeat' first
    | (with_reducible first | assumption | intro _ | apply ev_ite | apply onHw_ev | apply Hw.cinchExpired_ev)
    | (simp only [ev_mk, ev_fold]) | split | with_reducible apply foldl_ev | dsimp only

theorem Hw.paramSet_ev {g0 : Since} {h : Hw} (d : Desc) (q : Req) (eh : Ev g0 h) : Ev g0 (Hw.paramSet h d q) := by
  unfold Hw.paramSet
  repeat' first
    | (with_reducible first | assumption | intro _ | apply ev_ite | apply Hw.complete_ev | apply Hw.paramWrite_ev)
    | (simp only [ev_mk, ev_fold]) | split | with_reducible apply foldl_ev | dsimp only

theorem execParamWrite_ev {g0 : Since} (d : Desc) {s : State} (es : Ev g0 s.hw) : OutEv g0 (execParamWrite d s) := by
  unfold execParamWrite; with_reducible refine onHw_ev (fun {h} e => ?_) (by assumption)
  repeat' first
    | (with_reducible first | assumption | intro _ | apply ev_ite | apply onHw_ev | apply Hw.descriptor_ev
                            | apply Hw.paramSet_ev)
    | (simp only [ev_mk, ev_fold]) | split | with_reducible apply foldl_ev | dsimp only

theorem Hw.paramGet_ev {g0 : Since} {h : Hw} (d : Desc) (q : Req) (eh : Ev g0 h) : Ev g0 (Hw.paramGet h d q) := by
  unfold Hw.paramGet
  repeat' first
    | (with_reducible first | assumption | intro _ | apply ev_ite | apply Hw.complete_ev | apply Hw.emit_ev)
    | (simp only [ev_mk, ev_fold]) | split | with_reducible apply foldl_ev | dsimp only

theorem execParamRead_ev {g0 : Since} (d : Desc) {s : State} (es : Ev g0 s.hw) : OutEv g0 (execParamRead d s) := by
  unfold execParamRead; with_reducible refine onHw_ev (fun {h} e => ?_) (by assumption)
  repeat' first
    | (with_reducible first | assumption | intro _ | apply ev_ite | apply onHw_ev | apply Hw.descriptor_ev
                            | apply Hw.paramGet_ev)
    | (simp only [ev_mk, ev_fold]) | split | with_reducible apply foldl_ev | dsimp only

theorem Hw.imageDirectory_ev {g0 : Since} {h : Hw} (d : Desc) (q : Req) (eh : Ev g0 h) :
    Ev g0 (Hw.imageDirectory h d q) := by
  unfold Hw.imageDirectory
  repeat' first
    | (with_reducible first | assumption | intro _ | apply ev_ite | apply Hw.complete_ev | apply Hw.requestImage_ev)
    | (simp only [ev_mk, ev_fold]) | split | with_reducible apply foldl_ev | dsimp only

theorem execImageDirectory_ev {g0 : Since} (d : Desc) {s : State} (es : Ev g0 s.hw) :
    OutEv g0 (execImageDirectory d s) := by
  unfold execImageDirectory; with_reducible refine onHw_ev (fun {h} e => ?_) (by assumption)
  repeat' first
    | (with_reducible first | assumption | intro _ | apply ev_ite | apply onHw_ev | apply Hw.descriptor_ev
                            | apply Hw.imageDirectory_ev)
    | (simp only [ev_mk, ev_fold]) | split | with_reducible apply foldl_ev | dsimp only

theorem execImageSwap_ev {g0 : Since} (d : Desc) (img : ImageInfo) {s : State} (es : Ev g0 s.hw) :
    OutEv g0 (execImageSwap d img s) := by
  unfold execImageSwap; with_reducible refine onHw_ev (fun {h} e => ?_) (by assumption)
  repeat' first
    | (with_reducible first | assumption | intro _ | apply ev_ite | apply onHw_ev | apply Hw.stageMember_ev
                            | apply Hw.checked_ev | apply Hw.complete_ev)
    | (simp only [ev_mk, ev_fold]) | split | with_reducible apply foldl_ev | dsimp only

theorem Hw.safeRelease_ev {g0 : Since} {h : Hw} (eh : Ev g0 h) : Ev g0 (Hw.safeRelease h) := by
  unfold Hw.safeRelease
  repeat' first
    | (with_reducible first | assumption | intro _ | apply ev_ite)
    | (simp only [ev_mk, ev_fold]) | split | with_reducible apply foldl_ev | dsimp only

theorem execSafeSwapRelease_ev {g0 : Since} {s : State} (es : Ev g0 s.hw) : OutEv g0 (execSafeSwapRelease s) := by
  unfold execSafeSwapRelease; with_reducible refine onHw_ev (fun {h} e => ?_) (by assumption)
  repeat' first
    | (with_reducible first | assumption | intro _ | apply ev_ite | apply onHw_ev | apply Hw.safeRelease_ev)
    | (simp only [ev_mk, ev_fold]) | split | with_reducible apply foldl_ev | dsimp only

theorem Hw.safeFail_ev {g0 : Since} {h : Hw} (eh : Ev g0 h) : Ev g0 (Hw.safeFail h) := by
  unfold Hw.safeFail
  repeat' first
    | (with_reducible first | assumption | intro _ | apply ev_ite | apply Hw.orderBoth_ev | apply Hw.occurThen_ev
                            | apply Hw.safeRestart_ev)
    | (simp only [ev_mk, ev_fold]) | split | with_reducible apply foldl_ev | dsimp only

theorem execSafeSwapFail_ev {g0 : Since} {s : State} (es : Ev g0 s.hw) : OutEv g0 (execSafeSwapFail s) := by
  unfold execSafeSwapFail; with_reducible refine onHw_ev (fun {h} e => ?_) (by assumption)
  repeat' first
    | (with_reducible first | assumption | intro _ | apply ev_ite | apply onHw_ev | apply Hw.safeFail_ev)
    | (simp only [ev_mk, ev_fold]) | split | with_reducible apply foldl_ev | dsimp only

theorem Hw.endAppSwap_ev {g0 : Since} {h : Hw} (n : Nat) (st : Status) (eh : Ev g0 h) :
    Ev g0 (Hw.endAppSwap h n st) := by
  unfold Hw.endAppSwap
  repeat' first
    | (with_reducible first | assumption | intro _ | apply ev_ite | apply Hw.finishCinch_ev)
    | (simp only [ev_mk, ev_fold]) | split | with_reducible apply foldl_ev | dsimp only

theorem Hw.appCore_ev {g0 : Since} {h : Hw} (core : Nat) (ok : Bool) (eh : Ev g0 h) :
    Ev g0 (Hw.appCore h core ok) := by
  unfold Hw.appCore
  repeat' first
    | (with_reducible first | assumption | intro _ | apply ev_ite | apply Hw.endAppSwap_ev)
    | (simp only [ev_mk, ev_fold]) | split | with_reducible apply foldl_ev | dsimp only

theorem execAppCoreSwap_ev {g0 : Since} (core : Fin 4) (ok : Bool) {s : State} (es : Ev g0 s.hw) :
    OutEv g0 (execAppCoreSwap core ok s) := by
  unfold execAppCoreSwap; with_reducible refine onHw_ev (fun {h} e => ?_) (by assumption)
  repeat' first
    | (with_reducible first | assumption | intro _ | apply ev_ite | apply onHw_ev | apply Hw.appCore_ev)
    | (simp only [ev_mk, ev_fold]) | split | with_reducible apply foldl_ev | dsimp only

theorem Hw.otpProgram_ev {g0 : Since} {h : Hw} (d : Desc) (q : Req) (eh : Ev g0 h) : Ev g0 (Hw.otpProgram h d q) := by
  unfold Hw.otpProgram
  repeat' first
    | (with_reducible first | assumption | intro _ | apply ev_ite | apply Hw.complete_ev | apply Hw.occur_ev)
    | (simp only [ev_mk, ev_fold]) | split | with_reducible apply foldl_ev | dsimp only

theorem execOtpProgram_ev {g0 : Since} (d : Desc) {s : State} (es : Ev g0 s.hw) : OutEv g0 (execOtpProgram d s) := by
  unfold execOtpProgram; with_reducible refine onHw_ev (fun {h} e => ?_) (by assumption)
  repeat' first
    | (with_reducible first | assumption | intro _ | apply ev_ite | apply onHw_ev | apply Hw.descriptor_ev
                            | apply Hw.otpProgram_ev)
    | (simp only [ev_mk, ev_fold]) | split | with_reducible apply foldl_ev | dsimp only

theorem Hw.otpRevoke_ev {g0 : Since} {h : Hw} (d : Desc) (q : Req) (eh : Ev g0 h) : Ev g0 (Hw.otpRevoke h d q) := by
  unfold Hw.otpRevoke
  repeat' first
    | (with_reducible first | assumption | intro _ | apply ev_ite | apply Hw.complete_ev)
    | (simp only [ev_mk, ev_fold]) | split | with_reducible apply foldl_ev | dsimp only

theorem execOtpRevoke_ev {g0 : Since} (d : Desc) {s : State} (es : Ev g0 s.hw) : OutEv g0 (execOtpRevoke d s) := by
  unfold execOtpRevoke; with_reducible refine onHw_ev (fun {h} e => ?_) (by assumption)
  repeat' first
    | (with_reducible first | assumption | intro _ | apply ev_ite | apply onHw_ev | apply Hw.descriptor_ev
                            | apply Hw.otpRevoke_ev)
    | (simp only [ev_mk, ev_fold]) | split | with_reducible apply foldl_ev | dsimp only

theorem Hw.confirmProgrammed_ev {g0 : Since} {h : Hw} (j : OtpJob) (eh : Ev g0 h) :
    Ev g0 (Hw.confirmProgrammed h j) := by
  unfold Hw.confirmProgrammed
  repeat' first
    | (with_reducible first | assumption | intro _ | apply ev_ite)
    | (simp only [ev_mk, ev_fold]) | split | with_reducible apply foldl_ev | dsimp only

theorem Hw.otpDone_ev {g : Since} {h : Hw} (ok : Bool) (hb : g.still = false) (e : Ev g h) : Ev g (h.otpDone ok) := by
  unfold Hw.otpDone
  split
  · exact e
  · exact ev_ite (Hw.complete_ev _ _ (Hw.confirmProgrammed_ev _ (ev_burn (h := h) _ _ hb e)))
      (Hw.complete_ev _ _ (Hw.occur_ev _ _ (ev_burn (h := h.drawn) _ _ hb (Hw.drawn_ev e))))

theorem execOtpProgramDone_ev {g0 : Since} (ok : Bool) (hb : g0.still = false) {s : State} (es : Ev g0 s.hw) :
    OutEv g0 (execOtpProgramDone ok s) := by
  unfold execOtpProgramDone; with_reducible refine onHw_ev (fun {h} e => ?_) (by assumption)
  repeat' first
    | (with_reducible first | assumption | intro _ | apply ev_ite | apply Hw.otpDone_ev _ hb)
    | (simp only [ev_mk, ev_fold]) | split | with_reducible apply foldl_ev | dsimp only

theorem Hw.overlayLoad_ev {g0 : Since} {h : Hw} (d : Desc) (q : Req) (eh : Ev g0 h) :
    Ev g0 (Hw.overlayLoad h d q) := by
  unfold Hw.overlayLoad
  repeat' first
    | (with_reducible first | assumption | intro _ | apply ev_ite | apply Hw.complete_ev | apply Hw.completeOpt_ev
                            | apply Hw.fixAB_ev)
    | (simp only [ev_mk, ev_fold]) | split | with_reducible apply foldl_ev | dsimp only

theorem execOverlayLoad_ev {g0 : Since} (d : Desc) {s : State} (es : Ev g0 s.hw) :
    OutEv g0 (execOverlayLoad d s) := by
  unfold execOverlayLoad; with_reducible refine onHw_ev (fun {h} e => ?_) (by assumption)
  repeat' first
    | (with_reducible first | assumption | intro _ | apply ev_ite | apply onHw_ev | apply Hw.descriptor_ev
                            | apply Hw.overlayLoad_ev)
    | (simp only [ev_mk, ev_fold]) | split | with_reducible apply foldl_ev | dsimp only

theorem Hw.moveTimes_ev {g0 : Since} {h : Hw} (n : W64) (eh : Ev g0 h) : Ev g0 (Hw.moveTimes h n) := by
  unfold Hw.moveTimes
  repeat' first
    | (with_reducible first | assumption | intro _ | apply ev_ite | apply Hw.modCtl_ev | apply Hw.timeStep_ev)
    | (simp only [ev_mk, ev_fold]) | split | with_reducible apply foldl_ev | dsimp only

theorem Hw.makeStep_ev {g0 : Since} {h : Hw} (n : Nat) (eh : Ev g0 h) : Ev g0 (Hw.makeStep h n) := by
  unfold Hw.makeStep
  repeat' first
    | (with_reducible first | assumption | intro _ | apply ev_ite | apply Hw.moveTimes_ev | apply Hw.postEvent_ev)
    | (simp only [ev_mk, ev_fold]) | split | with_reducible apply foldl_ev | dsimp only

theorem Hw.timeStep_ev {g0 : Since} {h : Hw} (eh : Ev g0 h) : Ev g0 (Hw.timeStep h) := by
  unfold Hw.timeStep
  repeat' first
    | (with_reducible first | assumption | intro _ | apply ev_ite | apply Hw.makeStep_ev)
    | (simp only [ev_mk, ev_fold]) | split | with_reducible apply foldl_ev | dsimp only

theorem execTimeStep_ev {g0 : Since} {s : State} (es : Ev g0 s.hw) : OutEv g0 (execTimeStep s) := by
  unfold execTimeStep; with_reducible refine onHw_ev (fun {h} e => ?_) (by assumption)
  repeat' first
    | (with_reducible first | assumption | intro _ | apply ev_ite | apply onHw_ev | apply Hw.timeStep_ev)
    | (simp only [ev_mk, ev_fold]) | split | with_reducible apply foldl_ev | dsimp only

theorem Hw.slewTo_ev {g0 : Since} {h : Hw} (offset : Int) (eh : Ev g0 h) : Ev g0 (Hw.slewTo h offset) := by
  unfold Hw.slewTo
  repeat' first
    | (with_reducible first | assumption | intro _ | apply ev_ite)
    | (simp only [ev_mk, ev_fold]) | split | with_reducible apply foldl_ev | dsimp only

theorem Hw.ptpSync_ev {g0 : Since} {h : Hw} (offset : Int) (eh : Ev g0 h) : Ev g0 (Hw.ptpSync h offset) := by
  unfold Hw.ptpSync
  repeat' first
    | (with_reducible first | assumption | intro _ | apply ev_ite | apply Hw.clearFault_ev | apply Hw.raiseOnce_ev
                            | apply Hw.timeStep_ev | apply Hw.slewTo_ev)
    | (simp only [ev_mk, ev_fold]) | split | with_reducible apply foldl_ev | dsimp only

theorem execPtpSync_ev {g0 : Since} (offset : Int) {s : State} (es : Ev g0 s.hw) :
    OutEv g0 (execPtpSync offset s) := by
  unfold execPtpSync; with_reducible refine onHw_ev (fun {h} e => ?_) (by assumption)
  repeat' first
    | (with_reducible first | assumption | intro _ | apply ev_ite | apply onHw_ev | apply Hw.ptpSync_ev)
    | (simp only [ev_mk, ev_fold]) | split | with_reducible apply foldl_ev | dsimp only

theorem Hw.ptpLoss_ev {g0 : Since} {h : Hw} (eh : Ev g0 h) : Ev g0 (Hw.ptpLoss h) := by
  unfold Hw.ptpLoss
  repeat' first
    | (with_reducible first | assumption | intro _ | apply ev_ite | apply Hw.count_ev | apply Hw.raiseOnce_ev)
    | (simp only [ev_mk, ev_fold]) | split | with_reducible apply foldl_ev | dsimp only

theorem execPtpSyncLost_ev {g0 : Since} (why : PtpLoss) {s : State} (es : Ev g0 s.hw) :
    OutEv g0 (execPtpSyncLost why s) := by
  unfold execPtpSyncLost; with_reducible refine onHw_ev (fun {h} e => ?_) (by assumption)
  repeat' first
    | (with_reducible first | assumption | intro _ | apply ev_ite | apply onHw_ev | apply Hw.ptpLoss_ev)
    | (simp only [ev_mk, ev_fold]) | split | with_reducible apply foldl_ev | dsimp only

theorem Hw.msEdge_ev {g0 : Since} {h : Hw} (eh : Ev g0 h) : Ev g0 (Hw.msEdge h) := by
  unfold Hw.msEdge
  repeat' first
    | (with_reducible first | assumption | intro _ | apply ev_ite | apply Hw.count_ev)
    | (simp only [ev_mk, ev_fold]) | split | with_reducible apply foldl_ev | dsimp only

theorem ev_clock {g : Since} {h : Hw} {n : Nat} (hn : h.time.clock ≤ n) (e : Ev g h) :
    EvP g h.cnt.vals h.flt.hist h.host.events h.otp.bytes n h.free h.out :=
  ⟨e.1, e.2.1, Nat.le_trans e.2.2.1 hn, e.2.2.2⟩

theorem Hw.tick_ev {g : Since} {h : Hw} (e : Ev g h) : Ev g h.tick := by
  have hr : h.time.clock ≤ h.time.run.clock := by simp only [Time.run]; repeat' first | omega | split
  have hd : h.time.clock ≤ h.time.doze.clock := by simp only [Time.doze]; repeat' first | omega | split
  have er : Ev g ({ h with time := h.time.run } : Hw) := ev_clock (h := h) hr e
  unfold Hw.tick
  dsimp only
  split
  · exact ev_clock (h := h) (Nat.le_succ _) e
  · exact ev_clock (h := h) hd e
  · exact ev_ite (Hw.msEdge_ev er) er
  · exact ev_ite (Hw.msEdge_ev er) er

theorem Hw.snapshot_ev {g0 : Since} {h : Hw} (d : Desc) (q : Req) (eh : Ev g0 h) : Ev g0 (Hw.snapshot h d q) := by
  unfold Hw.snapshot
  repeat' first
    | (with_reducible first | assumption | intro _ | apply ev_ite | apply Hw.complete_ev)
    | (simp only [ev_mk, ev_fold]) | split | with_reducible apply foldl_ev | dsimp only

theorem execSnapshot_ev {g0 : Since} (d : Desc) {s : State} (es : Ev g0 s.hw) : OutEv g0 (execSnapshot d s) := by
  unfold execSnapshot; with_reducible refine onHw_ev (fun {h} e => ?_) (by assumption)
  repeat' first
    | (with_reducible first | assumption | intro _ | apply ev_ite | apply onHw_ev | apply Hw.descriptor_ev
                            | apply Hw.snapshot_ev)
    | (simp only [ev_mk, ev_fold]) | split | with_reducible apply foldl_ev | dsimp only

theorem Hw.copyBank_ev {g0 : Since} {h : Hw} (s : Snap) (eh : Ev g0 h) : Ev g0 (Hw.copyBank h s) := by
  unfold Hw.copyBank
  repeat' first
    | (with_reducible first | assumption | intro _ | apply ev_ite | apply Hw.occur_ev)
    | (simp only [ev_mk, ev_fold]) | split | with_reducible apply foldl_ev | dsimp only

theorem Hw.snapshotInstant_ev {g0 : Since} {h : Hw} (eh : Ev g0 h) : Ev g0 (Hw.snapshotInstant h) := by
  unfold Hw.snapshotInstant
  repeat' first
    | (with_reducible first | assumption | intro _ | apply ev_ite | apply Hw.copyBank_ev | apply Hw.postSnap_ev
                            | apply Hw.settleSnap_ev)
    | (simp only [ev_mk, ev_fold]) | split | with_reducible apply foldl_ev | dsimp only

theorem execSnapshotInstant_ev {g0 : Since} {s : State} (es : Ev g0 s.hw) : OutEv g0 (execSnapshotInstant s) := by
  unfold execSnapshotInstant; with_reducible refine onHw_ev (fun {h} e => ?_) (by assumption)
  repeat' first
    | (with_reducible first | assumption | intro _ | apply ev_ite | apply onHw_ev | apply Hw.snapshotInstant_ev)
    | (simp only [ev_mk, ev_fold]) | split | with_reducible apply foldl_ev | dsimp only

theorem Hw.endSub_ev {g0 : Since} {h : Hw} (n : Nat) (st : Status) (eh : Ev g0 h) : Ev g0 (Hw.endSub h n st) := by
  unfold Hw.endSub
  repeat' first
    | (with_reducible first | assumption | intro _ | apply ev_ite | apply Hw.completeOpt_ev)
    | (simp only [ev_mk, ev_fold]) | split | with_reducible apply foldl_ev | dsimp only

theorem Hw.tlmSubscribe_ev {g0 : Since} {h : Hw} (d : Desc) (q : Req) (eh : Ev g0 h) :
    Ev g0 (Hw.tlmSubscribe h d q) := by
  unfold Hw.tlmSubscribe
  repeat' first
    | (with_reducible first | assumption | intro _ | apply ev_ite | apply Hw.complete_ev | apply Hw.endSub_ev)
    | (simp only [ev_mk, ev_fold]) | split | with_reducible apply foldl_ev | dsimp only

theorem execTlmSubscribe_ev {g0 : Since} (d : Desc) {s : State} (es : Ev g0 s.hw) :
    OutEv g0 (execTlmSubscribe d s) := by
  unfold execTlmSubscribe; with_reducible refine onHw_ev (fun {h} e => ?_) (by assumption)
  repeat' first
    | (with_reducible first | assumption | intro _ | apply ev_ite | apply onHw_ev | apply Hw.descriptor_ev
                            | apply Hw.tlmSubscribe_ev)
    | (simp only [ev_mk, ev_fold]) | split | with_reducible apply foldl_ev | dsimp only

theorem Hw.tlmUnsubscribe_ev {g0 : Since} {h : Hw} (n : Nat) (q : Req) (eh : Ev g0 h) :
    Ev g0 (Hw.tlmUnsubscribe h n q) := by
  unfold Hw.tlmUnsubscribe
  repeat' first
    | (with_reducible first | assumption | intro _ | apply ev_ite | apply Hw.complete_ev | apply Hw.endSub_ev)
    | (simp only [ev_mk, ev_fold]) | split | with_reducible apply foldl_ev | dsimp only

theorem execTlmUnsubscribe_ev {g0 : Since} (d : Desc) {s : State} (es : Ev g0 s.hw) :
    OutEv g0 (execTlmUnsubscribe d s) := by
  unfold execTlmUnsubscribe; with_reducible refine onHw_ev (fun {h} e => ?_) (by assumption)
  repeat' first
    | (with_reducible first | assumption | intro _ | apply ev_ite | apply onHw_ev | apply Hw.descriptor_ev
                            | apply Hw.tlmUnsubscribe_ev)
    | (simp only [ev_mk, ev_fold]) | split | with_reducible apply foldl_ev | dsimp only

theorem Hw.tlmPosting_ev {g0 : Since} {h : Hw} (n : Nat) (eh : Ev g0 h) : Ev g0 (Hw.tlmPosting h n) := by
  unfold Hw.tlmPosting
  repeat' first
    | (with_reducible first | assumption | intro _ | apply ev_ite | apply Hw.postTlm_ev | apply Hw.completeOpt_ev)
    | (simp only [ev_mk, ev_fold]) | split | with_reducible apply foldl_ev | dsimp only

theorem execTlmPosting_ev {g0 : Since} (sub : Fin 64) {s : State} (es : Ev g0 s.hw) :
    OutEv g0 (execTlmPosting sub s) := by
  unfold execTlmPosting; with_reducible refine onHw_ev (fun {h} e => ?_) (by assumption)
  repeat' first
    | (with_reducible first | assumption | intro _ | apply ev_ite | apply onHw_ev | apply Hw.tlmPosting_ev)
    | (simp only [ev_mk, ev_fold]) | split | with_reducible apply foldl_ev | dsimp only

theorem Hw.changeEach_ev {g : Since} (p : Entry → Bool) (f : Entry → Entry) (tr : Byte) (l : List Entry) {h : Hw} (e : Ev g h) :
    Ev g (Hw.changeEach p f tr l h).1 := by
  fun_induction Hw.changeEach p f tr l h <;> grind [Hw.faultRecord_ev, Hw.nextSeq_ev]

/-- The entries keep their number (R361). -/
theorem Hw.changeEach_length (p : Entry → Bool) (f : Entry → Entry) (tr : Byte) (l : List Entry) (h : Hw) :
    (Hw.changeEach p f tr l h).2.length = l.length := by
  fun_induction Hw.changeEach p f tr l h <;> grind

theorem Hw.changeFaults_ev {g : Since} {h : Hw} (p : Entry → Bool) (f : Entry → Entry) (tr : Byte) (extras : Bool) (e : Ev g h) :
    Ev g (h.changeFaults p f tr extras) := by
  have e1 := Hw.changeEach_ev p f tr h.flt.hist e
  have hl : (Hw.changeEach p f tr h.flt.hist h).2.length ≤ 256 := by rw [Hw.changeEach_length]; exact e.1.2.1
  unfold Hw.changeFaults
  dsimp only
  split
  · have e2 := Hw.changeEach_ev p f tr h.flt.extra e1
    exact ⟨⟨e2.1.1, hl, e2.1.2.2⟩, e2.2⟩
  · exact ⟨⟨e1.1.1, hl, e1.1.2.2⟩, e1.2⟩

theorem Hw.faultAck_ev {g0 : Since} {h : Hw} (code : W16) (src : Byte) (q : Req) (eh : Ev g0 h) :
    Ev g0 (Hw.faultAck h code src q) := by
  unfold Hw.faultAck
  repeat' first
    | (with_reducible first | assumption | intro _ | apply ev_ite | apply Hw.complete_ev | apply Hw.changeFaults_ev
                            | apply Hw.splitEnd_ev)
    | (simp only [ev_mk, ev_fold]) | split | with_reducible apply foldl_ev | dsimp only

theorem execFaultAck_ev {g0 : Since} (d : Desc) {s : State} (es : Ev g0 s.hw) : OutEv g0 (execFaultAck d s) := by
  unfold execFaultAck; with_reducible refine onHw_ev (fun {h} e => ?_) (by assumption)
  repeat' first
    | (with_reducible first | assumption | intro _ | apply ev_ite | apply onHw_ev | apply Hw.descriptor_ev
                            | apply Hw.faultAck_ev)
    | (simp only [ev_mk, ev_fold]) | split | with_reducible apply foldl_ev | dsimp only

theorem Hw.uninhibit_ev {g0 : Since} {h : Hw} (e : Entry) (eh : Ev g0 h) : Ev g0 (Hw.uninhibit h e) := by
  unfold Hw.uninhibit
  repeat' first
    | (with_reducible first | assumption | intro _ | apply ev_ite | apply Hw.modGate_ev | apply Hw.lvGo_ev)
    | (simp only [ev_mk, ev_fold]) | split | with_reducible apply foldl_ev | dsimp only

theorem Hw.faultClear_ev {g0 : Since} {h : Hw} (code : W16) (src : Byte) (q : Req) (eh : Ev g0 h) :
    Ev g0 (Hw.faultClear h code src q) := by
  unfold Hw.faultClear
  repeat' first
    | (with_reducible first | assumption | intro _ | apply ev_ite | apply Hw.complete_ev | apply Hw.changeFaults_ev
                            | apply Hw.uninhibit_ev)
    | (simp only [ev_mk, ev_fold]) | split | with_reducible apply foldl_ev | dsimp only

theorem execFaultClear_ev {g0 : Since} (d : Desc) {s : State} (es : Ev g0 s.hw) : OutEv g0 (execFaultClear d s) := by
  unfold execFaultClear; with_reducible refine onHw_ev (fun {h} e => ?_) (by assumption)
  repeat' first
    | (with_reducible first | assumption | intro _ | apply ev_ite | apply onHw_ev | apply Hw.descriptor_ev
                            | apply Hw.faultClear_ev)
    | (simp only [ev_mk, ev_fold]) | split | with_reducible apply foldl_ev | dsimp only

theorem Hw.faultHistoryRead_ev {g0 : Since} {h : Hw} (d : Desc) (q : Req) (eh : Ev g0 h) :
    Ev g0 (Hw.faultHistoryRead h d q) := by
  unfold Hw.faultHistoryRead
  repeat' first
    | (with_reducible first | assumption | intro _ | apply ev_ite | apply Hw.complete_ev | apply Hw.emit_ev
                            | apply Hw.completeAt_ev)
    | (simp only [ev_mk, ev_fold]) | split | with_reducible apply foldl_ev | dsimp only

theorem execFaultHistoryRead_ev {g0 : Since} (d : Desc) {s : State} (es : Ev g0 s.hw) :
    OutEv g0 (execFaultHistoryRead d s) := by
  unfold execFaultHistoryRead; with_reducible refine onHw_ev (fun {h} e => ?_) (by assumption)
  repeat' first
    | (with_reducible first | assumption | intro _ | apply ev_ite | apply onHw_ev | apply Hw.descriptor_ev
                            | apply Hw.faultHistoryRead_ev)
    | (simp only [ev_mk, ev_fold]) | split | with_reducible apply foldl_ev | dsimp only

end Sys2Proof.Machine
end

