-- ==== Sys2Proof/Laws/EvolveNet.lean ====
section
/-!
SUPPORT. Laws/EvolveNet.lean: what every operation keeps of the limits and of what is never taken back, for the networks, the rope team and the fetch of descriptors: one lemma
for each operation, named after it.
-/
set_option linter.unusedSimpArgs false
namespace Sys2Proof.Machine

theorem Hw.modCan_ev {g0 : Since} {h : Hw} (ch : Nat) (f : CanCh → CanCh) (eh : Ev g0 h) :
    Ev g0 (Hw.modCan h ch f) := by
  unfold Hw.modCan
  repeat' first
    | (with_reducible first | assumption | intro _ | apply ev_ite)
    | (simp only [ev_mk, ev_fold]) | split | with_reducible apply foldl_ev | dsimp only

theorem Hw.endCanTx_ev {g0 : Since} {h : Hw} (ch : Nat) (st : Status) (eh : Ev g0 h) :
    Ev g0 (Hw.endCanTx h ch st) := by
  unfold Hw.endCanTx
  repeat' first
    | (with_reducible first | assumption | intro _ | apply ev_ite | apply Hw.completeAll_ev | apply Hw.modCan_ev
                            | apply Hw.complete_ev)
    | (simp only [ev_mk, ev_fold]) | split | with_reducible apply foldl_ev | dsimp only

theorem Hw.canBusOff_ev {g0 : Since} {h : Hw} (ch : Nat) (eh : Ev g0 h) : Ev g0 (Hw.canBusOff h ch) := by
  unfold Hw.canBusOff
  repeat' first
    | (with_reducible first | assumption | intro _ | apply ev_ite | apply Hw.modCan_ev | apply Hw.count_ev
                            | apply Hw.raiseOnce_ev | apply Hw.endCanTx_ev)
    | (simp only [ev_mk, ev_fold]) | split | with_reducible apply foldl_ev | dsimp only

theorem Hw.canConfine_ev {g0 : Since} {h : Hw} (ch : Nat) (eh : Ev g0 h) : Ev g0 (Hw.canConfine h ch) := by
  unfold Hw.canConfine
  repeat' first
    | (with_reducible first | assumption | intro _ | apply ev_ite | apply Hw.canBusOff_ev | apply Hw.modCan_ev
                            | apply Hw.count_ev | apply Hw.occur_ev)
    | (simp only [ev_mk, ev_fold]) | split | with_reducible apply foldl_ev | dsimp only

theorem execCanBusError_ev {g0 : Since} (ch : Fin 4) (e : CanError) {s : State} (es : Ev g0 s.hw) :
    OutEv g0 (execCanBusError ch e s) := by
  unfold execCanBusError; with_reducible refine onHw_ev (fun {h} e => ?_) (by assumption)
  repeat' first
    | (with_reducible first | assumption | intro _ | apply ev_ite | apply onHw_ev | apply Hw.modCan_ev
                            | apply Hw.canConfine_ev)
    | (simp only [ev_mk, ev_fold]) | split | with_reducible apply foldl_ev | dsimp only

theorem Hw.canRejoin_ev {g0 : Since} {h : Hw} (ch : Nat) (eh : Ev g0 h) : Ev g0 (Hw.canRejoin h ch) := by
  unfold Hw.canRejoin
  repeat' first
    | (with_reducible first | assumption | intro _ | apply ev_ite | apply Hw.modCan_ev | apply Hw.clearFault_ev)
    | (simp only [ev_mk, ev_fold]) | split | with_reducible apply foldl_ev | dsimp only

theorem execCanBusoffRecovery_ev {g0 : Since} (ch : Fin 4) (sequences : Nat) {s : State} (es : Ev g0 s.hw) :
    OutEv g0 (execCanBusoffRecovery ch sequences s) := by
  unfold execCanBusoffRecovery; with_reducible refine onHw_ev (fun {h} e => ?_) (by assumption)
  repeat' first
    | (with_reducible first | assumption | intro _ | apply ev_ite | apply onHw_ev | apply Hw.canRejoin_ev)
    | (simp only [ev_mk, ev_fold]) | split | with_reducible apply foldl_ev | dsimp only

theorem Hw.canRestart_ev {g0 : Since} {h : Hw} (ch : Nat) (q : Req) (eh : Ev g0 h) :
    Ev g0 (Hw.canRestart h ch q) := by
  unfold Hw.canRestart
  repeat' first
    | (with_reducible first | assumption | intro _ | apply ev_ite | apply Hw.complete_ev | apply Hw.canRejoin_ev
                            | apply Hw.modCan_ev)
    | (simp only [ev_mk, ev_fold]) | split | with_reducible apply foldl_ev | dsimp only

theorem execCanBusoffRestart_ev {g0 : Since} (d : Desc) {s : State} (es : Ev g0 s.hw) :
    OutEv g0 (execCanBusoffRestart d s) := by
  unfold execCanBusoffRestart; with_reducible refine onHw_ev (fun {h} e => ?_) (by assumption)
  repeat' first
    | (with_reducible first | assumption | intro _ | apply ev_ite | apply onHw_ev | apply Hw.descriptor_ev
                            | apply Hw.canRestart_ev)
    | (simp only [ev_mk, ev_fold]) | split | with_reducible apply foldl_ev | dsimp only

theorem execCanTxvrFault_ev {g0 : Since} (ch : Fin 4) (active : Bool) {s : State} (es : Ev g0 s.hw) :
    OutEv g0 (execCanTxvrFault ch active s) := by
  unfold execCanTxvrFault; with_reducible refine onHw_ev (fun {h} e => ?_) (by assumption)
  repeat' first
    | (with_reducible first | assumption | intro _ | apply ev_ite | apply onHw_ev | apply Hw.modCan_ev
                            | apply Hw.raiseOnce_ev | apply Hw.clearFault_ev)
    | (simp only [ev_mk, ev_fold]) | split | with_reducible apply foldl_ev | dsimp only

theorem Hw.canDrop_ev {g0 : Since} {h : Hw} (ch : Nat) (running : Bool) (mark : CanCh → CanCh) (eh : Ev g0 h) :
    Ev g0 (Hw.canDrop h ch running mark) := by
  unfold Hw.canDrop
  repeat' first
    | (with_reducible first | assumption | intro _ | apply ev_ite | apply Hw.modCan_ev | apply Hw.count_ev
                            | apply Hw.occur_ev)
    | (simp only [ev_mk, ev_fold]) | split | with_reducible apply foldl_ev | dsimp only

theorem Hw.intoQ0_ev {g0 : Since} {h : Hw} (ch : Nat) (f : CanFrame) (eh : Ev g0 h) : Ev g0 (Hw.intoQ0 h ch f) := by
  unfold Hw.intoQ0
  repeat' first
    | (with_reducible first | assumption | intro _ | apply ev_ite | apply Hw.modCan_ev | apply Hw.count_ev
                            | apply Hw.canDrop_ev)
    | (simp only [ev_mk, ev_fold]) | split | with_reducible apply foldl_ev | dsimp only

theorem Hw.intoQ1_ev {g0 : Since} {h : Hw} (ch : Nat) (f : CanFrame) (eh : Ev g0 h) : Ev g0 (Hw.intoQ1 h ch f) := by
  unfold Hw.intoQ1
  repeat' first
    | (with_reducible first | assumption | intro _ | apply ev_ite | apply Hw.modCan_ev | apply Hw.count_ev
                            | apply Hw.canDrop_ev)
    | (simp only [ev_mk, ev_fold]) | split | with_reducible apply foldl_ev | dsimp only

theorem Hw.canReceived_ev {g0 : Since} {h : Hw} (ch : Nat) (f : CanFrame) (eh : Ev g0 h) :
    Ev g0 (Hw.canReceived h ch f) := by
  unfold Hw.canReceived
  repeat' first
    | (with_reducible first | assumption | intro _ | apply ev_ite | apply Hw.modCan_ev | apply Hw.canConfine_ev
                            | apply Hw.intoQ0_ev | apply Hw.intoQ1_ev)
    | (simp only [ev_mk, ev_fold]) | split | with_reducible apply foldl_ev | dsimp only

theorem execCanFrameReceived_ev {g0 : Since} (ch : Fin 4) (f : CanFrame) {s : State} (es : Ev g0 s.hw) :
    OutEv g0 (execCanFrameReceived ch f s) := by
  unfold execCanFrameReceived; with_reducible refine onHw_ev (fun {h} e => ?_) (by assumption)
  repeat' first
    | (with_reducible first | assumption | intro _ | apply ev_ite | apply onHw_ev | apply Hw.canReceived_ev)
    | (simp only [ev_mk, ev_fold]) | split | with_reducible apply foldl_ev | dsimp only

theorem Hw.canPost_ev {g0 : Since} {h : Hw} (ch : Nat) (eh : Ev g0 h) : Ev g0 (Hw.canPost h ch) := by
  unfold Hw.canPost
  repeat' first
    | (with_reducible first | assumption | intro _ | apply ev_ite | apply Hw.modCan_ev | apply Hw.postTlm_ev)
    | (simp only [ev_mk, ev_fold]) | split | with_reducible apply foldl_ev | dsimp only

theorem execCanRxRecordPost_ev {g0 : Since} (ch : Fin 4) {s : State} (es : Ev g0 s.hw) :
    OutEv g0 (execCanRxRecordPost ch s) := by
  unfold execCanRxRecordPost; with_reducible refine onHw_ev (fun {h} e => ?_) (by assumption)
  repeat' first
    | (with_reducible first | assumption | intro _ | apply ev_ite | apply onHw_ev | apply Hw.canPost_ev)
    | (simp only [ev_mk, ev_fold]) | split | with_reducible apply foldl_ev | dsimp only

theorem Hw.canLock_ev {g0 : Since} {h : Hw} (ch : Nat) (q1 : Bool) (eh : Ev g0 h) : Ev g0 (Hw.canLock h ch q1) := by
  unfold Hw.canLock
  repeat' first
    | (with_reducible first | assumption | intro _ | apply ev_ite | apply Hw.modCan_ev | apply Hw.emit_ev)
    | (simp only [ev_mk, ev_fold]) | split | with_reducible apply foldl_ev | dsimp only

theorem execCanQueueLock_ev {g0 : Since} (ch : Fin 4) (q1 : Bool) {s : State} (es : Ev g0 s.hw) :
    OutEv g0 (execCanQueueLock ch q1 s) := by
  unfold execCanQueueLock; with_reducible refine onHw_ev (fun {h} e => ?_) (by assumption)
  repeat' first
    | (with_reducible first | assumption | intro _ | apply ev_ite | apply onHw_ev | apply Hw.canLock_ev)
    | (simp only [ev_mk, ev_fold]) | split | with_reducible apply foldl_ev | dsimp only

theorem execCanQueueRelease_ev {g0 : Since} (ch : Fin 4) (q1 : Bool) {s : State} (es : Ev g0 s.hw) :
    OutEv g0 (execCanQueueRelease ch q1 s) := by
  unfold execCanQueueRelease; with_reducible refine onHw_ev (fun {h} e => ?_) (by assumption)
  repeat' first
    | (with_reducible first | assumption | intro _ | apply ev_ite | apply onHw_ev | apply Hw.modCan_ev)
    | (simp only [ev_mk, ev_fold]) | split | with_reducible apply foldl_ev | dsimp only

theorem execCanQueueLockTimeout_ev {g0 : Since} (ch : Fin 4) (q1 : Bool) {s : State} (es : Ev g0 s.hw) :
    OutEv g0 (execCanQueueLockTimeout ch q1 s) := by
  unfold execCanQueueLockTimeout; with_reducible refine onHw_ev (fun {h} e => ?_) (by assumption)
  repeat' first
    | (with_reducible first | assumption | intro _ | apply ev_ite | apply onHw_ev | apply Hw.modCan_ev)
    | (simp only [ev_mk, ev_fold]) | split | with_reducible apply foldl_ev | dsimp only

theorem Hw.canFilterSet_ev {g0 : Since} {h : Hw} (d : Desc) (q : Req) (eh : Ev g0 h) :
    Ev g0 (Hw.canFilterSet h d q) := by
  unfold Hw.canFilterSet
  repeat' first
    | (with_reducible first | assumption | intro _ | apply ev_ite | apply Hw.complete_ev | apply Hw.modCan_ev)
    | (simp only [ev_mk, ev_fold]) | split | with_reducible apply foldl_ev | dsimp only

theorem execCanFilterSet_ev {g0 : Since} (d : Desc) {s : State} (es : Ev g0 s.hw) :
    OutEv g0 (execCanFilterSet d s) := by
  unfold execCanFilterSet; with_reducible refine onHw_ev (fun {h} e => ?_) (by assumption)
  repeat' first
    | (with_reducible first | assumption | intro _ | apply ev_ite | apply onHw_ev | apply Hw.descriptor_ev
                            | apply Hw.canFilterSet_ev)
    | (simp only [ev_mk, ev_fold]) | split | with_reducible apply foldl_ev | dsimp only

theorem Hw.canTx_ev {g0 : Since} {h : Hw} (d : Desc) (q : Req) (eh : Ev g0 h) : Ev g0 (Hw.canTx h d q) := by
  unfold Hw.canTx
  repeat' first
    | (with_reducible first | assumption | intro _ | apply ev_ite | apply Hw.complete_ev | apply Hw.modCan_ev
                            | apply Hw.completeOpt_ev)
    | (simp only [ev_mk, ev_fold]) | split | with_reducible apply foldl_ev | dsimp only

theorem execCanTx_ev {g0 : Since} (d : Desc) {s : State} (es : Ev g0 s.hw) : OutEv g0 (execCanTx d s) := by
  unfold execCanTx; with_reducible refine onHw_ev (fun {h} e => ?_) (by assumption)
  repeat' first
    | (with_reducible first | assumption | intro _ | apply ev_ite | apply onHw_ev | apply Hw.descriptor_ev
                            | apply Hw.canTx_ev)
    | (simp only [ev_mk, ev_fold]) | split | with_reducible apply foldl_ev | dsimp only

theorem Hw.canSent_ev {g0 : Since} {h : Hw} (ch : Nat) (f : CanFrame) (eh : Ev g0 h) : Ev g0 (Hw.canSent h ch f) := by
  unfold Hw.canSent
  repeat' first
    | (with_reducible first | assumption | intro _ | apply ev_ite | apply Hw.emit_ev | apply Hw.count_ev
                            | apply Hw.modCan_ev | apply Hw.canConfine_ev)
    | (simp only [ev_mk, ev_fold]) | split | with_reducible apply foldl_ev | dsimp only

theorem Hw.canTxSent_ev {g0 : Since} {h : Hw} (ch : Nat) (sof : W64) (eh : Ev g0 h) :
    Ev g0 (Hw.canTxSent h ch sof) := by
  unfold Hw.canTxSent
  repeat' first
    | (with_reducible first | assumption | intro _ | apply ev_ite | apply Hw.modCan_ev | apply Hw.canSent_ev
                            | apply Hw.completeAt_ev)
    | (simp only [ev_mk, ev_fold]) | split | with_reducible apply foldl_ev | dsimp only

theorem execCanTxSent_ev {g0 : Since} (ch : Fin 4) (sof : W64) {s : State} (es : Ev g0 s.hw) :
    OutEv g0 (execCanTxSent ch sof s) := by
  unfold execCanTxSent; with_reducible refine onHw_ev (fun {h} e => ?_) (by assumption)
  repeat' first
    | (with_reducible first | assumption | intro _ | apply ev_ite | apply onHw_ev | apply Hw.canTxSent_ev)
    | (simp only [ev_mk, ev_fold]) | split | with_reducible apply foldl_ev | dsimp only

theorem Hw.canTxTimeout_ev {g0 : Since} {h : Hw} (ch : Nat) (eh : Ev g0 h) : Ev g0 (Hw.canTxTimeout h ch) := by
  unfold Hw.canTxTimeout
  repeat' first
    | (with_reducible first | assumption | intro _ | apply ev_ite | apply Hw.modCan_ev | apply Hw.completeOpt_ev)
    | (simp only [ev_mk, ev_fold]) | split | with_reducible apply foldl_ev | dsimp only

theorem execCanTxTimeout_ev {g0 : Since} (ch : Fin 4) {s : State} (es : Ev g0 s.hw) :
    OutEv g0 (execCanTxTimeout ch s) := by
  unfold execCanTxTimeout; with_reducible refine onHw_ev (fun {h} e => ?_) (by assumption)
  repeat' first
    | (with_reducible first | assumption | intro _ | apply ev_ite | apply onHw_ev | apply Hw.canTxTimeout_ev)
    | (simp only [ev_mk, ev_fold]) | split | with_reducible apply foldl_ev | dsimp only

theorem Hw.ttLeave_ev {g0 : Since} {h : Hw} (q : Req) (eh : Ev g0 h) : Ev g0 (Hw.ttLeave h q) := by
  unfold Hw.ttLeave
  repeat' first
    | (with_reducible first | assumption | intro _ | apply ev_ite | apply Hw.modCan_ev | apply Hw.completeAll_ev
                            | apply Hw.completeOpt_ev | apply Hw.complete_ev)
    | (simp only [ev_mk, ev_fold]) | split | with_reducible apply foldl_ev | dsimp only

theorem Hw.canTtLoad_ev {g0 : Since} {h : Hw} (d : Desc) (q : Req) (eh : Ev g0 h) : Ev g0 (Hw.canTtLoad h d q) := by
  unfold Hw.canTtLoad
  repeat' first
    | (with_reducible first | assumption | intro _ | apply ev_ite | apply Hw.complete_ev | apply Hw.ttLeave_ev
                            | apply Hw.modCan_ev | apply Hw.completeOpt_ev)
    | (simp only [ev_mk, ev_fold]) | split | with_reducible apply foldl_ev | dsimp only

theorem execCanTtLoad_ev {g0 : Since} (d : Desc) {s : State} (es : Ev g0 s.hw) : OutEv g0 (execCanTtLoad d s) := by
  unfold execCanTtLoad; with_reducible refine onHw_ev (fun {h} e => ?_) (by assumption)
  repeat' first
    | (with_reducible first | assumption | intro _ | apply ev_ite | apply onHw_ev | apply Hw.descriptor_ev
                            | apply Hw.canTtLoad_ev)
    | (simp only [ev_mk, ev_fold]) | split | with_reducible apply foldl_ev | dsimp only

theorem Hw.ttEnd_ev {g0 : Since} {h : Hw} (ch cycle : Nat) (eh : Ev g0 h) : Ev g0 (Hw.ttEnd h ch cycle) := by
  unfold Hw.ttEnd
  repeat' first
    | (with_reducible first | assumption | intro _ | apply ev_ite | apply Hw.ttLeave_ev | apply Hw.modCan_ev
                            | apply Hw.completeOpt_ev)
    | (simp only [ev_mk, ev_fold]) | split | with_reducible apply foldl_ev | dsimp only

theorem Hw.ttBegin_ev {g0 : Since} {h : Hw} (ch : Nat) (eh : Ev g0 h) : Ev g0 (Hw.ttBegin h ch) := by
  unfold Hw.ttBegin
  repeat' first
    | (with_reducible first | assumption | intro _ | apply ev_ite | apply Hw.modCan_ev | apply Hw.complete_ev)
    | (simp only [ev_mk, ev_fold]) | split | with_reducible apply foldl_ev | dsimp only

theorem Hw.ttMark_ev {g0 : Since} {h : Hw} (ch cycle global : Nat) (own : Bool) (eh : Ev g0 h) :
    Ev g0 (Hw.ttMark h ch cycle global own) := by
  unfold Hw.ttMark
  repeat' first
    | (with_reducible first | assumption | intro _ | apply ev_ite | apply Hw.count_ev | apply Hw.modCan_ev
                            | apply Hw.canSent_ev | apply Hw.clearFault_ev)
    | (simp only [ev_mk, ev_fold]) | split | with_reducible apply foldl_ev | dsimp only

theorem Hw.ttReference_ev {g0 : Since} {h : Hw} (ch cycle global : Nat) (own : Bool) (eh : Ev g0 h) :
    Ev g0 (Hw.ttReference h ch cycle global own) := by
  unfold Hw.ttReference
  repeat' first
    | (with_reducible first | assumption | intro _ | apply ev_ite | apply Hw.ttEnd_ev | apply Hw.ttBegin_ev
                            | apply Hw.ttMark_ev)
    | (simp only [ev_mk, ev_fold]) | split | with_reducible apply foldl_ev | dsimp only

theorem execCanTtReference_ev {g0 : Since} (ch : Fin 4) (cycle global : Nat) (ownMaster : Bool) {s : State} (es : Ev g0 s.hw) :
    OutEv g0 (execCanTtReference ch cycle global ownMaster s) := by
  unfold execCanTtReference; with_reducible refine onHw_ev (fun {h} e => ?_) (by assumption)
  repeat' first
    | (with_reducible first | assumption | intro _ | apply ev_ite | apply onHw_ev | apply Hw.ttReference_ev)
    | (simp only [ev_mk, ev_fold]) | split | with_reducible apply foldl_ev | dsimp only

theorem Hw.ttWindow_ev {g0 : Since} {h : Hw} (ch k : Nat) (seen : Option CanFrame) (eh : Ev g0 h) :
    Ev g0 (Hw.ttWindow h ch k seen) := by
  unfold Hw.ttWindow
  repeat' first
    | (with_reducible first | assumption | intro _ | apply ev_ite | apply Hw.modCan_ev | apply Hw.canSent_ev
                            | apply Hw.completeOpt_ev)
    | (simp only [ev_mk, ev_fold]) | split | with_reducible apply foldl_ev | dsimp only

theorem execCanTtWindow_ev {g0 : Since} (ch : Fin 4) (column : Fin 64) (seen : Option CanFrame) {s : State} (es : Ev g0 s.hw) :
    OutEv g0 (execCanTtWindow ch column seen s) := by
  unfold execCanTtWindow; with_reducible refine onHw_ev (fun {h} e => ?_) (by assumption)
  repeat' first
    | (with_reducible first | assumption | intro _ | apply ev_ite | apply onHw_ev | apply Hw.ttWindow_ev)
    | (simp only [ev_mk, ev_fold]) | split | with_reducible apply foldl_ev | dsimp only

theorem Hw.ttMasterChange_ev {g0 : Since} {h : Hw} (ch : Nat) (eh : Ev g0 h) : Ev g0 (Hw.ttMasterChange h ch) := by
  unfold Hw.ttMasterChange
  repeat' first
    | (with_reducible first | assumption | intro _ | apply ev_ite | apply Hw.ttMark_ev | apply Hw.occur_ev)
    | (simp only [ev_mk, ev_fold]) | split | with_reducible apply foldl_ev | dsimp only

theorem execCanTtMasterChange_ev {g0 : Since} (ch : Fin 4) {s : State} (es : Ev g0 s.hw) :
    OutEv g0 (execCanTtMasterChange ch s) := by
  unfold execCanTtMasterChange; with_reducible refine onHw_ev (fun {h} e => ?_) (by assumption)
  repeat' first
    | (with_reducible first | assumption | intro _ | apply ev_ite | apply onHw_ev | apply Hw.ttMasterChange_ev)
    | (simp only [ev_mk, ev_fold]) | split | with_reducible apply foldl_ev | dsimp only

theorem Hw.ttRefLost_ev {g0 : Since} {h : Hw} (ch : Nat) (eh : Ev g0 h) : Ev g0 (Hw.ttRefLost h ch) := by
  unfold Hw.ttRefLost
  repeat' first
    | (with_reducible first | assumption | intro _ | apply ev_ite | apply Hw.modCan_ev | apply Hw.raiseOnce_ev)
    | (simp only [ev_mk, ev_fold]) | split | with_reducible apply foldl_ev | dsimp only

theorem execCanTtRefLost_ev {g0 : Since} (ch : Fin 4) {s : State} (es : Ev g0 s.hw) :
    OutEv g0 (execCanTtRefLost ch s) := by
  unfold execCanTtRefLost; with_reducible refine onHw_ev (fun {h} e => ?_) (by assumption)
  repeat' first
    | (with_reducible first | assumption | intro _ | apply ev_ite | apply onHw_ev | apply Hw.ttRefLost_ev)
    | (simp only [ev_mk, ev_fold]) | split | with_reducible apply foldl_ev | dsimp only

theorem Hw.canSessionOpen_ev {g : Since} {h : Hw} (d : Desc) (q : Req) (e : Ev g h) : Ev g (h.canSessionOpen d q) := by
  have e1 := Hw.openSession_ev Auth.motion true true (BitVec.ofNat 32 (d.num 16 4)) e
  unfold Hw.canSessionOpen
  refine ev_ite (Hw.complete_ev _ _ e) (ev_ite (Hw.complete_ev _ _ e) ?_)
  dsimp only
  split
  · exact Hw.completeAt_ev _ _ _ _ e1
  · exact Hw.complete_ev _ _ e1

theorem execCanSessionOpen_ev {g0 : Since} (d : Desc) {s : State} (es : Ev g0 s.hw) :
    OutEv g0 (execCanSessionOpen d s) := by
  unfold execCanSessionOpen; with_reducible refine onHw_ev (fun {h} e => ?_) (by assumption)
  repeat' first
    | (with_reducible first | assumption | intro _ | apply ev_ite | apply onHw_ev | apply Hw.descriptor_ev
                            | apply Hw.canSessionOpen_ev)
    | (simp only [ev_mk, ev_fold]) | split | with_reducible apply foldl_ev | dsimp only

theorem Hw.setLink_ev {g0 : Since} {h : Hw} (e1 up : Bool) (eh : Ev g0 h) : Ev g0 (Hw.setLink h e1 up) := by
  unfold Hw.setLink
  repeat' first
    | (with_reducible first | assumption | intro _ | apply ev_ite)
    | (simp only [ev_mk, ev_fold]) | split | with_reducible apply foldl_ev | dsimp only

theorem Hw.linkGone_ev {g0 : Since} {h : Hw} (e1 : Bool) (held : Nat) (eh : Ev g0 h) :
    Ev g0 (Hw.linkGone h e1 held) := by
  unfold Hw.linkGone
  repeat' first
    | (with_reducible first | assumption | intro _ | apply ev_ite | apply Hw.setLink_ev | apply Hw.raiseOnce_ev)
    | (simp only [ev_mk, ev_fold]) | split | with_reducible apply foldl_ev | dsimp only

theorem execEthLinkDown_ev {g0 : Since} (e1 : Bool) (held : Nat) {s : State} (es : Ev g0 s.hw) :
    OutEv g0 (execEthLinkDown e1 held s) := by
  unfold execEthLinkDown; with_reducible refine onHw_ev (fun {h} e => ?_) (by assumption)
  repeat' first
    | (with_reducible first | assumption | intro _ | apply ev_ite | apply onHw_ev | apply Hw.linkGone_ev)
    | (simp only [ev_mk, ev_fold]) | split | with_reducible apply foldl_ev | dsimp only

theorem execEthLinkUp_ev {g0 : Since} (e1 : Bool) {s : State} (es : Ev g0 s.hw) : OutEv g0 (execEthLinkUp e1 s) := by
  unfold execEthLinkUp; with_reducible refine onHw_ev (fun {h} e => ?_) (by assumption)
  repeat' first
    | (with_reducible first | assumption | intro _ | apply ev_ite | apply onHw_ev | apply Hw.setLink_ev
                            | apply Hw.clearFault_ev)
    | (simp only [ev_mk, ev_fold]) | split | with_reducible apply foldl_ev | dsimp only

theorem Hw.doip_ev {g0 : Since} {h : Hw} (length : Nat) (eh : Ev g0 h) : Ev g0 (Hw.doip h length) := by
  unfold Hw.doip
  repeat' first
    | (with_reducible first | assumption | intro _ | apply ev_ite | apply Hw.emit_ev | apply Hw.count_ev)
    | (simp only [ev_mk, ev_fold]) | split | with_reducible apply foldl_ev | dsimp only

theorem execDoipDiagnosticMessage_ev {g0 : Since} (target : W16) (length : DoipLength) {s : State} (es : Ev g0 s.hw) :
    OutEv g0 (execDoipDiagnosticMessage target length s) := by
  unfold execDoipDiagnosticMessage; with_reducible refine onHw_ev (fun {h} e => ?_) (by assumption)
  repeat' first
    | (with_reducible first | assumption | intro _ | apply ev_ite | apply onHw_ev | apply Hw.doip_ev)
    | (simp only [ev_mk, ev_fold]) | split | with_reducible apply foldl_ev | dsimp only

theorem Hw.pairExchange_ev {g0 : Since} {h : Hw} (partner : Option (Bool × Nat)) (joinedLater : Bool) (eh : Ev g0 h) :
    Ev g0 (Hw.pairExchange h partner joinedLater) := by
  unfold Hw.pairExchange
  repeat' first
    | (with_reducible first | assumption | intro _ | apply ev_ite | apply Hw.holderDrives_ev | apply Hw.raiseOnce_ev)
    | (simp only [ev_mk, ev_fold]) | split | with_reducible apply foldl_ev | dsimp only

theorem execPairRoleExchange_ev {g0 : Since} (partner : Option (Bool × Nat)) (joinedLater : Bool) {s : State} (es : Ev g0 s.hw) :
    OutEv g0 (execPairRoleExchange partner joinedLater s) := by
  unfold execPairRoleExchange; with_reducible refine onHw_ev (fun {h} e => ?_) (by assumption)
  repeat' first
    | (with_reducible first | assumption | intro _ | apply ev_ite | apply onHw_ev | apply Hw.pairExchange_ev)
    | (simp only [ev_mk, ev_fold]) | split | with_reducible apply foldl_ev | dsimp only

theorem Hw.pairSend_ev {g0 : Since} {h : Hw} (eh : Ev g0 h) : Ev g0 (Hw.pairSend h) := by
  unfold Hw.pairSend
  repeat' first
    | (with_reducible first | assumption | intro _ | apply ev_ite | apply Hw.emit_ev | apply Hw.count_ev)
    | (simp only [ev_mk, ev_fold]) | split | with_reducible apply foldl_ev | dsimp only

theorem execPairFrameSend_ev {g0 : Since} {s : State} (es : Ev g0 s.hw) : OutEv g0 (execPairFrameSend s) := by
  unfold execPairFrameSend; with_reducible refine onHw_ev (fun {h} e => ?_) (by assumption)
  repeat' first
    | (with_reducible first | assumption | intro _ | apply ev_ite | apply onHw_ev | apply Hw.pairSend_ev)
    | (simp only [ev_mk, ev_fold]) | split | with_reducible apply foldl_ev | dsimp only

theorem Hw.pairJudge_ev {g0 : Since} {h : Hw} (eh : Ev g0 h) : Ev g0 (Hw.pairJudge h) := by
  unfold Hw.pairJudge
  repeat' first
    | (with_reducible first | assumption | intro _ | apply ev_ite | apply Hw.count_ev | apply Hw.raiseOnce_ev
                            | apply Hw.clearFault_ev)
    | (simp only [ev_mk, ev_fold]) | split | with_reducible apply foldl_ev | dsimp only

theorem Hw.partnerOpen_ev {g0 : Since} {h : Hw} (eh : Ev g0 h) : Ev g0 (Hw.partnerOpen h) := by
  unfold Hw.partnerOpen
  repeat' first
    | (with_reducible first | assumption | intro _ | apply ev_ite | apply Hw.count_ev | apply Hw.pairJudge_ev)
    | (simp only [ev_mk, ev_fold]) | split | with_reducible apply foldl_ev | dsimp only

theorem execPartnerOkOpen_ev {g0 : Since} {s : State} (es : Ev g0 s.hw) : OutEv g0 (execPartnerOkOpen s) := by
  unfold execPartnerOkOpen; with_reducible refine onHw_ev (fun {h} e => ?_) (by assumption)
  repeat' first
    | (with_reducible first | assumption | intro _ | apply ev_ite | apply onHw_ev | apply Hw.partnerOpen_ev)
    | (simp only [ev_mk, ev_fold]) | split | with_reducible apply foldl_ev | dsimp only

theorem execPartnerOkClose_ev {g0 : Since} {s : State} (es : Ev g0 s.hw) : OutEv g0 (execPartnerOkClose s) := by
  unfold execPartnerOkClose; with_reducible refine onHw_ev (fun {h} e => ?_) (by assumption)
  repeat' first
    | (with_reducible first | assumption | intro _ | apply ev_ite | apply onHw_ev | apply Hw.pairJudge_ev)
    | (simp only [ev_mk, ev_fold]) | split | with_reducible apply foldl_ev | dsimp only

theorem execPairOkMismatch_ev {g0 : Since} {s : State} (es : Ev g0 s.hw) : OutEv g0 (execPairOkMismatch s) := by
  unfold execPairOkMismatch; with_reducible refine onHw_ev (fun {h} e => ?_) (by assumption)
  repeat' first
    | (with_reducible first | assumption | intro _ | apply ev_ite | apply onHw_ev | apply Hw.raiseOnce_ev)
    | (simp only [ev_mk, ev_fold]) | split | with_reducible apply foldl_ev | dsimp only

theorem Hw.loopIn_ev {g0 : Since} {h : Hw} (b : Bridge) (t : Int) (eh : Ev g0 h) : Ev g0 (Hw.loopIn h b t) := by
  unfold Hw.loopIn
  repeat' first
    | (with_reducible first | assumption | intro _ | apply ev_ite | apply Hw.acceptSetpoint_ev)
    | (simp only [ev_mk, ev_fold]) | split | with_reducible apply foldl_ev | dsimp only

theorem Hw.loopGone_ev {g0 : Since} {h : Hw} (b : Bridge) (eh : Ev g0 h) : Ev g0 (Hw.loopGone h b) := by
  unfold Hw.loopGone
  repeat' first
    | (with_reducible first | assumption | intro _ | apply ev_ite | apply Hw.toZero_ev)
    | (simp only [ev_mk, ev_fold]) | split | with_reducible apply foldl_ev | dsimp only

theorem Hw.loopTake_ev {g0 : Since} {h : Hw} (b : Bridge) (w : W32) (eh : Ev g0 h) : Ev g0 (Hw.loopTake h b w) := by
  unfold Hw.loopTake
  repeat' first
    | (with_reducible first | assumption | intro _ | apply ev_ite | apply Hw.loopGone_ev | apply Hw.loopIn_ev)
    | (simp only [ev_mk, ev_fold]) | split | with_reducible apply foldl_ev | dsimp only

theorem Hw.takeFrameShare_ev {g0 : Since} {h : Hw} (f : PairFrame) (eh : Ev g0 h) :
    Ev g0 (Hw.takeFrameShare h f) := by
  unfold Hw.takeFrameShare
  repeat' first
    | (with_reducible first | assumption | intro _ | apply ev_ite)
    | (simp only [ev_mk, ev_fold]) | split | with_reducible apply foldl_ev | dsimp only

theorem Hw.ilvJudge_ev {g0 : Since} {h : Hw} (f : PairFrame) (eh : Ev g0 h) : Ev g0 (Hw.ilvJudge h f) := by
  unfold Hw.ilvJudge
  repeat' first
    | (with_reducible first | assumption | intro _ | apply ev_ite | apply Hw.raiseOnce_ev | apply Hw.clearFault_ev)
    | (simp only [ev_mk, ev_fold]) | split | with_reducible apply foldl_ev | dsimp only

theorem Hw.prechargeTake_ev {g0 : Since} {h : Hw} (f : PairFrame) (eh : Ev g0 h) : Ev g0 (Hw.prechargeTake h f) := by
  unfold Hw.prechargeTake
  repeat' first
    | (with_reducible first | assumption | intro _ | apply ev_ite | apply Hw.preStart_ev | apply Hw.drawn_ev
                            | apply Hw.occur_ev)
    | (simp only [ev_mk, ev_fold]) | split | with_reducible apply foldl_ev | dsimp only

theorem Hw.boostPartner_ev {g0 : Since} {h : Hw} (f : PairFrame) (eh : Ev g0 h) : Ev g0 (Hw.boostPartner h f) := by
  unfold Hw.boostPartner
  repeat' first
    | (with_reducible first | assumption | intro _ | apply ev_ite | apply Hw.boostAbort_ev)
    | (simp only [ev_mk, ev_fold]) | split | with_reducible apply foldl_ev | dsimp only

theorem Hw.pairTake_ev {g0 : Since} {h : Hw} (f : PairFrame) (eh : Ev g0 h) : Ev g0 (Hw.pairTake h f) := by
  unfold Hw.pairTake
  repeat' first
    | (with_reducible first | assumption | intro _ | apply ev_ite | apply Hw.count_ev | apply Hw.prechargeTake_ev
                            | apply Hw.clearFault_ev | apply Hw.takeFrameShare_ev | apply Hw.pairJudge_ev
                            | apply Hw.loopTake_ev | apply Hw.ilvJudge_ev | apply Hw.boostPartner_ev
                            | apply Hw.dischargeLook_ev)
    | (simp only [ev_mk, ev_fold]) | split | with_reducible apply foldl_ev | dsimp only

theorem execPairFrameReceived_ev {g0 : Since} (f : PairFrame) {s : State} (es : Ev g0 s.hw) :
    OutEv g0 (execPairFrameReceived f s) := by
  unfold execPairFrameReceived; with_reducible refine onHw_ev (fun {h} e => ?_) (by assumption)
  repeat' first
    | (with_reducible first | assumption | intro _ | apply ev_ite | apply onHw_ev | apply Hw.pairTake_ev
                            | apply Hw.count_ev)
    | (simp only [ev_mk, ev_fold]) | split | with_reducible apply foldl_ev | dsimp only

theorem Hw.pairTimeout_ev {g0 : Since} {h : Hw} (eh : Ev g0 h) : Ev g0 (Hw.pairTimeout h) := by
  unfold Hw.pairTimeout
  repeat' first
    | (with_reducible first | assumption | intro _ | apply ev_ite | apply Hw.pairJudge_ev | apply Hw.loopGone_ev
                            | apply Hw.raiseOnce_ev)
    | (simp only [ev_mk, ev_fold]) | split | with_reducible apply foldl_ev | dsimp only

theorem execPairFrameTimeout_ev {g0 : Since} {s : State} (es : Ev g0 s.hw) : OutEv g0 (execPairFrameTimeout s) := by
  unfold execPairFrameTimeout; with_reducible refine onHw_ev (fun {h} e => ?_) (by assumption)
  repeat' first
    | (with_reducible first | assumption | intro _ | apply ev_ite | apply onHw_ev | apply Hw.pairTimeout_ev)
    | (simp only [ev_mk, ev_fold]) | split | with_reducible apply foldl_ev | dsimp only

theorem Hw.via_ev {g : Since} {h : Hw} (f : State → Host.Outcome State Fault Refusal)
    (e : Ev g h) (ef : ∀ s : State, Ev g s.hw → OutEv g (f s)) : Ev g (h.via f) := by
  unfold Hw.via
  split
  · rename_i hs
    exact ef _ e _ hs
  · exact e
  · exact e

theorem badCommand_ev {g0 : Since} (op : Nat) (d : Desc) {s : State} (es : Ev g0 s.hw) :
    OutEv g0 (badCommand op d s) := by
  unfold badCommand; with_reducible refine onHw_ev (fun {h} e => ?_) (by assumption)
  repeat' first
    | (with_reducible first | assumption | intro _ | apply ev_ite | apply onHw_ev | apply Hw.descriptor_ev
                            | apply Hw.complete_ev)
    | (simp only [ev_mk, ev_fold]) | split | with_reducible apply foldl_ev | dsimp only

theorem lvControl_ev {g : Since} (d : Desc) (s : State) (e : Ev g s.hw) : OutEv g (lvControl d s) := by
  unfold lvControl
  generalize (d.byte 16).toNat = n
  match n with
  | 0 => exact execLvControlStop_ev _ e
  | 1 => exact execLvControlForward_ev _ e
  | 2 => exact execLvControlPrecharge_ev _ e
  | _ + 3 => exact badCommand_ev _ _ e

theorem chargeControl_ev {g : Since} (d : Desc) (s : State) (e : Ev g s.hw) : OutEv g (chargeControl d s) := by
  unfold chargeControl
  generalize (d.byte 16).toNat = n
  match n with
  | 0 => exact execChargeControlStop_ev _ e
  | 1 => exact execChargeControlStart_ev _ e
  | 2 => exact execChargeControlPause_ev _ e
  | 3 => exact execChargeControlResume_ev _ e
  | 4 => exact execChargeControlSetLimits_ev _ e
  | 5 => exact execChargeControlInletMatch_ev _ e
  | 6 => exact execChargeControlRestartPhase_ev _ e
  | _ + 7 => exact badCommand_ev _ _ e

theorem imageSwapRaw_ev {g : Since} (d : Desc) (s : State) (e : Ev g s.hw) : OutEv g (imageSwapRaw d s) :=
  execImageSwap_ev _ _ e

theorem opMeanings_ev {g : Since} (d : Desc) (s : State) (e : Ev g s.hw) :
    ∀ p ∈ opMeanings1 ++ opMeanings2, OutEv g (p.2 d s) := by
  simp only [opMeanings1, opMeanings2, List.cons_append, List.nil_append, List.forall_mem_cons]
  refine ⟨execModeRequest_ev _ e, execTestRequest_ev _ e, execAccSet_ev _ e, execMonSet_ev _ e, execMonClear_ev _ e,
    execCalReference_ev _ e, execPosIndexArm_ev _ e, execPosHarmLoad_ev _ e, execTorqueSet_ev _ e, execSpeedSet_ev _ e,
    execTorquePair_ev _ e, execMotorMapLoad_ev _ e, lvControl_ev _ _ e, execChargeSetup_ev _ e, execChargeProfile_ev _ e,
    chargeControl_ev _ _ e, execChgBattStatus_ev _ e, execActMove_ev _ e, execGearShift_ev _ e, execSafetyCheckRead_ev _ e,
    execSafetyConfirm_ev _ e, execDischarge_ev _ e, execRingCreate_ev _ e, execRingDisable_ev _ e, execRingReset_ev _ e,
    execSessionOpen_ev _ e, execSessionClose_ev _ e, execSessionChallenge_ev _ e, ?_⟩
  exact ⟨execCinchOpen_ev _ e, execCinchCommit_ev _ e, execCinchAbort_ev _ e, execParamWrite_ev _ e, execParamRead_ev _ e,
    execImageDirectory_ev _ e, imageSwapRaw_ev _ _ e, execOtpProgram_ev _ e, execOtpRevoke_ev _ e, execOverlayLoad_ev _ e,
    execTlmSubscribe_ev _ e, execTlmUnsubscribe_ev _ e, execSnapshot_ev _ e, execFaultAck_ev _ e, execFaultClear_ev _ e,
    execFaultHistoryRead_ev _ e, execCanSessionOpen_ev _ e, execCanTx_ev _ e, execCanFilterSet_ev _ e, execCanTtLoad_ev _ e,
    execCanBusoffRestart_ev _ e, by simp⟩

theorem Hw.runOp_ev {g : Since} {h : Hw} (op : Nat) (d : Desc) (e : Ev g h) : Ev g (h.runOp op d) := by
  unfold Hw.runOp
  refine ev_ite (Hw.stageMember_ev _ _ _ e) ?_
  split
  · rename_i p hp
    exact Hw.via_ev _ e (fun s es => opMeanings_ev d s es p (List.mem_of_find?_eq_some hp))
  · exact Hw.via_ev _ e (fun s es => badCommand_ev _ _ es)

theorem Hw.runRaw_ev {g0 : Since} {h : Hw} (path : Path) (raw : BitVec 512) (dma : List Byte) (sigOk : Bool)
     (eh : Ev g0 h) :
    Ev g0 (Hw.runRaw h path raw dma sigOk) := by
  unfold Hw.runRaw
  repeat' first
    | (with_reducible first | assumption | intro _ | apply ev_ite | apply Hw.runOp_ev)
    | (simp only [ev_mk, ev_fold]) | split | with_reducible apply foldl_ev | dsimp only

theorem Hw.fetch_ev {g0 : Since} {h : Hw} (n : Fin 64) (raw : BitVec 512) (dma : List Byte) (sigOk : Bool)
     (eh : Ev g0 h) :
    Ev g0 (Hw.fetch h n raw dma sigOk) := by
  unfold Hw.fetch
  repeat' first
    | (with_reducible first | assumption | intro _ | apply ev_ite | apply Hw.setRing_ev | apply Hw.count_ev
                            | apply Hw.runOp_ev)
    | (simp only [ev_mk, ev_fold]) | split | with_reducible apply foldl_ev | dsimp only

theorem execDescriptorFetch_ev {g0 : Since} (ring : Fin 64) (raw : BitVec 512) (dma : List Byte) (sigOk : Bool) {s : State} (es : Ev g0 s.hw) :
    OutEv g0 (execDescriptorFetch ring raw dma sigOk s) := by
  unfold execDescriptorFetch; with_reducible refine onHw_ev (fun {h} e => ?_) (by assumption)
  repeat' first
    | (with_reducible first | assumption | intro _ | apply ev_ite | apply onHw_ev | apply Hw.fetch_ev)
    | (simp only [ev_mk, ev_fold]) | split | with_reducible apply foldl_ev | dsimp only

theorem Hw.resume_ev {g0 : Since} {h : Hw} (n : Fin 64) (raw : BitVec 512) (dma : List Byte) (sigOk : Bool)
     (eh : Ev g0 h) :
    Ev g0 (Hw.resume h n raw dma sigOk) := by
  unfold Hw.resume
  repeat' first
    | (with_reducible first | assumption | intro _ | apply ev_ite | apply Hw.setRing_ev | apply Hw.runOp_ev)
    | (simp only [ev_mk, ev_fold]) | split | with_reducible apply foldl_ev | dsimp only

theorem Hw.tampered_ev {g0 : Since} {h : Hw} (n : Fin 64) (d : Desc) (eh : Ev g0 h) : Ev g0 (Hw.tampered h n d) := by
  unfold Hw.tampered
  repeat' first
    | (with_reducible first | assumption | intro _ | apply ev_ite | apply Hw.setRing_ev | apply Hw.endSession_ev
                            | apply Hw.complete_ev | apply Hw.occurActed_ev)
    | (simp only [ev_mk, ev_fold]) | split | with_reducible apply foldl_ev | dsimp only

theorem Hw.pageIn_ev {g0 : Since} {h : Hw} (n : Fin 64) (macOk : Bool) (eh : Ev g0 h) :
    Ev g0 (Hw.pageIn h n macOk) := by
  unfold Hw.pageIn
  repeat' first
    | (with_reducible first | assumption | intro _ | apply ev_ite | apply Hw.tampered_ev | apply Hw.makeRoom_ev
                            | apply Hw.setSession_ev | apply Hw.resume_ev)
    | (simp only [ev_mk, ev_fold]) | split | with_reducible apply foldl_ev | dsimp only

theorem execContextPageIn_ev {g0 : Since} (ring : Fin 64) (macOk : Bool) {s : State} (es : Ev g0 s.hw) :
    OutEv g0 (execContextPageIn ring macOk s) := by
  unfold execContextPageIn; with_reducible refine onHw_ev (fun {h} e => ?_) (by assumption)
  repeat' first
    | (with_reducible first | assumption | intro _ | apply ev_ite | apply onHw_ev | apply Hw.pageIn_ev)
    | (simp only [ev_mk, ev_fold]) | split | with_reducible apply foldl_ev | dsimp only

theorem Hw.fallbackRequest_ev {g0 : Since} {h : Hw} (ch : Nat) (f : CanFrame) (eh : Ev g0 h) :
    Ev g0 (Hw.fallbackRequest h ch f) := by
  unfold Hw.fallbackRequest
  repeat' first
    | (with_reducible first | assumption | intro _ | apply ev_ite | apply Hw.count_ev | apply Hw.runRaw_ev)
    | (simp only [ev_mk, ev_fold]) | split | with_reducible apply foldl_ev | dsimp only

theorem execCanFallbackRequest_ev {g0 : Since} (ch : Fin 4) (f : CanFrame) {s : State} (es : Ev g0 s.hw) :
    OutEv g0 (execCanFallbackRequest ch f s) := by
  unfold execCanFallbackRequest; with_reducible refine onHw_ev (fun {h} e => ?_) (by assumption)
  repeat' first
    | (with_reducible first | assumption | intro _ | apply ev_ite | apply onHw_ev | apply Hw.fallbackRequest_ev)
    | (simp only [ev_mk, ev_fold]) | split | with_reducible apply foldl_ev | dsimp only

end Sys2Proof.Machine
end

