-- ==== Sys2Proof/Laws/Quiet.lean ====
section
/-!
SUPPORT. Laws/Quiet.lean: what the queues, completions, events and the fault history leave alone: every operation here changes at
most the host interface, what has left the module, the counters and the fault history.
-/
set_option linter.unusedSimpArgs false
namespace Sys2Proof.Machine

/-- The parts of the module that `Hw.Quiet` speaks of are those of `g`. -/
def QP (g : Hw) (time : Time) (mode : ModeSt) (pwr : Power) (tests : List TestRun) (sen : Sense) (pos : Pos) (ctlA : Ctl)
    (ctlB : Ctl) (gateA : Gate) (gateB : Gate) (sh : Shared) (lv : Lv) (chg : Chg) (act : Act) (saf : Safety)
    (slots : Tab Slot) (prm : Params) (img : Images) (otp : Otp) (net : Net) (pair : Pair) (free : Nat) : Prop :=
  time = g.time ∧ mode = g.mode ∧ pwr = g.pwr ∧ tests = g.tests ∧ sen = g.sen ∧ pos = g.pos ∧ ctlA = g.ctlA ∧
  ctlB = g.ctlB ∧ gateA = g.gateA ∧ gateB = g.gateB ∧ sh = g.sh ∧ lv = g.lv ∧ chg = g.chg ∧ act = g.act ∧ saf = g.saf ∧
  slots = g.slots ∧ prm = g.prm ∧ img = g.img ∧ otp = g.otp ∧ net = g.net ∧ pair = g.pair ∧ free = g.free

/-- `h` is `g` but for the host interface, what has left, counters and fault history. -/
def Q (g h : Hw) : Prop := QP g h.time h.mode h.pwr h.tests h.sen h.pos h.ctlA h.ctlB h.gateA h.gateB h.sh h.lv h.chg h.act h.saf h.slots h.prm
    h.img h.otp h.net h.pair h.free

theorem q_iff (g h : Hw) : Q g h ↔ g.Quiet h := by
  obtain ⟨⟩ := g
  obtain ⟨⟩ := h
  simp only [Q, QP, Hw.Quiet, Hw.mk.injEq]
  grind

theorem q_refl (g : Hw) : Q g g := (q_iff g g).2 rfl

theorem q_fold (g h : Hw) : QP g h.time h.mode h.pwr h.tests h.sen h.pos h.ctlA h.ctlB h.gateA h.gateB h.sh h.lv h.chg h.act h.saf h.slots h.prm
    h.img h.otp h.net h.pair h.free = Q g h := rfl

theorem q_mk (g : Hw) (time : Time) (mode : ModeSt) (pwr : Power) (tests : List TestRun) (sen : Sense) (pos : Pos) (ctlA : Ctl)
    (ctlB : Ctl) (gateA : Gate) (gateB : Gate) (sh : Shared) (lv : Lv) (chg : Chg) (act : Act) (saf : Safety)
    (host : HostSt) (slots : Tab Slot) (prm : Params) (img : Images) (otp : Otp) (cnt : Counters) (flt : Faults)
    (net : Net) (pair : Pair) (out : List Output) (free : Nat) :
    Q g (Hw.mk time mode pwr tests sen pos ctlA ctlB gateA gateB sh lv chg act saf host slots prm img otp cnt flt net pair out
    free) = QP g time mode pwr tests sen pos ctlA ctlB gateA gateB sh lv chg act saf slots prm img otp net pair free := rfl

theorem q_ite {g a b : Hw} {c : Prop} [Decidable c] (ha : Q g a) (hb : Q g b) : Q g (if c then a else b) := by
  split <;> assumption

theorem Hw.emit_q {g : Hw} {h : Hw} (o : Output) (eh : Q g h) : Q g (Hw.emit h o) := eh

theorem Hw.count_q {g : Hw} {h : Hw} (i : Nat) (n : Nat) (eh : Q g h) : Q g (Hw.count h i n) := eh

theorem Hw.addEnergy_q {g : Hw} {h : Hw} (i : Nat) (work : Nat) (eh : Q g h) : Q g (Hw.addEnergy h i work) := eh

theorem Hw.setRing_q {g : Hw} {h : Hw} (n : Nat) (r : Ring) (eh : Q g h) : Q g (Hw.setRing h n r) := eh

theorem Hw.setSession_q {g : Hw} {h : Hw} (n : Nat) (s : Session) (eh : Q g h) : Q g (Hw.setSession h n s) := eh

theorem Hw.msix_q {g : Hw} {h : Hw} (v : Nat) (eh : Q g h) : Q g (Hw.msix h v) := by
  unfold Hw.msix
  repeat' first
    | (with_reducible first | assumption | intro _ | apply q_ite | apply Hw.emit_q)
    | (simp only [q_mk, q_fold]) | split | dsimp only

theorem Hw.signalRing_q {g : Hw} {h : Hw} (n : Nat) (eh : Q g h) : Q g (Hw.signalRing h n) := by
  unfold Hw.signalRing
  repeat' first
    | (with_reducible first | assumption | intro _ | apply q_ite | apply Hw.setRing_q | apply Hw.msix_q)
    | (simp only [q_mk, q_fold]) | split | dsimp only

theorem Hw.coalesce_q {g : Hw} {h : Hw} (n : Nat) (urgent : Bool) (eh : Q g h) : Q g (Hw.coalesce h n urgent) := by
  unfold Hw.coalesce
  repeat' first
    | (with_reducible first | assumption | intro _ | apply q_ite | apply Hw.signalRing_q)
    | (simp only [q_mk, q_fold]) | split | dsimp only

theorem Hw.place_q {g : Hw} {h : Hw} (n : Nat) (w : Waiting) (eh : Q g h) : Q g (Hw.place h n w) := by
  unfold Hw.place
  repeat' first
    | (with_reducible first | assumption | intro _ | apply q_ite | apply Hw.emit_q | apply Hw.coalesce_q
                            | apply Hw.setRing_q)
    | (simp only [q_mk, q_fold]) | split | dsimp only

theorem Hw.postWaiting_q {g : Hw} (fuel n : Nat) {h : Hw} (e : Q g h) : Q g (Hw.postWaiting fuel n h) := by
  fun_induction Hw.postWaiting fuel n h <;> grind [Hw.place_q, Hw.setRing_q]

theorem Hw.queueCompletion_q {g : Hw} {h : Hw} (n : Nat) (tag : W32) (st : Byte) (time : W64) (eh : Q g h) :
    Q g (Hw.queueCompletion h n tag st time) := by
  unfold Hw.queueCompletion
  repeat' first
    | (with_reducible first | assumption | intro _ | apply q_ite | apply Hw.place_q | apply Hw.setRing_q)
    | (simp only [q_mk, q_fold]) | split | dsimp only

theorem Hw.queueTlm_q {g : Hw} {h : Hw} (n : Nat) (ty : W16) (time : W64) (body : List Byte) (eh : Q g h) :
    Q g (Hw.queueTlm h n ty time body) := by
  unfold Hw.queueTlm
  repeat' first
    | (with_reducible first | assumption | intro _ | apply q_ite | apply Hw.place_q | apply Hw.count_q | apply Hw.setRing_q)
    | (simp only [q_mk, q_fold]) | split | dsimp only

theorem Hw.queueEvent_q {g : Hw} {h : Hw} (ty : W16) (time : W64) (body : List Byte) (eh : Q g h) :
    Q g (Hw.queueEvent h ty time body) := by
  unfold Hw.queueEvent
  repeat' first
    | (with_reducible first | assumption | intro _ | apply q_ite | apply Hw.place_q | apply Hw.count_q | apply Hw.setRing_q)
    | (simp only [q_mk, q_fold]) | split | dsimp only

theorem Hw.faultRecord_q {g : Hw} {h : Hw} (e : Entry) (transition : Byte) (eh : Q g h) :
    Q g (Hw.faultRecord h e transition) := by
  unfold Hw.faultRecord
  repeat' first
    | (with_reducible first | assumption | intro _ | apply q_ite | apply Hw.queueEvent_q)
    | (simp only [q_mk, q_fold]) | split | dsimp only

theorem Hw.nextSeq_q {g : Hw} {h : Hw} (eh : Q g h) : Q g (Hw.nextSeq h) := eh

theorem Hw.noteNew_q {g h : Hw} (code : W16) (cls : FClass) (src : Byte) (arg : W32) (active : Bool) (e : Q g h) :
    Q g (h.noteNew code cls src arg active).1 := by
  unfold Hw.noteNew
  dsimp only
  have e2 := Hw.count_q (h := ({ h with flt := (h.flt.keep (h.newEntry code cls src arg active)).1 } : Hw).nextSeq) 0x09F 1 e
  have e3 := Hw.faultRecord_q (h.newEntry code cls src arg active) 0
    (q_ite (c := (h.flt.keep (h.newEntry code cls src arg active)).2.2 = true) (Hw.count_q 0x09E 1 e2) e2)
  exact q_ite (Hw.msix_q _ e3) e3

theorem Hw.note_q {g h : Hw} (code : W16) (cls : FClass) (src : Byte) (arg : W32) (active : Bool) (e : Q g h) :
    Q g (h.note code cls src arg active) := by
  have k := Hw.noteNew_q code cls src arg active e
  unfold Hw.note
  split
  · exact Hw.faultRecord_q _ _ (Hw.count_q (h := Hw.nextSeq { h with flt := _ }) _ _ e)
  · grind [Hw.noteNew_q]

theorem Hw.postEvent_q {g : Hw} {h : Hw} (ty : W16) (time : W64) (body : List Byte) (eh : Q g h) :
    Q g (Hw.postEvent h ty time body) := by
  unfold Hw.postEvent
  repeat' first
    | (with_reducible first | assumption | intro _ | apply q_ite | apply Hw.note_q | apply Hw.queueEvent_q)
    | (simp only [q_mk, q_fold]) | split | dsimp only

theorem Hw.postTlm_q {g : Hw} {h : Hw} (n : Nat) (ty : W16) (time : W64) (body : List Byte) (eh : Q g h) :
    Q g (Hw.postTlm h n ty time body) := by
  unfold Hw.postTlm
  repeat' first
    | (with_reducible first | assumption | intro _ | apply q_ite | apply Hw.queueTlm_q | apply Hw.note_q)
    | (simp only [q_mk, q_fold]) | split | dsimp only

theorem Hw.clearFault_q {g : Hw} {h : Hw} (code : W16) (src : Byte) (eh : Q g h) : Q g (Hw.clearFault h code src) := by
  unfold Hw.clearFault
  repeat' first
    | (with_reducible first | assumption | intro _ | apply q_ite | apply Hw.nextSeq_q | apply Hw.faultRecord_q)
    | (simp only [q_mk, q_fold]) | split | dsimp only

theorem Hw.canRespond_q {g : Hw} {h : Hw} (tag : W32) (st : Byte) (time : W64) (extra : List Byte) (eh : Q g h) :
    Q g (Hw.canRespond h tag st time extra) := by
  unfold Hw.canRespond
  repeat' first
    | (with_reducible first | assumption | intro _ | apply q_ite | apply Hw.emit_q | apply Hw.count_q)
    | (simp only [q_mk, q_fold]) | split | dsimp only

theorem Hw.completeRaw_q {g : Hw} {h : Hw} (q : Req) (st : Status) (time : W64) (extra : List Byte) (eh : Q g h) :
    Q g (Hw.completeRaw h q st time extra) := by
  unfold Hw.completeRaw
  repeat' first
    | (with_reducible first | assumption | intro _ | apply q_ite | apply Hw.setRing_q | apply Hw.queueCompletion_q
                            | apply Hw.canRespond_q)
    | (simp only [q_mk, q_fold]) | split | dsimp only

theorem Hw.settleOne_q {g : Hw} {h : Hw} (n : Nat) (eh : Q g h) : Q g (Hw.settleOne h n) := by
  unfold Hw.settleOne
  repeat' first
    | (with_reducible first | assumption | intro _ | apply q_ite | apply Hw.setRing_q | apply Hw.completeRaw_q)
    | (simp only [q_mk, q_fold]) | split | dsimp only

theorem Hw.settleRing_q {g : Hw} {h : Hw} (n : Nat) (eh : Q g h) : Q g (Hw.settleRing h n) := by
  unfold Hw.settleRing
  repeat' first
    | (with_reducible first | assumption | intro _ | apply q_ite | apply Hw.settleOne_q)
    | (simp only [q_mk, q_fold]) | split | dsimp only

theorem Hw.settleSession_q {g : Hw} {h : Hw} (n : Nat) (eh : Q g h) : Q g (Hw.settleSession h n) := by
  unfold Hw.settleSession
  repeat' first
    | (with_reducible first | assumption | intro _ | apply q_ite | apply Hw.clearFault_q | apply Hw.completeRaw_q)
    | (simp only [q_mk, q_fold]) | split | dsimp only

theorem Hw.completeAt_q {g : Hw} {h : Hw} (q : Req) (st : Status) (time : W64) (extra : optParam (List Byte) []) (eh : Q g h) :
    Q g (Hw.completeAt h q st time extra) := by
  unfold Hw.completeAt
  repeat' first
    | (with_reducible first | assumption | intro _ | apply q_ite | apply Hw.settleRing_q | apply Hw.completeRaw_q
                            | apply Hw.settleSession_q)
    | (simp only [q_mk, q_fold]) | split | dsimp only

theorem Hw.complete_q {g : Hw} {h : Hw} (q : Req) (st : Status) (eh : Q g h) : Q g (Hw.complete h q st) := by
  unfold Hw.complete
  repeat' first
    | (with_reducible first | assumption | intro _ | apply q_ite | apply Hw.completeAt_q)
    | (simp only [q_mk, q_fold]) | split | dsimp only

theorem Hw.completeOpt_q {g : Hw} {h : Hw} (q : Option Req) (st : Status) (eh : Q g h) : Q g (Hw.completeOpt h q st) := by
  unfold Hw.completeOpt
  repeat' first
    | (with_reducible first | assumption | intro _ | apply q_ite | apply Hw.complete_q)
    | (simp only [q_mk, q_fold]) | split | dsimp only

theorem Hw.completeAll_q {g : Hw} (l : List Req) (st : Status) {h : Hw} (e : Q g h) : Q g (Hw.completeAll l st h) := by
  fun_induction Hw.completeAll l st h <;> grind [Hw.complete_q]

end Sys2Proof.Machine
end

