-- ==== Sys2Proof/Laws/Mode.lean ====
section
/-!
SUPPORT. Laws/Mode.lean: the shared operations that leave the mode machine as it was, one lemma each: `ModeKept g h` is carried
through every operation that a mode edge, the entry to ARREST and the safe patterns are built of.
-/
namespace Sys2Proof.Machine

/-- The mode machine of `h` stands as in `g`. -/
abbrev ModeKept (g h : Hw) : Prop := h.mode = g.mode
theorem k_of_q {g e h : Hw} (q : Q g h) (k : ModeKept e g) : ModeKept e h := by
  have := (q_iff _ _).1 q
  unfold Hw.Quiet at this
  rw [this]; exact k
theorem k_ite {g a b : Hw} {c : Prop} [Decidable c] (ha : ModeKept g a) (hb : ModeKept g b) : ModeKept g (if c then a else b) := by
  split <;> assumption
theorem foldl_k {g : Hw} {α : Type} (f : Hw → α → Hw) (l : List α) (hf : ∀ (x : Hw) (a : α), ModeKept g x → ModeKept g (f x a))
    {h : Hw} (e : ModeKept g h) : ModeKept g (l.foldl f h) := List.foldlRecOn l f e fun x ex a _ => hf x a ex

theorem Hw.modCtl_k {g0 : Hw} {h : Hw} (b : Bridge) (f : Ctl → Ctl) (eh : ModeKept g0 h) : ModeKept g0 (Hw.modCtl h b f) := by
  unfold Hw.modCtl
  repeat' first
    | with_reducible assumption
    | intro _
    | with_reducible apply k_ite
    | split
    | with_reducible apply foldl_k
    | dsimp only
theorem Hw.modGate_k {g0 : Hw} {h : Hw} (b : Bridge) (f : Gate → Gate) (eh : ModeKept g0 h) : ModeKept g0 (Hw.modGate h b f) := by
  unfold Hw.modGate
  repeat' first
    | with_reducible assumption
    | intro _
    | with_reducible apply k_ite
    | split
    | with_reducible apply foldl_k
    | dsimp only
theorem Hw.emit_k {g0 : Hw} {h : Hw} (o : Output) (eh : ModeKept g0 h) : ModeKept g0 (Hw.emit h o) := k_of_q (by first | exact Hw.emit_q _ (q_refl _) | exact Hw.emit_q (q_refl _)) (by assumption)
theorem Hw.count_k {g0 : Hw} {h : Hw} (i : Nat) (n : Nat) (eh : ModeKept g0 h) : ModeKept g0 (Hw.count h i n) := k_of_q (by first | exact Hw.count_q _ _ (q_refl _) | exact Hw.count_q (q_refl _)) (by assumption)
theorem Hw.addEnergy_k {g0 : Hw} {h : Hw} (i : Nat) (work : Nat) (eh : ModeKept g0 h) : ModeKept g0 (Hw.addEnergy h i work) := k_of_q (by first | exact Hw.addEnergy_q _ _ (q_refl _) | exact Hw.addEnergy_q (q_refl _)) (by assumption)
theorem Hw.setRing_k {g0 : Hw} {h : Hw} (n : Nat) (r : Ring) (eh : ModeKept g0 h) : ModeKept g0 (Hw.setRing h n r) := k_of_q (by first | exact Hw.setRing_q _ _ (q_refl _) | exact Hw.setRing_q (q_refl _)) (by assumption)
theorem Hw.setSession_k {g0 : Hw} {h : Hw} (n : Nat) (s : Session) (eh : ModeKept g0 h) : ModeKept g0 (Hw.setSession h n s) := k_of_q (by first | exact Hw.setSession_q _ _ (q_refl _) | exact Hw.setSession_q (q_refl _)) (by assumption)
theorem Hw.drawn_k {g0 : Hw} {h : Hw} (eh : ModeKept g0 h) : ModeKept g0 (Hw.drawn h) := by
  unfold Hw.drawn
  repeat' first
    | with_reducible assumption
    | intro _
    | with_reducible apply k_ite
    | split
    | with_reducible apply foldl_k
    | dsimp only
theorem Hw.putPar_k {g0 : Hw} {h : Hw} (id : Nat) (v : Nat) (eh : ModeKept g0 h) : ModeKept g0 (Hw.putPar h id v) := by
  unfold Hw.putPar
  repeat' first
    | with_reducible assumption
    | intro _
    | with_reducible apply k_ite
    | split
    | with_reducible apply foldl_k
    | dsimp only
theorem Hw.msix_k {g0 : Hw} {h : Hw} (v : Nat) (eh : ModeKept g0 h) : ModeKept g0 (Hw.msix h v) := k_of_q (by first | exact Hw.msix_q _ (q_refl _) | exact Hw.msix_q (q_refl _)) (by assumption)
theorem Hw.signalRing_k {g0 : Hw} {h : Hw} (n : Nat) (eh : ModeKept g0 h) : ModeKept g0 (Hw.signalRing h n) := k_of_q (by first | exact Hw.signalRing_q _ (q_refl _) | exact Hw.signalRing_q (q_refl _)) (by assumption)
theorem Hw.coalesce_k {g0 : Hw} {h : Hw} (n : Nat) (urgent : Bool) (eh : ModeKept g0 h) : ModeKept g0 (Hw.coalesce h n urgent) := k_of_q (by first | exact Hw.coalesce_q _ _ (q_refl _) | exact Hw.coalesce_q (q_refl _)) (by assumption)
theorem Hw.place_k {g0 : Hw} {h : Hw} (n : Nat) (w : Waiting) (eh : ModeKept g0 h) : ModeKept g0 (Hw.place h n w) := k_of_q (by first | exact Hw.place_q _ _ (q_refl _) | exact Hw.place_q (q_refl _)) (by assumption)
theorem Hw.postWaiting_k {g0 : Hw} (f n : Nat) {h : Hw} (e : ModeKept g0 h) : ModeKept g0 (Hw.postWaiting f n h) := k_of_q (Hw.postWaiting_q _ _ (q_refl _)) e
theorem Hw.queueCompletion_k {g0 : Hw} {h : Hw} (n : Nat) (tag : W32) (st : Byte) (time : W64) (eh : ModeKept g0 h) : ModeKept g0 (Hw.queueCompletion h n tag st time) := k_of_q (by first | exact Hw.queueCompletion_q _ _ _ _ (q_refl _) | exact Hw.queueCompletion_q (q_refl _)) (by assumption)
theorem Hw.queueTlm_k {g0 : Hw} {h : Hw} (n : Nat) (ty : W16) (time : W64) (body : List Byte) (eh : ModeKept g0 h) : ModeKept g0 (Hw.queueTlm h n ty time body) := k_of_q (by first | exact Hw.queueTlm_q _ _ _ _ (q_refl _) | exact Hw.queueTlm_q (q_refl _)) (by assumption)
theorem Hw.queueEvent_k {g0 : Hw} {h : Hw} (ty : W16) (time : W64) (body : List Byte) (eh : ModeKept g0 h) : ModeKept g0 (Hw.queueEvent h ty time body) := k_of_q (by first | exact Hw.queueEvent_q _ _ _ (q_refl _) | exact Hw.queueEvent_q (q_refl _)) (by assumption)
theorem Hw.faultRecord_k {g0 : Hw} {h : Hw} (e : Entry) (transition : Byte) (eh : ModeKept g0 h) : ModeKept g0 (Hw.faultRecord h e transition) := k_of_q (by first | exact Hw.faultRecord_q _ _ (q_refl _) | exact Hw.faultRecord_q (q_refl _)) (by assumption)
theorem Hw.nextSeq_k {g0 : Hw} {h : Hw} (eh : ModeKept g0 h) : ModeKept g0 (Hw.nextSeq h) := k_of_q (by first | exact Hw.nextSeq_q  (q_refl _) | exact Hw.nextSeq_q (q_refl _)) (by assumption)
theorem Hw.note_k {g0 : Hw} {h : Hw} (code : W16) (cls : FClass) (src : Byte) (arg : W32) (active : Bool) (eh : ModeKept g0 h) : ModeKept g0 (Hw.note h code cls src arg active) := k_of_q (by first | exact Hw.note_q _ _ _ _ _ (q_refl _) | exact Hw.note_q (q_refl _)) (by assumption)
theorem Hw.postEvent_k {g0 : Hw} {h : Hw} (ty : W16) (time : W64) (body : List Byte) (eh : ModeKept g0 h) : ModeKept g0 (Hw.postEvent h ty time body) := k_of_q (by first | exact Hw.postEvent_q _ _ _ (q_refl _) | exact Hw.postEvent_q (q_refl _)) (by assumption)
theorem Hw.postTlm_k {g0 : Hw} {h : Hw} (n : Nat) (ty : W16) (time : W64) (body : List Byte) (eh : ModeKept g0 h) : ModeKept g0 (Hw.postTlm h n ty time body) := k_of_q (by first | exact Hw.postTlm_q _ _ _ _ (q_refl _) | exact Hw.postTlm_q (q_refl _)) (by assumption)
theorem Hw.clearFault_k {g0 : Hw} {h : Hw} (code : W16) (src : Byte) (eh : ModeKept g0 h) : ModeKept g0 (Hw.clearFault h code src) := k_of_q (by first | exact Hw.clearFault_q _ _ (q_refl _) | exact Hw.clearFault_q (q_refl _)) (by assumption)
theorem Hw.canRespond_k {g0 : Hw} {h : Hw} (tag : W32) (st : Byte) (time : W64) (extra : List Byte) (eh : ModeKept g0 h) : ModeKept g0 (Hw.canRespond h tag st time extra) := k_of_q (by first | exact Hw.canRespond_q _ _ _ _ (q_refl _) | exact Hw.canRespond_q (q_refl _)) (by assumption)
theorem Hw.completeRaw_k {g0 : Hw} {h : Hw} (q : Req) (st : Status) (time : W64) (extra : List Byte) (eh : ModeKept g0 h) : ModeKept g0 (Hw.completeRaw h q st time extra) := k_of_q (by first | exact Hw.completeRaw_q _ _ _ _ (q_refl _) | exact Hw.completeRaw_q (q_refl _)) (by assumption)
theorem Hw.settleOne_k {g0 : Hw} {h : Hw} (n : Nat) (eh : ModeKept g0 h) : ModeKept g0 (Hw.settleOne h n) := k_of_q (by first | exact Hw.settleOne_q _ (q_refl _) | exact Hw.settleOne_q (q_refl _)) (by assumption)
theorem Hw.settleRing_k {g0 : Hw} {h : Hw} (n : Nat) (eh : ModeKept g0 h) : ModeKept g0 (Hw.settleRing h n) := k_of_q (by first | exact Hw.settleRing_q _ (q_refl _) | exact Hw.settleRing_q (q_refl _)) (by assumption)
theorem Hw.settleSession_k {g0 : Hw} {h : Hw} (n : Nat) (eh : ModeKept g0 h) : ModeKept g0 (Hw.settleSession h n) := k_of_q (by first | exact Hw.settleSession_q _ (q_refl _) | exact Hw.settleSession_q (q_refl _)) (by assumption)
theorem Hw.completeAt_k {g0 : Hw} {h : Hw} (q : Req) (st : Status) (time : W64) (extra : optParam (List Byte) []) (eh : ModeKept g0 h) : ModeKept g0 (Hw.completeAt h q st time extra) := k_of_q (by first | exact Hw.completeAt_q _ _ _ _ (q_refl _) | exact Hw.completeAt_q (q_refl _)) (by assumption)
theorem Hw.complete_k {g0 : Hw} {h : Hw} (q : Req) (st : Status) (eh : ModeKept g0 h) : ModeKept g0 (Hw.complete h q st) := k_of_q (by first | exact Hw.complete_q _ _ (q_refl _) | exact Hw.complete_q (q_refl _)) (by assumption)
theorem Hw.completeOpt_k {g0 : Hw} {h : Hw} (q : Option Req) (st : Status) (eh : ModeKept g0 h) : ModeKept g0 (Hw.completeOpt h q st) := k_of_q (by first | exact Hw.completeOpt_q _ _ (q_refl _) | exact Hw.completeOpt_q (q_refl _)) (by assumption)
theorem Hw.completeAll_k {g0 : Hw} (st : Status) (l : List Req) {h : Hw} (e : ModeKept g0 h) : ModeKept g0 (Hw.completeAll l st h) :=
  k_of_q (Hw.completeAll_q l st (q_refl _)) e

theorem Hw.setPattern_k {g0 : Hw} {h : Hw} (b : Bridge) (p : BState) (eh : ModeKept g0 h) : ModeKept g0 (Hw.setPattern h b p) := by
  unfold Hw.setPattern
  repeat' first
    | with_reducible assumption
    | intro _
    | with_reducible apply k_ite
    | with_reducible apply Hw.count_k
    | with_reducible apply Hw.modCtl_k
    | with_reducible apply Hw.complete_k
    | split
    | with_reducible apply foldl_k
    | dsimp only
theorem Hw.refreshSafe_k {g0 : Hw} {h : Hw} (b : Bridge) (eh : ModeKept g0 h) : ModeKept g0 (Hw.refreshSafe h b) := by
  unfold Hw.refreshSafe
  repeat' first
    | with_reducible assumption
    | intro _
    | with_reducible apply k_ite
    | with_reducible apply Hw.setPattern_k
    | with_reducible apply Hw.complete_k
    | split
    | with_reducible apply foldl_k
    | dsimp only
theorem Hw.refreshBoth_k {g0 : Hw} {h : Hw} (eh : ModeKept g0 h) : ModeKept g0 (Hw.refreshBoth h) := by
  unfold Hw.refreshBoth
  repeat' first
    | with_reducible assumption
    | intro _
    | with_reducible apply k_ite
    | with_reducible apply Hw.refreshSafe_k
    | with_reducible apply Hw.complete_k
    | split
    | with_reducible apply foldl_k
    | dsimp only
theorem Hw.storePending_k {g0 : Hw} {h : Hw} (b : Bridge) (eh : ModeKept g0 h) : ModeKept g0 (Hw.storePending h b) := by
  unfold Hw.storePending
  repeat' first
    | with_reducible assumption
    | intro _
    | with_reducible apply k_ite
    | with_reducible apply Hw.modCtl_k
    | with_reducible apply Hw.completeOpt_k
    | with_reducible apply Hw.complete_k
    | split
    | with_reducible apply foldl_k
    | dsimp only
theorem Hw.orderSafe_k {g0 : Hw} {h : Hw} (b : Bridge) (eh : ModeKept g0 h) : ModeKept g0 (Hw.orderSafe h b) := by
  unfold Hw.orderSafe
  repeat' first
    | with_reducible assumption
    | intro _
    | with_reducible apply k_ite
    | with_reducible apply Hw.refreshSafe_k
    | with_reducible apply Hw.modCtl_k
    | with_reducible apply Hw.storePending_k
    | with_reducible apply Hw.complete_k
    | split
    | with_reducible apply foldl_k
    | dsimp only
theorem Hw.orderBoth_k {g0 : Hw} {h : Hw} (eh : ModeKept g0 h) : ModeKept g0 (Hw.orderBoth h) := by
  unfold Hw.orderBoth
  repeat' first
    | with_reducible assumption
    | intro _
    | with_reducible apply k_ite
    | with_reducible apply Hw.orderSafe_k
    | with_reducible apply Hw.complete_k
    | split
    | with_reducible apply foldl_k
    | dsimp only
theorem Hw.modFus_k {g0 : Hw} {h : Hw} (b : Bridge) (f : Fusion → Fusion) (eh : ModeKept g0 h) : ModeKept g0 (Hw.modFus h b f) := by
  unfold Hw.modFus
  repeat' first
    | with_reducible assumption
    | intro _
    | with_reducible apply k_ite
    | with_reducible apply Hw.complete_k
    | split
    | with_reducible apply foldl_k
    | dsimp only
theorem Hw.chgGo_k {g0 : Hw} {h : Hw} (st : ChgState) (cause : Byte) (code : W16) (eh : ModeKept g0 h) : ModeKept g0 (Hw.chgGo h st cause code) := by
  unfold Hw.chgGo
  repeat' first
    | with_reducible assumption
    | intro _
    | with_reducible apply k_ite
    | with_reducible apply Hw.postEvent_k
    | with_reducible apply Hw.complete_k
    | split
    | with_reducible apply foldl_k
    | dsimp only
theorem Hw.chgEndPhase_k {g0 : Hw} {h : Hw} (reason : Byte) (eh : ModeKept g0 h) : ModeKept g0 (Hw.chgEndPhase h reason) := by
  unfold Hw.chgEndPhase
  repeat' first
    | with_reducible assumption
    | intro _
    | with_reducible apply k_ite
    | with_reducible apply Hw.postEvent_k
    | with_reducible apply Hw.complete_k
    | split
    | with_reducible apply foldl_k
    | dsimp only
theorem Hw.chgOpen_k {g0 : Hw} {h : Hw} (eh : ModeKept g0 h) : ModeKept g0 (Hw.chgOpen h) := by
  unfold Hw.chgOpen
  repeat' first
    | with_reducible assumption
    | intro _
    | with_reducible apply k_ite
    | with_reducible apply Hw.complete_k
    | split
    | with_reducible apply foldl_k
    | dsimp only
theorem Hw.chgCompleteAll_k {g0 : Hw} {h : Hw} (start : Status) (stop : Status) (eh : ModeKept g0 h) : ModeKept g0 (Hw.chgCompleteAll h start stop) := by
  unfold Hw.chgCompleteAll
  repeat' first
    | with_reducible assumption
    | intro _
    | with_reducible apply k_ite
    | with_reducible apply Hw.completeAll_k
    | with_reducible apply Hw.completeOpt_k
    | with_reducible apply Hw.complete_k
    | split
    | with_reducible apply foldl_k
    | dsimp only
theorem Hw.chgArrest_k {g0 : Hw} {h : Hw} (code : W16) (eh : ModeKept g0 h) : ModeKept g0 (Hw.chgArrest h code) := by
  unfold Hw.chgArrest
  repeat' first
    | with_reducible assumption
    | intro _
    | with_reducible apply k_ite
    | with_reducible apply Hw.chgOpen_k
    | with_reducible apply Hw.chgEndPhase_k
    | with_reducible apply Hw.chgGo_k
    | with_reducible apply Hw.chgCompleteAll_k
    | with_reducible apply Hw.complete_k
    | split
    | with_reducible apply foldl_k
    | dsimp only
theorem Hw.boostAbort_k {g0 : Hw} {h : Hw} (code : W16) (eh : ModeKept g0 h) : ModeKept g0 (Hw.boostAbort h code) := by
  unfold Hw.boostAbort
  repeat' first
    | with_reducible assumption
    | intro _
    | with_reducible apply k_ite
    | with_reducible apply Hw.chgOpen_k
    | with_reducible apply Hw.chgEndPhase_k
    | with_reducible apply Hw.chgGo_k
    | with_reducible apply Hw.chgCompleteAll_k
    | with_reducible apply Hw.complete_k
    | split
    | with_reducible apply foldl_k
    | dsimp only
theorem Hw.faultSafe_k {g0 : Hw} {h : Hw} (b : Bridge) (ack : Bool) (eh : ModeKept g0 h) : ModeKept g0 (Hw.faultSafe h b ack) := by
  unfold Hw.faultSafe
  repeat' first
    | with_reducible assumption
    | intro _
    | with_reducible apply k_ite
    | with_reducible apply Hw.boostAbort_k
    | with_reducible apply Hw.orderSafe_k
    | with_reducible apply Hw.modCtl_k
    | with_reducible apply Hw.complete_k
    | split
    | with_reducible apply foldl_k
    | dsimp only
theorem Hw.lvGo_k {g0 : Hw} {h : Hw} (st : LvState) (eh : ModeKept g0 h) : ModeKept g0 (Hw.lvGo h st) := by
  unfold Hw.lvGo
  repeat' first
    | with_reducible assumption
    | intro _
    | with_reducible apply k_ite
    | with_reducible apply Hw.postEvent_k
    | with_reducible apply Hw.complete_k
    | split
    | with_reducible apply foldl_k
    | dsimp only
theorem Hw.lvOff_k {g0 : Hw} {h : Hw} (eh : ModeKept g0 h) : ModeKept g0 (Hw.lvOff h) := by
  unfold Hw.lvOff
  repeat' first
    | with_reducible assumption
    | intro _
    | with_reducible apply k_ite
    | with_reducible apply Hw.complete_k
    | split
    | with_reducible apply foldl_k
    | dsimp only
theorem Hw.lvRest_k {g0 : Hw} {h : Hw} (st : LvState) (others : Status) (eh : ModeKept g0 h) : ModeKept g0 (Hw.lvRest h st others) := by
  unfold Hw.lvRest
  repeat' first
    | with_reducible assumption
    | intro _
    | with_reducible apply k_ite
    | with_reducible apply Hw.completeAll_k
    | with_reducible apply Hw.lvOff_k
    | with_reducible apply Hw.completeOpt_k
    | with_reducible apply Hw.lvGo_k
    | with_reducible apply Hw.complete_k
    | split
    | with_reducible apply foldl_k
    | dsimp only
theorem Hw.lvArrest_k {g0 : Hw} {h : Hw} (eh : ModeKept g0 h) : ModeKept g0 (Hw.lvArrest h) := by
  unfold Hw.lvArrest
  repeat' first
    | with_reducible assumption
    | intro _
    | with_reducible apply k_ite
    | with_reducible apply Hw.lvRest_k
    | with_reducible apply Hw.complete_k
    | split
    | with_reducible apply foldl_k
    | dsimp only
theorem Hw.actStop_k {g0 : Hw} {h : Hw} (st : Status) (eh : ModeKept g0 h) : ModeKept g0 (Hw.actStop h st) := by
  unfold Hw.actStop
  repeat' first
    | with_reducible assumption
    | intro _
    | with_reducible apply k_ite
    | with_reducible apply Hw.completeOpt_k
    | with_reducible apply Hw.complete_k
    | split
    | with_reducible apply foldl_k
    | dsimp only
theorem Hw.shiftArrest_k {g0 : Hw} {h : Hw} (eh : ModeKept g0 h) : ModeKept g0 (Hw.shiftArrest h) := by
  unfold Hw.shiftArrest
  repeat' first
    | with_reducible assumption
    | intro _
    | with_reducible apply k_ite
    | with_reducible apply Hw.completeOpt_k
    | with_reducible apply Hw.complete_k
    | split
    | with_reducible apply foldl_k
    | dsimp only
theorem Hw.modDrive_k {g0 : Hw} {h : Hw} (i : Nat) (f : Drive → Drive) (eh : ModeKept g0 h) : ModeKept g0 (Hw.modDrive h i f) := by
  unfold Hw.modDrive
  repeat' first
    | with_reducible assumption
    | intro _
    | with_reducible apply k_ite
    | split
    | with_reducible apply foldl_k
    | dsimp only
theorem Hw.startDrive_k {g0 : Hw} {h : Hw} (i code : Nat) (limit : Int) (q : Option Req) (eh : ModeKept g0 h) : ModeKept g0 (Hw.startDrive h i code limit q) := by
  unfold Hw.startDrive
  repeat' first
    | with_reducible assumption
    | intro _
    | with_reducible apply k_ite
    | with_reducible apply Hw.modDrive_k
    | split
    | with_reducible apply foldl_k
    | dsimp only
theorem Hw.actHold_k {g0 : Hw} {h : Hw} (eh : ModeKept g0 h) : ModeKept g0 (Hw.actHold h) := by
  unfold Hw.actHold
  repeat' first
    | with_reducible assumption
    | intro _
    | with_reducible apply k_ite
    | with_reducible apply Hw.actStop_k
    | with_reducible apply Hw.shiftArrest_k
    | with_reducible apply Hw.startDrive_k
    | split
    | with_reducible apply foldl_k
    | dsimp only
theorem Hw.endIdent_k {g0 : Hw} {h : Hw} (b : Bridge) (eh : ModeKept g0 h) : ModeKept g0 (Hw.endIdent h b) := by
  unfold Hw.endIdent
  repeat' first
    | with_reducible assumption
    | intro _
    | with_reducible apply k_ite
    | with_reducible apply Hw.orderSafe_k
    | split
    | with_reducible apply foldl_k
    | dsimp only
theorem Hw.abortTests_k {g0 : Hw} {h : Hw} (eh : ModeKept g0 h) : ModeKept g0 (Hw.abortTests h) := by
  unfold Hw.abortTests
  repeat' first
    | with_reducible assumption
    | intro _
    | with_reducible apply k_ite
    | with_reducible apply Hw.completeAll_k
    | with_reducible apply Hw.endIdent_k
    | with_reducible apply Hw.complete_k
    | split
    | with_reducible apply foldl_k
    | dsimp only
theorem Hw.abortCinches_k {g0 : Hw} {h : Hw} (eh : ModeKept g0 h) : ModeKept g0 (Hw.abortCinches h) := by
  unfold Hw.abortCinches
  repeat' first
    | with_reducible assumption
    | intro _
    | with_reducible apply k_ite
    | with_reducible apply Hw.completeAll_k
    | with_reducible apply Hw.complete_k
    | split
    | with_reducible apply foldl_k
    | dsimp only
theorem Hw.abortSetpoints_k {g0 : Hw} {h : Hw} (b : Bridge) (eh : ModeKept g0 h) : ModeKept g0 (Hw.abortSetpoints h b) := by
  unfold Hw.abortSetpoints
  repeat' first
    | with_reducible assumption
    | intro _
    | with_reducible apply k_ite
    | with_reducible apply Hw.modCtl_k
    | with_reducible apply Hw.completeOpt_k
    | with_reducible apply Hw.complete_k
    | split
    | with_reducible apply foldl_k
    | dsimp only
theorem Hw.endHeldPair_k {g0 : Hw} {h : Hw} (st : Status) (eh : ModeKept g0 h) : ModeKept g0 (Hw.endHeldPair h st) := by
  unfold Hw.endHeldPair
  repeat' first
    | with_reducible assumption
    | intro _
    | with_reducible apply k_ite
    | with_reducible apply Hw.completeOpt_k
    | split
    | with_reducible apply foldl_k
    | dsimp only
theorem Hw.endPair_k {g0 : Hw} {h : Hw} (st : Status) (eh : ModeKept g0 h) : ModeKept g0 (Hw.endPair h st) := by
  unfold Hw.endPair
  repeat' first
    | with_reducible assumption
    | intro _
    | with_reducible apply k_ite
    | with_reducible apply Hw.completeOpt_k
    | with_reducible apply Hw.endHeldPair_k
    | with_reducible apply Hw.complete_k
    | split
    | with_reducible apply foldl_k
    | dsimp only
theorem Hw.applyStaged_k {g0 : Hw} {h : Hw} (eh : ModeKept g0 h) : ModeKept g0 (Hw.applyStaged h) := by
  unfold Hw.applyStaged
  repeat' first
    | with_reducible assumption
    | intro _
    | with_reducible apply k_ite
    | with_reducible apply Hw.putPar_k
    | with_reducible apply Hw.complete_k
    | split
    | with_reducible apply foldl_k
    | dsimp only
theorem Hw.safetyEdge_k {g0 : Hw} {h : Hw} (m : Mode) (eh : ModeKept g0 h) : ModeKept g0 (Hw.safetyEdge h m) := by
  unfold Hw.safetyEdge
  repeat' first
    | with_reducible assumption
    | intro _
    | with_reducible apply k_ite
    | with_reducible apply Hw.putPar_k
    | with_reducible apply Hw.clearFault_k
    | with_reducible apply Hw.complete_k
    | split
    | with_reducible apply foldl_k
    | dsimp only
theorem Hw.bridgeEdge_k {g0 : Hw} {h : Hw} (b : Bridge) (m : Mode) (eh : ModeKept g0 h) : ModeKept g0 (Hw.bridgeEdge h b m) := by
  unfold Hw.bridgeEdge
  repeat' first
    | with_reducible assumption
    | intro _
    | with_reducible apply k_ite
    | with_reducible apply Hw.orderSafe_k
    | with_reducible apply Hw.complete_k
    | split
    | with_reducible apply foldl_k
    | dsimp only
theorem Hw.mailbox0_k {g0 : Hw} {h : Hw} (eh : ModeKept g0 h) : ModeKept g0 (Hw.mailbox0 h) := by
  unfold Hw.mailbox0
  repeat' first
    | with_reducible assumption
    | intro _
    | with_reducible apply k_ite
    | with_reducible apply Hw.msix_k
    | with_reducible apply Hw.complete_k
    | split
    | with_reducible apply foldl_k
    | dsimp only
theorem Hw.modeEvent_k {g0 : Hw} {h : Hw} (m : Mode) (cause : Byte) (code : W16) (src : Byte) (eh : ModeKept g0 h) : ModeKept g0 (Hw.modeEvent h m cause code src) := by
  unfold Hw.modeEvent
  repeat' first
    | with_reducible assumption
    | intro _
    | with_reducible apply k_ite
    | with_reducible apply Hw.postEvent_k
    | with_reducible apply Hw.complete_k
    | split
    | with_reducible apply foldl_k
    | dsimp only
theorem Hw.dischargeEdge_k {g0 : Hw} {h : Hw} (m : Mode) (eh : ModeKept g0 h) : ModeKept g0 (Hw.dischargeEdge h m) := by
  unfold Hw.dischargeEdge
  repeat' first
    | with_reducible assumption
    | intro _
    | with_reducible apply k_ite
    | with_reducible apply Hw.completeAll_k
    | with_reducible apply Hw.complete_k
    | split
    | with_reducible apply foldl_k
    | dsimp only
theorem Hw.arrestDischarge_k {g0 : Hw} {h : Hw} (eh : ModeKept g0 h) : ModeKept g0 (Hw.arrestDischarge h) := by
  unfold Hw.arrestDischarge
  repeat' first
    | with_reducible assumption
    | intro _
    | with_reducible apply k_ite
    | with_reducible apply Hw.complete_k
    | split
    | with_reducible apply foldl_k
    | dsimp only
theorem Hw.chgBelay_k {g0 : Hw} {h : Hw} (eh : ModeKept g0 h) : ModeKept g0 (Hw.chgBelay h) := by
  unfold Hw.chgBelay
  repeat' first
    | with_reducible assumption
    | intro _
    | with_reducible apply k_ite
    | with_reducible apply Hw.complete_k
    | split
    | with_reducible apply foldl_k
    | dsimp only

end Sys2Proof.Machine
end

