-- ==== Sys2Proof/Laws/State.lean ====
section
/-!
SUPPORT. Laws/State.lean: the laws of sparse tables, and for each named update of the module what every field reads after it.
-/
namespace Sys2Proof

@[simp] theorem Tab.get_set_self {α : Type} (t : Tab α) (i : Nat) (v d : α) : (t.set i v).get i d = v := by
  fun_induction Tab.set t i v <;> grind [Tab.get]

theorem Tab.get_set_other {α : Type} (t : Tab α) {i j : Nat} (v d : α) (h : j ≠ i) : (t.set i v).get j d = t.get j d := by
  fun_induction Tab.set t i v <;> grind [Tab.get]

@[simp] theorem Tab.find_set_self {α : Type} (t : Tab α) (i : Nat) (v : α) : (t.set i v).find i = some v := by
  fun_induction Tab.set t i v <;> grind [Tab.find]

theorem Tab.find_set_other {α : Type} (t : Tab α) {i j : Nat} (v : α) (h : j ≠ i) : (t.set i v).find j = t.find j := by
  fun_induction Tab.set t i v <;> grind [Tab.find]

end Sys2Proof

namespace Sys2Proof.Machine

@[simp] theorem Hw.modCtl_ctl (h : Hw) (b : Bridge) (f : Ctl → Ctl) : (h.modCtl b f).ctl b = f (h.ctl b) := by cases b <;> rfl
@[simp] theorem Hw.modCtl_other (h : Hw) (b : Bridge) (f : Ctl → Ctl) : (h.modCtl b f).ctl b.other = h.ctl b.other := by
  cases b <;> rfl
@[simp] theorem Hw.modGate_gate (h : Hw) (b : Bridge) (f : Gate → Gate) : (h.modGate b f).gate b = f (h.gate b) := by
  cases b <;> rfl
@[simp] theorem Hw.setRing_ring (h : Hw) (n : Nat) (r : Ring) : (h.setRing n r).ring n = r := Tab.get_set_self _ _ _ _
theorem Hw.setRing_other (h : Hw) {n m : Nat} (r : Ring) (hm : m ≠ n) : (h.setRing n r).ring m = h.ring m :=
  Tab.get_set_other _ _ _ hm
@[simp] theorem Hw.setSession_session (h : Hw) (n : Nat) (x : Session) : (h.setSession n x).session n = some x :=
  Tab.find_set_self _ _ _
theorem Hw.setSession_other (h : Hw) {n m : Nat} (x : Session) (hm : m ≠ n) : (h.setSession n x).session m = h.session m :=
  Tab.find_set_other _ _ hm
@[simp] theorem Hw.setMb_mb (h : Hw) (n : Nat) (x : Mailbox) : (h.setMb n x).mb n = x := Tab.get_set_self _ _ _ _
@[simp] theorem Hw.setSlot_slot (h : Hw) (n : Nat) (x : Slot) : (h.setSlot n x).slot n = x := Tab.get_set_self _ _ _ _
@[simp] theorem Hw.emit_out (h : Hw) (o : Output) : (h.emit o).out = o :: h.out := rfl
@[simp] theorem Hw.count_self (h : Hw) (i n : Nat) :
    (h.count i n).cnt.vals.get i 0 = min (h.cnt.vals.get i 0 + n) (2 ^ 48 - 1) := Tab.get_set_self _ _ _ _
theorem Hw.count_other (h : Hw) {i j : Nat} (n : Nat) (hj : j ≠ i) : (h.count i n).cnt.vals.get j 0 = h.cnt.vals.get j 0 :=
  Tab.get_set_other _ _ _ hj
@[simp] theorem Hw.putPar_par (h : Hw) (i v : Nat) : (h.putPar i v).par i = v := by simp [Hw.par, Hw.putPar]

@[simp] theorem Hw.modCtl_time (h : Hw) (b : Bridge) (f : Ctl → Ctl) : (h.modCtl b f).time = h.time := by cases b <;> rfl
@[simp] theorem Hw.modCtl_mode (h : Hw) (b : Bridge) (f : Ctl → Ctl) : (h.modCtl b f).mode = h.mode := by cases b <;> rfl
@[simp] theorem Hw.modCtl_pwr (h : Hw) (b : Bridge) (f : Ctl → Ctl) : (h.modCtl b f).pwr = h.pwr := by cases b <;> rfl
@[simp] theorem Hw.modCtl_tests (h : Hw) (b : Bridge) (f : Ctl → Ctl) : (h.modCtl b f).tests = h.tests := by cases b <;> rfl
@[simp] theorem Hw.modCtl_sen (h : Hw) (b : Bridge) (f : Ctl → Ctl) : (h.modCtl b f).sen = h.sen := by cases b <;> rfl
@[simp] theorem Hw.modCtl_pos (h : Hw) (b : Bridge) (f : Ctl → Ctl) : (h.modCtl b f).pos = h.pos := by cases b <;> rfl
@[simp] theorem Hw.modCtl_gateA (h : Hw) (b : Bridge) (f : Ctl → Ctl) : (h.modCtl b f).gateA = h.gateA := by cases b <;> rfl
@[simp] theorem Hw.modCtl_gateB (h : Hw) (b : Bridge) (f : Ctl → Ctl) : (h.modCtl b f).gateB = h.gateB := by cases b <;> rfl
@[simp] theorem Hw.modCtl_sh (h : Hw) (b : Bridge) (f : Ctl → Ctl) : (h.modCtl b f).sh = h.sh := by cases b <;> rfl
@[simp] theorem Hw.modCtl_lv (h : Hw) (b : Bridge) (f : Ctl → Ctl) : (h.modCtl b f).lv = h.lv := by cases b <;> rfl
@[simp] theorem Hw.modCtl_chg (h : Hw) (b : Bridge) (f : Ctl → Ctl) : (h.modCtl b f).chg = h.chg := by cases b <;> rfl
@[simp] theorem Hw.modCtl_act (h : Hw) (b : Bridge) (f : Ctl → Ctl) : (h.modCtl b f).act = h.act := by cases b <;> rfl
@[simp] theorem Hw.modCtl_saf (h : Hw) (b : Bridge) (f : Ctl → Ctl) : (h.modCtl b f).saf = h.saf := by cases b <;> rfl
@[simp] theorem Hw.modCtl_host (h : Hw) (b : Bridge) (f : Ctl → Ctl) : (h.modCtl b f).host = h.host := by cases b <;> rfl
@[simp] theorem Hw.modCtl_slots (h : Hw) (b : Bridge) (f : Ctl → Ctl) : (h.modCtl b f).slots = h.slots := by cases b <;> rfl
@[simp] theorem Hw.modCtl_prm (h : Hw) (b : Bridge) (f : Ctl → Ctl) : (h.modCtl b f).prm = h.prm := by cases b <;> rfl
@[simp] theorem Hw.modCtl_img (h : Hw) (b : Bridge) (f : Ctl → Ctl) : (h.modCtl b f).img = h.img := by cases b <;> rfl
@[simp] theorem Hw.modCtl_otp (h : Hw) (b : Bridge) (f : Ctl → Ctl) : (h.modCtl b f).otp = h.otp := by cases b <;> rfl
@[simp] theorem Hw.modCtl_cnt (h : Hw) (b : Bridge) (f : Ctl → Ctl) : (h.modCtl b f).cnt = h.cnt := by cases b <;> rfl
@[simp] theorem Hw.modCtl_flt (h : Hw) (b : Bridge) (f : Ctl → Ctl) : (h.modCtl b f).flt = h.flt := by cases b <;> rfl
@[simp] theorem Hw.modCtl_net (h : Hw) (b : Bridge) (f : Ctl → Ctl) : (h.modCtl b f).net = h.net := by cases b <;> rfl
@[simp] theorem Hw.modCtl_pair (h : Hw) (b : Bridge) (f : Ctl → Ctl) : (h.modCtl b f).pair = h.pair := by cases b <;> rfl
@[simp] theorem Hw.modCtl_out (h : Hw) (b : Bridge) (f : Ctl → Ctl) : (h.modCtl b f).out = h.out := by cases b <;> rfl
@[simp] theorem Hw.modCtl_free (h : Hw) (b : Bridge) (f : Ctl → Ctl) : (h.modCtl b f).free = h.free := by cases b <;> rfl

@[simp] theorem Hw.modGate_time (h : Hw) (b : Bridge) (f : Gate → Gate) : (h.modGate b f).time = h.time := by cases b <;> rfl
@[simp] theorem Hw.modGate_mode (h : Hw) (b : Bridge) (f : Gate → Gate) : (h.modGate b f).mode = h.mode := by cases b <;> rfl
@[simp] theorem Hw.modGate_pwr (h : Hw) (b : Bridge) (f : Gate → Gate) : (h.modGate b f).pwr = h.pwr := by cases b <;> rfl
@[simp] theorem Hw.modGate_tests (h : Hw) (b : Bridge) (f : Gate → Gate) : (h.modGate b f).tests = h.tests := by cases b <;> rfl
@[simp] theorem Hw.modGate_sen (h : Hw) (b : Bridge) (f : Gate → Gate) : (h.modGate b f).sen = h.sen := by cases b <;> rfl
@[simp] theorem Hw.modGate_pos (h : Hw) (b : Bridge) (f : Gate → Gate) : (h.modGate b f).pos = h.pos := by cases b <;> rfl
@[simp] theorem Hw.modGate_ctlA (h : Hw) (b : Bridge) (f : Gate → Gate) : (h.modGate b f).ctlA = h.ctlA := by cases b <;> rfl
@[simp] theorem Hw.modGate_ctlB (h : Hw) (b : Bridge) (f : Gate → Gate) : (h.modGate b f).ctlB = h.ctlB := by cases b <;> rfl
@[simp] theorem Hw.modGate_sh (h : Hw) (b : Bridge) (f : Gate → Gate) : (h.modGate b f).sh = h.sh := by cases b <;> rfl
@[simp] theorem Hw.modGate_lv (h : Hw) (b : Bridge) (f : Gate → Gate) : (h.modGate b f).lv = h.lv := by cases b <;> rfl
@[simp] theorem Hw.modGate_chg (h : Hw) (b : Bridge) (f : Gate → Gate) : (h.modGate b f).chg = h.chg := by cases b <;> rfl
@[simp] theorem Hw.modGate_act (h : Hw) (b : Bridge) (f : Gate → Gate) : (h.modGate b f).act = h.act := by cases b <;> rfl
@[simp] theorem Hw.modGate_saf (h : Hw) (b : Bridge) (f : Gate → Gate) : (h.modGate b f).saf = h.saf := by cases b <;> rfl
@[simp] theorem Hw.modGate_host (h : Hw) (b : Bridge) (f : Gate → Gate) : (h.modGate b f).host = h.host := by cases b <;> rfl
@[simp] theorem Hw.modGate_slots (h : Hw) (b : Bridge) (f : Gate → Gate) : (h.modGate b f).slots = h.slots := by cases b <;> rfl
@[simp] theorem Hw.modGate_prm (h : Hw) (b : Bridge) (f : Gate → Gate) : (h.modGate b f).prm = h.prm := by cases b <;> rfl
@[simp] theorem Hw.modGate_img (h : Hw) (b : Bridge) (f : Gate → Gate) : (h.modGate b f).img = h.img := by cases b <;> rfl
@[simp] theorem Hw.modGate_otp (h : Hw) (b : Bridge) (f : Gate → Gate) : (h.modGate b f).otp = h.otp := by cases b <;> rfl
@[simp] theorem Hw.modGate_cnt (h : Hw) (b : Bridge) (f : Gate → Gate) : (h.modGate b f).cnt = h.cnt := by cases b <;> rfl
@[simp] theorem Hw.modGate_flt (h : Hw) (b : Bridge) (f : Gate → Gate) : (h.modGate b f).flt = h.flt := by cases b <;> rfl
@[simp] theorem Hw.modGate_net (h : Hw) (b : Bridge) (f : Gate → Gate) : (h.modGate b f).net = h.net := by cases b <;> rfl
@[simp] theorem Hw.modGate_pair (h : Hw) (b : Bridge) (f : Gate → Gate) : (h.modGate b f).pair = h.pair := by cases b <;> rfl
@[simp] theorem Hw.modGate_out (h : Hw) (b : Bridge) (f : Gate → Gate) : (h.modGate b f).out = h.out := by cases b <;> rfl
@[simp] theorem Hw.modGate_free (h : Hw) (b : Bridge) (f : Gate → Gate) : (h.modGate b f).free = h.free := by cases b <;> rfl

@[simp] theorem Hw.modFus_time (h : Hw) (b : Bridge) (f : Fusion → Fusion) : (h.modFus b f).time = h.time := by cases b <;> rfl
@[simp] theorem Hw.modFus_mode (h : Hw) (b : Bridge) (f : Fusion → Fusion) : (h.modFus b f).mode = h.mode := by cases b <;> rfl
@[simp] theorem Hw.modFus_pwr (h : Hw) (b : Bridge) (f : Fusion → Fusion) : (h.modFus b f).pwr = h.pwr := by cases b <;> rfl
@[simp] theorem Hw.modFus_tests (h : Hw) (b : Bridge) (f : Fusion → Fusion) : (h.modFus b f).tests = h.tests := by cases b <;> rfl
@[simp] theorem Hw.modFus_sen (h : Hw) (b : Bridge) (f : Fusion → Fusion) : (h.modFus b f).sen = h.sen := by cases b <;> rfl
@[simp] theorem Hw.modFus_ctlA (h : Hw) (b : Bridge) (f : Fusion → Fusion) : (h.modFus b f).ctlA = h.ctlA := by cases b <;> rfl
@[simp] theorem Hw.modFus_ctlB (h : Hw) (b : Bridge) (f : Fusion → Fusion) : (h.modFus b f).ctlB = h.ctlB := by cases b <;> rfl
@[simp] theorem Hw.modFus_gateA (h : Hw) (b : Bridge) (f : Fusion → Fusion) : (h.modFus b f).gateA = h.gateA := by cases b <;> rfl
@[simp] theorem Hw.modFus_gateB (h : Hw) (b : Bridge) (f : Fusion → Fusion) : (h.modFus b f).gateB = h.gateB := by cases b <;> rfl
@[simp] theorem Hw.modFus_sh (h : Hw) (b : Bridge) (f : Fusion → Fusion) : (h.modFus b f).sh = h.sh := by cases b <;> rfl
@[simp] theorem Hw.modFus_lv (h : Hw) (b : Bridge) (f : Fusion → Fusion) : (h.modFus b f).lv = h.lv := by cases b <;> rfl
@[simp] theorem Hw.modFus_chg (h : Hw) (b : Bridge) (f : Fusion → Fusion) : (h.modFus b f).chg = h.chg := by cases b <;> rfl
@[simp] theorem Hw.modFus_act (h : Hw) (b : Bridge) (f : Fusion → Fusion) : (h.modFus b f).act = h.act := by cases b <;> rfl
@[simp] theorem Hw.modFus_saf (h : Hw) (b : Bridge) (f : Fusion → Fusion) : (h.modFus b f).saf = h.saf := by cases b <;> rfl
@[simp] theorem Hw.modFus_host (h : Hw) (b : Bridge) (f : Fusion → Fusion) : (h.modFus b f).host = h.host := by cases b <;> rfl
@[simp] theorem Hw.modFus_slots (h : Hw) (b : Bridge) (f : Fusion → Fusion) : (h.modFus b f).slots = h.slots := by cases b <;> rfl
@[simp] theorem Hw.modFus_prm (h : Hw) (b : Bridge) (f : Fusion → Fusion) : (h.modFus b f).prm = h.prm := by cases b <;> rfl
@[simp] theorem Hw.modFus_img (h : Hw) (b : Bridge) (f : Fusion → Fusion) : (h.modFus b f).img = h.img := by cases b <;> rfl
@[simp] theorem Hw.modFus_otp (h : Hw) (b : Bridge) (f : Fusion → Fusion) : (h.modFus b f).otp = h.otp := by cases b <;> rfl
@[simp] theorem Hw.modFus_cnt (h : Hw) (b : Bridge) (f : Fusion → Fusion) : (h.modFus b f).cnt = h.cnt := by cases b <;> rfl
@[simp] theorem Hw.modFus_flt (h : Hw) (b : Bridge) (f : Fusion → Fusion) : (h.modFus b f).flt = h.flt := by cases b <;> rfl
@[simp] theorem Hw.modFus_net (h : Hw) (b : Bridge) (f : Fusion → Fusion) : (h.modFus b f).net = h.net := by cases b <;> rfl
@[simp] theorem Hw.modFus_pair (h : Hw) (b : Bridge) (f : Fusion → Fusion) : (h.modFus b f).pair = h.pair := by cases b <;> rfl
@[simp] theorem Hw.modFus_out (h : Hw) (b : Bridge) (f : Fusion → Fusion) : (h.modFus b f).out = h.out := by cases b <;> rfl
@[simp] theorem Hw.modFus_free (h : Hw) (b : Bridge) (f : Fusion → Fusion) : (h.modFus b f).free = h.free := by cases b <;> rfl

@[simp] theorem Hw.emit_time (h : Hw) (o : Output) : (h.emit o).time = h.time := rfl
@[simp] theorem Hw.emit_mode (h : Hw) (o : Output) : (h.emit o).mode = h.mode := rfl
@[simp] theorem Hw.emit_pwr (h : Hw) (o : Output) : (h.emit o).pwr = h.pwr := rfl
@[simp] theorem Hw.emit_tests (h : Hw) (o : Output) : (h.emit o).tests = h.tests := rfl
@[simp] theorem Hw.emit_sen (h : Hw) (o : Output) : (h.emit o).sen = h.sen := rfl
@[simp] theorem Hw.emit_pos (h : Hw) (o : Output) : (h.emit o).pos = h.pos := rfl
@[simp] theorem Hw.emit_ctlA (h : Hw) (o : Output) : (h.emit o).ctlA = h.ctlA := rfl
@[simp] theorem Hw.emit_ctlB (h : Hw) (o : Output) : (h.emit o).ctlB = h.ctlB := rfl
@[simp] theorem Hw.emit_gateA (h : Hw) (o : Output) : (h.emit o).gateA = h.gateA := rfl
@[simp] theorem Hw.emit_gateB (h : Hw) (o : Output) : (h.emit o).gateB = h.gateB := rfl
@[simp] theorem Hw.emit_sh (h : Hw) (o : Output) : (h.emit o).sh = h.sh := rfl
@[simp] theorem Hw.emit_lv (h : Hw) (o : Output) : (h.emit o).lv = h.lv := rfl
@[simp] theorem Hw.emit_chg (h : Hw) (o : Output) : (h.emit o).chg = h.chg := rfl
@[simp] theorem Hw.emit_act (h : Hw) (o : Output) : (h.emit o).act = h.act := rfl
@[simp] theorem Hw.emit_saf (h : Hw) (o : Output) : (h.emit o).saf = h.saf := rfl
@[simp] theorem Hw.emit_host (h : Hw) (o : Output) : (h.emit o).host = h.host := rfl
@[simp] theorem Hw.emit_slots (h : Hw) (o : Output) : (h.emit o).slots = h.slots := rfl
@[simp] theorem Hw.emit_prm (h : Hw) (o : Output) : (h.emit o).prm = h.prm := rfl
@[simp] theorem Hw.emit_img (h : Hw) (o : Output) : (h.emit o).img = h.img := rfl
@[simp] theorem Hw.emit_otp (h : Hw) (o : Output) : (h.emit o).otp = h.otp := rfl
@[simp] theorem Hw.emit_cnt (h : Hw) (o : Output) : (h.emit o).cnt = h.cnt := rfl
@[simp] theorem Hw.emit_flt (h : Hw) (o : Output) : (h.emit o).flt = h.flt := rfl
@[simp] theorem Hw.emit_net (h : Hw) (o : Output) : (h.emit o).net = h.net := rfl
@[simp] theorem Hw.emit_pair (h : Hw) (o : Output) : (h.emit o).pair = h.pair := rfl
@[simp] theorem Hw.emit_free (h : Hw) (o : Output) : (h.emit o).free = h.free := rfl

@[simp] theorem Hw.count_time (h : Hw) (i n : Nat) : (h.count i n).time = h.time := rfl
@[simp] theorem Hw.count_mode (h : Hw) (i n : Nat) : (h.count i n).mode = h.mode := rfl
@[simp] theorem Hw.count_pwr (h : Hw) (i n : Nat) : (h.count i n).pwr = h.pwr := rfl
@[simp] theorem Hw.count_tests (h : Hw) (i n : Nat) : (h.count i n).tests = h.tests := rfl
@[simp] theorem Hw.count_sen (h : Hw) (i n : Nat) : (h.count i n).sen = h.sen := rfl
@[simp] theorem Hw.count_pos (h : Hw) (i n : Nat) : (h.count i n).pos = h.pos := rfl
@[simp] theorem Hw.count_ctlA (h : Hw) (i n : Nat) : (h.count i n).ctlA = h.ctlA := rfl
@[simp] theorem Hw.count_ctlB (h : Hw) (i n : Nat) : (h.count i n).ctlB = h.ctlB := rfl
@[simp] theorem Hw.count_gateA (h : Hw) (i n : Nat) : (h.count i n).gateA = h.gateA := rfl
@[simp] theorem Hw.count_gateB (h : Hw) (i n : Nat) : (h.count i n).gateB = h.gateB := rfl
@[simp] theorem Hw.count_sh (h : Hw) (i n : Nat) : (h.count i n).sh = h.sh := rfl
@[simp] theorem Hw.count_lv (h : Hw) (i n : Nat) : (h.count i n).lv = h.lv := rfl
@[simp] theorem Hw.count_chg (h : Hw) (i n : Nat) : (h.count i n).chg = h.chg := rfl
@[simp] theorem Hw.count_act (h : Hw) (i n : Nat) : (h.count i n).act = h.act := rfl
@[simp] theorem Hw.count_saf (h : Hw) (i n : Nat) : (h.count i n).saf = h.saf := rfl
@[simp] theorem Hw.count_host (h : Hw) (i n : Nat) : (h.count i n).host = h.host := rfl
@[simp] theorem Hw.count_slots (h : Hw) (i n : Nat) : (h.count i n).slots = h.slots := rfl
@[simp] theorem Hw.count_prm (h : Hw) (i n : Nat) : (h.count i n).prm = h.prm := rfl
@[simp] theorem Hw.count_img (h : Hw) (i n : Nat) : (h.count i n).img = h.img := rfl
@[simp] theorem Hw.count_otp (h : Hw) (i n : Nat) : (h.count i n).otp = h.otp := rfl
@[simp] theorem Hw.count_flt (h : Hw) (i n : Nat) : (h.count i n).flt = h.flt := rfl
@[simp] theorem Hw.count_net (h : Hw) (i n : Nat) : (h.count i n).net = h.net := rfl
@[simp] theorem Hw.count_pair (h : Hw) (i n : Nat) : (h.count i n).pair = h.pair := rfl
@[simp] theorem Hw.count_out (h : Hw) (i n : Nat) : (h.count i n).out = h.out := rfl
@[simp] theorem Hw.count_free (h : Hw) (i n : Nat) : (h.count i n).free = h.free := rfl

@[simp] theorem Hw.addEnergy_time (h : Hw) (i n : Nat) : (h.addEnergy i n).time = h.time := rfl
@[simp] theorem Hw.addEnergy_mode (h : Hw) (i n : Nat) : (h.addEnergy i n).mode = h.mode := rfl
@[simp] theorem Hw.addEnergy_pwr (h : Hw) (i n : Nat) : (h.addEnergy i n).pwr = h.pwr := rfl
@[simp] theorem Hw.addEnergy_tests (h : Hw) (i n : Nat) : (h.addEnergy i n).tests = h.tests := rfl
@[simp] theorem Hw.addEnergy_sen (h : Hw) (i n : Nat) : (h.addEnergy i n).sen = h.sen := rfl
@[simp] theorem Hw.addEnergy_pos (h : Hw) (i n : Nat) : (h.addEnergy i n).pos = h.pos := rfl
@[simp] theorem Hw.addEnergy_ctlA (h : Hw) (i n : Nat) : (h.addEnergy i n).ctlA = h.ctlA := rfl
@[simp] theorem Hw.addEnergy_ctlB (h : Hw) (i n : Nat) : (h.addEnergy i n).ctlB = h.ctlB := rfl
@[simp] theorem Hw.addEnergy_gateA (h : Hw) (i n : Nat) : (h.addEnergy i n).gateA = h.gateA := rfl
@[simp] theorem Hw.addEnergy_gateB (h : Hw) (i n : Nat) : (h.addEnergy i n).gateB = h.gateB := rfl
@[simp] theorem Hw.addEnergy_sh (h : Hw) (i n : Nat) : (h.addEnergy i n).sh = h.sh := rfl
@[simp] theorem Hw.addEnergy_lv (h : Hw) (i n : Nat) : (h.addEnergy i n).lv = h.lv := rfl
@[simp] theorem Hw.addEnergy_chg (h : Hw) (i n : Nat) : (h.addEnergy i n).chg = h.chg := rfl
@[simp] theorem Hw.addEnergy_act (h : Hw) (i n : Nat) : (h.addEnergy i n).act = h.act := rfl
@[simp] theorem Hw.addEnergy_saf (h : Hw) (i n : Nat) : (h.addEnergy i n).saf = h.saf := rfl
@[simp] theorem Hw.addEnergy_host (h : Hw) (i n : Nat) : (h.addEnergy i n).host = h.host := rfl
@[simp] theorem Hw.addEnergy_slots (h : Hw) (i n : Nat) : (h.addEnergy i n).slots = h.slots := rfl
@[simp] theorem Hw.addEnergy_prm (h : Hw) (i n : Nat) : (h.addEnergy i n).prm = h.prm := rfl
@[simp] theorem Hw.addEnergy_img (h : Hw) (i n : Nat) : (h.addEnergy i n).img = h.img := rfl
@[simp] theorem Hw.addEnergy_otp (h : Hw) (i n : Nat) : (h.addEnergy i n).otp = h.otp := rfl
@[simp] theorem Hw.addEnergy_flt (h : Hw) (i n : Nat) : (h.addEnergy i n).flt = h.flt := rfl
@[simp] theorem Hw.addEnergy_net (h : Hw) (i n : Nat) : (h.addEnergy i n).net = h.net := rfl
@[simp] theorem Hw.addEnergy_pair (h : Hw) (i n : Nat) : (h.addEnergy i n).pair = h.pair := rfl
@[simp] theorem Hw.addEnergy_out (h : Hw) (i n : Nat) : (h.addEnergy i n).out = h.out := rfl
@[simp] theorem Hw.addEnergy_free (h : Hw) (i n : Nat) : (h.addEnergy i n).free = h.free := rfl

@[simp] theorem Hw.setRing_time (h : Hw) (n : Nat) (r : Ring) : (h.setRing n r).time = h.time := rfl
@[simp] theorem Hw.setRing_mode (h : Hw) (n : Nat) (r : Ring) : (h.setRing n r).mode = h.mode := rfl
@[simp] theorem Hw.setRing_pwr (h : Hw) (n : Nat) (r : Ring) : (h.setRing n r).pwr = h.pwr := rfl
@[simp] theorem Hw.setRing_tests (h : Hw) (n : Nat) (r : Ring) : (h.setRing n r).tests = h.tests := rfl
@[simp] theorem Hw.setRing_sen (h : Hw) (n : Nat) (r : Ring) : (h.setRing n r).sen = h.sen := rfl
@[simp] theorem Hw.setRing_pos (h : Hw) (n : Nat) (r : Ring) : (h.setRing n r).pos = h.pos := rfl
@[simp] theorem Hw.setRing_ctlA (h : Hw) (n : Nat) (r : Ring) : (h.setRing n r).ctlA = h.ctlA := rfl
@[simp] theorem Hw.setRing_ctlB (h : Hw) (n : Nat) (r : Ring) : (h.setRing n r).ctlB = h.ctlB := rfl
@[simp] theorem Hw.setRing_gateA (h : Hw) (n : Nat) (r : Ring) : (h.setRing n r).gateA = h.gateA := rfl
@[simp] theorem Hw.setRing_gateB (h : Hw) (n : Nat) (r : Ring) : (h.setRing n r).gateB = h.gateB := rfl
@[simp] theorem Hw.setRing_sh (h : Hw) (n : Nat) (r : Ring) : (h.setRing n r).sh = h.sh := rfl
@[simp] theorem Hw.setRing_lv (h : Hw) (n : Nat) (r : Ring) : (h.setRing n r).lv = h.lv := rfl
@[simp] theorem Hw.setRing_chg (h : Hw) (n : Nat) (r : Ring) : (h.setRing n r).chg = h.chg := rfl
@[simp] theorem Hw.setRing_act (h : Hw) (n : Nat) (r : Ring) : (h.setRing n r).act = h.act := rfl
@[simp] theorem Hw.setRing_saf (h : Hw) (n : Nat) (r : Ring) : (h.setRing n r).saf = h.saf := rfl
@[simp] theorem Hw.setRing_slots (h : Hw) (n : Nat) (r : Ring) : (h.setRing n r).slots = h.slots := rfl
@[simp] theorem Hw.setRing_prm (h : Hw) (n : Nat) (r : Ring) : (h.setRing n r).prm = h.prm := rfl
@[simp] theorem Hw.setRing_img (h : Hw) (n : Nat) (r : Ring) : (h.setRing n r).img = h.img := rfl
@[simp] theorem Hw.setRing_otp (h : Hw) (n : Nat) (r : Ring) : (h.setRing n r).otp = h.otp := rfl
@[simp] theorem Hw.setRing_cnt (h : Hw) (n : Nat) (r : Ring) : (h.setRing n r).cnt = h.cnt := rfl
@[simp] theorem Hw.setRing_flt (h : Hw) (n : Nat) (r : Ring) : (h.setRing n r).flt = h.flt := rfl
@[simp] theorem Hw.setRing_net (h : Hw) (n : Nat) (r : Ring) : (h.setRing n r).net = h.net := rfl
@[simp] theorem Hw.setRing_pair (h : Hw) (n : Nat) (r : Ring) : (h.setRing n r).pair = h.pair := rfl
@[simp] theorem Hw.setRing_out (h : Hw) (n : Nat) (r : Ring) : (h.setRing n r).out = h.out := rfl
@[simp] theorem Hw.setRing_free (h : Hw) (n : Nat) (r : Ring) : (h.setRing n r).free = h.free := rfl

@[simp] theorem Hw.setSession_time (h : Hw) (n : Nat) (x : Session) : (h.setSession n x).time = h.time := rfl
@[simp] theorem Hw.setSession_mode (h : Hw) (n : Nat) (x : Session) : (h.setSession n x).mode = h.mode := rfl
@[simp] theorem Hw.setSession_pwr (h : Hw) (n : Nat) (x : Session) : (h.setSession n x).pwr = h.pwr := rfl
@[simp] theorem Hw.setSession_tests (h : Hw) (n : Nat) (x : Session) : (h.setSession n x).tests = h.tests := rfl
@[simp] theorem Hw.setSession_sen (h : Hw) (n : Nat) (x : Session) : (h.setSession n x).sen = h.sen := rfl
@[simp] theorem Hw.setSession_pos (h : Hw) (n : Nat) (x : Session) : (h.setSession n x).pos = h.pos := rfl
@[simp] theorem Hw.setSession_ctlA (h : Hw) (n : Nat) (x : Session) : (h.setSession n x).ctlA = h.ctlA := rfl
@[simp] theorem Hw.setSession_ctlB (h : Hw) (n : Nat) (x : Session) : (h.setSession n x).ctlB = h.ctlB := rfl
@[simp] theorem Hw.setSession_gateA (h : Hw) (n : Nat) (x : Session) : (h.setSession n x).gateA = h.gateA := rfl
@[simp] theorem Hw.setSession_gateB (h : Hw) (n : Nat) (x : Session) : (h.setSession n x).gateB = h.gateB := rfl
@[simp] theorem Hw.setSession_sh (h : Hw) (n : Nat) (x : Session) : (h.setSession n x).sh = h.sh := rfl
@[simp] theorem Hw.setSession_lv (h : Hw) (n : Nat) (x : Session) : (h.setSession n x).lv = h.lv := rfl
@[simp] theorem Hw.setSession_chg (h : Hw) (n : Nat) (x : Session) : (h.setSession n x).chg = h.chg := rfl
@[simp] theorem Hw.setSession_act (h : Hw) (n : Nat) (x : Session) : (h.setSession n x).act = h.act := rfl
@[simp] theorem Hw.setSession_saf (h : Hw) (n : Nat) (x : Session) : (h.setSession n x).saf = h.saf := rfl
@[simp] theorem Hw.setSession_slots (h : Hw) (n : Nat) (x : Session) : (h.setSession n x).slots = h.slots := rfl
@[simp] theorem Hw.setSession_prm (h : Hw) (n : Nat) (x : Session) : (h.setSession n x).prm = h.prm := rfl
@[simp] theorem Hw.setSession_img (h : Hw) (n : Nat) (x : Session) : (h.setSession n x).img = h.img := rfl
@[simp] theorem Hw.setSession_otp (h : Hw) (n : Nat) (x : Session) : (h.setSession n x).otp = h.otp := rfl
@[simp] theorem Hw.setSession_cnt (h : Hw) (n : Nat) (x : Session) : (h.setSession n x).cnt = h.cnt := rfl
@[simp] theorem Hw.setSession_flt (h : Hw) (n : Nat) (x : Session) : (h.setSession n x).flt = h.flt := rfl
@[simp] theorem Hw.setSession_net (h : Hw) (n : Nat) (x : Session) : (h.setSession n x).net = h.net := rfl
@[simp] theorem Hw.setSession_pair (h : Hw) (n : Nat) (x : Session) : (h.setSession n x).pair = h.pair := rfl
@[simp] theorem Hw.setSession_out (h : Hw) (n : Nat) (x : Session) : (h.setSession n x).out = h.out := rfl
@[simp] theorem Hw.setSession_free (h : Hw) (n : Nat) (x : Session) : (h.setSession n x).free = h.free := rfl

@[simp] theorem Hw.setMb_time (h : Hw) (n : Nat) (x : Mailbox) : (h.setMb n x).time = h.time := rfl
@[simp] theorem Hw.setMb_mode (h : Hw) (n : Nat) (x : Mailbox) : (h.setMb n x).mode = h.mode := rfl
@[simp] theorem Hw.setMb_pwr (h : Hw) (n : Nat) (x : Mailbox) : (h.setMb n x).pwr = h.pwr := rfl
@[simp] theorem Hw.setMb_tests (h : Hw) (n : Nat) (x : Mailbox) : (h.setMb n x).tests = h.tests := rfl
@[simp] theorem Hw.setMb_sen (h : Hw) (n : Nat) (x : Mailbox) : (h.setMb n x).sen = h.sen := rfl
@[simp] theorem Hw.setMb_pos (h : Hw) (n : Nat) (x : Mailbox) : (h.setMb n x).pos = h.pos := rfl
@[simp] theorem Hw.setMb_ctlA (h : Hw) (n : Nat) (x : Mailbox) : (h.setMb n x).ctlA = h.ctlA := rfl
@[simp] theorem Hw.setMb_ctlB (h : Hw) (n : Nat) (x : Mailbox) : (h.setMb n x).ctlB = h.ctlB := rfl
@[simp] theorem Hw.setMb_gateA (h : Hw) (n : Nat) (x : Mailbox) : (h.setMb n x).gateA = h.gateA := rfl
@[simp] theorem Hw.setMb_gateB (h : Hw) (n : Nat) (x : Mailbox) : (h.setMb n x).gateB = h.gateB := rfl
@[simp] theorem Hw.setMb_sh (h : Hw) (n : Nat) (x : Mailbox) : (h.setMb n x).sh = h.sh := rfl
@[simp] theorem Hw.setMb_lv (h : Hw) (n : Nat) (x : Mailbox) : (h.setMb n x).lv = h.lv := rfl
@[simp] theorem Hw.setMb_chg (h : Hw) (n : Nat) (x : Mailbox) : (h.setMb n x).chg = h.chg := rfl
@[simp] theorem Hw.setMb_act (h : Hw) (n : Nat) (x : Mailbox) : (h.setMb n x).act = h.act := rfl
@[simp] theorem Hw.setMb_saf (h : Hw) (n : Nat) (x : Mailbox) : (h.setMb n x).saf = h.saf := rfl
@[simp] theorem Hw.setMb_slots (h : Hw) (n : Nat) (x : Mailbox) : (h.setMb n x).slots = h.slots := rfl
@[simp] theorem Hw.setMb_prm (h : Hw) (n : Nat) (x : Mailbox) : (h.setMb n x).prm = h.prm := rfl
@[simp] theorem Hw.setMb_img (h : Hw) (n : Nat) (x : Mailbox) : (h.setMb n x).img = h.img := rfl
@[simp] theorem Hw.setMb_otp (h : Hw) (n : Nat) (x : Mailbox) : (h.setMb n x).otp = h.otp := rfl
@[simp] theorem Hw.setMb_cnt (h : Hw) (n : Nat) (x : Mailbox) : (h.setMb n x).cnt = h.cnt := rfl
@[simp] theorem Hw.setMb_flt (h : Hw) (n : Nat) (x : Mailbox) : (h.setMb n x).flt = h.flt := rfl
@[simp] theorem Hw.setMb_net (h : Hw) (n : Nat) (x : Mailbox) : (h.setMb n x).net = h.net := rfl
@[simp] theorem Hw.setMb_pair (h : Hw) (n : Nat) (x : Mailbox) : (h.setMb n x).pair = h.pair := rfl
@[simp] theorem Hw.setMb_out (h : Hw) (n : Nat) (x : Mailbox) : (h.setMb n x).out = h.out := rfl
@[simp] theorem Hw.setMb_free (h : Hw) (n : Nat) (x : Mailbox) : (h.setMb n x).free = h.free := rfl

@[simp] theorem Hw.drawn_time (h : Hw) : (h.drawn).time = h.time := rfl
@[simp] theorem Hw.drawn_mode (h : Hw) : (h.drawn).mode = h.mode := rfl
@[simp] theorem Hw.drawn_pwr (h : Hw) : (h.drawn).pwr = h.pwr := rfl
@[simp] theorem Hw.drawn_tests (h : Hw) : (h.drawn).tests = h.tests := rfl
@[simp] theorem Hw.drawn_sen (h : Hw) : (h.drawn).sen = h.sen := rfl
@[simp] theorem Hw.drawn_pos (h : Hw) : (h.drawn).pos = h.pos := rfl
@[simp] theorem Hw.drawn_ctlA (h : Hw) : (h.drawn).ctlA = h.ctlA := rfl
@[simp] theorem Hw.drawn_ctlB (h : Hw) : (h.drawn).ctlB = h.ctlB := rfl
@[simp] theorem Hw.drawn_gateA (h : Hw) : (h.drawn).gateA = h.gateA := rfl
@[simp] theorem Hw.drawn_gateB (h : Hw) : (h.drawn).gateB = h.gateB := rfl
@[simp] theorem Hw.drawn_sh (h : Hw) : (h.drawn).sh = h.sh := rfl
@[simp] theorem Hw.drawn_lv (h : Hw) : (h.drawn).lv = h.lv := rfl
@[simp] theorem Hw.drawn_chg (h : Hw) : (h.drawn).chg = h.chg := rfl
@[simp] theorem Hw.drawn_act (h : Hw) : (h.drawn).act = h.act := rfl
@[simp] theorem Hw.drawn_saf (h : Hw) : (h.drawn).saf = h.saf := rfl
@[simp] theorem Hw.drawn_host (h : Hw) : (h.drawn).host = h.host := rfl
@[simp] theorem Hw.drawn_slots (h : Hw) : (h.drawn).slots = h.slots := rfl
@[simp] theorem Hw.drawn_prm (h : Hw) : (h.drawn).prm = h.prm := rfl
@[simp] theorem Hw.drawn_img (h : Hw) : (h.drawn).img = h.img := rfl
@[simp] theorem Hw.drawn_otp (h : Hw) : (h.drawn).otp = h.otp := rfl
@[simp] theorem Hw.drawn_cnt (h : Hw) : (h.drawn).cnt = h.cnt := rfl
@[simp] theorem Hw.drawn_flt (h : Hw) : (h.drawn).flt = h.flt := rfl
@[simp] theorem Hw.drawn_net (h : Hw) : (h.drawn).net = h.net := rfl
@[simp] theorem Hw.drawn_pair (h : Hw) : (h.drawn).pair = h.pair := rfl
@[simp] theorem Hw.drawn_out (h : Hw) : (h.drawn).out = h.out := rfl

@[simp] theorem Hw.putPar_time (h : Hw) (i v : Nat) : (h.putPar i v).time = h.time := rfl
@[simp] theorem Hw.putPar_mode (h : Hw) (i v : Nat) : (h.putPar i v).mode = h.mode := rfl
@[simp] theorem Hw.putPar_pwr (h : Hw) (i v : Nat) : (h.putPar i v).pwr = h.pwr := rfl
@[simp] theorem Hw.putPar_tests (h : Hw) (i v : Nat) : (h.putPar i v).tests = h.tests := rfl
@[simp] theorem Hw.putPar_sen (h : Hw) (i v : Nat) : (h.putPar i v).sen = h.sen := rfl
@[simp] theorem Hw.putPar_pos (h : Hw) (i v : Nat) : (h.putPar i v).pos = h.pos := rfl
@[simp] theorem Hw.putPar_ctlA (h : Hw) (i v : Nat) : (h.putPar i v).ctlA = h.ctlA := rfl
@[simp] theorem Hw.putPar_ctlB (h : Hw) (i v : Nat) : (h.putPar i v).ctlB = h.ctlB := rfl
@[simp] theorem Hw.putPar_gateA (h : Hw) (i v : Nat) : (h.putPar i v).gateA = h.gateA := rfl
@[simp] theorem Hw.putPar_gateB (h : Hw) (i v : Nat) : (h.putPar i v).gateB = h.gateB := rfl
@[simp] theorem Hw.putPar_sh (h : Hw) (i v : Nat) : (h.putPar i v).sh = h.sh := rfl
@[simp] theorem Hw.putPar_lv (h : Hw) (i v : Nat) : (h.putPar i v).lv = h.lv := rfl
@[simp] theorem Hw.putPar_chg (h : Hw) (i v : Nat) : (h.putPar i v).chg = h.chg := rfl
@[simp] theorem Hw.putPar_act (h : Hw) (i v : Nat) : (h.putPar i v).act = h.act := rfl
@[simp] theorem Hw.putPar_saf (h : Hw) (i v : Nat) : (h.putPar i v).saf = h.saf := rfl
@[simp] theorem Hw.putPar_host (h : Hw) (i v : Nat) : (h.putPar i v).host = h.host := rfl
@[simp] theorem Hw.putPar_slots (h : Hw) (i v : Nat) : (h.putPar i v).slots = h.slots := rfl
@[simp] theorem Hw.putPar_img (h : Hw) (i v : Nat) : (h.putPar i v).img = h.img := rfl
@[simp] theorem Hw.putPar_otp (h : Hw) (i v : Nat) : (h.putPar i v).otp = h.otp := rfl
@[simp] theorem Hw.putPar_cnt (h : Hw) (i v : Nat) : (h.putPar i v).cnt = h.cnt := rfl
@[simp] theorem Hw.putPar_flt (h : Hw) (i v : Nat) : (h.putPar i v).flt = h.flt := rfl
@[simp] theorem Hw.putPar_net (h : Hw) (i v : Nat) : (h.putPar i v).net = h.net := rfl
@[simp] theorem Hw.putPar_pair (h : Hw) (i v : Nat) : (h.putPar i v).pair = h.pair := rfl
@[simp] theorem Hw.putPar_out (h : Hw) (i v : Nat) : (h.putPar i v).out = h.out := rfl
@[simp] theorem Hw.putPar_free (h : Hw) (i v : Nat) : (h.putPar i v).free = h.free := rfl

@[simp] theorem Hw.nextSeq_time (h : Hw) : (h.nextSeq).time = h.time := rfl
@[simp] theorem Hw.nextSeq_mode (h : Hw) : (h.nextSeq).mode = h.mode := rfl
@[simp] theorem Hw.nextSeq_pwr (h : Hw) : (h.nextSeq).pwr = h.pwr := rfl
@[simp] theorem Hw.nextSeq_tests (h : Hw) : (h.nextSeq).tests = h.tests := rfl
@[simp] theorem Hw.nextSeq_sen (h : Hw) : (h.nextSeq).sen = h.sen := rfl
@[simp] theorem Hw.nextSeq_pos (h : Hw) : (h.nextSeq).pos = h.pos := rfl
@[simp] theorem Hw.nextSeq_ctlA (h : Hw) : (h.nextSeq).ctlA = h.ctlA := rfl
@[simp] theorem Hw.nextSeq_ctlB (h : Hw) : (h.nextSeq).ctlB = h.ctlB := rfl
@[simp] theorem Hw.nextSeq_gateA (h : Hw) : (h.nextSeq).gateA = h.gateA := rfl
@[simp] theorem Hw.nextSeq_gateB (h : Hw) : (h.nextSeq).gateB = h.gateB := rfl
@[simp] theorem Hw.nextSeq_sh (h : Hw) : (h.nextSeq).sh = h.sh := rfl
@[simp] theorem Hw.nextSeq_lv (h : Hw) : (h.nextSeq).lv = h.lv := rfl
@[simp] theorem Hw.nextSeq_chg (h : Hw) : (h.nextSeq).chg = h.chg := rfl
@[simp] theorem Hw.nextSeq_act (h : Hw) : (h.nextSeq).act = h.act := rfl
@[simp] theorem Hw.nextSeq_saf (h : Hw) : (h.nextSeq).saf = h.saf := rfl
@[simp] theorem Hw.nextSeq_host (h : Hw) : (h.nextSeq).host = h.host := rfl
@[simp] theorem Hw.nextSeq_slots (h : Hw) : (h.nextSeq).slots = h.slots := rfl
@[simp] theorem Hw.nextSeq_prm (h : Hw) : (h.nextSeq).prm = h.prm := rfl
@[simp] theorem Hw.nextSeq_img (h : Hw) : (h.nextSeq).img = h.img := rfl
@[simp] theorem Hw.nextSeq_otp (h : Hw) : (h.nextSeq).otp = h.otp := rfl
@[simp] theorem Hw.nextSeq_cnt (h : Hw) : (h.nextSeq).cnt = h.cnt := rfl
@[simp] theorem Hw.nextSeq_net (h : Hw) : (h.nextSeq).net = h.net := rfl
@[simp] theorem Hw.nextSeq_pair (h : Hw) : (h.nextSeq).pair = h.pair := rfl
@[simp] theorem Hw.nextSeq_out (h : Hw) : (h.nextSeq).out = h.out := rfl
@[simp] theorem Hw.nextSeq_free (h : Hw) : (h.nextSeq).free = h.free := rfl

@[simp] theorem Hw.setSlot_time (h : Hw) (n : Nat) (x : Slot) : (h.setSlot n x).time = h.time := rfl
@[simp] theorem Hw.setSlot_mode (h : Hw) (n : Nat) (x : Slot) : (h.setSlot n x).mode = h.mode := rfl
@[simp] theorem Hw.setSlot_pwr (h : Hw) (n : Nat) (x : Slot) : (h.setSlot n x).pwr = h.pwr := rfl
@[simp] theorem Hw.setSlot_tests (h : Hw) (n : Nat) (x : Slot) : (h.setSlot n x).tests = h.tests := rfl
@[simp] theorem Hw.setSlot_sen (h : Hw) (n : Nat) (x : Slot) : (h.setSlot n x).sen = h.sen := rfl
@[simp] theorem Hw.setSlot_pos (h : Hw) (n : Nat) (x : Slot) : (h.setSlot n x).pos = h.pos := rfl
@[simp] theorem Hw.setSlot_ctlA (h : Hw) (n : Nat) (x : Slot) : (h.setSlot n x).ctlA = h.ctlA := rfl
@[simp] theorem Hw.setSlot_ctlB (h : Hw) (n : Nat) (x : Slot) : (h.setSlot n x).ctlB = h.ctlB := rfl
@[simp] theorem Hw.setSlot_gateA (h : Hw) (n : Nat) (x : Slot) : (h.setSlot n x).gateA = h.gateA := rfl
@[simp] theorem Hw.setSlot_gateB (h : Hw) (n : Nat) (x : Slot) : (h.setSlot n x).gateB = h.gateB := rfl
@[simp] theorem Hw.setSlot_sh (h : Hw) (n : Nat) (x : Slot) : (h.setSlot n x).sh = h.sh := rfl
@[simp] theorem Hw.setSlot_lv (h : Hw) (n : Nat) (x : Slot) : (h.setSlot n x).lv = h.lv := rfl
@[simp] theorem Hw.setSlot_chg (h : Hw) (n : Nat) (x : Slot) : (h.setSlot n x).chg = h.chg := rfl
@[simp] theorem Hw.setSlot_act (h : Hw) (n : Nat) (x : Slot) : (h.setSlot n x).act = h.act := rfl
@[simp] theorem Hw.setSlot_saf (h : Hw) (n : Nat) (x : Slot) : (h.setSlot n x).saf = h.saf := rfl
@[simp] theorem Hw.setSlot_host (h : Hw) (n : Nat) (x : Slot) : (h.setSlot n x).host = h.host := rfl
@[simp] theorem Hw.setSlot_prm (h : Hw) (n : Nat) (x : Slot) : (h.setSlot n x).prm = h.prm := rfl
@[simp] theorem Hw.setSlot_img (h : Hw) (n : Nat) (x : Slot) : (h.setSlot n x).img = h.img := rfl
@[simp] theorem Hw.setSlot_otp (h : Hw) (n : Nat) (x : Slot) : (h.setSlot n x).otp = h.otp := rfl
@[simp] theorem Hw.setSlot_cnt (h : Hw) (n : Nat) (x : Slot) : (h.setSlot n x).cnt = h.cnt := rfl
@[simp] theorem Hw.setSlot_flt (h : Hw) (n : Nat) (x : Slot) : (h.setSlot n x).flt = h.flt := rfl
@[simp] theorem Hw.setSlot_net (h : Hw) (n : Nat) (x : Slot) : (h.setSlot n x).net = h.net := rfl
@[simp] theorem Hw.setSlot_pair (h : Hw) (n : Nat) (x : Slot) : (h.setSlot n x).pair = h.pair := rfl
@[simp] theorem Hw.setSlot_out (h : Hw) (n : Nat) (x : Slot) : (h.setSlot n x).out = h.out := rfl
@[simp] theorem Hw.setSlot_free (h : Hw) (n : Nat) (x : Slot) : (h.setSlot n x).free = h.free := rfl

@[simp] theorem Hw.modCan_time (h : Hw) (ch : Nat) (f : CanCh → CanCh) : (h.modCan ch f).time = h.time := rfl
@[simp] theorem Hw.modCan_mode (h : Hw) (ch : Nat) (f : CanCh → CanCh) : (h.modCan ch f).mode = h.mode := rfl
@[simp] theorem Hw.modCan_pwr (h : Hw) (ch : Nat) (f : CanCh → CanCh) : (h.modCan ch f).pwr = h.pwr := rfl
@[simp] theorem Hw.modCan_tests (h : Hw) (ch : Nat) (f : CanCh → CanCh) : (h.modCan ch f).tests = h.tests := rfl
@[simp] theorem Hw.modCan_sen (h : Hw) (ch : Nat) (f : CanCh → CanCh) : (h.modCan ch f).sen = h.sen := rfl
@[simp] theorem Hw.modCan_pos (h : Hw) (ch : Nat) (f : CanCh → CanCh) : (h.modCan ch f).pos = h.pos := rfl
@[simp] theorem Hw.modCan_ctlA (h : Hw) (ch : Nat) (f : CanCh → CanCh) : (h.modCan ch f).ctlA = h.ctlA := rfl
@[simp] theorem Hw.modCan_ctlB (h : Hw) (ch : Nat) (f : CanCh → CanCh) : (h.modCan ch f).ctlB = h.ctlB := rfl
@[simp] theorem Hw.modCan_gateA (h : Hw) (ch : Nat) (f : CanCh → CanCh) : (h.modCan ch f).gateA = h.gateA := rfl
@[simp] theorem Hw.modCan_gateB (h : Hw) (ch : Nat) (f : CanCh → CanCh) : (h.modCan ch f).gateB = h.gateB := rfl
@[simp] theorem Hw.modCan_sh (h : Hw) (ch : Nat) (f : CanCh → CanCh) : (h.modCan ch f).sh = h.sh := rfl
@[simp] theorem Hw.modCan_lv (h : Hw) (ch : Nat) (f : CanCh → CanCh) : (h.modCan ch f).lv = h.lv := rfl
@[simp] theorem Hw.modCan_chg (h : Hw) (ch : Nat) (f : CanCh → CanCh) : (h.modCan ch f).chg = h.chg := rfl
@[simp] theorem Hw.modCan_act (h : Hw) (ch : Nat) (f : CanCh → CanCh) : (h.modCan ch f).act = h.act := rfl
@[simp] theorem Hw.modCan_saf (h : Hw) (ch : Nat) (f : CanCh → CanCh) : (h.modCan ch f).saf = h.saf := rfl
@[simp] theorem Hw.modCan_host (h : Hw) (ch : Nat) (f : CanCh → CanCh) : (h.modCan ch f).host = h.host := rfl
@[simp] theorem Hw.modCan_slots (h : Hw) (ch : Nat) (f : CanCh → CanCh) : (h.modCan ch f).slots = h.slots := rfl
@[simp] theorem Hw.modCan_prm (h : Hw) (ch : Nat) (f : CanCh → CanCh) : (h.modCan ch f).prm = h.prm := rfl
@[simp] theorem Hw.modCan_img (h : Hw) (ch : Nat) (f : CanCh → CanCh) : (h.modCan ch f).img = h.img := rfl
@[simp] theorem Hw.modCan_otp (h : Hw) (ch : Nat) (f : CanCh → CanCh) : (h.modCan ch f).otp = h.otp := rfl
@[simp] theorem Hw.modCan_cnt (h : Hw) (ch : Nat) (f : CanCh → CanCh) : (h.modCan ch f).cnt = h.cnt := rfl
@[simp] theorem Hw.modCan_flt (h : Hw) (ch : Nat) (f : CanCh → CanCh) : (h.modCan ch f).flt = h.flt := rfl
@[simp] theorem Hw.modCan_pair (h : Hw) (ch : Nat) (f : CanCh → CanCh) : (h.modCan ch f).pair = h.pair := rfl
@[simp] theorem Hw.modCan_out (h : Hw) (ch : Nat) (f : CanCh → CanCh) : (h.modCan ch f).out = h.out := rfl
@[simp] theorem Hw.modCan_free (h : Hw) (ch : Nat) (f : CanCh → CanCh) : (h.modCan ch f).free = h.free := rfl

@[simp] theorem Hw.setAcc_time (h : Hw) (n : Nat) (x : Acc) : (h.setAcc n x).time = h.time := rfl
@[simp] theorem Hw.setAcc_mode (h : Hw) (n : Nat) (x : Acc) : (h.setAcc n x).mode = h.mode := rfl
@[simp] theorem Hw.setAcc_pwr (h : Hw) (n : Nat) (x : Acc) : (h.setAcc n x).pwr = h.pwr := rfl
@[simp] theorem Hw.setAcc_tests (h : Hw) (n : Nat) (x : Acc) : (h.setAcc n x).tests = h.tests := rfl
@[simp] theorem Hw.setAcc_pos (h : Hw) (n : Nat) (x : Acc) : (h.setAcc n x).pos = h.pos := rfl
@[simp] theorem Hw.setAcc_ctlA (h : Hw) (n : Nat) (x : Acc) : (h.setAcc n x).ctlA = h.ctlA := rfl
@[simp] theorem Hw.setAcc_ctlB (h : Hw) (n : Nat) (x : Acc) : (h.setAcc n x).ctlB = h.ctlB := rfl
@[simp] theorem Hw.setAcc_gateA (h : Hw) (n : Nat) (x : Acc) : (h.setAcc n x).gateA = h.gateA := rfl
@[simp] theorem Hw.setAcc_gateB (h : Hw) (n : Nat) (x : Acc) : (h.setAcc n x).gateB = h.gateB := rfl
@[simp] theorem Hw.setAcc_sh (h : Hw) (n : Nat) (x : Acc) : (h.setAcc n x).sh = h.sh := rfl
@[simp] theorem Hw.setAcc_lv (h : Hw) (n : Nat) (x : Acc) : (h.setAcc n x).lv = h.lv := rfl
@[simp] theorem Hw.setAcc_chg (h : Hw) (n : Nat) (x : Acc) : (h.setAcc n x).chg = h.chg := rfl
@[simp] theorem Hw.setAcc_act (h : Hw) (n : Nat) (x : Acc) : (h.setAcc n x).act = h.act := rfl
@[simp] theorem Hw.setAcc_saf (h : Hw) (n : Nat) (x : Acc) : (h.setAcc n x).saf = h.saf := rfl
@[simp] theorem Hw.setAcc_host (h : Hw) (n : Nat) (x : Acc) : (h.setAcc n x).host = h.host := rfl
@[simp] theorem Hw.setAcc_slots (h : Hw) (n : Nat) (x : Acc) : (h.setAcc n x).slots = h.slots := rfl
@[simp] theorem Hw.setAcc_prm (h : Hw) (n : Nat) (x : Acc) : (h.setAcc n x).prm = h.prm := rfl
@[simp] theorem Hw.setAcc_img (h : Hw) (n : Nat) (x : Acc) : (h.setAcc n x).img = h.img := rfl
@[simp] theorem Hw.setAcc_otp (h : Hw) (n : Nat) (x : Acc) : (h.setAcc n x).otp = h.otp := rfl
@[simp] theorem Hw.setAcc_cnt (h : Hw) (n : Nat) (x : Acc) : (h.setAcc n x).cnt = h.cnt := rfl
@[simp] theorem Hw.setAcc_flt (h : Hw) (n : Nat) (x : Acc) : (h.setAcc n x).flt = h.flt := rfl
@[simp] theorem Hw.setAcc_net (h : Hw) (n : Nat) (x : Acc) : (h.setAcc n x).net = h.net := rfl
@[simp] theorem Hw.setAcc_pair (h : Hw) (n : Nat) (x : Acc) : (h.setAcc n x).pair = h.pair := rfl
@[simp] theorem Hw.setAcc_out (h : Hw) (n : Nat) (x : Acc) : (h.setAcc n x).out = h.out := rfl
@[simp] theorem Hw.setAcc_free (h : Hw) (n : Nat) (x : Acc) : (h.setAcc n x).free = h.free := rfl

@[simp] theorem Hw.setMon_time (h : Hw) (n : Nat) (x : Monitor) : (h.setMon n x).time = h.time := rfl
@[simp] theorem Hw.setMon_mode (h : Hw) (n : Nat) (x : Monitor) : (h.setMon n x).mode = h.mode := rfl
@[simp] theorem Hw.setMon_pwr (h : Hw) (n : Nat) (x : Monitor) : (h.setMon n x).pwr = h.pwr := rfl
@[simp] theorem Hw.setMon_tests (h : Hw) (n : Nat) (x : Monitor) : (h.setMon n x).tests = h.tests := rfl
@[simp] theorem Hw.setMon_pos (h : Hw) (n : Nat) (x : Monitor) : (h.setMon n x).pos = h.pos := rfl
@[simp] theorem Hw.setMon_ctlA (h : Hw) (n : Nat) (x : Monitor) : (h.setMon n x).ctlA = h.ctlA := rfl
@[simp] theorem Hw.setMon_ctlB (h : Hw) (n : Nat) (x : Monitor) : (h.setMon n x).ctlB = h.ctlB := rfl
@[simp] theorem Hw.setMon_gateA (h : Hw) (n : Nat) (x : Monitor) : (h.setMon n x).gateA = h.gateA := rfl
@[simp] theorem Hw.setMon_gateB (h : Hw) (n : Nat) (x : Monitor) : (h.setMon n x).gateB = h.gateB := rfl
@[simp] theorem Hw.setMon_sh (h : Hw) (n : Nat) (x : Monitor) : (h.setMon n x).sh = h.sh := rfl
@[simp] theorem Hw.setMon_lv (h : Hw) (n : Nat) (x : Monitor) : (h.setMon n x).lv = h.lv := rfl
@[simp] theorem Hw.setMon_chg (h : Hw) (n : Nat) (x : Monitor) : (h.setMon n x).chg = h.chg := rfl
@[simp] theorem Hw.setMon_act (h : Hw) (n : Nat) (x : Monitor) : (h.setMon n x).act = h.act := rfl
@[simp] theorem Hw.setMon_saf (h : Hw) (n : Nat) (x : Monitor) : (h.setMon n x).saf = h.saf := rfl
@[simp] theorem Hw.setMon_host (h : Hw) (n : Nat) (x : Monitor) : (h.setMon n x).host = h.host := rfl
@[simp] theorem Hw.setMon_slots (h : Hw) (n : Nat) (x : Monitor) : (h.setMon n x).slots = h.slots := rfl
@[simp] theorem Hw.setMon_prm (h : Hw) (n : Nat) (x : Monitor) : (h.setMon n x).prm = h.prm := rfl
@[simp] theorem Hw.setMon_img (h : Hw) (n : Nat) (x : Monitor) : (h.setMon n x).img = h.img := rfl
@[simp] theorem Hw.setMon_otp (h : Hw) (n : Nat) (x : Monitor) : (h.setMon n x).otp = h.otp := rfl
@[simp] theorem Hw.setMon_cnt (h : Hw) (n : Nat) (x : Monitor) : (h.setMon n x).cnt = h.cnt := rfl
@[simp] theorem Hw.setMon_flt (h : Hw) (n : Nat) (x : Monitor) : (h.setMon n x).flt = h.flt := rfl
@[simp] theorem Hw.setMon_net (h : Hw) (n : Nat) (x : Monitor) : (h.setMon n x).net = h.net := rfl
@[simp] theorem Hw.setMon_pair (h : Hw) (n : Nat) (x : Monitor) : (h.setMon n x).pair = h.pair := rfl
@[simp] theorem Hw.setMon_out (h : Hw) (n : Nat) (x : Monitor) : (h.setMon n x).out = h.out := rfl
@[simp] theorem Hw.setMon_free (h : Hw) (n : Nat) (x : Monitor) : (h.setMon n x).free = h.free := rfl

@[simp] theorem Hw.modRes_time (h : Hw) (n : Nat) (f : Resolver → Resolver) : (h.modRes n f).time = h.time := by
  unfold Hw.modRes; repeat' first | rfl | split
@[simp] theorem Hw.modRes_mode (h : Hw) (n : Nat) (f : Resolver → Resolver) : (h.modRes n f).mode = h.mode := by
  unfold Hw.modRes; repeat' first | rfl | split
@[simp] theorem Hw.modRes_pwr (h : Hw) (n : Nat) (f : Resolver → Resolver) : (h.modRes n f).pwr = h.pwr := by
  unfold Hw.modRes; repeat' first | rfl | split
@[simp] theorem Hw.modRes_tests (h : Hw) (n : Nat) (f : Resolver → Resolver) : (h.modRes n f).tests = h.tests := by
  unfold Hw.modRes; repeat' first | rfl | split
@[simp] theorem Hw.modRes_sen (h : Hw) (n : Nat) (f : Resolver → Resolver) : (h.modRes n f).sen = h.sen := by
  unfold Hw.modRes; repeat' first | rfl | split
@[simp] theorem Hw.modRes_ctlA (h : Hw) (n : Nat) (f : Resolver → Resolver) : (h.modRes n f).ctlA = h.ctlA := by
  unfold Hw.modRes; repeat' first | rfl | split
@[simp] theorem Hw.modRes_ctlB (h : Hw) (n : Nat) (f : Resolver → Resolver) : (h.modRes n f).ctlB = h.ctlB := by
  unfold Hw.modRes; repeat' first | rfl | split
@[simp] theorem Hw.modRes_gateA (h : Hw) (n : Nat) (f : Resolver → Resolver) : (h.modRes n f).gateA = h.gateA := by
  unfold Hw.modRes; repeat' first | rfl | split
@[simp] theorem Hw.modRes_gateB (h : Hw) (n : Nat) (f : Resolver → Resolver) : (h.modRes n f).gateB = h.gateB := by
  unfold Hw.modRes; repeat' first | rfl | split
@[simp] theorem Hw.modRes_sh (h : Hw) (n : Nat) (f : Resolver → Resolver) : (h.modRes n f).sh = h.sh := by
  unfold Hw.modRes; repeat' first | rfl | split
@[simp] theorem Hw.modRes_lv (h : Hw) (n : Nat) (f : Resolver → Resolver) : (h.modRes n f).lv = h.lv := by
  unfold Hw.modRes; repeat' first | rfl | split
@[simp] theorem Hw.modRes_chg (h : Hw) (n : Nat) (f : Resolver → Resolver) : (h.modRes n f).chg = h.chg := by
  unfold Hw.modRes; repeat' first | rfl | split
@[simp] theorem Hw.modRes_act (h : Hw) (n : Nat) (f : Resolver → Resolver) : (h.modRes n f).act = h.act := by
  unfold Hw.modRes; repeat' first | rfl | split
@[simp] theorem Hw.modRes_saf (h : Hw) (n : Nat) (f : Resolver → Resolver) : (h.modRes n f).saf = h.saf := by
  unfold Hw.modRes; repeat' first | rfl | split
@[simp] theorem Hw.modRes_host (h : Hw) (n : Nat) (f : Resolver → Resolver) : (h.modRes n f).host = h.host := by
  unfold Hw.modRes; repeat' first | rfl | split
@[simp] theorem Hw.modRes_slots (h : Hw) (n : Nat) (f : Resolver → Resolver) : (h.modRes n f).slots = h.slots := by
  unfold Hw.modRes; repeat' first | rfl | split
@[simp] theorem Hw.modRes_prm (h : Hw) (n : Nat) (f : Resolver → Resolver) : (h.modRes n f).prm = h.prm := by
  unfold Hw.modRes; repeat' first | rfl | split
@[simp] theorem Hw.modRes_img (h : Hw) (n : Nat) (f : Resolver → Resolver) : (h.modRes n f).img = h.img := by
  unfold Hw.modRes; repeat' first | rfl | split
@[simp] theorem Hw.modRes_otp (h : Hw) (n : Nat) (f : Resolver → Resolver) : (h.modRes n f).otp = h.otp := by
  unfold Hw.modRes; repeat' first | rfl | split
@[simp] theorem Hw.modRes_cnt (h : Hw) (n : Nat) (f : Resolver → Resolver) : (h.modRes n f).cnt = h.cnt := by
  unfold Hw.modRes; repeat' first | rfl | split
@[simp] theorem Hw.modRes_flt (h : Hw) (n : Nat) (f : Resolver → Resolver) : (h.modRes n f).flt = h.flt := by
  unfold Hw.modRes; repeat' first | rfl | split
@[simp] theorem Hw.modRes_net (h : Hw) (n : Nat) (f : Resolver → Resolver) : (h.modRes n f).net = h.net := by
  unfold Hw.modRes; repeat' first | rfl | split
@[simp] theorem Hw.modRes_pair (h : Hw) (n : Nat) (f : Resolver → Resolver) : (h.modRes n f).pair = h.pair := by
  unfold Hw.modRes; repeat' first | rfl | split
@[simp] theorem Hw.modRes_out (h : Hw) (n : Nat) (f : Resolver → Resolver) : (h.modRes n f).out = h.out := by
  unfold Hw.modRes; repeat' first | rfl | split
@[simp] theorem Hw.modRes_free (h : Hw) (n : Nat) (f : Resolver → Resolver) : (h.modRes n f).free = h.free := by
  unfold Hw.modRes; repeat' first | rfl | split

@[simp] theorem Hw.modEnc_time (h : Hw) (n : Nat) (f : Encoder → Encoder) : (h.modEnc n f).time = h.time := by
  unfold Hw.modEnc; repeat' first | rfl | split
@[simp] theorem Hw.modEnc_mode (h : Hw) (n : Nat) (f : Encoder → Encoder) : (h.modEnc n f).mode = h.mode := by
  unfold Hw.modEnc; repeat' first | rfl | split
@[simp] theorem Hw.modEnc_pwr (h : Hw) (n : Nat) (f : Encoder → Encoder) : (h.modEnc n f).pwr = h.pwr := by
  unfold Hw.modEnc; repeat' first | rfl | split
@[simp] theorem Hw.modEnc_tests (h : Hw) (n : Nat) (f : Encoder → Encoder) : (h.modEnc n f).tests = h.tests := by
  unfold Hw.modEnc; repeat' first | rfl | split
@[simp] theorem Hw.modEnc_sen (h : Hw) (n : Nat) (f : Encoder → Encoder) : (h.modEnc n f).sen = h.sen := by
  unfold Hw.modEnc; repeat' first | rfl | split
@[simp] theorem Hw.modEnc_ctlA (h : Hw) (n : Nat) (f : Encoder → Encoder) : (h.modEnc n f).ctlA = h.ctlA := by
  unfold Hw.modEnc; repeat' first | rfl | split
@[simp] theorem Hw.modEnc_ctlB (h : Hw) (n : Nat) (f : Encoder → Encoder) : (h.modEnc n f).ctlB = h.ctlB := by
  unfold Hw.modEnc; repeat' first | rfl | split
@[simp] theorem Hw.modEnc_gateA (h : Hw) (n : Nat) (f : Encoder → Encoder) : (h.modEnc n f).gateA = h.gateA := by
  unfold Hw.modEnc; repeat' first | rfl | split
@[simp] theorem Hw.modEnc_gateB (h : Hw) (n : Nat) (f : Encoder → Encoder) : (h.modEnc n f).gateB = h.gateB := by
  unfold Hw.modEnc; repeat' first | rfl | split
@[simp] theorem Hw.modEnc_sh (h : Hw) (n : Nat) (f : Encoder → Encoder) : (h.modEnc n f).sh = h.sh := by
  unfold Hw.modEnc; repeat' first | rfl | split
@[simp] theorem Hw.modEnc_lv (h : Hw) (n : Nat) (f : Encoder → Encoder) : (h.modEnc n f).lv = h.lv := by
  unfold Hw.modEnc; repeat' first | rfl | split
@[simp] theorem Hw.modEnc_chg (h : Hw) (n : Nat) (f : Encoder → Encoder) : (h.modEnc n f).chg = h.chg := by
  unfold Hw.modEnc; repeat' first | rfl | split
@[simp] theorem Hw.modEnc_act (h : Hw) (n : Nat) (f : Encoder → Encoder) : (h.modEnc n f).act = h.act := by
  unfold Hw.modEnc; repeat' first | rfl | split
@[simp] theorem Hw.modEnc_saf (h : Hw) (n : Nat) (f : Encoder → Encoder) : (h.modEnc n f).saf = h.saf := by
  unfold Hw.modEnc; repeat' first | rfl | split
@[simp] theorem Hw.modEnc_host (h : Hw) (n : Nat) (f : Encoder → Encoder) : (h.modEnc n f).host = h.host := by
  unfold Hw.modEnc; repeat' first | rfl | split
@[simp] theorem Hw.modEnc_slots (h : Hw) (n : Nat) (f : Encoder → Encoder) : (h.modEnc n f).slots = h.slots := by
  unfold Hw.modEnc; repeat' first | rfl | split
@[simp] theorem Hw.modEnc_prm (h : Hw) (n : Nat) (f : Encoder → Encoder) : (h.modEnc n f).prm = h.prm := by
  unfold Hw.modEnc; repeat' first | rfl | split
@[simp] theorem Hw.modEnc_img (h : Hw) (n : Nat) (f : Encoder → Encoder) : (h.modEnc n f).img = h.img := by
  unfold Hw.modEnc; repeat' first | rfl | split
@[simp] theorem Hw.modEnc_otp (h : Hw) (n : Nat) (f : Encoder → Encoder) : (h.modEnc n f).otp = h.otp := by
  unfold Hw.modEnc; repeat' first | rfl | split
@[simp] theorem Hw.modEnc_cnt (h : Hw) (n : Nat) (f : Encoder → Encoder) : (h.modEnc n f).cnt = h.cnt := by
  unfold Hw.modEnc; repeat' first | rfl | split
@[simp] theorem Hw.modEnc_flt (h : Hw) (n : Nat) (f : Encoder → Encoder) : (h.modEnc n f).flt = h.flt := by
  unfold Hw.modEnc; repeat' first | rfl | split
@[simp] theorem Hw.modEnc_net (h : Hw) (n : Nat) (f : Encoder → Encoder) : (h.modEnc n f).net = h.net := by
  unfold Hw.modEnc; repeat' first | rfl | split
@[simp] theorem Hw.modEnc_pair (h : Hw) (n : Nat) (f : Encoder → Encoder) : (h.modEnc n f).pair = h.pair := by
  unfold Hw.modEnc; repeat' first | rfl | split
@[simp] theorem Hw.modEnc_out (h : Hw) (n : Nat) (f : Encoder → Encoder) : (h.modEnc n f).out = h.out := by
  unfold Hw.modEnc; repeat' first | rfl | split
@[simp] theorem Hw.modEnc_free (h : Hw) (n : Nat) (f : Encoder → Encoder) : (h.modEnc n f).free = h.free := by
  unfold Hw.modEnc; repeat' first | rfl | split

@[simp] theorem Hw.modDrive_time (h : Hw) (n : Nat) (f : Drive → Drive) : (h.modDrive n f).time = h.time := by
  unfold Hw.modDrive; repeat' first | rfl | split
@[simp] theorem Hw.modDrive_mode (h : Hw) (n : Nat) (f : Drive → Drive) : (h.modDrive n f).mode = h.mode := by
  unfold Hw.modDrive; repeat' first | rfl | split
@[simp] theorem Hw.modDrive_pwr (h : Hw) (n : Nat) (f : Drive → Drive) : (h.modDrive n f).pwr = h.pwr := by
  unfold Hw.modDrive; repeat' first | rfl | split
@[simp] theorem Hw.modDrive_tests (h : Hw) (n : Nat) (f : Drive → Drive) : (h.modDrive n f).tests = h.tests := by
  unfold Hw.modDrive; repeat' first | rfl | split
@[simp] theorem Hw.modDrive_sen (h : Hw) (n : Nat) (f : Drive → Drive) : (h.modDrive n f).sen = h.sen := by
  unfold Hw.modDrive; repeat' first | rfl | split
@[simp] theorem Hw.modDrive_pos (h : Hw) (n : Nat) (f : Drive → Drive) : (h.modDrive n f).pos = h.pos := by
  unfold Hw.modDrive; repeat' first | rfl | split
@[simp] theorem Hw.modDrive_ctlA (h : Hw) (n : Nat) (f : Drive → Drive) : (h.modDrive n f).ctlA = h.ctlA := by
  unfold Hw.modDrive; repeat' first | rfl | split
@[simp] theorem Hw.modDrive_ctlB (h : Hw) (n : Nat) (f : Drive → Drive) : (h.modDrive n f).ctlB = h.ctlB := by
  unfold Hw.modDrive; repeat' first | rfl | split
@[simp] theorem Hw.modDrive_gateA (h : Hw) (n : Nat) (f : Drive → Drive) : (h.modDrive n f).gateA = h.gateA := by
  unfold Hw.modDrive; repeat' first | rfl | split
@[simp] theorem Hw.modDrive_gateB (h : Hw) (n : Nat) (f : Drive → Drive) : (h.modDrive n f).gateB = h.gateB := by
  unfold Hw.modDrive; repeat' first | rfl | split
@[simp] theorem Hw.modDrive_sh (h : Hw) (n : Nat) (f : Drive → Drive) : (h.modDrive n f).sh = h.sh := by
  unfold Hw.modDrive; repeat' first | rfl | split
@[simp] theorem Hw.modDrive_lv (h : Hw) (n : Nat) (f : Drive → Drive) : (h.modDrive n f).lv = h.lv := by
  unfold Hw.modDrive; repeat' first | rfl | split
@[simp] theorem Hw.modDrive_chg (h : Hw) (n : Nat) (f : Drive → Drive) : (h.modDrive n f).chg = h.chg := by
  unfold Hw.modDrive; repeat' first | rfl | split
@[simp] theorem Hw.modDrive_saf (h : Hw) (n : Nat) (f : Drive → Drive) : (h.modDrive n f).saf = h.saf := by
  unfold Hw.modDrive; repeat' first | rfl | split
@[simp] theorem Hw.modDrive_host (h : Hw) (n : Nat) (f : Drive → Drive) : (h.modDrive n f).host = h.host := by
  unfold Hw.modDrive; repeat' first | rfl | split
@[simp] theorem Hw.modDrive_slots (h : Hw) (n : Nat) (f : Drive → Drive) : (h.modDrive n f).slots = h.slots := by
  unfold Hw.modDrive; repeat' first | rfl | split
@[simp] theorem Hw.modDrive_prm (h : Hw) (n : Nat) (f : Drive → Drive) : (h.modDrive n f).prm = h.prm := by
  unfold Hw.modDrive; repeat' first | rfl | split
@[simp] theorem Hw.modDrive_img (h : Hw) (n : Nat) (f : Drive → Drive) : (h.modDrive n f).img = h.img := by
  unfold Hw.modDrive; repeat' first | rfl | split
@[simp] theorem Hw.modDrive_otp (h : Hw) (n : Nat) (f : Drive → Drive) : (h.modDrive n f).otp = h.otp := by
  unfold Hw.modDrive; repeat' first | rfl | split
@[simp] theorem Hw.modDrive_cnt (h : Hw) (n : Nat) (f : Drive → Drive) : (h.modDrive n f).cnt = h.cnt := by
  unfold Hw.modDrive; repeat' first | rfl | split
@[simp] theorem Hw.modDrive_flt (h : Hw) (n : Nat) (f : Drive → Drive) : (h.modDrive n f).flt = h.flt := by
  unfold Hw.modDrive; repeat' first | rfl | split
@[simp] theorem Hw.modDrive_net (h : Hw) (n : Nat) (f : Drive → Drive) : (h.modDrive n f).net = h.net := by
  unfold Hw.modDrive; repeat' first | rfl | split
@[simp] theorem Hw.modDrive_pair (h : Hw) (n : Nat) (f : Drive → Drive) : (h.modDrive n f).pair = h.pair := by
  unfold Hw.modDrive; repeat' first | rfl | split
@[simp] theorem Hw.modDrive_out (h : Hw) (n : Nat) (f : Drive → Drive) : (h.modDrive n f).out = h.out := by
  unfold Hw.modDrive; repeat' first | rfl | split
@[simp] theorem Hw.modDrive_free (h : Hw) (n : Nat) (f : Drive → Drive) : (h.modDrive n f).free = h.free := by
  unfold Hw.modDrive; repeat' first | rfl | split

@[simp] theorem Hw.modGear_time (h : Hw) (f : Shift → Shift) : (h.modGear f).time = h.time := rfl
@[simp] theorem Hw.modGear_mode (h : Hw) (f : Shift → Shift) : (h.modGear f).mode = h.mode := rfl
@[simp] theorem Hw.modGear_pwr (h : Hw) (f : Shift → Shift) : (h.modGear f).pwr = h.pwr := rfl
@[simp] theorem Hw.modGear_tests (h : Hw) (f : Shift → Shift) : (h.modGear f).tests = h.tests := rfl
@[simp] theorem Hw.modGear_sen (h : Hw) (f : Shift → Shift) : (h.modGear f).sen = h.sen := rfl
@[simp] theorem Hw.modGear_pos (h : Hw) (f : Shift → Shift) : (h.modGear f).pos = h.pos := rfl
@[simp] theorem Hw.modGear_ctlA (h : Hw) (f : Shift → Shift) : (h.modGear f).ctlA = h.ctlA := rfl
@[simp] theorem Hw.modGear_ctlB (h : Hw) (f : Shift → Shift) : (h.modGear f).ctlB = h.ctlB := rfl
@[simp] theorem Hw.modGear_gateA (h : Hw) (f : Shift → Shift) : (h.modGear f).gateA = h.gateA := rfl
@[simp] theorem Hw.modGear_gateB (h : Hw) (f : Shift → Shift) : (h.modGear f).gateB = h.gateB := rfl
@[simp] theorem Hw.modGear_sh (h : Hw) (f : Shift → Shift) : (h.modGear f).sh = h.sh := rfl
@[simp] theorem Hw.modGear_lv (h : Hw) (f : Shift → Shift) : (h.modGear f).lv = h.lv := rfl
@[simp] theorem Hw.modGear_chg (h : Hw) (f : Shift → Shift) : (h.modGear f).chg = h.chg := rfl
@[simp] theorem Hw.modGear_saf (h : Hw) (f : Shift → Shift) : (h.modGear f).saf = h.saf := rfl
@[simp] theorem Hw.modGear_host (h : Hw) (f : Shift → Shift) : (h.modGear f).host = h.host := rfl
@[simp] theorem Hw.modGear_slots (h : Hw) (f : Shift → Shift) : (h.modGear f).slots = h.slots := rfl
@[simp] theorem Hw.modGear_prm (h : Hw) (f : Shift → Shift) : (h.modGear f).prm = h.prm := rfl
@[simp] theorem Hw.modGear_img (h : Hw) (f : Shift → Shift) : (h.modGear f).img = h.img := rfl
@[simp] theorem Hw.modGear_otp (h : Hw) (f : Shift → Shift) : (h.modGear f).otp = h.otp := rfl
@[simp] theorem Hw.modGear_cnt (h : Hw) (f : Shift → Shift) : (h.modGear f).cnt = h.cnt := rfl
@[simp] theorem Hw.modGear_flt (h : Hw) (f : Shift → Shift) : (h.modGear f).flt = h.flt := rfl
@[simp] theorem Hw.modGear_net (h : Hw) (f : Shift → Shift) : (h.modGear f).net = h.net := rfl
@[simp] theorem Hw.modGear_pair (h : Hw) (f : Shift → Shift) : (h.modGear f).pair = h.pair := rfl
@[simp] theorem Hw.modGear_out (h : Hw) (f : Shift → Shift) : (h.modGear f).out = h.out := rfl
@[simp] theorem Hw.modGear_free (h : Hw) (f : Shift → Shift) : (h.modGear f).free = h.free := rfl

end Sys2Proof.Machine
end

