-- ==== Sys2Proof/Tests/Slice0.lean ====
section
/-!
SUPPORT. Tests/Slice0.lean: an ill-formed term for each check of WellFormed; single steps against the tables and worked examples
of the manual; and, for each obligation with hypotheses, states and operands that meet them, clause by clause.
-/
namespace Sys2Proof.Machine.Tests
open Sys2Proof Sys2Proof.Machine
set_option Elab.async false

/-! ## States and descriptors of the tests -/

/-- A descriptor on ring 1. -/
def tSess (session len : Nat) (payload : BitVec 384) : Desc :=
  { path := .ring 1, session := BitVec.ofNat 16 session, tag := 7, len := BitVec.ofNat 16 len, payload := payload }

/-- A descriptor on ring 0 in the admin session. -/
def tAdmin (len : Nat) (payload : BitVec 384) : Desc :=
  { path := .ring 0, session := 0, tag := 7, len := BitVec.ofNat 16 len, payload := payload }

/-- A descriptor with a good safety trailer in the MOTION session 3. -/
def tSafe (op len : Nat) (payload : BitVec 384) : Desc :=
  let p := payload ||| BitVec.ofNat 384 (1 * 2 ^ 288 + 1000 * 2 ^ 304 + 0x11 * 2 ^ 320)
  let d : Desc := { path := .ring 1, session := 3, tag := 7, flags := 4, len := BitVec.ofNat 16 len, payload := p }
  { d with payload := p ||| BitVec.ofNat 384 ((crc32 polySafety (d.trailerBytes op 5)).toNat * 2 ^ 352) }

/-- A session of an authority. -/
def tSession (a : Auth) : Session :=
  { auth := a, pinned := true, resident := true, usedAt := 0, source := 0x11, binding := 5, openedAt := 0, lastSeq := none
    fails := [], blocked := false, viaCan := false, closing := none }

/-- The OPERATE session of the tests. -/
def tOperate : Session := { tSession .operate with pinned := false }

/-- A module in READY, every image running, with ring 0, CMD ring 1 and TLM ring 2, and the sessions 3 to 5. -/
def tReady : Hw :=
  { mode := { phase := .up, mode := .ready }
    pwr := { vsup := 13500, vdc := 800000 }
    time := { clock := 40000000000, now := 16000000000 }
    img := { running := [(1, ⟨1, 1⟩), (2, ⟨1, 1⟩), (3, ⟨1, 1⟩), (4, ⟨1, 1⟩), (5, ⟨1, 1⟩), (6, ⟨1, 1⟩)] }
    host := { tableLo := 1
              rings := [(0, { state := .enabled, size := 4, doorbellAt := 40000000000 }),
                        (1, { state := .enabled, size := 4, sqTail := 1, doorbellAt := 40000000000 }),
                        (2, { state := .enabled, type := 2, size := 4 })]
              sessions := [(3, tSession .motion), (4, tOperate), (5, tSession .workshop)] }
    prm := { vals := [(0x0A06, 0x11)] } }

/-- A motor table. -/
def tTable (flux : Bool) : MotorTable := { flux := flux, lim1 := 1000, lim2 := 1000, lim3 := 1000, mapTemp := 2500, entries := [] }

/-- READY with a motor data set, a position sensor and what DRIVE asks for. -/
def tFit : Hw :=
  { tReady with
    prm := { vals := [(0x0401, 0x10), (0x0402, 0x11), (0x051F, 4), (0x0520, 4), (0x0521, 50), (0x0522, 50), (0x052A, 1000),
                      (0x052B, 1000), (0x0A06, 0x11)] }
    pos := { res0 := { valid := true }, res1 := { valid := true } }
    ctlA := { mtpa := some (tTable false), flux := some (tTable true) }
    ctlB := { mtpa := some (tTable false), flux := some (tTable true) } }

/-- The same in DRIVE. -/
def tDrive : Hw := { tFit with mode := { tFit.mode with mode := .drive } }

/-- A commissioned module at the end of bring-up. -/
def tCommissioned : Hw := { tReady with mode := { phase := .bringUp } }

/-- A module in BASE_CAMP with KEYS and a directory that lists SAFE. -/
def tBase : Hw :=
  { tReady with mode := { phase := .up, mode := .baseCamp }
                img := { directory := [{ kind := 1, length := 4096, addr := 0 }] }
                otp := { active := [(6, 0)] }
                host := { rings := [(1, { state := .enabled, type := 3, size := 4 })], sessions := [(4, tOperate)] } }

/-- An image that passes every step of R337. -/
def tImage : ImageInfo :=
  { magicOk := true, format := 1, kind := 1, stateFormat := 1, version := 2, totalLen := 4096, keyHash := 0, sigOk := true, bodyOk := true }

/-- A module of a rope team. -/
def tRoped : Hw := { tFit with prm := { vals := tFit.prm.vals ++ [(0x0E17, 0), (0x0F01, 1)] } }

/-- A module in BIVOUAC that watches CAN1 for frames and its other wake sources. -/
def tAsleep : Hw :=
  { mode := { phase := .asleep, latched := some 8 }, pwr := { vsup := 12000 }, time := { clock := 40000000000 }
    prm := { vals := [(0x0201, 0x3FFF), (0x0202, 0x59), (0x0204, 1), (0x0E09, 0), (0x0E0A, 0)] } }

/-- A request of session 4 on ring 1. -/
def tCommitReq : Req := { path := .ring 1, tag := 9, flags := 0, session := 4 }

/-- Slot 1 stands open for session 4. -/
def tSlot : Slot := { state := .opened, session := 4, path := .ring 1 }
def tCinch : Hw := { tFit with slots := [(1, tSlot)], otp := { active := [(6, 0)] } }

/-- A PARAM_WRITE of session 4, and of session 5. -/
def tWrite (id v : Nat) : Desc := tSess 4 12 (BitVec.ofNat 384 (id + v * 2 ^ 32))
def tWrite5 (id v : Nat) : Desc := tSess 5 12 (BitVec.ofNat 384 (id + v * 2 ^ 32))
def tRow (id : Nat) : PRow := (paramRow id).getD ⟨0, 1, false, .between 0 0, none, .immediate⟩

/-- A PARAM_WRITE and an IMAGE_SWAP of SENS as members of slot 1. -/
def tMember : Desc := { tWrite 0x0306 30 with flags := 2, cinch := 1 }
def tSwap : Desc := { tSess 4 16 0x05 with flags := 2, cinch := 1 }
def tSwapImage : ImageInfo := { tImage with kind := 5 }

/-- A member with the versions of now. -/
def tStaged : Member := { op := 0x0C04, desc := { tWrite 0x0306 30 with flags := 2, cinch := 1 }, versions := [(.param 0x0306, 0)], image := none, trailer := false }

def tCommit : Hw := { tCinch with slots := [(1, { tSlot with members := [tStaged], commit := some tCommitReq })] }
def tCommitted : Hw :=
  { tCinch with slots := [(1, { tSlot with state := .committed, members := [tStaged], commit := some tCommitReq, acceptedAt := some 0 })] }
def tConflict : Hw := { tCommitted with prm := { tCommitted.prm with versions := [(0x0306, 1)] } }

/-- A module in WORKSHOP with an active CONFIG generation. -/
def tWork : Hw :=
  { tReady with mode := { tReady.mode with mode := .workshop }, otp := { active := [(5, 0)] } }

/-- A directory with SAFE alone. -/
def tDirectory : Desc :=
  { tSess 4 12 (BitVec.ofNat 384 (32 * 2 ^ 64)) with
    dma :=
      let head : List Byte := [0x43, 0x57, 0x49, 0x44, 1, 1, 0, 0, 0, 0, 0, 0]
      let entry : List Byte := [1, 0, 0, 0, 16, 0, 0, 0, 0, 16, 0, 0, 0, 0, 0, 0]
      head ++ leBytes 4 (crc32 polyC (head ++ entry)).toNat ++ entry }

/-- OTP_PROGRAM of an empty CONFIG record. -/
def tProgram : Desc := tSess 5 16 0x0105

/-- OVERLAY_LOAD of an empty SYSCAL record. -/
def tOverlay : Desc := { tSess 4 12 0x03 with dma := slotImage 3 0xFF (slice [] 0 1024) }

/-- Ring 1 IDLE. -/
def tIdle : Hw :=
  { tReady with host := { tReady.host with rings := [(0, { state := .enabled, size := 4, doorbellAt := 40000000000 }), (1, { state := .idle, size := 4 })] } }

/-- A PARAM_READ of session 4 as ring 1 holds it while the session's context is paged in. -/
def tMissedRaw : BitVec 512 := BitVec.ofNat 512 (0x0C05 + 4 * 2 ^ 16 + 7 * 2 ^ 32 + 16 * 2 ^ 80)
def tMissed : Hw :=
  { tReady with
    host := { tReady.host with
      rings := [(1, { state := .enabled, size := 4, sqHead := 1, sqTail := 1, missed := some (tMissedRaw, [], false) })]
      sessions := [(4, { tOperate with resident := false })] } }

/-- Mailbox 1 FULL with a word. -/
def tMb (word : W32) : Hw := { tReady with host := { tReady.host with mailbox := [(1, { full := true, data := word })] } }


/-- The conditions of `Hw.Runs` as one Bool. -/
def tRunsB (g : Hw) (op : Nat) (d : Desc) : Bool :=
  !d.member && g.canStart d && !g.heldBySwap op d && (g.started d).firstFailure op d == none

/-- A descriptor that passes them runs to the module its start leaves. -/
theorem tRuns {g : Hw} {op : Nat} {d : Desc} (h : tRunsB g op d = true) : g.RunsTo op d (g.begun d) := by
  simp only [tRunsB, Bool.and_eq_true, Bool.not_eq_true', beq_iff_eq] at h
  exact ⟨⟨h.1.1.1, h.1.1.2, h.1.2, h.2⟩, rfl⟩

/-- A CRC that keeps its register as a numeral, as the kernel evaluates it quickly. -/
def tCrcGo (p : W32) (l : List Byte) : Nat → W32 :=
  l.foldr (fun b k c => match (crcByte p (BitVec.ofNat 32 c) b).toNat with | 0 => k 0 | n + 1 => k (n + 1)) (fun c => BitVec.ofNat 32 c)

theorem tCrcGo_eq (p : W32) (l : List Byte) : ∀ c, tCrcGo p l c = l.foldl (crcByte p) (BitVec.ofNat 32 c) := by
  induction l with
  | nil => intro c; rfl
  | cons b l ih =>
    intro c
    have h : ∀ n, (crcByte p (BitVec.ofNat 32 c) b).toNat = n → tCrcGo p (b :: l) c = tCrcGo p l n := by
      intro n e
      cases n <;> simp only [tCrcGo, List.foldr_cons, e]
    rw [h _ rfl, ih]
    simp

theorem tCrc (p : W32) (l : List Byte) : crc32 p l = ~~~ tCrcGo p l 0xFFFFFFFF := by
  rw [tCrcGo_eq]; rfl

theorem tOverlay_body : overlayBody tOverlay.dma 3 = some (slice [] 0 1024) := by
  have h : tOverlay.dma = slotImage 3 0xFF (slice [] 0 1024) := rfl
  rw [h]
  simp only [overlayBody, slotValid, slotCheck, slotImage, tCrc]
  decide +kernel

/-- The image of an empty flux table for bridge A. -/
def tFluxImage : List Byte :=
  leBytes 2 2 ++ [0, 1] ++ leBytes 4 (2 ^ 32 - 200000) ++ leBytes 4 300000 ++ leBytes 4 0 ++ leBytes 2 2500 ++ leBytes 2 0 ++
    leBytes 4 4096 ++ leBytes 4 0 ++ leBytes 4 393840450 ++ List.replicate 4096 0

/-- Its table. -/
def tFlux : MotorTable :=
  { flux := true, lim1 := -200000, lim2 := 300000, lim3 := 0, mapTemp := 2500, entries := signedWords 2048 (tFluxImage.drop 32) }

theorem tFluxImage_reads : motorImage tFluxImage = some (.brA, tFlux) := by
  have len : tFluxImage.length = 32 + 4096 := by
    simp only [tFluxImage, List.length_append, List.length_replicate]; rfl
  have f : (crc32 polyC (slice tFluxImage 0 28 ++ tFluxImage.drop 32)).toNat = field tFluxImage 28 4 := by
    rw [tCrc]; decide +kernel
  have k : field tFluxImage 0 2 = 2 := by decide +kernel
  have b : field tFluxImage 20 4 = 4096 := by decide +kernel
  have l1 : asInt 4 (field tFluxImage 4 4) = -200000 := by decide +kernel
  have l2 : asInt 4 (field tFluxImage 8 4) = 300000 := by decide +kernel
  have l3 : asInt 4 (field tFluxImage 12 4) = 0 := by decide +kernel
  have m : asInt 2 (field tFluxImage 16 2) = 2500 := by decide +kernel
  have v : Bridge.ofByte (field tFluxImage 2 1) = some .brA := by decide +kernel
  have w : field tFluxImage 3 1 = 1 ∧ field tFluxImage 18 2 = 0 ∧ field tFluxImage 24 4 = 0 := by decide +kernel
  simp only [motorImage, k, b, l1, l2, l3, m, v, w, len, f]
  rfl

/-- MOTOR_MAP_LOAD of it. -/
def tFluxLoad : Desc := { tSess 5 12 (BitVec.ofNat 384 (4128 * 2 ^ 64)) with dma := tFluxImage }

theorem tFlux_checks : (tReady.begun tFluxLoad).mapCheck tFluxLoad false = .inr (.brA, tFlux) := by
  have t : tFluxLoad.dma.take (tFluxLoad.num 24 4) = tFluxImage := by
    rw [List.take_of_length_le]
    · rfl
    · show tFluxImage.length ≤ _
      simp only [tFluxImage, List.length_append, List.length_replicate]; decide +kernel
  have a : alignedTo (tFluxLoad.num 16 8) 8 = true := by decide +kernel
  have m : (tReady.begun tFluxLoad).mode.mode.bridgeLive = false := by decide +kernel
  have n : ¬ tFluxLoad.dma.length < tFluxLoad.num 24 4 := by
    show ¬ tFluxImage.length < _
    simp only [tFluxImage, List.length_append, List.length_replicate]; decide +kernel
  simp only [Hw.mapCheck, t, a, m, n, if_false, tFluxImage_reads]
  rfl

theorem tOverlay_checks : (tReady.begun tOverlay).overlayCheck tOverlay false = none := by
  have t : (tOverlay.byte 16).toNat = 3 := by decide +kernel
  have m : (tReady.begun tOverlay).mode.mode = .ready := by decide +kernel
  simp only [Hw.overlayCheck, t, tOverlay_body, m]
  rfl

/-- A history entry. -/
def tFault (code : W16) (cls : FClass) : Entry :=
  { code := code, cls := cls, active := true, acked := false, cleared := false, source := 0, mode := 2, count := 1, first := 0, last := 0, arg := 0, seq := 1 }

def tFaulty : Hw := { tReady with flt := { hist := [tFault 0x0D01 .warn] } }
def tLatched : Hw := { tWork with flt := { hist := [tFault 0x0604 .latch] } }
def tSub : Sub := { ring := 2, kind := 0, source := 5, interval := 1000, session := 4, req := some tCommitReq, last := none, lastVals := [] }

/-- A torque setpoint of 10 Nm, alone and with its descriptor. -/
def tSetpoint : Setpoint := { speed := false, value := 1000, ramp := 0, fwd := 0, rev := 0, session := 3, pair := none, viaCan := false }
def tSetReq : SetReq := { sp := tSetpoint, req := some tCommitReq }

/-- DRIVE with both bridges in torque service. -/
def tTorque : Hw :=
  { tDrive with
    ctlA := { tDrive.ctlA with state := .runTorque, ordered := false, target := some tSetpoint }
    ctlB := { tDrive.ctlB with state := .runTorque, ordered := false, target := some tSetpoint } }

/-- DRIVE with a setpoint stored for bridge A, which may start. -/
def tStart : Hw := { tDrive with ctlA := { tDrive.ctlA with stored := some tSetReq } }

/-- A quiet control boundary at 800 V. -/
def tInput : BoundaryInput :=
  { obsAngle := 0, obsSpeed := 0, residual := 0, emf := 100000, fluxResidual := 0, vAlpha := 0, vBeta := 0 }

/-- READY with the positions of the drives set. -/
def tMotion : Hw :=
  { tReady with prm := { vals := (tReady.prm.vals.set 0x0913 0x0000_3000_2000_1000).set 0x0914 0x2000_1000 |>.set 0x0915 0x2000_1000 } }

/-- DRIVE in gear, the disconnect closed. -/
def tShift : Hw :=
  { tTorque with
    prm := { vals := (tTorque.prm.vals.set 0x0913 0x0000_3000_2000_1000).set 0x0914 0x2000_1000 |>.set 0x0915 0x2000_1000 }
    act := { tTorque.act with shift := { confirmed := true, code := 0 }, disc := { confirmed := true, code := 1 } } }

/-- The shift drive on its way to 100. -/
def tMoving : Hw := { tMotion with act := { tMotion.act with shift := { state := .moving, target := 100, code := 0 } } }

/-- PARK engages while the vehicle rolls. -/
def tParkFast : Hw :=
  { tMotion with
    prm := { tMotion.prm with vals := (tMotion.prm.vals.set 0x0916 1000).set 0x0918 2000 }
    pos := { fusA := { speed := 300000 }, fusB := { speed := 300000 } }
    act := { tMotion.act with park := { state := .moving, code := 1 }, shift := { confirmed := true, code := 0 }, disc := { confirmed := true, code := 1 } } }

/-- An accumulator over CH40 of six samples. -/
def tAccCfg : AccCfg := { input := 40, closure := 0, base := 0, gate := 0, gateArg := 0, paired := false, length := 6, delay := 0, run := true }
def tAcc : Hw := { tReady with sen := { accs := [(112, { cfg := some tAccCfg })] } }

/-- A calibration of bridge A at a point. -/
def tCalRun (waiting : Bool) (point : Nat) : Cal :=
  { bridge := .brA, both := false, point := point, waiting := waiting, since := 0, linkAt := none, drive := 0, zero := [], means := []
    readings := [], gated := [] }
def tCal (waiting : Bool) (point : Nat) : Hw := { tWork with sen := { cal := some (tCalRun waiting point) } }

/-- A window monitor in use. -/
def tMon : Monitor := { mode := 1, high := 100 }

/-- A requested test of instance 0 that runs or waits. -/
def tRun (id : W16) (running : Bool) : TestRun := { id := id, inst := 0, cls := 1, req := some tCommitReq, deadline := 0, running := running, count := 0 }
def tTest (id : W16) (running : Bool) : Hw := { tReady with tests := [tRun id running] }

/-- Encoder 0 in use, and armed for its index. -/
def tEnc : Hw := { tReady with prm := { vals := [(0x0411, 0x11)] } }
def tEncArmed : Hw := { tEnc with pos := { enc0 := { armed := true } } }

/-- An estimate of zero is no unintended torque. -/
theorem tIntended (e t : Int) (h : 0 ≤ t) : unintended 0 e t = false := by
  have : ¬ t < 0 - absI e := by unfold absI; split <;> omega
  have z : absI 0 = 0 := rfl
  simp [unintended, z]
  unfold absI; split <;> omega

/-- READY with the HVIL loop of two wires. -/
def tHvil : Hw := { tReady with prm := { vals := [(0x0A0A, 2)] } }

/-- A debugger attached and authenticated in WORKSHOP. -/
def tDebug : Hw :=
  { tWork with saf := { dbgAttached := true, dbgAuth := true }, otp := { active := [(6, 0)] } }

/-- SAFETY_CONFIRM with the check value of the set that is active. -/
def tConfirm (n : Nat) : Desc := tSess 5 8 (BitVec.ofNat 384 (n + 4084373756 * 2 ^ 32))

/-- CHARGE_SETUP for AC charging with BMS_PERMIT, a profile phase, SET_LIMITS of 16 A and INLET_MATCH of 400 V. -/
def tSetup : Desc := tSess 4 12 0x0101
def tProfile : Desc := tSess 4 16 (BitVec.ofNat 384 (0x0100 + 500000 * 2 ^ 32 + 10000 * 2 ^ 64 + 3600 * 2 ^ 96))
def tLimits : Desc := tSess 4 16 (BitVec.ofNat 384 (16000 * 2 ^ 32 + 0xFFFFFFFF * 2 ^ 64))
def tMatch : Desc := tSess 4 16 (BitVec.ofNat 384 (400000 * 2 ^ 96))

/-- A charge phase in progress. -/
def tPhase : ChgPhase :=
  { target := 0, phase := 3, equiv := 0, elapsed := 0, vreg := 0, thermal := 0, charge := 0, energy := 0, start := 0
    prof := ⟨0, 10000, 3600⟩, restarted := false, fromBms := false, countedAt := 40000000000 }

/-- A module in CHARGE with a function staged, plugged and permitted, in a charge state. -/
def tChg (f : ChgFn) (state : ChgState) : Hw :=
  { tReady with
    mode := { tReady.mode with mode := .charge }
    chg := { state := state, confirmed := true, pp := .plug 32000, cp := .cpB, offer := 32000, prof := [(4, ⟨500000, 1000, 3600⟩)]
             setup := some { fn := f, permit := true, hlc := false, stateD := false, auto := false, current := 32000, power := 22000 } }
    prm := { vals := [(0x0801, 0), (0x0A06, 0x11)] } }

def tCharge : Hw := { tChg .ac .flow with chg := { (tChg .ac .flow).chg with cp := .cpC, pwm := true, current := 16000, phase := some tPhase } }
def tMains : Hw := { tChg .ac .flow with chg := { (tChg .ac .flow).chg with refCycles := 5 } }
def tArmed : Hw := tChg .ac .armed
def tExport (f : ChgFn) : Hw := tChg f .flow
def tHandOver : Hw := tChg .ac .handOver
def tOutage : Hw := { tChg .ac .plugWait with chg := { (tChg .ac .plugWait).chg with outage := true, mainsAt := some 0 } }
def tExpired : Hw :=
  { tChg .ac .suspended with chg := { (tChg .ac .suspended).chg with suspendedBy := fltChgTimer.code, left := some tPhase } }
def tUnplugged : Hw := { tReady with prm := { vals := [(0x0801, 0)] } }

/-- DC boost, PARK engaged, in a step. -/
def tBoosting (step : DcbStep) : Hw :=
  { tChg .boost .armed with
    act := { parkOn := true }
    chg := { (tChg .boost .armed).chg with dcb := step, station := 400000, inlet := 0 } }
def tBoost : Hw := tBoosting .off
def tMatching : Hw := tBoosting .matching
def tTesting : Hw := tBoosting .testing
def tRunning : Hw := tBoosting .running
def tChecking : Hw := tBoosting .checking

/-- LV_CONTROL with a target in mV. -/
def tForward (v : Nat) : Desc := tSess 4 12 (BitVec.ofNat 384 (v * 2 ^ 32))

/-- The converter runs with six phases and its switch closed, and a pre-charge to 800 V is under way. -/
def tLv : Hw := { tReady with lv := { state := .running, closed := true, cellsUp := true, busOk := true, phaseSet := 0x3F, cellSet := 0xF, vout := 13800 } }
def tPre : Hw := { tReady with pwr := { vsup := 13500 }, lv := { state := .precharge, cellsUp := true, target := 800000 } }

/-- A frame, and CAN channel 0 as it takes every frame into Q1, APP running and CAN_RX_RING naming ring 2. -/
def tFrame : CanFrame := { word := 0x123, fmt := .cc, data := [1, 2, 3] }
def tEntry : CanEntry := { frame := tFrame, time := 0 }
def tCan : Hw :=
  { tReady with
    prm := { vals := [(0x0A06, 0x11), (0x0E05, 3), (0x0E06, 1), (0x0E12, 2)] }
    net := { can0 := { filters := [(4, { action := 1, formats := 7 })] } } }
def tCanFull : Hw := { tCan with net := { can0 := { tCan.net.can0 with q1 := List.replicate 64 tEntry } } }

/-- CAN_TX of two zero bytes on channel 0, and what it sends. -/
def tTx (buf : Nat) : Desc := tSess 4 48 (BitVec.ofNat 384 (buf * 2 ^ 16 + 0x123 * 2 ^ 32 + 2 * 2 ^ 64))
def tSentFrame : CanFrame := { word := 0x123, fmt := .cc, data := [0, 0] }
def tWaiting : CanTx := { frame := tSentFrame, req := some tCommitReq, since := 0 }
def tCanTx : Hw := { tCan with net := { can0 := { tx := [tWaiting] } } }
def tCanBad (n : Nat) : Hw := { tCan with net := { can0 := { tec := n } } }
def tCanOff : Hw := { tCan with net := { can0 := { tec := 256, err := .busOff } } }

/-- Channel 0 as the fallback channel, and a request frame that carries no descriptor of its own. -/
def tFallback : Hw := { tCan with prm := { vals := [(0x0A06, 0x11), (0x0E05, 3), (0x0E13, 0), (0x0E14, 0x55)] } }
def tFbFrame : CanFrame := { word := 0x55, fmt := .xl, data := List.replicate 64 0 }
def tCanKeys : Hw := { tFallback with prm := { vals := [(0x0A06, 7), (0x0E05, 3), (0x0E13, 0), (0x0E14, 0x55), (0x0E15, 1)] } }
def tCanOpen : Desc := { path := .can, session := 0, tag := 7, len := 4, payload := 7 }

/-- A schedule of one basic cycle: an exclusive sending cell of buffer 3 and an exclusive receive cell of frame 5. -/
def tSchedule : TtSchedule := { cycles := 0, columns := 2, length := 1000, ref := 0x700, starts := [0, 500], cells := [(1, 3, 0), (2, 0, 5)] }
def tTtImage : List Byte :=
  let head : List Byte := [0, 0, 2, 0] ++ leBytes 4 1000 ++ leBytes 4 0x700
  let tables : List Byte := leBytes 4 0 ++ leBytes 4 500 ++ [1, 0, 3, 0, 0, 0, 0, 0, 2, 0, 0, 0, 5, 0, 0, 0]
  head ++ leBytes 4 (crc32 polyC (head ++ tables)).toNat ++ tables
def tTtLoad : Desc := { tSess 4 12 (BitVec.ofNat 384 (40 * 2 ^ 64)) with dma := tTtImage }
def tTt : Hw := { tCan with net := { can0 := { tt := some tSchedule, buffers := [(3, tWaiting)] } } }
def tTtEmpty : Hw := { tCan with net := { can0 := { tt := some tSchedule } } }
def tTtMaster : Hw := { tTt with prm := { vals := [(0x0E05, 3), (0x0E16, 8)] } }

/-- A pair whose second member is dropped answers with what its second component holds. -/
theorem tSome {α β : Type} (o : α × Option β) (d : β) (h : o.2.isSome = true) : o = (o.1, some (o.2.getD d)) := by
  cases o with
  | mk a b => cases b with
    | none => cases h
    | some b => rfl

/-- A rope team whose partner's last frame is long ago, and one whose frames contradict PARTNER_OK. -/
def tPair : Hw := { tRoped with pair := { partner := true, exchanged := true, okIn := true } }
def tPairFrame : PairFrame :=
  { crcOk := true, second := true, mode := 3, stateA := 4, stateB := 0, okDriven := true, debugSplit := false, precharge := false
    discharge := false, share := 50, shareTime := 0, loopA := 0, loopB := 0, periodStart := 0, seq := 1 }
def tMismatch : Hw :=
  { tRoped with pair := { partner := true, exchanged := true, opened := true, frameAt := 40000000000, last := some tPairFrame, mismatchAt := some 0 } }

/-- A programming run of one byte of a CONFIG slot. -/
def tJob : OtpJob := { type := 5, offset := 0x2D70, bytes := [1], revoke := false, safety := false, req := tCommitReq }
def tProgramming : Hw := { tReady with otp := { job := some tJob } }

/-- A module that counts, remembers and buffers nothing keeps every limit. -/
theorem tSound (h : Hw) (c : h.cnt.vals = []) (f : h.flt.hist = []) (e : h.host.events = []) (o : Memory.wf h.otp.bytes = true) : h.Sound :=
  ⟨(by rw [c]; intro p hp; cases hp), (by rw [f]; decide), (by rw [e]; decide), o⟩

/-- The sleeping module with no event latched. -/
def tDozing : Hw := { tAsleep with mode := { tAsleep.mode with latched := none } }

/-- A transition waiting for its edge. -/
def tGrant (m : Mode) : Grant := { target := m, req := none, cause := 2, cinch := 0, at' := 0 }
def tGranted (h : Hw) (m : Mode) : Hw := { h with mode := { h.mode with granted := some (tGrant m) } }

/-- An APP swap that has changed so many cores. -/
def tSwapping (done : Nat) (reversing : Bool) : AppSwap :=
  { slot := 1, done := done, coreAt := 40000000000, reversing := reversing, image := { version := 2, format := 1 }, commit := none }
def tAppSwap (done : Nat) (reversing : Bool) : Hw := { tReady with img := { appSwap := some (tSwapping done reversing) } }

/-- The shift drive on its way, its position in the window of its target since reset. -/
def tArrived : Hw := { tMoving with act := { tMoving.act with shift := { tMoving.act.shift with place := some 0 } } }

/-- The point of a calibration with its condition met. -/
def tSteady (point : Nat) : Cal := { tCalRun false point with linkAt := some 39664000000 }

/-- A calibration record whose gains are all zero, and an accumulator of CH0 that closes after two samples: whatever TRIM does to
them, a corrected code is 0. -/
def tShot : AccCfg := { tAccCfg with input := 0, closure := 3, length := 2 }
def tFlat : Hw := { tReady with sen := { accs := [(0, { cfg := some tShot })] }, otp := { syscal := some (List.replicate 64 0) } }
def tSamples : List Sample := [⟨0, 1, 5, 0⟩, ⟨1, 2, 6, 0⟩]

theorem tFlat_code (core : Nat) (raw : Int) : tFlat.corrected 0 core raw = 0 := by
  have g : syscalOf tFlat.syscalBody 0 = (0, 0) := by decide +kernel
  have m : (tFlat.mode.mode == .baseCamp) = false := by decide +kernel
  simp [Hw.corrected, g, m, roundCode, saturate, clampI]

theorem tFlat_flags (w : W64) : (tFlat.accRecord 0 (tFlat.acc 0) tShot tSamples w).flags.getLsbD 1 = false := by
  have l : tSamples.map (fun s => tFlat.corrected tShot.input s.core.val s.code) = [0, 0] := by
    have i : tShot.input = 0 := rfl
    simp [tSamples, i, tFlat_code]
  simp only [Hw.accRecord, l]
  decide +kernel

/-- An option that holds something holds it. -/
theorem tGot {α : Type} (o : Option α) (d : α) (h : o.isSome = true) : o = some (o.getD d) := by
  cases o with
  | none => cases h
  | some a => rfl

/-- A resolver's slots at a peak. -/
def tPeak : PeakSlots := { instant := 0, sin := some [0, 0, 0, 0], cos := some [0, 0, 0, 0], exc := none }

/-- The STO path test of channel A, its first half done or not, and the rails at the bounds of R265. -/
def tStoTest (count : Nat) : Hw :=
  { tReady with gateA := { ascArm := false }, gateB := { ascArm := false }, tests := [{ tRun 0x0A02 true with count := count }] }
def tRails : List (Nat × Nat) := List.replicate 4 (800000, 2000000)

/-- A charge phase whose safety timer is due. -/
def tDue (phase : Nat) : ChgPhase := { tPhase with phase := phase, equiv := 3600000000 }
def tCharging (p : ChgPhase) : Hw := { tCharge with chg := { tCharge.chg with phase := some p } }

/-- The converter with its bus up and its check passed, about to start. -/
def tReadyToStart : Hw :=
  { tLv with lv := { tLv.lv with state := .starting, closed := false, bus := 48000, check := 2, ch13 := 13800, biasAt := some 39999960000 } }

/-- A property of every member of a list, as its decision. -/
theorem tAll {α : Type} (l : List α) (p : α → Prop) [DecidablePred p] (h : l.all (fun x => decide (p x)) = true) : ∀ x ∈ l, p x := by
  simpa using h

/-! ## Well-formed commands: an ill-formed term for each check -/

theorem test_wf_refuses_frame_word : Instr.wf (.canFrameReceived 0 { word := 0x40000000, fmt := .cc }) = false := by decide
theorem test_wf_refuses_cc_length : Instr.wf (.canWakeFrame 0 { word := 1, fmt := .cc, data := List.replicate 9 0 }) = false := by decide
theorem test_wf_refuses_fd_length : Instr.wf (.canTtWindow 0 0 (some { word := 1, fmt := .fd, data := List.replicate 9 0 })) = false := by decide
theorem test_wf_refuses_brs_length : Instr.wf (.canFallbackRequest 0 { word := 1, fmt := .fdBrs, data := List.replicate 63 0 }) = false := by decide
theorem test_wf_refuses_xl_length : Instr.wf (.canFrameReceived 0 { word := 1, fmt := .xl, data := [] }) = false := by decide
theorem test_wf_takes_frame : Instr.wf (.canFrameReceived 0 { word := 0x3FFFFFFF, fmt := .fd, data := List.replicate 12 0 }) = true := by decide
theorem test_wf_refuses_doorbell_width : Instr.wf (.doorbellWrite 0 24 0) = false := by decide
theorem test_wf_refuses_register_width : Instr.wf (.registerWrite 0 24 0) = false := by decide
theorem test_wf_refuses_agent_0 :
    [Instr.mbLockRead 1 0, .mbLockRelease 1 0, .mbDataWrite 1 0 0, .mbAcknowledge 1 0 0].all (fun i => !i.wf) = true := by decide
theorem test_wf_refuses_leg_6 : [Instr.legCrossCommand 6, .bootLowReport 6 0, .bootUvloReport 6 0].all (fun i => !i.wf) = true := by decide
theorem test_wf_refuses_seven_means : Instr.wf (.calAccumulationDone [0, 0, 0, 0, 0, 0, 0] 0 0) = false := by decide
theorem test_wf_refuses_burst_of_three :
    Instr.wf (.resolverPeriod 0 { instant := 0, sin := some [0, 0, 0], cos := none, exc := none } { instant := 0, sin := none, cos := none, exc := none }) = false := by decide
theorem test_wf_refuses_sent_lengths : Instr.wf (.sentFrame 0 3584 [12] [] 0 none) = false := by decide
theorem test_wf_refuses_sent_nibble : Instr.wf (.sentFrame 0 3584 [12] [16] 0 none) = false := by decide
theorem test_wf_refuses_sent_crc : Instr.wf (.sentFrame 0 3584 [12] [0] 16 none) = false := by decide
theorem test_wf_refuses_basic_cycle_64 : Instr.wf (.canTtReference 0 64 0 false) = false := by decide
theorem test_wf_refuses_pilot_duty : Instr.wf (.cpStateChange 9000 (-12000) none 1001 0) = false := by decide
theorem test_wf_refuses_five_spans : Instr.wf (.dcbInductanceCheck [0, 0, 0, 0, 0] 0) = false := by decide
theorem test_wf_refuses_boost_duty : Instr.wf (.dcbInductanceCheck [0, 0, 0, 0, 0, 0] 1001) = false := by decide
theorem test_wf_refuses_position : Instr.wf (.actPositionConfirmed 0 65536) = false := by decide

/-! ## Steps, and the manual's worked examples -/

/-- Whether a command answers a next state whose module passes a check. -/
def tNext (i : Instr) (h : Hw) (p : Hw → Bool) : Bool :=
  match exec i { pending := [], hw := h } with
  | .next t => p t.hw
  | .fault _ => false
  | .refused _ => false

/-- The front command is taken, and the rest waits. -/
theorem test_step_takes_the_front :
    (match step { pending := [.appSignal, .ping], hw := {} } with | .next t => t.pending | _ => []) = [.ping] := by decide +kernel
/-- No row of the opcode table has bits, so a table word spells no command and places none. -/
theorem test_no_word_spells : decodeTableWord 32 0x05 = none ∧ (State.reset.withFetchWord 32 0x05).pending = [] := by decide
/-- POWER_ON begins a wake with reason 0x10 (R40, R43). -/
theorem test_power_on : tNext (.powerOn 13500) {} (fun h => h.mode.phase == .bringUp && h.mode.wakeReason == 0x10) = true := by decide +kernel
/-- A PARAM_READ on ring 1 completes DONE with its tag in CQ entry 0 (R297, R322). -/
theorem test_param_read :
    tNext (.paramRead (tSess 4 16 0x0306)) tReady (fun h => h.out.any (fun o => match o with
      | .completion 1 0 tag st _ _ _ => tag == 7 && st == 0
      | _ => false)) = true := by decide +kernel
/-- A descriptor of a session that is not open completes AUTH_DENIED, code 0x05 (R296, R298). -/
theorem test_unknown_session :
    tNext (.paramRead (tSess 99 16 0x0306)) tReady (fun h => h.out.any (fun o => match o with
      | .completion 1 0 _ st _ _ _ => st == 5
      | _ => false)) = true := by decide +kernel
/-- A counter stops at 2^48 - 1 (R351). -/
theorem test_counter_stops : (({ cnt := { vals := [(0x77, 2 ^ 48 - 2)] } } : Hw).count 0x77 5).cnt.vals.get 0x77 0 = 2 ^ 48 - 1 := by decide +kernel
/-- R152: 25 600 Hz gives 15 626 ticks. -/
theorem test_pwm_period : pwmPeriod 25600 = 15626 := by decide
/-- R180: a cell on a 300 V link delivers 1.833 kW. -/
theorem test_cell_power : ({ pwr := { vdc := 300000 } } : Hw).cellPower = 1833 := by decide
/-- R222: 400 V at a duty of 48.7 % of 31.25 us and a span of 180.2 A is 33.8 uH: above 33.7 uH, below 33.9 uH. -/
theorem test_inductance : inductanceOk 400000 487 12500 33700 180200 = true ∧ inductanceOk 400000 487 12500 33900 180200 = false := by decide
/-- R211: 50 % offers 30 A, 90 % offers 65 A, 5 % asks for digital communication, 7.5 % is invalid. -/
theorem test_duty_offers : [500, 900, 50, 75].map dutyOffer = [some (30000, false), some (65000, false), some (0, true), none] := by decide
/-- R229: full current counts in full, half of it half, and no current a quarter. -/
theorem test_timer_rate : [40000, 20000, 0].map (fun a => timerRate 3 a 40000) = [1000, 500, 250] := by decide
/-- R131's example: 0.041 Vs at 20 degC and 0.275 Vs in the map, magnets at 100 degC, -200 A and 500 A: 430.56 Nm. -/
theorem test_torque_estimate :
    ({ tFit with
       prm := { vals := [(0x051F, 4), (0x0401, 4), (0x0521, 850000)] }
       ctlA := { flux := some { flux := true, lim1 := -400000, lim2 := 700000, lim3 := 0, mapTemp := 2000
                                entries := (List.range 1024).flatMap (fun _ => [4100, 27500]) }
                 magTemp := some 10000 } } : Hw).torqueEstimate .brA (-200000) 500000 = 43056 := by decide +kernel
/-- CRC-32C of the nine digits (R121, R335, R342): the catalogued check value. -/
theorem test_crc_32c : crc32 polyC [0x31, 0x32, 0x33, 0x34, 0x35, 0x36, 0x37, 0x38, 0x39] = 0xE3069283 := by decide +kernel
/-- The safety polynomial over the nine digits (R271, R272): the catalogued check value. -/
theorem test_crc_safety : crc32 polySafety [0x31, 0x32, 0x33, 0x34, 0x35, 0x36, 0x37, 0x38, 0x39] = 0x1697D06A := by decide +kernel
/-- R96: A leading B counts up, and a change of both phases is illegal. -/
theorem test_quadrature : quadStep false false true false = some 1 ∧ quadStep false false true true = none := by decide

/-! ## What meets the hypotheses of the obligations -/

theorem test_meets_EveryStepStaysSound :
    ∃ (s : State) (t : State), s.hw.Sound ∧ step s = .next t :=
  ⟨State.reset, { pending := [], hw := State.reset.hw.tick }, tSound _ rfl rfl rfl rfl, rfl⟩

theorem test_meets_EveryStepFollows :
    ∃ (s : State) (t : State), s.hw.Sound ∧ step s = .next t :=
  ⟨State.reset, { pending := [], hw := State.reset.hw.tick }, tSound _ rfl rfl rfl rfl, rfl⟩

theorem test_meets_OnlyProgrammingChangesOtp :
    (∃ (c : Instr) (s : State) (t : State), s.hw.Sound ∧ (∀ ok, c ≠ .otpProgramDone ok) ∧ exec c s = .next t) ∧
    (∃ (s : State) (t : State) (ok : Bool) (j : OtpJob), s.hw.Sound ∧ s.hw.otp.job = some j ∧ exec (.otpProgramDone ok) s =
      .next t) ∧
    (∃ (s : State) (t : State) (ok : Bool), s.hw.otp.job = none ∧ exec (.otpProgramDone ok) s = .next t) :=
  ⟨⟨.stoDiscrepancy, State.reset, State.reset, tSound _ rfl rfl rfl rfl, by first | (intro _; rfl) | (intro _ x; cases x),
     rfl⟩,
   ⟨⟨[], tProgramming⟩, ⟨[], tProgramming.otpDone true⟩, true, tJob, tSound _ rfl rfl rfl rfl, by decide +kernel, rfl⟩,
   ⟨State.reset, State.reset, true, by decide +kernel, rfl⟩⟩

theorem test_meets_TheQueueRunsToItsEnd :
    ∃ (s : State), s.hw.Sound :=
  ⟨State.reset, tSound _ rfl rfl rfl rfl⟩

theorem test_meets_RefusedDescriptorsActNoFurther :
    (∃ (s : State) (d : Desc) (st : Status), d.member = false ∧ s.hw.canStart d = true ∧ s.hw.heldBySwap 0x0501 d = false ∧
      (s.hw.started d).firstFailure 0x0501 d = some st ∧ st ≠ .safetyPdu) ∧
    (∃ (g : Hw) (op : Nat) (d : Desc) (st : Status), d.member = false ∧ g.canStart d = true ∧ g.heldBySwap op d = false ∧
      (g.started d).firstFailure op d = some st ∧ st ≠ .safetyPdu) ∧
    (∃ (g : Hw) (op : Nat) (d : Desc), d.member = false ∧ (g.canStart d = false ∨ g.heldBySwap op d = true)) :=
  ⟨⟨{ pending := [], hw := tReady }, tSess 99 20 0, .authDenied, by decide +kernel, by decide +kernel, by decide +kernel,
     by decide +kernel, by decide +kernel⟩,
   ⟨tReady, 0x0501, tSess 99 20 0, .authDenied, by decide +kernel, by decide +kernel, by decide +kernel, by decide +kernel,
     by decide +kernel⟩,
   ⟨State.reset.hw, 0x0501, tSess 4 0 0, by decide +kernel, by decide +kernel⟩⟩

theorem test_meets_DcLinkCeilingLeavesMotoringOnly :
    (∃ (s : State), s.hw.parI 0x0513 < s.hw.pwr.vdc ∧ heldFor s.hw.sh.ceilAt msTicks s.hw.time.clock = true) ∧
    (∃ (s : State) (x : Hw) (p : Span), s.hw.parI 0x0513 < s.hw.pwr.vdc ∧ heldFor s.hw.sh.ceilAt msTicks s.hw.time.clock =
      true ∧ x = ({ s.hw with sh := { s.hw.sh with dcCeil := true } } : Hw).raiseOnce fltTrqDcCeiling 0xFF ∧ p.lo ≤ 0 ∧
      0 ≤ p.hi ∧ 0 < (x.ctl .brA).speed ∧ (x.ctl .brB).speed < 0) :=
  ⟨⟨⟨[], { tDrive with pwr := { tDrive.pwr with vdc := 990000 }, sh := { ceilAt := some 39999600000 } }⟩,
     by decide +kernel, by decide +kernel⟩,
   ⟨⟨[],
     { tDrive with pwr := { tDrive.pwr with vdc := 990000 }, sh := { ceilAt := some 39999600000 }, ctlA := { tDrive.ctlA with speed := 1 }, ctlB := { tDrive.ctlB with speed := -1 } }⟩,
     _, { lo := -100, hi := 100, loBits := 0, hiBits := 0 }, by decide +kernel, by decide +kernel, rfl,
     by decide +kernel, by decide +kernel, by decide +kernel, by decide +kernel⟩⟩

theorem test_meets_ReversedBatteryKeepsTheStageOff :
    ∃ (s : State) (d : Desc) (h : Hw), s.hw.RunsTo 0x0701 (d.withByte16 1) h ∧ h.lv.vout < -500 :=
  ⟨{ pending := [], hw := { tReady with lv := { tReady.lv with vout := -501 } } }, tSess 4 12 0,
    ({ tReady with lv := { tReady.lv with vout := -501 } } : Hw).begun ((tSess 4 12 0).withByte16 1), tRuns
    (by decide +kernel), by decide +kernel⟩

theorem test_meets_ExclusiveCellsSendOrCount :
    (∃ (s : State) (ch : Fin 4) (col : Fin 64) (h : Hw) (buf : Nat) (word : Nat) (t : CanTx), s.hw.canOn ch.val = true ∧ h =
      s.hw.modCan ch.val (fun c => { c with column := some col.val }) ∧ (h.can ch.val).cell = some (1, buf, word) ∧
      (h.can ch.val).refLost = false ∧ (h.can ch.val).buffers.find buf = some t) ∧
    (∃ (s : State) (ch : Fin 4) (col : Fin 64) (h : Hw) (buf : Nat) (word : Nat), s.hw.canOn ch.val = true ∧ h = s.hw.modCan
      ch.val (fun c => { c with column := some col.val }) ∧ (h.can ch.val).cell = some (1, buf, word) ∧ (h.can
      ch.val).refLost = false ∧ (h.can ch.val).buffers.find buf = none) ∧
    (∃ (s : State) (ch : Fin 4) (col : Fin 64) (seen : Option CanFrame) (h : Hw) (buf : Nat) (word : Nat), s.hw.canOn ch.val
      = true ∧ h = s.hw.modCan ch.val (fun c => { c with column := some col.val }) ∧ (h.can ch.val).cell = some (2, buf,
      word) ∧ seen.any (fun f => (f.word ^^^ BitVec.ofNat 32 word) &&& 0x3FFFFFFF == 0) = false) :=
  ⟨⟨{ pending := [], hw := tTt }, 0, 0, tTt.modCan 0 (fun c => { c with column := some 0 }), 3, 0, tWaiting,
     by decide +kernel, rfl, by decide +kernel, by decide +kernel, by decide +kernel⟩,
   ⟨{ pending := [], hw := tTtEmpty }, 0, 0, tTtEmpty.modCan 0 (fun c => { c with column := some 0 }), 3, 0,
     by decide +kernel, rfl, by decide +kernel, by decide +kernel, by decide +kernel⟩,
   ⟨{ pending := [], hw := tTt }, 0, 1, none, tTt.modCan 0 (fun c => { c with column := some 1 }), 0, 5, by decide +kernel,
     rfl, by decide +kernel, by decide +kernel⟩⟩

theorem test_meets_ModeRequestGranted :
    ∃ (s : State) (d : Desc) (h : Hw), s.hw.RunsTo 0x0201 d h ∧ d.byte 16 = 3 ∧ h.mode.mode = .ready ∧ h.modeBusy = false ∧
      h.driveConditions = true ∧ h.chg.active = false :=
  ⟨{ pending := [], hw := tFit }, tSafe 0x0201 1 3, tFit.begun (tSafe 0x0201 1 3), tRuns (by decide +kernel),
    by decide +kernel, by decide +kernel, by decide +kernel, by decide +kernel, by decide +kernel⟩

theorem test_meets_WakesBegin :
    (∃ (s : State) (src : Fin 14) (falling : Bool) (level : Int), s.hw.mode.phase = .asleep ∧ s.hw.mode.latched = none ∧
      s.hw.wakeEnabled src.val falling level = true ∧ 3800 ≤ s.hw.pwr.vsup) ∧
    (∃ (s : State) (src : Fin 14) (falling : Bool) (level : Int), s.hw.wakeEnabled src.val falling level = false) ∧
    (∃ (s : State), s.hw.mode.phase = .asleep ∧ s.hw.mode.latched = none ∧ s.hw.wakeEnabled 9 false 0 = true ∧ 3800 ≤
      s.hw.pwr.vsup) ∧
    (∃ (s : State) (ch : Fin 4) (f : CanFrame), s.hw.mode.phase = .asleep ∧ s.hw.mode.latched = none ∧ s.hw.frameMode ch.val
      = true ∧ s.hw.wakeMatch ch.val f = true ∧ 3800 ≤ s.hw.pwr.vsup) ∧
    (∃ (s : State) (ch : Fin 4) (n : Nat), s.hw.mode.phase = .asleep ∧ s.hw.mode.latched = none ∧ s.hw.frameMode ch.val =
      true ∧ 32 < n ∧ 3800 ≤ s.hw.pwr.vsup) ∧
    (∃ (s : State) (code : W16), s.hw.mode.phase = .asleep ∧ s.hw.mode.latched = some code ∧ 3800 ≤ s.hw.pwr.vsup) ∧
    (∃ (s : State) (vsup : Int), s.hw.mode.phase = .unpowered ∧ 3800 < vsup) :=
  ⟨⟨⟨[], tDozing⟩, 8, false, 0, by decide +kernel, by decide +kernel, by decide +kernel, by decide +kernel⟩,
   ⟨⟨[], tDozing⟩, 6, true, 0, by decide +kernel⟩,
   ⟨⟨[], tDozing⟩, by decide +kernel, by decide +kernel, by decide +kernel, by decide +kernel⟩,
   ⟨⟨[], tDozing⟩, 1, { word := 0, fmt := .cc }, by decide +kernel, by decide +kernel, by decide +kernel,
     by decide +kernel, by decide +kernel⟩,
   ⟨⟨[], tDozing⟩, 1, 33, by decide +kernel, by decide +kernel, by decide +kernel, by decide +kernel, by decide +kernel⟩,
   ⟨{ pending := [], hw := tAsleep }, 8, by decide +kernel, by decide +kernel, by decide +kernel⟩,
   ⟨State.reset, 12000, by decide +kernel, by decide +kernel⟩⟩

theorem test_meets_SupplyChanges :
    (∃ (s : State) (below : Nat), msTicks ≤ below ∧ s.hw.mode.phase ≠ .unpowered ∧ s.hw.pwr.onP11 = false ∧ s.hw.p11Runs =
      false) ∧
    (∃ (s : State) (below : Nat), msTicks ≤ below ∧ s.hw.mode.phase ≠ .unpowered ∧ s.hw.pwr.onP11 = false ∧ s.hw.p11Runs =
      true) ∧
    (∃ (below : Nat), below < msTicks) ∧
    (∃ (s : State) (vsup : Int), s.hw.pwr.onP11 = true ∧ 3800 < vsup) ∧
    (∃ (s : State), s.hw.pwr.onP11 = false) ∧
    (∃ (s : State) (vdc : Int), s.hw.pwr.onP11 = true ∧ (vdc < 120000 ∨ 1050000 < vdc)) :=
  ⟨⟨⟨[], tAsleep⟩, 400000, by decide +kernel, by decide +kernel, by decide +kernel, by decide +kernel⟩,
   ⟨⟨[], tReady⟩, 400000, by decide +kernel, by decide +kernel, by decide +kernel, by decide +kernel⟩,
   ⟨399999, by decide +kernel⟩,
   ⟨{ pending := [], hw := { tReady with pwr := { tReady.pwr with onP11 := true } } }, 3801, by decide +kernel,
     by decide +kernel⟩,
   ⟨{ pending := [], hw := tReady }, by decide +kernel⟩,
   ⟨⟨[], { tReady with pwr := { tReady.pwr with onP11 := true } }⟩, 119999, by decide +kernel, by decide +kernel⟩⟩

theorem test_meets_BringUpReaches :
    (∃ (s : State), s.hw.mode.phase = .bringUp) ∧
    (∃ (h : Hw), (h.pwr.stoA = false ∨ h.pwr.stoB = false)) ∧
    (∃ (h : Hw), h.mode.mode ≠ .bivouac ∧ h.saf.dbgHalted = false) :=
  ⟨⟨{ pending := [], hw := tCommissioned }, by decide +kernel⟩,
   ⟨{ pwr := { stoA := false } }, by decide +kernel⟩,
   ⟨tReady, by decide +kernel, by decide +kernel⟩⟩

theorem test_meets_ImagesAreServed :
    (∃ (s : State) (k : Nat), s.hw.img.requested = some k ∧ s.hw.img.requestAt + 100 * msTicks ≤ s.hw.time.clock ∧
      s.hw.roped = false) ∧
    (∃ (s : State), s.hw.img.requested.isSome = true ∧ s.hw.img.firstRequestAt + sTicks ≤ s.hw.time.clock) ∧
    (∃ (s : State) (k : ImageKind) (i : ImageInfo), s.hw.mode.phase = .up ∧ s.hw.nextImage = some k ∧ s.hw.img.listed k =
      true ∧ s.hw.authStep k i = none) ∧
    (∃ (s : State) (k : ImageKind), s.hw.roped = true ∧ s.hw.mode.phase = .up ∧ s.hw.mode.mode ≠ .baseCamp ∧
      (s.hw.img.running.find k.code).isSome = true) ∧
    (∃ (s : State) (k : ImageKind) (i : ImageInfo) (n : Nat), s.hw.mode.phase = .up ∧ s.hw.nextImage = some k ∧
      s.hw.img.listed k = true ∧ s.hw.authStep k i = some n) ∧
    (∃ (s : State) (k : ImageKind), s.hw.nextImage ≠ some k) :=
  ⟨⟨{ pending := [], hw := { tReady with img := { requested := some 1 }, time := { clock := 40000000 } } }, 1,
     by decide +kernel, by decide +kernel, by decide +kernel⟩,
   ⟨{ pending := [], hw := { tReady with img := { requested := some 1 }, time := { clock := 400000000 } } },
     by decide +kernel, by decide +kernel⟩,
   ⟨⟨[], tBase⟩, .safe, tImage, by decide +kernel, by decide +kernel, by decide +kernel, by decide +kernel⟩,
   ⟨{ pending := [], hw := tRoped }, .trac, by decide +kernel, by decide +kernel, by decide +kernel, by decide +kernel⟩,
   ⟨⟨[], tBase⟩, .safe, { tImage with sigOk := false }, 3, by decide +kernel, by decide +kernel, by decide +kernel,
     by decide +kernel⟩,
   ⟨⟨[], tBase⟩, .trac, by decide +kernel⟩⟩

theorem test_meets_ModeEdgeTakesEffect :
    (∃ (s : State) (g : Grant), s.hw.saf.dbgHalted = false ∧ s.hw.mode.granted = some g ∧ g.cinch = 0 ∧ g.target ≠ .bivouac
      ∧ s.hw.drained g.target = true ∧ s.hw.atEdge = true) ∧
    (∃ (s : State) (g : Grant), s.hw.saf.dbgHalted = false ∧ s.hw.mode.granted = some g ∧ g.cinch = 0 ∧ g.target = .bivouac
      ∧ s.hw.drained .bivouac = true ∧ s.hw.atEdge = true) ∧
    (∃ (s : State) (g : Grant), s.hw.saf.dbgHalted = false ∧ s.hw.mode.granted = some g ∧ s.hw.drained g.target = false) ∧
    (∃ (s : State) (g : Grant), s.hw.saf.dbgHalted = false ∧ s.hw.mode.granted = some g ∧ s.hw.drained g.target = true ∧
      s.hw.atEdge = false) ∧
    (∃ (s : State), s.hw.saf.dbgHalted = true) :=
  ⟨⟨⟨[], tGranted tReady .workshop⟩, tGrant .workshop, by decide +kernel, by decide +kernel, by decide +kernel,
     by decide +kernel, by decide +kernel, by decide +kernel⟩,
   ⟨⟨[], tGranted { tBase with pwr := { tBase.pwr with vdc := 60000 } } .bivouac⟩, tGrant .bivouac, by decide +kernel,
     by decide +kernel, by decide +kernel, by decide +kernel, by decide +kernel, by decide +kernel⟩,
   ⟨⟨[], tGranted tTorque .ready⟩, tGrant .ready, by decide +kernel, by decide +kernel, by decide +kernel⟩,
   ⟨⟨[], tGranted { tFit with ctlA := { state := .sync, boundary := some 0 } } .drive⟩, tGrant .drive, by decide +kernel,
     by decide +kernel, by decide +kernel, by decide +kernel⟩,
   ⟨⟨[], { tDebug with saf := { tDebug.saf with dbgHalted := true } }⟩, by decide +kernel⟩⟩

theorem test_meets_DrainsAreForced :
    (∃ (s : State) (n : Fin 64), (s.hw.ring n.val).state = .draining ∧ (s.hw.ring n.val).drainAt + s.hw.parTicks 0x0209 ≤
      s.hw.time.clock) ∧
    (∃ (s : State) (b : Bridge), (s.hw.ctl b).draining = true ∧ (s.hw.ctl b).drainAt + s.hw.parTicks 0x020A ≤
      s.hw.time.clock) ∧
    (∃ (s : State), s.hw.chg.draining = true ∧ s.hw.chg.drainAt + s.hw.parTicks 0x020B ≤ s.hw.time.clock) ∧
    (∃ (s : State), s.hw.lv.draining = true ∧ s.hw.lv.drainAt + s.hw.parTicks 0x020C ≤ s.hw.time.clock) ∧
    (∃ (s : State) (t : Nat), s.hw.act.drainAt = some t ∧ t + s.hw.parTicks 0x020D ≤ s.hw.time.clock ∧ s.hw.act.still =
      false) :=
  ⟨⟨⟨[], { tReady with host := { rings := [(1, { state := .draining, size := 4 })] }, time := { clock := 40000000000 } }⟩,
     1, by decide +kernel, by decide +kernel⟩,
   ⟨{ pending := [], hw := { tReady with ctlB := { draining := true }, time := { clock := 40000000000 } } }, .brB,
     by decide +kernel, by decide +kernel⟩,
   ⟨{ pending := [], hw := { tReady with chg := { draining := true }, time := { clock := 40000000000 } } },
     by decide +kernel, by decide +kernel⟩,
   ⟨{ pending := [], hw := { tReady with lv := { draining := true }, time := { clock := 40000000000 } } },
     by decide +kernel, by decide +kernel⟩,
   ⟨⟨[], { tReady with act := { drainAt := some 0, shift := { state := .moving } }, time := { clock := 40000000000 } }⟩, 0,
     by decide +kernel, by decide +kernel, by decide +kernel⟩⟩

theorem test_meets_ModeTimers :
    (∃ (s : State) (m : Mode), s.hw.mode.mode = .baseCamp ∧ s.hw.chg.pp = .noPlug ∧ s.hw.modeBusy = false ∧ s.hw.route
      .bivouac = some m ∧ s.hw.mode.lastCommand + s.hw.parTicks 0x0207 ≤ s.hw.time.clock) ∧
    (∃ (s : State) (w : Bool), s.hw.mode.mode = .baseCamp ∧ (w = true ∨ s.hw.chg.pp ≠ .noPlug)) ∧
    (∃ (s : State), s.hw.mode.phase = .up ∧ s.hw.mode.topupWait = true ∧ s.hw.mode.wakeAt + s.hw.parTicks 0x0206 ≤
      s.hw.time.clock) ∧
    (∃ (s : State), s.hw.mode.mode = .belay ∧ s.hw.mode.belayAt + s.hw.parTicks 0x0A04 ≤ s.hw.time.clock ∧
      s.hw.clearedAndAcked s.hw.mode.belayCode s.hw.mode.belaySource = false) ∧
    (∃ (s : State) (g : Grant), s.hw.mode.granted = some g ∧ g.target = .bivouac ∧ g.cinch = 0 ∧ g.at' ≤
      s.hw.saf.dischargeAt ∧ s.hw.saf.dischargeAt + 2 * sTicks ≤ s.hw.time.clock ∧ 60000 < s.hw.pwr.vdc) ∧
    (∃ (s : State), s.hw.appRuns = true) ∧
    (∃ (s : State), s.hw.appRuns = true ∧ s.hw.mode.appMissed = 2) ∧
    (∃ (s : State) (budget : Nat) (electronics : Nat) (lvLoad : Nat) (bridges : Nat) (charging : Nat) (lvAbove : Nat) (a :
      Allowances), s.hw.appRuns = true ∧ a = shareLoss (s.hw.mode.mode == .charge) budget electronics lvLoad bridges
      charging lvAbove) ∧
    (∃ (s : State), s.hw.saf.allowOn = true ∧ s.hw.saf.allowAt + 100 * msTicks ≤ s.hw.time.clock) ∧
    (∃ (h : Hw), h.saf.allowOn = false) :=
  ⟨⟨⟨[], { tBase with time := { clock := 400000000000000 } }⟩, .bivouac, by decide +kernel, by decide +kernel,
     by decide +kernel, by decide +kernel, by decide +kernel⟩,
   ⟨⟨[], tBase⟩, true, by decide +kernel, by decide +kernel⟩,
   ⟨{ pending := [], hw := { tBase with mode := { tBase.mode with topupWait := true }, time := { clock := 400000000000000 } } },
     by decide +kernel, by decide +kernel, by decide +kernel⟩,
   ⟨{ pending := [], hw := { tReady with mode := { tReady.mode with mode := .belay, belayCode := 0x0601 }, time := { clock := 400000000000000 } } },
     by decide +kernel, by decide +kernel, by decide +kernel⟩,
   ⟨⟨[], { tGranted tBase .bivouac with pwr := { tBase.pwr with vdc := 60001 }, time := { clock := 800000000 } }⟩, tGrant
     .bivouac, by decide +kernel, by decide +kernel, by decide +kernel, by decide +kernel, by decide +kernel,
     by decide +kernel⟩,
   ⟨{ pending := [], hw := tReady }, by decide +kernel⟩,
   ⟨{ pending := [], hw := { tReady with mode := { tReady.mode with appMissed := 2 } } }, by decide +kernel,
     by decide +kernel⟩,
   ⟨⟨[], tReady⟩, 1000, 100, 100, 600, 100, 300, { lv := 300, bridges := 600, charging := 0 }, by decide +kernel, rfl⟩,
   ⟨⟨[], { tReady with saf := { allowOn := true }, time := { clock := 40000000 } }⟩, by decide +kernel, by decide +kernel⟩,
   ⟨tReady, by decide +kernel⟩⟩

theorem test_meets_CinchIsOpenedAndStaged :
    (∃ (s : State) (d : Desc) (h : Hw), s.hw.RunsTo 0x0C01 d h ∧ h.openCheck d = none) ∧
    (∃ (h : Hw) (d : Desc), 1 ≤ (d.byte 16).toNat ∧ (d.byte 16).toNat ≤ 32 ∧ (d.byte 17).toNat ≤ 6 ∧ d.num 20 8 = 0 ∧
      (h.slot (d.byte 16).toNat).state = .free) ∧
    (∃ (s : State) (op : W16) (d : Desc), d.member = true ∧ s.hw.canStart d = true ∧ s.hw.heldBySwap op.toNat d = false ∧
      (s.hw.started d).firstFailure op.toNat d = none ∧ op ≠ 0x0C07 ∧ (s.hw.begun d).stageCheck op.toNat d none = none) ∧
    (∃ (s : State) (d : Desc) (i : ImageInfo), d.member = true ∧ s.hw.canStart d = true ∧ s.hw.heldBySwap 0x0C07 d = false ∧
      (s.hw.started d).firstFailure 0x0C07 d = none ∧ (s.hw.begun d).stageCheck 0x0C07 d (some i) = none) :=
  ⟨⟨{ pending := [], hw := tReady }, tSess 4 12 0x0001, tReady.begun (tSess 4 12 0x0001), tRuns (by decide +kernel),
     by decide +kernel⟩,
   ⟨tReady, tSess 4 12 0x0001, by decide +kernel, by decide +kernel, by decide +kernel, by decide +kernel,
     by decide +kernel⟩,
   ⟨{ pending := [], hw := tCinch }, 0x0C04, tMember, by decide +kernel, by decide +kernel, by decide +kernel,
     by decide +kernel, by decide +kernel, by decide +kernel⟩,
   ⟨{ pending := [], hw := tCinch }, tSwap, tSwapImage, by decide +kernel, by decide +kernel, by decide +kernel,
     by decide +kernel, by decide +kernel⟩⟩

theorem test_meets_CinchRunsItsCourse :
    (∃ (s : State) (d : Desc) (h : Hw), s.hw.RunsTo 0x0C02 d h ∧ h.slotCheck d = none ∧ (h.slot (d.byte 16).toNat).state =
      .opened ∧ (h.slot (d.byte 16).toNat).commit = none) ∧
    (∃ (s : State) (n : Fin 33) (q : Req), (s.hw.slot n.val).state = .opened ∧ (s.hw.slot n.val).commit = some q ∧
      (s.hw.slot n.val).members ≠ [] ∧ (s.hw.slot n.val).members.any (·.trailer) = false ∧ (s.hw.slot n.val).cls = 0 ∧
      s.hw.conflicts (s.hw.slot n.val) = false) ∧
    (∃ (s : State) (n : Fin 33), (s.hw.slot n.val).state = .committed ∧ s.hw.img.appSwap = none ∧ s.hw.cinchDue (s.hw.slot
      n.val) = true ∧ s.hw.instantCheck (s.hw.slot n.val) = none ∧ (s.hw.slot n.val).members.any (fun m => m.op ==
      0x0C07 && m.desc.byte 16 == 6) = false) ∧
    (∃ (s : State) (n : Fin 33), (s.hw.slot n.val).state = .committed ∧ s.hw.img.appSwap = none ∧ s.hw.cinchDue (s.hw.slot
      n.val) = true ∧ s.hw.conflicts (s.hw.slot n.val) = true) ∧
    (∃ (s : State) (d : Desc) (h : Hw), s.hw.RunsTo 0x0C03 d h ∧ h.slotCheck d = none ∧ (h.slot (d.byte 16).toNat).state =
      .opened) ∧
    (∃ (s : State) (n : Fin 33), (s.hw.slot n.val).state = .opened ∧ (s.hw.slot n.val).commit = none ∧ (s.hw.slot
      n.val).openedAt + s.hw.parTicks 0x0C01 ≤ s.hw.time.clock) :=
  ⟨⟨{ pending := [], hw := tCinch }, tSess 4 1 0x01, tCinch.begun (tSess 4 1 0x01), tRuns (by decide +kernel),
     by decide +kernel, by decide +kernel, by decide +kernel⟩,
   ⟨{ pending := [], hw := tCommit }, 1, tCommitReq, by decide +kernel, by decide +kernel, by decide +kernel,
     by decide +kernel, by decide +kernel, by decide +kernel⟩,
   ⟨{ pending := [], hw := tCommitted }, 1, by decide +kernel, by decide +kernel, by decide +kernel, by decide +kernel,
     by decide +kernel⟩,
   ⟨{ pending := [], hw := tConflict }, 1, by decide +kernel, by decide +kernel, by decide +kernel, by decide +kernel⟩,
   ⟨{ pending := [], hw := tCinch }, tSess 4 1 0x01, tCinch.begun (tSess 4 1 0x01), tRuns (by decide +kernel),
     by decide +kernel, by decide +kernel⟩,
   ⟨{ pending := [], hw := { tCinch with time := { clock := 40000000000000 } } }, 1, by decide +kernel, by decide +kernel,
     by decide +kernel⟩⟩

theorem test_meets_ParametersAreWrittenAndRead :
    (∃ (s : State) (d : Desc) (h : Hw) (r : PRow), s.hw.RunsTo 0x0C04 d h ∧ h.paramCheck d false = none ∧ paramRow d.paramId
      = some r ∧ d.paramId / 256 ≠ 0x0A ∧ r.cls = .immediate) ∧
    (∃ (s : State) (d : Desc) (h : Hw) (r : PRow), s.hw.RunsTo 0x0C04 d h ∧ h.paramCheck d false = none ∧ paramRow d.paramId
      = some r ∧ d.paramId / 256 ≠ 0x0A ∧ r.cls = .modeEdge) ∧
    (∃ (s : State) (d : Desc) (h : Hw) (r : PRow), s.hw.RunsTo 0x0C04 d h ∧ h.paramCheck d false = none ∧ paramRow d.paramId
      = some r ∧ d.paramId / 256 = 0x0A) ∧
    (∃ (s : State) (d : Desc) (h : Hw), s.hw.RunsTo 0x0C05 d h ∧ (paramRow d.paramId).isSome = true ∧ d.num 24 8 % 8 = 0) :=
  ⟨⟨{ pending := [], hw := tReady }, tWrite 0x0306 30, tReady.begun (tWrite 0x0306 30), tRow 0x0306, tRuns
     (by decide +kernel), by decide +kernel, by decide +kernel, by decide +kernel, by decide +kernel⟩,
   ⟨{ pending := [], hw := tReady }, tWrite 0x0202 1, tReady.begun (tWrite 0x0202 1), tRow 0x0202, tRuns
     (by decide +kernel), by decide +kernel, by decide +kernel, by decide +kernel, by decide +kernel⟩,
   ⟨{ pending := [], hw := tWork }, tWrite5 0x0A04 1000000, tWork.begun (tWrite5 0x0A04 1000000), tRow 0x0A04, tRuns
     (by decide +kernel), by decide +kernel, by decide +kernel, by decide +kernel⟩,
   ⟨{ pending := [], hw := tReady }, tSess 4 16 0x0202, tReady.begun (tSess 4 16 0x0202), tRuns (by decide +kernel),
     by decide +kernel, by decide +kernel⟩⟩

theorem test_meets_ImagesAndRecords :
    (∃ (s : State) (d : Desc) (h : Hw) (es : List DirEntry), s.hw.RunsTo 0x0C06 d h ∧ d.num 16 8 % 8 = 0 ∧ directoryOf d.dma
      (d.num 24 4) = some es) ∧
    (∃ (s : State) (x : SafeHold), s.hw.img.safeHold = some x ∧ s.hw.time.clock ≤ x.since + 50 * msTicks) ∧
    (∃ (s : State) (x : SafeHold), s.hw.img.safeHold = some x ∧ x.since + 50 * msTicks ≤ s.hw.time.clock) ∧
    (∃ (s : State) (core : Fin 4) (a : AppSwap), s.hw.img.appSwap = some a ∧ a.reversing = false ∧ core.val = a.done ∧
      s.hw.time.clock ≤ a.coreAt + 100 * msTicks ∧ a.done < 3) ∧
    (∃ (s : State) (core : Fin 4) (a : AppSwap), s.hw.img.appSwap = some a ∧ a.reversing = false ∧ core.val = a.done ∧
      s.hw.time.clock ≤ a.coreAt + 100 * msTicks ∧ a.done = 3) ∧
    (∃ (s : State) (d : Desc) (h : Hw) (body : List Byte) (g : Nat) (base : Nat) (gens : Nat) (size : Nat), s.hw.RunsTo
      0x0C08 d h ∧ h.otpCheck = none ∧ h.otpSource d = .inr body ∧ h.otp.nextSlot (d.num 16 1) = some g ∧ otpMap (d.num
      16 1) = some (base, gens, size)) ∧
    (∃ (s : State) (d : Desc) (h : Hw) (g : Nat) (base : Nat) (gens : Nat) (size : Nat), s.hw.RunsTo 0x0C09 d h ∧ h.otpCheck
      = none ∧ h.revokeCheck d = none ∧ h.otp.active.find (d.num 16 1) = some g ∧ otpMap (d.num 16 1) = some (base,
      gens, size)) ∧
    (∃ (s : State) (j : OtpJob), s.hw.otp.job = some j ∧ j.safety = false ∧ 9000 ≤ s.hw.pwr.vsup) ∧
    (∃ (s : State) (d : Desc) (h : Hw) (body : List Byte), s.hw.RunsTo 0x0C0A d h ∧ h.overlayCheck d false = none ∧
      overlayBody d.dma 3 = some body ∧ (d.byte 16).toNat = 3 ∧ d.num 16 1 = 3) ∧
    (∃ (s : State) (core : Fin 4) (a : AppSwap), s.hw.img.appSwap = some a ∧ a.turn core.val = false) ∧
    (∃ (s : State) (core : Fin 4) (a : AppSwap), s.hw.img.appSwap = some a ∧ a.reversing = false ∧ core.val = a.done ∧ 0 <
      a.done) ∧
    (∃ (s : State) (core : Fin 4) (a : AppSwap), s.hw.img.appSwap = some a ∧ a.reversing = true ∧ core.val + 1 = a.done ∧ 1
      < a.done) :=
  ⟨⟨{ pending := [], hw := tBase }, tDirectory, tBase.begun tDirectory, [{ kind := 1, length := 16, addr := 4096 }], tRuns
     (by decide +kernel), by decide +kernel, by decide +kernel⟩,
   ⟨{ pending := [], hw := { tReady with img := { safeHold := some { since := 40000000000, image := { version := 2, format := 1 } } } } },
     { since := 40000000000, image := { version := 2, format := 1 } }, by decide +kernel, by decide +kernel⟩,
   ⟨{ pending := [], hw := { tReady with img := { safeHold := some { since := 0, image := { version := 2, format := 1 } } }, time := { clock := 40000000 } } },
     { since := 0, image := { version := 2, format := 1 } }, by decide +kernel, by decide +kernel⟩,
   ⟨⟨[], tAppSwap 2 false⟩, 2, tSwapping 2 false, by decide +kernel, by decide +kernel, by decide +kernel,
     by decide +kernel, by decide +kernel⟩,
   ⟨⟨[], tAppSwap 3 false⟩, 3, tSwapping 3 false, by decide +kernel, by decide +kernel, by decide +kernel,
     by decide +kernel, by decide +kernel⟩,
   ⟨{ pending := [], hw := tWork }, tProgram, tWork.begun tProgram, slice [] 0 512, 0, 0x2D70, 6, 512, tRuns
     (by decide +kernel), by decide +kernel, by decide +kernel, by decide +kernel, by decide +kernel⟩,
   ⟨{ pending := [], hw := tWork }, tSess 5 12 0x05, tWork.begun (tSess 5 12 0x05), 0, 0x2D70, 6, 512, tRuns
     (by decide +kernel), by decide +kernel, by decide +kernel, by decide +kernel, by decide +kernel⟩,
   ⟨⟨[], { tProgramming with pwr := { tProgramming.pwr with vsup := 9000 } }⟩, tJob, by decide +kernel, by decide +kernel,
     by decide +kernel⟩,
   ⟨{ pending := [], hw := tReady }, tOverlay, tReady.begun tOverlay, slice [] 0 1024, tRuns (by decide +kernel),
     tOverlay_checks, tOverlay_body, by decide +kernel, by decide +kernel⟩,
   ⟨⟨[], tAppSwap 2 true⟩, 2, tSwapping 2 true, by decide +kernel, by decide +kernel⟩,
   ⟨⟨[], tAppSwap 1 false⟩, 1, tSwapping 1 false, by decide +kernel, by decide +kernel, by decide +kernel,
     by decide +kernel⟩,
   ⟨⟨[], tAppSwap 2 true⟩, 1, tSwapping 2 true, by decide +kernel, by decide +kernel, by decide +kernel, by decide +kernel⟩⟩

theorem test_meets_RingsAreMade :
    (∃ (s : State) (d : Desc) (h : Hw), s.hw.RunsTo 0x0B01 d h ∧ h.createCheck d = none ∧ d.num 17 1 ≠ 1) ∧
    (∃ (s : State) (d : Desc) (h : Hw), s.hw.RunsTo 0x0B02 d h ∧ d.num 16 1 ≠ 0 ∧ d.num 16 1 ≤ 63 ∧ (h.ring (d.num 16
      1)).state = .enabled) ∧
    (∃ (s : State) (d : Desc) (h : Hw), s.hw.RunsTo 0x0B03 d h ∧ d.num 16 1 ≠ 0 ∧ d.num 16 1 ≤ 63 ∧ ((h.ring (d.num 16
      1)).state = .idle ∨ (h.ring (d.num 16 1)).state = .error)) ∧
    (∃ (s : State) (v : W32), s.hw.barUp = true ∧ (s.hw.ring 0).state = .absent ∧ s.hw.host.ring0Sq.toNat % 4096 = 0 ∧
      s.hw.host.ring0Cq.toNat % 4096 = 0 ∧ 4 ≤ ring0Size (ring0Fields v) ∧ ring0Size (ring0Fields v) ≤ 12 ∧ ring0Time
      (ring0Fields v) ≤ 1000 ∧ v.getLsbD 30 = false ∧ v.getLsbD 31 = true) ∧
    (∃ (s : State), s.hw.barUp = true ∧ (s.hw.ring 0).state = .enabled) ∧
    (∃ (s : State) (v : W32), s.hw.barUp = true ∧ v.getLsbD 31 = false) ∧
    (∃ (h : Hw), (h.ring 0).state = .absent) ∧
    (∃ (s : State) (n : Fin 64) (raw : BitVec 512) (dma : List Byte) (ok : Bool), s.hw.ringTurn n.val = true ∧
      s.hw.entersSleep = false ∧ s.hw.canStart (Desc.ofRaw (.ring n) raw dma ok).2 = true ∧ s.hw.heldBySwap (Desc.ofRaw
      (.ring n) raw dma ok).1 (Desc.ofRaw (.ring n) raw dma ok).2 = false ∧ s.hw.contextMiss (Desc.ofRaw (.ring n) raw
      dma ok).2 = false) ∧
    (∃ (s : State) (n : Fin 64) (m : Nat), m < 64 ∧ (s.hw.ring m).fetchable s.hw.img.safeHold.isSome = true ∧ (s.hw.ring
      m).prio < (s.hw.ring n.val).prio) :=
  ⟨⟨{ pending := [], hw := tReady }, tAdmin 24 (0x010101040005 + 0x1000 * 2 ^ 64 + 0x2000 * 2 ^ 128), tReady.begun (tAdmin
     24 (0x010101040005 + 0x1000 * 2 ^ 64 + 0x2000 * 2 ^ 128)), tRuns (by decide +kernel), by decide +kernel,
     by decide +kernel⟩,
   ⟨{ pending := [], hw := tReady }, tAdmin 1 1, tReady.begun (tAdmin 1 1), tRuns (by decide +kernel), by decide +kernel,
     by decide +kernel, by decide +kernel⟩,
   ⟨{ pending := [], hw := tIdle }, tAdmin 1 1, tIdle.begun (tAdmin 1 1), tRuns (by decide +kernel), by decide +kernel,
     by decide +kernel, by decide +kernel⟩,
   ⟨{ pending := [], hw := tBase }, 0x80000004, by decide +kernel, by decide +kernel, by decide +kernel, by decide +kernel,
     by decide +kernel, by decide +kernel, by decide +kernel, by decide +kernel, by decide +kernel⟩,
   ⟨{ pending := [], hw := tReady }, by decide +kernel, by decide +kernel⟩,
   ⟨{ pending := [], hw := tReady }, 0, by decide +kernel, by decide +kernel⟩,
   ⟨tBase, by decide +kernel⟩,
   ⟨⟨[], tReady⟩, 1, 0x0C05, [], false, by decide +kernel, by decide +kernel, by decide +kernel, by decide +kernel,
     by decide +kernel⟩,
   ⟨{ pending := [], hw := { tReady with host := { rings := [(1, { state := .enabled, size := 4, prio := 1, sqTail := 1 }), (2, { state := .enabled, size := 4, prio := 0, sqTail := 1 })] } } },
     1, 2, by decide +kernel, by decide +kernel, by decide +kernel⟩⟩

theorem test_meets_SessionsOpenAndClose :
    (∃ (s : State) (d : Desc) (h : Hw) (n : Nat), s.hw.RunsTo 0x0B04 d h ∧ h.openSessionCheck d = none ∧ d.num 16 1 = 2 ∧
      h.freeSession = some n) ∧
    (∃ (s : State) (d : Desc) (h : Hw), s.hw.RunsTo 0x0B06 d h) ∧
    (∃ (s : State) (d : Desc) (h : Hw) (x : Session) (y : Session), s.hw.RunsTo 0x0B05 d h ∧ h.session (d.num 16 2) = some x
      ∧ x.closing = none ∧ (h.closeEffects (d.num 16 2) x).session (d.num 16 2) = some y) ∧
    (∃ (s : State) (n : Fin 64) (raw : BitVec 512) (dma : List Byte) (ok : Bool) (x : Session), (s.hw.ring n.val).missed =
      some (raw, dma, ok) ∧ s.hw.appRuns = true ∧ s.hw.host.linkUp = true ∧ s.hw.pwr.onP11 = false ∧ s.hw.contextMiss
      (Desc.ofRaw (.ring n) raw dma ok).2 = true ∧ s.hw.makeRoom.session (Desc.ofRaw (.ring n) raw dma
      ok).2.session.toNat = some x) ∧
    (∃ (s : State), s.hw.barUp = true ∧ s.hw.host.tableLo.getLsbD 0 = false) ∧
    (∃ (s : State) (v : W32), s.hw.barUp = true ∧ s.hw.host.tableLo.getLsbD 0 = true ∧ (v ^^^ s.hw.host.tableLo) &&&
      0xFFFFF000 = 0 ∧ v.getLsbD 0 = false ∧ s.hw.sessionCount (fun x => !x.pinned) = 0) :=
  ⟨⟨{ pending := [], hw := tReady }, tAdmin 24 0x00001000_00000011_00000002, tReady.begun (tAdmin 24
     0x00001000_00000011_00000002), 1, tRuns (by decide +kernel), by decide +kernel, by decide +kernel,
     by decide +kernel⟩,
   ⟨{ pending := [], hw := tReady }, tAdmin 8 0x1000, tReady.begun (tAdmin 8 0x1000), tRuns (by decide +kernel)⟩,
   ⟨{ pending := [], hw := tReady }, tAdmin 2 4, tReady.begun (tAdmin 2 4), tOperate, tOperate, tRuns (by decide +kernel),
     by decide +kernel, by decide +kernel, by decide +kernel⟩,
   ⟨{ pending := [], hw := tMissed }, 1, tMissedRaw, [], false, { tOperate with resident := false }, by decide +kernel,
     by decide +kernel, by decide +kernel, by decide +kernel, by decide +kernel, by decide +kernel⟩,
   ⟨{ pending := [], hw := { tReady with host := { tReady.host with tableLo := 0 } } }, by decide +kernel,
     by decide +kernel⟩,
   ⟨{ pending := [], hw := { tReady with host := { tReady.host with sessions := [] } } }, 0, by decide +kernel,
     by decide +kernel, by decide +kernel, by decide +kernel, by decide +kernel⟩⟩

theorem test_meets_QueuesMove :
    (∃ (s : State) (off : BitVec 14) (v : W32), s.hw.barUp = true ∧ off.toNat % 256 = 0 ∧ (s.hw.ring (off.toNat /
      256)).posts = true ∧ v.toNat / 2 ^ 16 < 2 ^ (s.hw.ring (off.toNat / 256)).size ∧ v.toNat % 2 ^ 16 < 2 ^ (s.hw.ring
      (off.toNat / 256)).size ∧ (v.toNat / 2 ^ 16 + 2 ^ (s.hw.ring (off.toNat / 256)).size - (s.hw.ring (off.toNat /
      256)).cqHead) % 2 ^ (s.hw.ring (off.toNat / 256)).size ≤ (s.hw.ring (off.toNat / 256)).posted) ∧
    (∃ (s : State) (off : BitVec 14) (v : W32), s.hw.barUp = true ∧ off.toNat % 256 = 0 ∧ (s.hw.ring (off.toNat /
      256)).posts = true ∧ 2 ^ (s.hw.ring (off.toNat / 256)).size ≤ v.toNat / 2 ^ 16) ∧
    (∃ (s : State) (n : Fin 64), (s.hw.ring n.val).posts = true) ∧
    (∃ (s : State) (n : Fin 64) (t : Nat), (s.hw.ring n.val).posts = true ∧ (s.hw.ring n.val).type = 0 ∧ (s.hw.ring
      n.val).hasRoom = false ∧ (s.hw.ring n.val).fullAt = some t ∧ t + s.hw.parTicks 0x0B02 ≤ s.hw.time.clock) ∧
    (∃ (s : State) (n : Fin 64), 0 < (s.hw.ring n.val).unsignalled ∧ (s.hw.ring n.val).oldestAt + (s.hw.ring n.val).time *
      usTicks ≤ s.hw.time.clock) ∧
    (∃ (s : State), s.hw.barUp = true) ∧
    (∃ (s : State), s.hw.barUp = true) ∧
    (∃ (s : State) (o : W16), s.hw.barUp = true ∧ o.toNat % 8 = 0 ∧ o.toNat ≠ 0x0818) ∧
    (∃ (s : State), s.hw.barUp = true) :=
  ⟨⟨{ pending := [], hw := tReady }, 256, 1, by decide +kernel, by decide +kernel, by decide +kernel, by decide +kernel,
     by decide +kernel, by decide +kernel⟩,
   ⟨{ pending := [], hw := tReady }, 256, 0xFFFF0000, by decide +kernel, by decide +kernel, by decide +kernel,
     by decide +kernel⟩,
   ⟨{ pending := [], hw := tReady }, 1, by decide +kernel⟩,
   ⟨{ pending := [], hw := { tReady with host := { rings := [(1, { state := .enabled, size := 4, posted := 16, fullAt := some 0 })] }, time := { clock := 40000000000000 } } },
     1, 0, by decide +kernel, by decide +kernel, by decide +kernel, by decide +kernel, by decide +kernel⟩,
   ⟨{ pending := [], hw := { tReady with host := { rings := [(1, { state := .enabled, size := 4, unsignalled := 1 })] }, time := { clock := 40000000000000 } } },
     1, by decide +kernel, by decide +kernel⟩,
   ⟨{ pending := [], hw := tReady }, by decide +kernel⟩,
   ⟨{ pending := [], hw := tReady }, by decide +kernel⟩,
   ⟨{ pending := [], hw := tReady }, 0x0800, by decide +kernel, by decide +kernel, by decide +kernel⟩,
   ⟨{ pending := [], hw := tReady }, by decide +kernel⟩⟩

theorem test_meets_MailboxesPassWords :
    (∃ (s : State) (m : Fin 16) (a : Fin 12), s.hw.mbReach m.val a.val = true ∧ m.val ≠ 0 ∧ (s.hw.mb m.val).lock = 0) ∧
    (∃ (s : State) (m : Fin 16) (a : Fin 12), s.hw.mbReach m.val a.val = true ∧ m.val ≠ 0 ∧ (s.hw.mb m.val).lock = a.val) ∧
    (∃ (s : State) (m : Fin 16) (a : Fin 12), s.hw.mbReach m.val a.val = true ∧ m.val ≠ 0 ∧ (s.hw.mb m.val).lock = a.val ∧
      (s.hw.mb m.val).full = false) ∧
    (∃ (s : State) (m : Fin 16) (a : Fin 12), s.hw.awake = true ∧ m.val ≠ 0 ∧ a.val ≠ 0 ∧ mbReceiver m.val = a.val ∧
      (s.hw.mb m.val).full = true) ∧
    (∃ (s : State) (m : Fin 16), s.hw.mbReach m.val 1 = true) ∧
    (∃ (s : State) (m : Fin 16), (s.hw.mb m.val).full = true ∧ (s.hw.mb m.val).writtenAt + 10 * msTicks ≤ s.hw.time.clock) ∧
    (∃ (s : State) (m : Fin 16), (s.hw.mb m.val).lock ≠ 0 ∧ (s.hw.mb m.val).full = false ∧ (s.hw.mb m.val).lockAt + sTicks ≤
      s.hw.time.clock) ∧
    (∃ (s : State), s.hw.mb1Holds 1 = true) ∧
    (∃ (s : State), s.hw.mb1Holds 2 = true ∧ s.hw.modeBusy = false ∧ s.hw.route .bivouac = some .bivouac) ∧
    (∃ (s : State), s.hw.mb1Holds 3 = true) ∧
    (∃ (s : State) (code : Byte), s.hw.awake = true ∧ (s.hw.mb 2).full = true ∧ s.hw.appRuns = true ∧ (s.hw.mb 2).data ≠ 1 ∧
      code.toNat ≤ 14) ∧
    (∃ (s : State), s.hw.mb1Holds 2 = true ∧ s.hw.modeBusy = true) ∧
    (∃ (h : Hw) (m : Nat), (h.mb m).full = true) :=
  ⟨⟨{ pending := [], hw := tReady }, 2, 1, by decide +kernel, by decide +kernel, by decide +kernel⟩,
   ⟨{ pending := [], hw := { tReady with host := { tReady.host with mailbox := [(2, { lock := 1 })] } } }, 2, 1,
     by decide +kernel, by decide +kernel, by decide +kernel⟩,
   ⟨{ pending := [], hw := { tReady with host := { tReady.host with mailbox := [(2, { lock := 1 })] } } }, 2, 1,
     by decide +kernel, by decide +kernel, by decide +kernel, by decide +kernel⟩,
   ⟨{ pending := [], hw := { tReady with host := { tReady.host with mailbox := [(1, { full := true })] } } }, 1, 6,
     by decide +kernel, by decide +kernel, by decide +kernel, by decide +kernel, by decide +kernel⟩,
   ⟨{ pending := [], hw := tReady }, 2, by decide +kernel⟩,
   ⟨{ pending := [], hw := { tReady with host := { tReady.host with mailbox := [(2, { full := true })] }, time := { clock := 40000000 } } },
     2, by decide +kernel, by decide +kernel⟩,
   ⟨{ pending := [], hw := { tReady with host := { tReady.host with mailbox := [(2, { lock := 1 })] }, time := { clock := 4000000000 } } },
     2, by decide +kernel, by decide +kernel, by decide +kernel⟩,
   ⟨{ pending := [], hw := tMb 1 }, by decide +kernel⟩,
   ⟨{ pending := [], hw := tMb 2 }, by decide +kernel, by decide +kernel, by decide +kernel⟩,
   ⟨{ pending := [], hw := tMb 3 }, by decide +kernel⟩,
   ⟨{ pending := [], hw := { tReady with host := { tReady.host with mailbox := [(2, { full := true, data := 9 })] } } }, 5,
     by decide +kernel, by decide +kernel, by decide +kernel, by decide +kernel, by decide +kernel⟩,
   ⟨⟨[], tGranted (tMb 2) .workshop⟩, by decide +kernel, by decide +kernel⟩,
   ⟨tMb 2, 1, by decide +kernel⟩⟩

theorem test_meets_HostIsLostAndFound :
    (∃ (s : State) (down : Nat), s.hw.awake = true ∧ s.hw.host.lost = false ∧ s.hw.parTicks 0x0B01 ≤ down) ∧
    (∃ (s : State) (down : Nat), down < s.hw.parTicks 0x0B01) ∧
    (∃ (s : State), s.hw.awake = true) ∧
    (∃ (s : State), s.hw.awake = true ∧ s.hw.pwr.onP11 = false) ∧
    (∃ (s : State) (n : Fin 64) (table : Bool), (s.hw.ring n.val).posts = true ∧ (table = false ∨ (s.hw.ring
      n.val).missed.isSome = true)) :=
  ⟨⟨⟨[], tReady⟩, tReady.parTicks 0x0B01, by decide +kernel, by decide +kernel, by decide +kernel⟩,
   ⟨⟨[], tReady⟩, 0, by decide +kernel⟩,
   ⟨{ pending := [], hw := tReady }, by decide +kernel⟩,
   ⟨{ pending := [], hw := tReady }, by decide +kernel, by decide +kernel⟩,
   ⟨⟨[], tReady⟩, 1, false, by decide +kernel, by decide +kernel⟩⟩

theorem test_meets_ModuleTimeIsKept :
    (∃ (s : State) (n : Nat), s.hw.time.stepWait = some n ∧ s.hw.stepHeld = false) ∧
    (∃ (s : State), s.hw.mode.phase = .up ∧ s.hw.powered 3 = true ∧ s.hw.net.ptpLost = false ∧ s.hw.time.behind = false ∧
      s.hw.time.firstSync = true ∧ s.hw.time.stepDone = true ∧ s.hw.time.stepWait = none) ∧
    (∃ (s : State) (o : Int), s.hw.mode.phase = .up ∧ s.hw.powered 3 = true ∧ s.hw.net.ptpLost = false ∧ s.hw.time.behind =
      false ∧ s.hw.time.stepDone = false ∧ 400000 < o ∧ s.hw.stepHeld = false) ∧
    (∃ (s : State) (interval : Nat) (elapsed : Nat), s.hw.mode.phase = .up ∧ s.hw.net.ptpLost = false ∧ 3 * interval ≤
      elapsed) ∧
    (∃ (s : State) (failures : Nat), s.hw.mode.phase = .up ∧ s.hw.net.ptpLost = false ∧ 3 ≤ failures) ∧
    (∃ (interval : Nat) (elapsed : Nat), elapsed < 3 * interval) ∧
    (∃ (h : Hw), h.mode.phase = .up ∧ h.time.slew = 0 ∧ h.time.clock + 1 < h.time.msAt + msTicks) :=
  ⟨⟨{ pending := [], hw := { tReady with time := { stepWait := some 500000 } } }, 500000, by decide +kernel,
     by decide +kernel⟩,
   ⟨⟨[], { tReady with time := { firstSync := true, stepDone := true } }⟩, by decide +kernel, by decide +kernel,
     by decide +kernel, by decide +kernel, by decide +kernel, by decide +kernel, by decide +kernel⟩,
   ⟨⟨[], tReady⟩, 400001, by decide +kernel, by decide +kernel, by decide +kernel, by decide +kernel, by decide +kernel,
     by decide +kernel, by decide +kernel⟩,
   ⟨⟨[], tReady⟩, 50000000, 150000000, by decide +kernel, by decide +kernel, by decide +kernel⟩,
   ⟨⟨[], tReady⟩, 3, by decide +kernel, by decide +kernel, by decide +kernel⟩,
   ⟨1, 2, by decide +kernel⟩,
   ⟨{ tReady with time := { clock := 5 } }, by decide +kernel, by decide +kernel, by decide +kernel⟩⟩

theorem test_meets_CountersAreRead :
    (∃ (s : State) (d : Desc) (h : Hw), s.hw.RunsTo 0x0D03 d h ∧ h.tlmRing (d.num 16 1) = true ∧ d.num 20 4 ≠ 0xFFFFFFFF ∧
      d.num 24 8 = 0 ∧ h.cnt.snap = none ∧ h.time.stepWait = none) ∧
    (∃ (s : State) (x : Snap), s.hw.cnt.snap = some x ∧ x.bank = none ∧ x.at'.toNat ≤ s.hw.time.now.toNat ∧ s.hw.time.synced
      = true) ∧
    (∃ (h : Hw) (x : Snap) (bank : Tab Nat) (off : Bool), h.cnt.snap = some x ∧ x.bank = some (bank, off) ∧ h.time.now.toNat
      < x.at'.toNat + 500 * usTicks) ∧
    (∃ (h : Hw) (x : Snap) (bank : Tab Nat) (off : Bool), h.cnt.snap = some x ∧ x.bank = some (bank, off) ∧ x.at'.toNat +
      500 * usTicks ≤ h.time.now.toNat) ∧
    (∃ (h : Hw) (x : Snap) (q : Req), h.cnt.snap = some x ∧ x.bank.isSome = true ∧ x.next = 147 ∧ (h.ring x.ring).buffer.any
      Waiting.ofBank = false ∧ x.req = some q) ∧
    (∃ (s : State) (d : Desc) (h : Hw), s.hw.RunsTo 0x0D01 d h ∧ d.num 16 1 ≤ 63 ∧ h.tlmRing (d.num 17 1) = true ∧
      subSourceOk (d.num 18 1) (d.num 20 2) = true ∧ 100 ≤ d.num 24 4 ∧ d.num 24 4 ≤ 10000000 ∧ rateOk (d.num 24 4 ::
      (h.cnt.subs.filter (fun p => p.1 != d.num 16 1)).map (fun p => p.2.interval)) = true) ∧
    (∃ (s : State) (d : Desc) (h : Hw), s.hw.RunsTo 0x0D02 d h ∧ d.num 16 1 ≤ 63) ∧
    (∃ (s : State) (n : Fin 64) (x : Sub), s.hw.cnt.subs.find n.val = some x ∧ s.hw.time.now.toNat % (x.interval * usTicks)
      = 0 ∧ (s.hw.subRecord x).1 = none) :=
  ⟨⟨{ pending := [], hw := tReady }, tSess 4 16 0x0000_0000_0000_0007_0000_0002, tReady.begun (tSess 4 16
     0x0000_0000_0000_0007_0000_0002), tRuns (by decide +kernel), by decide +kernel, by decide +kernel,
     by decide +kernel, by decide +kernel, by decide +kernel⟩,
   ⟨{ pending := [], hw := { tReady with cnt := { snap := some { ring := 2, epoch := 7, at' := 0, req := some tCommitReq } }, time := { synced := true } } },
     { ring := 2, epoch := 7, at' := 0, req := some tCommitReq }, by decide +kernel, by decide +kernel,
     by decide +kernel, by decide +kernel⟩,
   ⟨{ tReady with cnt := { snap := some { ring := 2, epoch := 7, at' := 0, req := some tCommitReq, bank := some ([], false) } }, time := {} },
     { ring := 2, epoch := 7, at' := 0, req := some tCommitReq, bank := some ([], false) }, [], false,
     by decide +kernel, by decide +kernel, by decide +kernel⟩,
   ⟨{ tReady with cnt := { snap := some { ring := 2, epoch := 7, at' := 0, req := some tCommitReq, bank := some ([], false) } }, time := { now := 400000 } },
     { ring := 2, epoch := 7, at' := 0, req := some tCommitReq, bank := some ([], false) }, [], false,
     by decide +kernel, by decide +kernel, by decide +kernel⟩,
   ⟨{ tReady with cnt := { snap := some { ring := 2, epoch := 7, at' := 0, req := some tCommitReq, bank := some ([], false), next := 147 } } },
     { ring := 2, epoch := 7, at' := 0, req := some tCommitReq, bank := some ([], false), next := 147 }, tCommitReq,
     by decide +kernel, by decide +kernel, by decide +kernel, by decide +kernel, by decide +kernel⟩,
   ⟨{ pending := [], hw := tReady }, tSess 4 12 0x000003E8_00000005_00000200, tReady.begun (tSess 4 12
     0x000003E8_00000005_00000200), tRuns (by decide +kernel), by decide +kernel, by decide +kernel, by decide +kernel,
     by decide +kernel, by decide +kernel, by decide +kernel⟩,
   ⟨{ pending := [], hw := tReady }, tSess 4 1 0, tReady.begun (tSess 4 1 0), tRuns (by decide +kernel), by decide +kernel⟩,
   ⟨{ pending := [], hw := { tReady with cnt := { subs := [(0, tSub)] } } }, 0, tSub, by decide +kernel, by decide +kernel,
     by decide +kernel⟩⟩

theorem test_meets_FaultsAreAnswered :
    (∃ (s : State) (d : Desc) (h : Hw), s.hw.RunsTo 0x0D04 d h ∧ h.flt.hist.any (ackMatches (BitVec.ofNat 16 (d.num 16 2))
      (d.byte 18)) = true ∧ BitVec.ofNat 16 (d.num 16 2) ≠ 0xFFFF) ∧
    (∃ (s : State) (d : Desc) (h : Hw), s.hw.RunsTo 0x0D05 d h ∧ h.mode.mode = .workshop ∧ (h.flt.hist ++
      h.flt.extra).filter (clearable (BitVec.ofNat 16 (d.num 16 2)) (d.byte 18)) ≠ []) ∧
    (∃ (s : State) (d : Desc) (h : Hw), s.hw.RunsTo 0x0D06 d h ∧ d.num 16 8 % 8 = 0) :=
  ⟨⟨{ pending := [], hw := tFaulty }, tSess 4 4 0x00FF0D01, tFaulty.begun (tSess 4 4 0x00FF0D01), tRuns
     (by decide +kernel), by decide +kernel, by decide +kernel⟩,
   ⟨{ pending := [], hw := tLatched }, tSess 5 4 0x00FF0604, tLatched.begun (tSess 5 4 0x00FF0604), tRuns
     (by decide +kernel), by decide +kernel, by decide +kernel⟩,
   ⟨{ pending := [], hw := tReady }, tSess 4 8 0x1000, tReady.begun (tSess 4 8 0x1000), tRuns (by decide +kernel),
     by decide +kernel⟩⟩

theorem test_meets_SetpointsAreTaken :
    (∃ (s : State) (d : Desc) (h : Hw) (k : Hw) (b : Bridge), s.hw.RunsTo 0x0501 d h ∧ h.setpointCheck false d = .inr b ∧ k
      = (h.noteFallback d).renew b ∧ k.mode.granted = none ∧ k.shiftHolds b = false ∧ (k.ctl b).state.safe = false ∧
      (k.ctl b).state ≠ .sync) ∧
    (∃ (s : State) (d : Desc) (h : Hw) (k : Hw) (b : Bridge), s.hw.RunsTo 0x0501 d h ∧ h.setpointCheck false d = .inr b ∧ k
      = (h.noteFallback d).renew b ∧ k.mode.granted = none ∧ k.shiftHolds b = false ∧ ((k.ctl b).state.safe = true ∨
      (k.ctl b).state = .sync)) ∧
    (∃ (s : State) (d : Desc) (h : Hw) (k : Hw) (b : Bridge), s.hw.RunsTo 0x0501 d h ∧ h.setpointCheck false d = .inr b ∧ k
      = (h.noteFallback d).renew b ∧ (k.mode.granted.isSome = true ∨ k.shiftHolds b = true)) ∧
    (∃ (s : State) (d : Desc) (h : Hw) (st : Status), s.hw.RunsTo 0x0501 d h ∧ h.setpointCheck false d = .inl st) ∧
    (∃ (s : State) (d : Desc) (h : Hw) (k : Hw) (b : Bridge), s.hw.RunsTo 0x0502 d h ∧ h.setpointCheck true d = .inr b ∧ k =
      (h.noteFallback d).renew b ∧ k.mode.granted = none ∧ k.shiftHolds b = false ∧ (k.ctl b).state.safe = false ∧
      (k.ctl b).state ≠ .sync) ∧
    (∃ (s : State) (d : Desc) (h : Hw) (k : Hw) (b : Bridge), s.hw.RunsTo 0x0502 d h ∧ h.setpointCheck true d = .inr b ∧ k =
      (h.noteFallback d).renew b ∧ k.mode.granted = none ∧ k.shiftHolds b = false ∧ ((k.ctl b).state.safe = true ∨
      (k.ctl b).state = .sync)) ∧
    (∃ (s : State) (d : Desc) (h : Hw) (k : Hw) (b : Bridge), s.hw.RunsTo 0x0502 d h ∧ h.setpointCheck true d = .inr b ∧ k =
      (h.noteFallback d).renew b ∧ (k.mode.granted.isSome = true ∨ k.shiftHolds b = true)) ∧
    (∃ (s : State) (d : Desc) (h : Hw) (st : Status), s.hw.RunsTo 0x0502 d h ∧ h.setpointCheck true d = .inl st) ∧
    (∃ (s : State) (d : Desc) (h : Hw) (k : Hw) (x : Hw), s.hw.RunsTo 0x0503 d h ∧ h.pairCheck d = none ∧ k = (h.renew
      .brA).renew .brB ∧ k.mode.granted = none ∧ k.shiftHolds .brA = false ∧ k.shiftHolds .brB = false ∧ x = k.endPair
      .superseded) ∧
    (∃ (s : State) (d : Desc) (h : Hw) (k : Hw) (x : Hw), s.hw.RunsTo 0x0503 d h ∧ h.pairCheck d = none ∧ k = (h.renew
      .brA).renew .brB ∧ (k.mode.granted.isSome = true ∨ k.shiftHolds .brA = true ∨ k.shiftHolds .brB = true) ∧ x =
      ((k.endHeldPair .superseded).supersedeHeld .brA).supersedeHeld .brB) ∧
    (∃ (s : State) (d : Desc) (h : Hw) (b : Bridge) (t : MotorTable), s.hw.RunsTo 0x0504 d h ∧ h.mapCheck d false = .inr (b,
      t)) ∧
    (∃ (s : State) (d : Desc) (h : Hw) (st : Status), s.hw.RunsTo 0x0504 d h ∧ h.mapCheck d false = .inl st) ∧
    (∃ (s : State) (b : Bridge) (sp : Setpoint), (s.hw.ctl b).target = some sp ∧ (s.hw.ctl b).state.inService = true ∧
      (s.hw.ctl b).stale = false ∧ (s.hw.ctl b).renewedAt + s.hw.parTicks 0x051E ≤ s.hw.time.clock) ∧
    (∃ (s : State) (b : Bridge), (s.hw.ctl b).renewedAt + s.hw.parTicks 0x051E > s.hw.time.clock) :=
  ⟨⟨⟨[], tTorque⟩, tSafe 0x0501 20 0x3E8_00000000, tTorque.begun (tSafe 0x0501 20 0x3E8_00000000), _, .brA, tRuns
     (by decide +kernel), by decide +kernel, rfl, by decide +kernel, by decide +kernel, by decide +kernel,
     by decide +kernel⟩,
   ⟨⟨[], tDrive⟩, tSafe 0x0501 20 0x3E8_00000000, tDrive.begun (tSafe 0x0501 20 0x3E8_00000000), _, .brA, tRuns
     (by decide +kernel), by decide +kernel, rfl, by decide +kernel, by decide +kernel, by decide +kernel⟩,
   ⟨⟨[], tGranted tDrive .belay⟩, tSafe 0x0501 20 0x3E8_00000000, (tGranted tDrive .belay).begun (tSafe 0x0501 20
     0x3E8_00000000), _, .brA, tRuns (by decide +kernel), by decide +kernel, rfl, by decide +kernel⟩,
   ⟨⟨[], tReady⟩, tSafe 0x0501 20 0x3E8_00000000, tReady.begun (tSafe 0x0501 20 0x3E8_00000000), .modeDenied, tRuns
     (by decide +kernel), by decide +kernel⟩,
   ⟨⟨[], tTorque⟩, tSafe 0x0502 20 0x3E8_00000000, tTorque.begun (tSafe 0x0502 20 0x3E8_00000000), _, .brA, tRuns
     (by decide +kernel), by decide +kernel, rfl, by decide +kernel, by decide +kernel, by decide +kernel,
     by decide +kernel⟩,
   ⟨⟨[], tDrive⟩, tSafe 0x0502 20 0x3E8_00000000, tDrive.begun (tSafe 0x0502 20 0x3E8_00000000), _, .brA, tRuns
     (by decide +kernel), by decide +kernel, rfl, by decide +kernel, by decide +kernel, by decide +kernel⟩,
   ⟨⟨[], tGranted tDrive .belay⟩, tSafe 0x0502 20 0x3E8_00000000, (tGranted tDrive .belay).begun (tSafe 0x0502 20
     0x3E8_00000000), _, .brA, tRuns (by decide +kernel), by decide +kernel, rfl, by decide +kernel⟩,
   ⟨⟨[], tReady⟩, tSafe 0x0502 20 0x3E8_00000000, tReady.begun (tSafe 0x0502 20 0x3E8_00000000), .modeDenied, tRuns
     (by decide +kernel), by decide +kernel⟩,
   ⟨⟨[], tTorque⟩, tSafe 0x0503 16 0x3E8_00000000, tTorque.begun (tSafe 0x0503 16 0x3E8_00000000), _, _, tRuns
     (by decide +kernel), by decide +kernel, rfl, by decide +kernel, by decide +kernel, by decide +kernel, rfl⟩,
   ⟨⟨[], tGranted tTorque .belay⟩, tSafe 0x0503 16 0x3E8_00000000, (tGranted tTorque .belay).begun (tSafe 0x0503 16
     0x3E8_00000000), _, _, tRuns (by decide +kernel), by decide +kernel, rfl, by decide +kernel, rfl⟩,
   ⟨{ pending := [], hw := tReady }, tFluxLoad, tReady.begun tFluxLoad, .brA, tFlux, tRuns (by decide +kernel),
     tFlux_checks⟩,
   ⟨⟨[], tReady⟩, tSess 5 12 4, tReady.begun (tSess 5 12 4), .range, tRuns (by decide +kernel), by decide +kernel⟩,
   ⟨⟨[], { tTorque with time := { clock := 40000000000000 } }⟩, .brA, tSetpoint, by decide +kernel, by decide +kernel,
     by decide +kernel, by decide +kernel⟩,
   ⟨⟨[], { tTorque with ctlB := { tTorque.ctlB with renewedAt := 40000000000 } }⟩, .brB, by decide +kernel⟩⟩

theorem test_meets_BridgesStartAndAreWatched :
    (∃ (s : State) (b : Bridge) (a : W32) (n : Int), (s.hw.ctl b).state = .sync ∧ (s.hw.ctl b).syncReady = false ∧
      s.hw.syncAgrees b a n = true ∧ (s.hw.fus b).noSource = false) ∧
    (∃ (s : State) (b : Bridge) (a : W32) (n : Int), (s.hw.ctl b).state = .sync ∧ (s.hw.ctl b).syncReady = false ∧
      s.hw.syncAgrees b a n = false) ∧
    (∃ (s : State) (b : Bridge) (p : Nat), (s.hw.ctl b).reacqAt.isSome = true ∧ (s.hw.ctl b).state.asc = true ∧
      s.hw.twoPeriods b = some p ∧ heldFor (s.hw.ctl b).agreeAt p s.hw.time.clock = true) ∧
    (∃ (s : State) (b : Bridge), heldFor (s.hw.ctl b).reacqAt (s.hw.parTicks 0x052E) s.hw.time.clock = true) ∧
    (∃ (s : State) (b : Bridge), (s.hw.ctl b).state.inService = true ∧ unintended (s.hw.ctl b).est (((s.hw.lagTo b).ctl
      b).expected / 65536) (s.hw.torqueTolerance b) = false) ∧
    (∃ (s : State) (b : Bridge), (s.hw.ctl b).state.inService = true ∧ (s.hw.ctl b).implausible = 2 ∧ unintended (s.hw.ctl
      b).est (((s.hw.lagTo b).ctl b).expected / 65536) (s.hw.torqueTolerance b) = true) ∧
    (∃ (s : State) (b : Bridge), (s.hw.ctl b).state.safe = true) ∧
    (∃ (s : State), s.hw.mode.phase = .up) ∧
    (∃ (s : State) (b : Bridge), s.hw.mode.phase = .up ∧ s.hw.powered (5 + b.code) = true) :=
  ⟨⟨{ pending := [], hw := { tReady with ctlA := { tReady.ctlA with state := .sync } } }, .brA, 0, 0, by decide +kernel,
     by decide +kernel, by decide +kernel, by decide +kernel⟩,
   ⟨{ pending := [], hw := { tReady with ctlA := { tReady.ctlA with state := .sync } } }, .brA, 0, 900000,
     by decide +kernel, by decide +kernel, by decide +kernel⟩,
   ⟨⟨[],
     { tDrive with ctlA := { tDrive.ctlA with state := .ascLow, reacqAt := some 0, agreeAt := some 39988000000 }, pos := { tDrive.pos with fusA := { speed := 100000 } } }⟩,
     .brA, 12000000, by decide +kernel, by decide +kernel, by decide +kernel, by decide +kernel⟩,
   ⟨{ pending := [], hw := { tDrive with ctlA := { tDrive.ctlA with state := .ascLow, reacqAt := some 0 }, time := { clock := 40000000000000 } } },
     .brA, by decide +kernel⟩,
   ⟨⟨[], tTorque⟩, .brA, by decide +kernel, tIntended _ _ (by decide +kernel)⟩,
   ⟨⟨[], { tTorque with ctlA := { tTorque.ctlA with est := 1000000, implausible := 2 } }⟩, .brA, by decide +kernel,
     by decide +kernel, by decide +kernel⟩,
   ⟨{ pending := [], hw := tReady }, .brB, by decide +kernel⟩,
   ⟨{ pending := [], hw := tDrive }, by decide +kernel⟩,
   ⟨⟨[], tDrive⟩, .brB, by decide +kernel, by decide +kernel⟩⟩

theorem test_meets_DriversReport :
    (∃ (s : State) (leg : Fin 64) (b : Bridge), leg.val < 6 ∧ b = (if leg.val < 3 then .brA else .brB) ∧ (xcmdTimes
      (s.hw.gate b).xcmdAt s.hw.time.clock).length < 3) ∧
    (∃ (s : State) (p : Fin 12) (h : Hw), (s.hw.gate (posBridge p.val)).desat.get (p.val % 6) 0 = 0 ∧ h = (((s.hw.modGate
      (posBridge p.val) (fun g =>
      { g with suspect := g.suspect ||| posBit (if p.val % 2 = 0 then p.val + 1 else p.val - 1), desat := g.desat.set (p.val % 6) 1, soft := g.soft.set (p.val % 6) (s.hw.parI 0x060C, s.hw.time.clock + s.hw.par 0x060D * 2 / 5) })).count
      (0x050 + p.val) 1).checkInhibit (posBridge p.val))) ∧
    (∃ (s : State) (p : Fin 12) (neg : Bool) (mv : Int) (h : Hw), h = s.hw.modGate (posBridge p.val) (fun g => g.seeUvlo
      (posBit p.val) neg mv) ∧ (h.gate (posBridge p.val)).uvlo &&& posBit p.val = 0) ∧
    (∃ (s : State) (p : Fin 12) (neg : Bool) (mv : Int) (h : Hw), h = (s.hw.modGate (posBridge p.val) (fun g => g.seeUvlo
      (posBit p.val) neg mv)).faultSafe (posBridge p.val) false ∧ ((s.hw.modGate (posBridge p.val) (fun g => g.seeUvlo
      (posBit p.val) neg mv)).gate (posBridge p.val)).uvlo &&& posBit p.val ≠ 0 ∧ h.faultActive fltGateUvlo.code
      (BitVec.ofNat 8 p.val) = false) ∧
    (∃ (mv : Int), 20000 < mv) ∧
    (∃ (mv : Int), mv < -6000) ∧
    (∃ (s : State) (leg : Fin 64) (mv : Int), isConvLeg leg.val = true ∧ mv ≤ 10500 ∧ (s.hw.lv.boot.get leg.val {}).low =
      false ∧ 16 ≤ (s.hw.lv.boot.get leg.val {}).since) ∧
    (∃ (leg : Fin 64) (mv : Int), isConvLeg leg.val = true ∧ mv ≤ 8500) ∧
    (∃ (leg : Fin 64) (mv : Int), isConvLeg leg.val = true ∧ 9500 < mv) ∧
    (∃ (s : State) (b : Bridge), (s.hw.gate b).ascArmAt + msTicks ≤ s.hw.time.clock) ∧
    (∃ (s : State) (p : Fin 12), s.hw.faultActive fltComparatorFail.code (BitVec.ofNat 8 p.val) = false) ∧
    (∃ (s : State) (leg : Fin 64), isConvLeg leg.val = true ∧ (xcmdTimes s.hw.lv.xcmdAt s.hw.time.clock).length < 3) ∧
    (∃ (s : State) (leg : Fin 64) (i : Nat), isActLeg leg.val = true ∧ i = (leg.val - 0x20) / 3 ∧ (xcmdTimes
      (s.hw.act.xcmdAt.get i []) s.hw.time.clock).length < 3) :=
  ⟨⟨⟨[], tDrive⟩, 3, .brB, by decide +kernel, rfl, by decide +kernel⟩,
   ⟨⟨[], tDrive⟩, 2, _, by decide +kernel, rfl⟩,
   ⟨⟨[], tDrive⟩, 2, false, 18000, _, rfl, by decide +kernel⟩,
   ⟨⟨[], tDrive⟩, 2, true, 0, _, rfl, by decide +kernel, by decide +kernel⟩,
   ⟨20001, by decide +kernel⟩,
   ⟨-6001, by decide +kernel⟩,
   ⟨⟨[], tReady⟩, 0x10, 10500, by decide +kernel, by decide +kernel, by decide +kernel, by decide +kernel⟩,
   ⟨0x1F, 8500, by decide +kernel, by decide +kernel⟩,
   ⟨0x1F, 9501, by decide +kernel, by decide +kernel⟩,
   ⟨{ pending := [], hw := { tDrive with time := { clock := 400000 } } }, .brA, by decide +kernel⟩,
   ⟨{ pending := [], hw := tReady }, 2, by decide +kernel⟩,
   ⟨⟨[], tReady⟩, 0x1F, by decide +kernel, by decide +kernel⟩,
   ⟨⟨[], tReady⟩, 0x28, 2, by decide +kernel, rfl, by decide +kernel⟩⟩

theorem test_meets_ActuatorsMove :
    (∃ (s : State) (d : Desc) (h : Hw), s.hw.RunsTo 0x0901 d h ∧ actFieldsOk d = true ∧ h.actDenied (d.num 16 1) (d.num 17
      1) = false ∧ d.num 16 1 = 0 ∧ (h.act.drive 0).busy = false ∧ h.act.gear.step = .none ∧ h.vsBad = false ∧
      (h.act.drive 0).hallBad = false ∧ (h.act.drive 0).at (d.num 17 1) = false) ∧
    (∃ (s : State) (d : Desc) (h : Hw) (us : Nat), s.hw.RunsTo 0x0902 d h ∧ d.num 16 1 ≠ 0 ∧ d.num 16 1 ≤ 4 ∧
      h.act.gear.step = .none ∧ h.shiftAllowed (d.num 16 1) = some us ∧ h.act.shift.busy = false ∧ h.act.disc.busy =
      false ∧ h.vsBad = false ∧ h.act.shift.hallBad = false ∧ h.act.disc.hallBad = false) ∧
    (∃ (s : State) (x : Nat) (code : Nat) (h : Hw), s.hw.posBad 0 = false ∧ x ≤ 65535 ∧ h = s.hw.seePosition 0 x ∧
      h.act.shift.place = some code ∧ h.act.shift.placeAt + 20 * msTicks ≤ s.hw.time.clock ∧ h.act.shift.busy = true) ∧
    (∃ (s : State), s.hw.act.parkOn = true ∧ (s.hw.posBad 1 = true ∨ (s.hw.act.park.place = none ∧ s.hw.act.park.placeAt +
      20 * msTicks ≤ s.hw.time.clock))) ∧
    (∃ (s : State) (i : Fin 3), s.hw.stalled i.val = true ∧ s.hw.atTarget i.val = true) ∧
    (∃ (s : State), s.hw.act.park.state = .tooth ∧ s.hw.act.park.toothAt + 2 * sTicks ≤ s.hw.time.clock) ∧
    (∃ (s : State), s.hw.act.park.busy = true ∧ s.hw.act.park.code = 1 ∧ s.hw.act.park.confirmed = false ∧ s.hw.slowEnough =
      false) ∧
    (∃ (s : State), s.hw.act.gear.step = .ramp) ∧
    (∃ (s : State), s.hw.act.gear.step = .sync ∧ s.hw.act.gear.reverting = false ∧ s.hw.act.gear.at' +
      (s.hw.act.gear.syncTime + s.hw.par 0x091D) * usTicks ≤ s.hw.time.clock) ∧
    (∃ (s : State), s.hw.stalled 1 = true ∧ s.hw.atTarget 1 = false ∧ s.hw.act.park.code = 1 ∧ s.hw.act.park.state =
      .moving) :=
  ⟨⟨{ pending := [], hw := tMotion }, tSess 4 12 0x0200, tMotion.begun (tSess 4 12 0x0200), tRuns (by decide +kernel),
     by decide +kernel, by decide +kernel, by decide +kernel, by decide +kernel, by decide +kernel, by decide +kernel,
     by decide +kernel, by decide +kernel⟩,
   ⟨{ pending := [], hw := tShift }, tSafe 0x0902 4 3, tShift.begun (tSafe 0x0902 4 3), 0, tRuns (by decide +kernel),
     by decide +kernel, by decide +kernel, by decide +kernel, by decide +kernel, by decide +kernel, by decide +kernel,
     by decide +kernel, by decide +kernel, by decide +kernel⟩,
   ⟨⟨[], tArrived⟩, 100, 0, _, by decide +kernel, by decide +kernel, rfl, by decide +kernel, by decide +kernel,
     by decide +kernel⟩,
   ⟨⟨[], { tReady with act := { tReady.act with parkOn := true } }⟩, by decide +kernel, by decide +kernel⟩,
   ⟨⟨[], tArrived⟩, 0, by decide +kernel, by decide +kernel⟩,
   ⟨{ pending := [], hw := { tReady with act := { tReady.act with park := { tReady.act.park with state := .tooth } }, time := { clock := 4000000000 } } },
     by decide +kernel, by decide +kernel⟩,
   ⟨{ pending := [], hw := tParkFast }, by decide +kernel, by decide +kernel, by decide +kernel, by decide +kernel⟩,
   ⟨{ pending := [], hw := { tReady with act := { tReady.act with gear := { step := .ramp } } } }, by decide +kernel⟩,
   ⟨{ pending := [], hw := { tReady with act := { tReady.act with gear := { step := .sync } }, time := { clock := 40000000000000 } } },
     by decide +kernel, by decide +kernel, by decide +kernel⟩,
   ⟨⟨[], { tMotion with act := { tMotion.act with park := { state := .moving, code := 1 } } }⟩, by decide +kernel,
     by decide +kernel, by decide +kernel, by decide +kernel⟩⟩

theorem test_meets_DrivesAreSensed :
    (∃ (s : State) (mv : Int) (h : Hw), mv < 9000 ∧ h =
      (({ s.hw with act := { s.hw.act with vs := mv, vsLow := true, vsHigh := false } } : Hw).raiseOnce fltActVsLow
      0xFF).clearFault fltActVsHigh.code 0xFF) ∧
    (∃ (s : State) (mv : Int) (h : Hw), 9000 ≤ mv ∧ mv ≤ 58000 ∧ h =
      (({ s.hw with act := { s.hw.act with vs := mv, vsLow := false, vsHigh := false } } : Hw).clearFault
      fltActVsLow.code 0xFF).clearFault fltActVsHigh.code 0xFF) ∧
    (∃ (s : State) (i : Fin 3), 4 ≤ (s.hw.act.drive i.val).missed) ∧
    (∃ (s : State) (i : Fin 3) (k : Nat) (a : W32) (b : W32) (c : W32) (n : Int), s.hw.hallOf i.val = some k ∧ 100000 < absI
      n ∧ (s.hw.pos.halls.get k {}).angles.length = 3 ∧ (∀ p ∈ (s.hw.pos.halls.get k {}).angles.zip [a, b, c], 357913941
      < absI (p.1 - p.2).toInt)) ∧
    (∃ (n : Int), absI n ≤ 100000) ∧
    (∃ (s : State) (i : Fin 3), (s.hw.act.drive i.val).state = .braking ∧ s.hw.turning i.val = false ∧ (s.hw.act.drive
      i.val).failing = true) ∧
    (∃ (s : State) (i : Fin 3), (s.hw.act.drive i.val).state = .braking ∧ s.hw.turning i.val = false ∧ (s.hw.act.drive
      i.val).failing = false) ∧
    (∃ (s : State) (i : Fin 3) (u : Nat) (v : Nat) (w : Nat), s.hw.mode.phase = .up ∧ s.hw.powered 10 = true ∧
      (s.hw.rappelHold i.val).switching ((s.hw.rappelHold i.val).act.drive i.val) = true ∧ (s.hw.act.drive
      i.val).vectors.map (fun a => a.code) = [4, 6] ∧ u ≤ s.hw.actPeriodTicks i.val ∧ v ≤ s.hw.actPeriodTicks i.val ∧ w
      ≤ s.hw.actPeriodTicks i.val) ∧
    (∃ (u : Nat) (v : Nat) (w : Nat), v < u ∧ w < v) :=
  ⟨⟨⟨[], tReady⟩, 8999, _, by decide +kernel, rfl⟩,
   ⟨⟨[], tReady⟩, 58000, _, by decide +kernel, by decide +kernel, rfl⟩,
   ⟨{ pending := [], hw := { tReady with act := { tReady.act with shift := { tReady.act.shift with missed := 4 } } } }, 0,
     by decide +kernel⟩,
   ⟨⟨[], { tReady with pos := { halls := [(0, { angles := [0x40000000, 0x40000000, 0x40000000] })] } }⟩, 0, 0, 0, 0, 0,
     100001, by decide +kernel, by decide +kernel, by decide +kernel, tAll _ _ (by decide +kernel)⟩,
   ⟨0, by decide +kernel⟩,
   ⟨{ pending := [], hw := { tReady with act := { tReady.act with shift := { tReady.act.shift with state := .braking, failing := true } }, time := { clock := 40000000 } } },
     0, by decide +kernel, by decide +kernel, by decide +kernel⟩,
   ⟨{ pending := [], hw := { tReady with act := { tReady.act with shift := { tReady.act.shift with state := .braking } }, time := { clock := 40000000 } } },
     0, by decide +kernel, by decide +kernel, by decide +kernel⟩,
   ⟨⟨[],
     { tMoving with act := { tMoving.act with shift := { tMoving.act.shift with vectors := [⟨4, 0, 480, 0, 0, 0⟩, ⟨6, 0, 480, 0, 0, 0⟩] } } }⟩,
     0, 0, 0, 0, by decide +kernel, by decide +kernel, by decide +kernel, by decide +kernel, by decide +kernel,
     by decide +kernel, by decide +kernel⟩,
   ⟨3, 2, 1, by decide +kernel, by decide +kernel⟩⟩

theorem test_meets_AccumulatorsRun :
    (∃ (s : State) (d : Desc) (h : Hw), s.hw.RunsTo 0x0301 d h ∧ accOk d = true ∧ h.mode.mode ≠ .baseCamp ∧ (h.acc (d.num 16
      1)).open' = false) ∧
    (∃ (s : State) (d : Desc) (h : Hw), s.hw.RunsTo 0x0301 d h ∧ accOk d = true ∧ h.mode.mode ≠ .baseCamp ∧ (h.acc (d.num 16
      1)).open' = true) ∧
    (∃ (s : State) (n : Fin 128) (l : List Sample) (since : List Sample) (inside : List Sample) (c : AccCfg) (w : Nat) (r :
      AccRecord), (s.hw.acc n.val).cfg = some c ∧ (s.hw.acc n.val).open' = true ∧ s.hw.senses = true ∧ since = l.filter
      (fun x => ((s.hw.acc n.val).openAt.toNat : Int) ≤ c.delayed x && s.hw.accumulates c x) ∧ s.hw.closesAt (s.hw.acc
      n.val) c since.length = some w ∧ inside = (if c.closure ≤ 2 then since.filter (fun x => c.delayed x < (w : Int))
      else since).take c.full ∧ r = s.hw.accRecord n.val (s.hw.acc n.val) c inside (BitVec.ofNat 64 w) ∧ r.count ≠ 0 ∧
      r.flags.getLsbD 1 = false) ∧
    (∃ (s : State) (i : Fin 96) (u : PairUse) (p0 : PairUse) (p1 : PairUse) (p2 : PairUse) (p3 : PairUse) (p : Nat), 40 ≤
      i.val ∧ s.hw.senses = true ∧ s.hw.urgentPair [p0, p1, p2, p3] = (p, u) ∧ s.hw.par 0x0306 < s.hw.urgentWait p) ∧
    (∃ (s : State) (i : Fin 96) (u : PairUse) (p0 : PairUse) (p1 : PairUse) (p2 : PairUse) (p3 : PairUse) (p : Nat) (h :
      Hw), 40 ≤ i.val ∧ s.hw.senses = true ∧ s.hw.urgentPair [p0, p1, p2, p3] = (p, u) ∧ s.hw.urgentWait p = 0 ∧
      s.hw.pairDown p false = false ∧ h = (s.hw.abortConversion u).burstFor i.val) ∧
    (∃ (s : State) (p : Fin 16) (o : Int) (g : Int), s.hw.senses = true ∧ s.hw.sen.halfRate.getLsbD p.val = false ∧ absI o ≤
      64 ∧ absI g ≤ 500) ∧
    (∃ (s : State) (p : Fin 16) (o : Int) (g : Int), s.hw.senses = true ∧ s.hw.sen.halfRate.getLsbD p.val = false ∧ (64 <
      absI o ∨ 500 < absI g)) :=
  ⟨⟨⟨[], tReady⟩, tSess 4 16 0x0100_0000_0000_0000_0000_0006_0428_70, tReady.begun (tSess 4 16
     0x0100_0000_0000_0000_0000_0006_0428_70), tRuns (by decide +kernel), by decide +kernel, by decide +kernel,
     by decide +kernel⟩,
   ⟨⟨[], tAcc⟩, tSess 4 16 0x0100_0000_0000_0000_0000_0006_0428_70, tAcc.begun (tSess 4 16
     0x0100_0000_0000_0000_0000_0006_0428_70), tRuns (by decide +kernel), by decide +kernel, by decide +kernel,
     by decide +kernel⟩,
   ⟨⟨[], tFlat⟩, 0, tSamples, tSamples, tSamples, tShot, 16000000000, _, by decide +kernel, by decide +kernel,
     by decide +kernel, by decide +kernel, by decide +kernel, by decide +kernel, rfl, by decide +kernel, tFlat_flags _⟩,
   ⟨⟨[],
     { tReady with sen := { tReady.sen with urgentBy := [(12, 40000001000), (13, 40000001000), (14, 40000001000), (15, 40000001000)] } }⟩,
     40, .idle, .idle, .idle, .idle, .idle, 12, by decide +kernel, by decide +kernel, by decide +kernel,
     by decide +kernel⟩,
   ⟨⟨[], { tReady with sen := { tReady.sen with raised := 0xFFFF } }⟩, 40, .idle, .idle, .idle, .idle, .idle, 12, _,
     by decide +kernel, by decide +kernel, by decide +kernel, by decide +kernel, by decide +kernel, rfl⟩,
   ⟨⟨[], tReady⟩, 3, 64, -500, by decide +kernel, by decide +kernel, by decide +kernel, by decide +kernel⟩,
   ⟨⟨[], tReady⟩, 3, 65, 0, by decide +kernel, by decide +kernel, by decide +kernel⟩⟩

theorem test_meets_CorrectionsAreTracked :
    (∃ (s : State) (b : Bridge), s.hw.tracks = true ∧ s.hw.par 0x0302 ≠ 0 ∧ s.hw.sen.offStartAt + s.hw.parTicks 0x0302 ≤
      s.hw.time.clock ∧ s.hw.sen.offNext = b) ∧
    (∃ (s : State) (b : Bridge) (u : List Int) (v : List Int) (w : List Int) (idc : List (Int × Bool)) (zero : List Int)
      (diff : Nat → List Int → Int) (h : Hw), s.hw.sen.offRun.getLsbD b.code = true ∧ s.hw.tracks = true ∧
      s.hw.offsetWindows b = true ∧ zero = (idc.filter (fun x => x.2 || (s.hw.ctl b.other).state == .openAll)).map (fun
      x => x.1) ∧ 256 ≤ u.length ∧ 256 ≤ v.length ∧ 256 ≤ w.length ∧ 256 ≤ zero.length ∧ (∀ ch l, diff ch l = offsetMean
      l - (syscalOf s.hw.syscalBody (if ch = 22 then 6 else ch)).2) ∧ h =
      ({ s.hw with sen := { s.hw.sen with offsetNext := ((offsetChannels b).zip [u, v, w, zero]).foldl (fun t p => Tab.set t p.1 (diff p.1 p.2)) s.hw.sen.offsetNext, offRun := s.hw.sen.offRun &&& ~~~ (1#2 <<< b.code) } }
      : Hw).stepTest 0x0301 b.code 1) ∧
    (∃ (s : State) (l : List GainWindow) (h : Hw), s.hw.par 0x0303 = 1 ∧ s.hw.mode.mode = .drive ∧ l.length = 10000 ∧
      s.hw.sen.fitAt + sTicks ≤ s.hw.time.clock ∧ h = (List.range 6).foldl (fun x k => if s.hw.gainUsed l k then
      x.trackGain k (s.hw.gainAsked l k) else x) s.hw) ∧
    (∃ (h : Hw) (leg : Nat), h.sen.gainHeld.getLsbD leg = false ∧ leg < 6) ∧
    (∃ (s : State) (c : Cal), s.hw.sen.cal = some c ∧ c.waiting = false ∧ c.point = 1 ∧ heldFor c.linkAt calTicks
      s.hw.time.clock = true) ∧
    (∃ (s : State) (c : Cal), s.hw.sen.cal = some c ∧ c.waiting = false ∧ c.point ≠ 1 ∧ s.hw.calDue c = true) ∧
    (∃ (s : State) (d : Desc) (h : Hw) (c : Cal), s.hw.RunsTo 0x0304 d h ∧ h.mode.mode ≠ .baseCamp ∧ h.sen.cal = some c ∧
      c.waiting = true ∧ d.num 16 2 = c.point ∧ c.point < 8) ∧
    (∃ (s : State) (c : Cal), s.hw.sen.cal = some c ∧ c.waiting = true ∧ c.since + 600 * sTicks ≤ s.hw.time.clock) ∧
    (∃ (s : State), s.hw.senses = true ∧ s.hw.sen.refFailed = true) ∧
    (∃ (s : State), s.hw.senses = true) ∧
    (∃ (h : Hw) (leg : Nat), h.sen.gainHeld.getLsbD leg = true) :=
  ⟨⟨⟨[], { tReady with time := { clock := 40000000000000 } }⟩, .brA, by decide +kernel, by decide +kernel,
     by decide +kernel, by decide +kernel⟩,
   ⟨⟨[], { tReady with sen := { tReady.sen with offRun := 1 } }⟩, .brA, List.replicate 256 0, List.replicate 256 0,
     List.replicate 256 0, List.replicate 256 (0, true), _, _, _, by decide +kernel, by decide +kernel,
     by decide +kernel, rfl, by decide +kernel, by decide +kernel, by decide +kernel, by decide +kernel, fun _ _ => rfl,
     rfl⟩,
   ⟨⟨[], tDrive⟩, List.replicate 10000 ⟨[], 0, 0⟩, _, by decide +kernel, by decide +kernel, List.length_replicate,
     by decide +kernel, rfl⟩,
   ⟨tReady, 0, by decide +kernel, by decide +kernel⟩,
   ⟨⟨[], { tWork with sen := { cal := some (tSteady 1) } }⟩, tSteady 1, by decide +kernel, by decide +kernel,
     by decide +kernel, by decide +kernel⟩,
   ⟨⟨[], { tWork with sen := { cal := some (tCalRun false 3) }, ctlA := { stillAt := some 39920000000 } }⟩, tCalRun false
     3, by decide +kernel, by decide +kernel, by decide +kernel, by decide +kernel⟩,
   ⟨⟨[], tCal true 2⟩, tSess 5 8 2, (tCal true 2).begun (tSess 5 8 2), tCalRun true 2, tRuns (by decide +kernel),
     by decide +kernel, by decide +kernel, by decide +kernel, by decide +kernel, by decide +kernel⟩,
   ⟨{ pending := [], hw := { tCal true 2 with time := { clock := 4000000000000 } } }, tCalRun true 2, by decide +kernel,
     by decide +kernel, by decide +kernel⟩,
   ⟨⟨[], { tReady with sen := { tReady.sen with refFailed := true } }⟩, by decide +kernel, by decide +kernel⟩,
   ⟨⟨[], tReady⟩, by decide +kernel⟩,
   ⟨{ tReady with sen := { tReady.sen with gainHeld := 4 } }, 2, by decide +kernel⟩⟩

theorem test_meets_MonitorsWatch :
    (∃ (s : State) (d : Desc) (h : Hw), s.hw.RunsTo 0x0302 d h ∧ monOk d = true ∧ h.mode.mode ≠ .baseCamp) ∧
    (∃ (s : State) (d : Desc) (h : Hw), s.hw.RunsTo 0x0303 d h ∧ d.num 16 1 ≤ 51 ∧ h.mode.mode ≠ .baseCamp) ∧
    (∃ (s : State) (n : Fin 52) (x : Int), n.val < 48 ∧ (s.hw.mon n.val).mode ≠ 0 ∧ (s.hw.mon n.val).dead = false ∧
      s.hw.senses = true ∧ (s.hw.mon n.val).crosses x (s.hw.mon n.val).present = true ∧ (s.hw.mon n.val).flag = false) ∧
    (∃ (s : State) (n : Fin 52) (x : Int), n.val < 48 ∧ (s.hw.mon n.val).mode ≠ 0 ∧ (s.hw.mon n.val).dead = false ∧
      s.hw.senses = true ∧ (s.hw.mon n.val).crosses x (s.hw.mon n.val).present = false) ∧
    (∃ (h : Hw) (n : Nat), (h.mon n).routes = 6) ∧
    (∃ (h : Hw) (n : Nat), (h.mon n).routes = 1) ∧
    (∃ (s : State) (n : Fin 52) (x : Int), n.val = 48 ∧ s.hw.wakeCrosses 48 x true = false) ∧
    (∃ (s : State) (n : Fin 52), n.val < 48 ∧ (s.hw.mon n.val).mode ≠ 0 ∧ (s.hw.mon n.val).dead = false ∧ s.hw.senses = true
      ∧ 0 < s.hw.sen.spares.getD (monBlock n.val) 0) ∧
    (∃ (n : Fin 52), n.val < 48) ∧
    (∃ (s : State) (n : Fin 52), n.val < 48 ∧ (s.hw.mon n.val).mode ≠ 0 ∧ (s.hw.mon n.val).dead = false ∧ s.hw.senses = true
      ∧ s.hw.sen.spares.getD (monBlock n.val) 0 = 0) :=
  ⟨⟨⟨[], tReady⟩, tSess 4 16 0x0064_01_01_282C, tReady.begun (tSess 4 16 0x0064_01_01_282C), tRuns (by decide +kernel),
     by decide +kernel, by decide +kernel⟩,
   ⟨⟨[], tReady⟩, tSess 4 1 44, tReady.begun (tSess 4 1 44), tRuns (by decide +kernel), by decide +kernel,
     by decide +kernel⟩,
   ⟨⟨[], { tReady with sen := { tReady.sen with mons := [(3, tMon)] } }⟩, 3, -26367, by decide +kernel, by decide +kernel,
     by decide +kernel, by decide +kernel, by decide +kernel, by decide +kernel⟩,
   ⟨⟨[], { tReady with sen := { tReady.sen with mons := [(3, tMon)] } }⟩, 3, -26368, by decide +kernel, by decide +kernel,
     by decide +kernel, by decide +kernel, by decide +kernel⟩,
   ⟨{ tReady with sen := { tReady.sen with mons := [(3, { tMon with routes := 6 })] } }, 3, by decide +kernel⟩,
   ⟨{ tReady with sen := { tReady.sen with mons := [(3, { tMon with routes := 1 })] } }, 3, by decide +kernel⟩,
   ⟨⟨[], tReady⟩, 48, 32767, by decide +kernel, by decide +kernel⟩,
   ⟨⟨[], { tReady with sen := { tReady.sen with mons := [(3, tMon)], spares := [1, 1, 1] } }⟩, 3, by decide +kernel,
     by decide +kernel, by decide +kernel, by decide +kernel, by decide +kernel⟩,
   ⟨47, by decide +kernel⟩,
   ⟨⟨[], { tReady with sen := { tReady.sen with mons := [(3, tMon)], spares := [0, 0, 0] } }⟩, 3, by decide +kernel,
     by decide +kernel, by decide +kernel, by decide +kernel, by decide +kernel⟩⟩

theorem test_meets_TestsRunAndEnd :
    (∃ (s : State) (d : Desc) (h : Hw), s.hw.RunsTo 0x0202 d h ∧ h.testCheck d = none) ∧
    (∃ (s : State) (id : W16) (inst : Byte) (t : TestRun), s.hw.findTest id.toNat (testKey id.toNat inst.toNat) = some t ∧
      ownEnd.contains id.toNat = false ∧ id.toNat ≠ 0x0606 ∧ id.toNat ≠ 0x0703) ∧
    (∃ (s : State) (t : TestRun), s.hw.findTest 0x0603 0 = some t ∧ t.running = true ∧ t.inst ≠ 0xFF) ∧
    (∃ (s : State) (t : TestRun), s.hw.findTest 0x0603 0 = some t ∧ t.running = false ∧ t.inst ≠ 0xFF) ∧
    (∃ (s : State) (inst : Byte) (t : TestRun) (b : Bridge), b = instBridge inst.toNat ∧ s.hw.magnetWindow b = true ∧
      s.hw.findTest 0x0502 inst.toNat = some t ∧ t.windows.length < 8) ∧
    (∃ (s : State) (t : TestRun), s.hw.tests.find? (fun t => t.id.toNat == 0x0602 && (t.inst.toNat == 0 || t.covers 0x0602
      0)) = some t ∧ t.cls = 1 ∧ t.inst ≠ 0xFF ∧ t.deadline ≤ s.hw.time.clock) ∧
    (∃ (s : State) (b : Bridge), s.hw.offstateDue b = true ∧ (∀ x, (s.hw.modGate b (fun g =>
      { g with offRunning := false, offPassed := true })).findTest 0x0601 x = none)) ∧
    (∃ (s : State) (b : Bridge) (f : OffstateFinding) (fs : List OffstateFinding), s.hw.offstateDue b = true ∧ (f :: fs).all
      (fun x => findingOn x b) = true) ∧
    (∃ (s : State) (t : TestRun) (l : List (Nat × Nat)), s.hw.findTest 0x0A02 0 = some t ∧ t.count = 1 ∧ s.hw.gateA.ascArm =
      false ∧ s.hw.gateB.ascArm = false ∧ seriesOpened l = true) ∧
    (∃ (s : State) (t : TestRun) (l : List (Nat × Nat)), s.hw.findTest 0x0A02 0 = some t ∧ t.count = 0 ∧ s.hw.gateA.ascArm =
      false ∧ s.hw.gateB.ascArm = false ∧ seriesOpened l = true) ∧
    (∃ (s : State) (t : TestRun) (b : Bool) (l : List (Nat × Nat)), s.hw.findTest 0x0A02 0 = some t ∧ t.count = (if b then 1
      else 0) ∧ s.hw.gateA.ascArm = false ∧ s.hw.gateB.ascArm = false ∧ seriesOpened l = false) :=
  ⟨⟨{ pending := [], hw := tReady }, tSess 4 8 0x0000_0302, tReady.begun (tSess 4 8 0x0000_0302), tRuns
     (by decide +kernel), by decide +kernel⟩,
   ⟨⟨[], tTest 0x0603 true⟩, 0x0603, 0, tRun 0x0603 true, by decide +kernel, by decide +kernel, by decide +kernel,
     by decide +kernel⟩,
   ⟨⟨[], tTest 0x0603 true⟩, tRun 0x0603 true, by decide +kernel, by decide +kernel, by decide +kernel⟩,
   ⟨⟨[], tTest 0x0603 false⟩, tRun 0x0603 false, by decide +kernel, by decide +kernel, by decide +kernel⟩,
   ⟨⟨[],
     { tTorque with ctlA := { tTorque.ctlA with lowAt := some 39992000000, speed := 100000, magCold := true, magTemp := some 2000 }, tests := [tRun 0x0502 false] }⟩,
     0, tRun 0x0502 false, .brA, rfl, by decide +kernel, by decide +kernel, by decide +kernel⟩,
   ⟨⟨[], tTest 0x0602 false⟩, tRun 0x0602 false, by decide +kernel, by decide +kernel, by decide +kernel,
     by decide +kernel⟩,
   ⟨⟨[], { tReady with gateB := { offRunning := true } }⟩, .brB, by decide +kernel, fun _ => rfl⟩,
   ⟨{ pending := [], hw := { tReady with gateB := { offRunning := true } } }, .brB, .switchShorted 6, [.switchOpen 9],
     by decide +kernel, by decide +kernel⟩,
   ⟨⟨[], tStoTest 1⟩, { tRun 0x0A02 true with count := 1 }, tRails, by decide +kernel, by decide +kernel,
     by decide +kernel, by decide +kernel, by decide +kernel⟩,
   ⟨⟨[], tStoTest 0⟩, tRun 0x0A02 true, tRails, by decide +kernel, by decide +kernel, by decide +kernel, by decide +kernel,
     by decide +kernel⟩,
   ⟨⟨[], tStoTest 0⟩, tRun 0x0A02 true, false, [(800001, 0), (0, 0), (0, 0), (0, 0)], by decide +kernel, by decide +kernel,
     by decide +kernel, by decide +kernel, by decide +kernel⟩⟩

theorem test_meets_PositionsAreRead :
    (∃ (s : State) (r : Fin 2) (x : PeakSlots) (y : PeakSlots) (a : Int) (b : Int) (c : Int) (d : Int) (h : Hw),
      s.hw.posRuns = true ∧ (s.hw.res r.val).periods < 63 ∧ h = (s.hw.slotPeak r.val 0 x).slotPeak r.val 1 y ∧ h.slotSum
      (80 + 6 * r.val) x.sin = some a ∧ h.slotSum (80 + 6 * r.val + 1) y.sin = some b ∧ h.slotSum (80 + 6 * r.val + 2)
      x.cos = some c ∧ h.slotSum (80 + 6 * r.val + 3) y.cos = some d) ∧
    (∃ (s : State) (d : Desc) (h : Hw), s.hw.RunsTo 0x0401 d h ∧ d.num 16 1 ≤ 1 ∧ h.mode.mode ≠ .baseCamp) ∧
    (∃ (s : State) (d : Desc) (h : Hw), s.hw.RunsTo 0x0402 d h ∧ h.harmCheck d false = none ∧ h.mode.mode ≠ .baseCamp ∧
      (h.servedBy (0x10 + d.num 16 1)).isSome = true) ∧
    (∃ (s : State) (n : Fin 2) (x : Bool) (y : Bool) (d : Int) (k : Nat), s.hw.posRuns = true ∧ encStable (s.hw.par (0x0411
      + n.val)) k = true ∧ s.hw.par (0x0411 + n.val) % 4 ≠ 0 ∧ quadStep (s.hw.enc n.val).a (s.hw.enc n.val).b x y = some
      d ∧ d ≠ 0) ∧
    (∃ (s : State) (n : Fin 2) (k : Nat), s.hw.posRuns = true ∧ encStable (s.hw.par (0x0411 + n.val)) k = true ∧ s.hw.par
      (0x0411 + n.val) % 4 ≠ 0 ∧ s.hw.par (0x0411 + n.val) / 16 % 2 = 1 ∧ (s.hw.enc n.val).armed = true) ∧
    (∃ (s : State) (n : Fin 2), s.hw.posRuns = true ∧ s.hw.par (0x0411 + n.val) % 4 ≠ 0 ∧ 400 * s.hw.par (0x0413 + n.val) ≤
      (s.hw.time.now - (s.hw.enc n.val).windowAt).toNat) ∧
    (∃ (s : State) (k : Fin 3) (st : Fin 8) (n : Nat), s.hw.posRuns = true ∧ 32 * (s.hw.par (0x0415 + k.val) % 256) ≤ n ∧
      (st.val = 0 ∨ st.val = 7)) ∧
    (∃ (s : State) (k : Fin 3) (st : Fin 8) (n : Nat) (old : Nat) (new : Nat), s.hw.posRuns = true ∧ 32 * (s.hw.par (0x0415
      + k.val) % 256) ≤ n ∧ hallPlace st.val = some new ∧ hallPlace (s.hw.pos.halls.get k.val {}).st = some old ∧ (new +
      6 - old) % 6 = 1) ∧
    (∃ (s : State) (ch : Fin 4) (sync : Nat) (l : List Nat) (n : List Nat) (crc : Nat) (p : Option Nat), s.hw.posRuns = true
      ∧ 2688 ≤ sync ∧ sync ≤ 4480 ∧ sentOk (s.hw.par (0x0418 + ch.val)) sync (s.hw.pos.sent.get ch.val {}).sync l n crc
      p.isSome = false) ∧
    (∃ (s : State) (ch : Fin 4) (sync : Nat) (l : List Nat) (n : List Nat) (crc : Nat) (p : Option Nat) (cfg : Nat) (y :
      SentCh), s.hw.posRuns = true ∧ 2688 ≤ sync ∧ sync ≤ 4480 ∧ cfg = s.hw.par (0x0418 + ch.val) ∧ sentOk cfg sync
      (s.hw.pos.sent.get ch.val {}).sync l n crc p.isSome = true ∧ y =
      { s.hw.pos.sent.get ch.val {} with sync := some sync, status := n.headD 0, value := nibbleValue (n.drop 1), valid := true, acceptedAt := s.hw.time.clock, at' := s.hw.time.now - BitVec.ofNat 64 (sentTicks cfg sync l (p.getD 0)) }) ∧
    (∃ (s : State) (ch : Fin 4), s.hw.posRuns = true ∧ (s.hw.pos.sent.get ch.val {}).acceptedAt + s.hw.parTicks (0x041C +
      ch.val) ≤ s.hw.time.clock) :=
  ⟨⟨⟨[], tReady⟩, 0, tPeak, tPeak, _, _, _, _, _, by decide +kernel, by decide +kernel, rfl, tGot _ 0 (by decide +kernel),
     tGot _ 0 (by decide +kernel), tGot _ 0 (by decide +kernel), tGot _ 0 (by decide +kernel)⟩,
   ⟨⟨[], tReady⟩, tSess 4 1 1, tReady.begun (tSess 4 1 1), tRuns (by decide +kernel), by decide +kernel, by decide +kernel⟩,
   ⟨⟨[], tReady⟩, tSess 4 36 0x0100, tReady.begun (tSess 4 36 0x0100), tRuns (by decide +kernel), by decide +kernel,
     by decide +kernel, by decide +kernel⟩,
   ⟨⟨[], tEnc⟩, 0, true, false, 1, 1, by decide +kernel, by decide +kernel, by decide +kernel, by decide +kernel,
     by decide +kernel⟩,
   ⟨⟨[], tEncArmed⟩, 0, 1, by decide +kernel, by decide +kernel, by decide +kernel, by decide +kernel, by decide +kernel⟩,
   ⟨⟨[], tEnc⟩, 0, by decide +kernel, by decide +kernel, by decide +kernel⟩,
   ⟨⟨[], tReady⟩, 0, 7, 100000, by decide +kernel, by decide +kernel, by decide +kernel⟩,
   ⟨⟨[], { tReady with pos := { halls := [(0, { st := 5 })] } }⟩, 0, 1, 100000, 5, 0, by decide +kernel, by decide +kernel,
     by decide +kernel, by decide +kernel, by decide +kernel⟩,
   ⟨⟨[], tReady⟩, 0, 2688, [], [], 0, none, by decide +kernel, by decide +kernel, by decide +kernel, by decide +kernel⟩,
   ⟨⟨[], tReady⟩, 0, 3584, [12, 12, 12, 12, 12, 12, 12, 12], [0, 0, 0, 0, 0, 0, 0], 5, none, _, _, by decide +kernel,
     by decide +kernel, by decide +kernel, rfl, by decide +kernel, rfl⟩,
   ⟨{ pending := [], hw := { tReady with time := { clock := 400000000000000 } } }, 2, by decide +kernel, by decide +kernel⟩⟩

theorem test_meets_SafetySetIsConfirmed :
    (∃ (s : State) (d : Desc) (h : Hw), s.hw.RunsTo 0x0A01 d h) ∧
    (∃ (s : State) (d : Desc) (h : Hw), s.hw.RunsTo 0x0A02 d h ∧ h.mode.mode = .workshop ∧ d.num 16 1 = 0 ∧ (checkValue
      (h.saf.pending.getD h.activeSet)).toNat = d.num 20 4) ∧
    (∃ (s : State) (d : Desc) (h : Hw), s.hw.RunsTo 0x0A02 d h ∧ h.mode.mode = .workshop ∧ d.num 16 1 = 1 ∧ (checkValue
      (h.saf.pending.getD h.activeSet)).toNat = d.num 20 4) ∧
    (∃ (s : State) (d : Desc) (h : Hw), s.hw.RunsTo 0x0A02 d h ∧ h.mode.mode = .workshop ∧ d.num 16 1 ≤ 1 ∧ (checkValue
      (h.saf.pending.getD h.activeSet)).toNat ≠ d.num 20 4) :=
  ⟨⟨{ pending := [], hw := tReady }, tSess 4 0 0, tReady.begun (tSess 4 0 0), tRuns (by decide +kernel)⟩,
   ⟨{ pending := [], hw := tWork }, tConfirm 0, tWork.begun (tConfirm 0), tRuns (by decide +kernel), by decide +kernel,
     by decide +kernel, by simp only [checkValue, tCrc]; decide +kernel⟩,
   ⟨{ pending := [], hw := tWork }, tConfirm 1, tWork.begun (tConfirm 1), tRuns (by decide +kernel), by decide +kernel,
     by decide +kernel, by simp only [checkValue, tCrc]; decide +kernel⟩,
   ⟨{ pending := [], hw := tWork }, tSess 5 8 0, tWork.begun (tSess 5 8 0), tRuns (by decide +kernel), by decide +kernel,
     by decide +kernel, by simp only [checkValue, tCrc]; decide +kernel⟩⟩

theorem test_meets_ProtectionActs :
    (∃ (s : State), s.hw.awake = true) ∧
    (∃ (s : State) (f : Nat) (n : Nat) (l : List Nat), s.hw.awake = true ∧ (l ≠ [f] ∨ 10 < n)) ∧
    (∃ (s : State) (n : Nat), s.hw.awake = true ∧ n ≤ 10) ∧
    (∃ (s : State), s.hw.awake = true) ∧
    (∃ (s : State), s.hw.awake = true) ∧
    (∃ (s : State), s.hw.awake = true ∧ s.hw.saf.noMajority = false) ∧
    (∃ (s : State) (c : Fin 3), s.hw.awake = true ∧ s.hw.saf.noMajority = false ∧ s.hw.saf.coresOut ||| s.hw.splitCore = 0 ∧
      (List.range 3).any (fun k => k != c.val && (s.hw.saf.resync.get k []).any (fun t => s.hw.time.clock < t + 40 *
      usTicks)) = false ∧ s.hw.saf.resync.get c.val [] = []) ∧
    (∃ (s : State), s.hw.saf.noMajority = true ∧ s.hw.pwr.senseLost = false ∧ s.hw.pwr.clocksLost = []) ∧
    (∃ (l : List Bool), false ∈ l) ∧
    (∃ (s : State), s.hw.awake = true) ∧
    (∃ (s : State) (c : ClockLoss), s.hw.awake = true ∧ s.hw.pwr.clocksLost.contains c = true ∧ s.hw.pwr.clocksLost.filter
      (fun x => x != c) = [] ∧ s.hw.pwr.senseLost = false ∧ s.hw.saf.noMajority = false) ∧
    (∃ (s : State), s.hw.awake = true) ∧
    (∃ (s : State), s.hw.awake = true) ∧
    (∃ (s : State), s.hw.awake = true ∧ s.hw.pwr.senseLost = true) ∧
    (∃ (s : State) (second : Bool) (before : Int) (during : Int), s.hw.mode.phase = .up ∧ (if second then s.hw.saf.so2 else
      s.hw.saf.so1) = false ∧ before ≤ 2000 ∧ 200 ≤ during ∧ during ≤ 5000) ∧
    (∃ (s : State) (second : Bool) (before : Int), s.hw.mode.phase = .up ∧ (if second then s.hw.saf.so2 else s.hw.saf.so1) =
      false ∧ 2000 < before ∧ s.hw.faultActive fltSoShort.code (if second then 2 else 1) = false) ∧
    (∃ (s : State), s.hw.mode.phase = .up ∧ s.hw.saf.so1 = true ∧ s.hw.saf.so1Low = false) ∧
    (∃ (s : State) (n : Nat), s.hw.awake = true ∧ (n < 500 * usTicks ∨ 1500 * usTicks < n)) ∧
    (∃ (n : Nat), 500 * usTicks ≤ n ∧ n ≤ 1500 * usTicks) :=
  ⟨⟨{ pending := [], hw := tDrive }, by decide +kernel⟩,
   ⟨⟨[], tReady⟩, 3, 11, [3], by decide +kernel, by decide +kernel⟩,
   ⟨⟨[], tReady⟩, 10, by decide +kernel, by decide +kernel⟩,
   ⟨{ pending := [], hw := tDrive }, by decide +kernel⟩,
   ⟨{ pending := [], hw := tDrive }, by decide +kernel⟩,
   ⟨{ pending := [], hw := tDrive }, by decide +kernel, by decide +kernel⟩,
   ⟨{ pending := [], hw := tDrive }, 2, by decide +kernel, by decide +kernel, by decide +kernel, by decide +kernel,
     by decide +kernel⟩,
   ⟨{ pending := [], hw := { tReady with saf := { tReady.saf with noMajority := true } } }, by decide +kernel,
     by decide +kernel, by decide +kernel⟩,
   ⟨[true, false, true], by decide +kernel⟩,
   ⟨{ pending := [], hw := tDrive }, by decide +kernel⟩,
   ⟨{ pending := [], hw := { tDrive with pwr := { tDrive.pwr with clocksLost := [.ck2] } } }, .ck2, by decide +kernel,
     by decide +kernel, by decide +kernel, by decide +kernel, by decide +kernel⟩,
   ⟨{ pending := [], hw := tDrive }, by decide +kernel⟩,
   ⟨{ pending := [], hw := tDrive }, by decide +kernel⟩,
   ⟨{ pending := [], hw := { tDrive with pwr := { tDrive.pwr with senseLost := true } } }, by decide +kernel,
     by decide +kernel⟩,
   ⟨⟨[], tReady⟩, true, 2000, 5000, by decide +kernel, by decide +kernel, by decide +kernel, by decide +kernel,
     by decide +kernel⟩,
   ⟨⟨[], tReady⟩, false, 2001, by decide +kernel, by decide +kernel, by decide +kernel, by decide +kernel⟩,
   ⟨⟨[], { tReady with saf := { tReady.saf with so1 := true } }⟩, by decide +kernel, by decide +kernel, by decide +kernel⟩,
   ⟨⟨[], tReady⟩, 199999, by decide +kernel, by decide +kernel⟩,
   ⟨600000, by decide +kernel, by decide +kernel⟩⟩

theorem test_meets_SafeTorqueOffActs :
    (∃ (s : State) (mv : Int) (n : Nat), s.hw.pwr.stoA = true ∧ s.hw.mode.phase = .up ∧ mv < 3000 ∧ s.hw.stoActs false n =
      true) ∧
    (∃ (s : State) (mv : Int) (n : Nat), s.hw.pwr.stoB = true ∧ s.hw.mode.phase = .up ∧ mv < 3000 ∧ s.hw.stoActs true n =
      true) ∧
    (∃ (s : State) (chB : Bool) (mv : Int) (ua : Int), (if chB then s.hw.pwr.stoB else s.hw.pwr.stoA) = false ∧ 7000 ≤ mv ∧
      mv ≤ 36000 ∧ 2000 ≤ ua ∧ ua ≤ 4000) ∧
    (∃ (s : State) (c : Nat) (t : Nat), s.hw.saf.stoWatch = some (c, t) ∧ s.hw.mode.phase = .up ∧ t + s.hw.parTicks 0x0A01 ≤
      s.hw.time.clock) ∧
    (∃ (h : Hw) (chB : Bool), (if chB then h.pwr.stoA else h.pwr.stoB) = true ∧ h.saf.bothOpenSeen = true ∧ apart (h.setSto
      chB true).pwr.stoAAt (h.setSto chB true).pwr.stoBAt ≤ h.parTicks 0x0A01) :=
  ⟨⟨⟨[], tDrive⟩, 2999, 400001, by decide +kernel, by decide +kernel, by decide +kernel, by decide +kernel⟩,
   ⟨⟨[], tDrive⟩, 2999, 400001, by decide +kernel, by decide +kernel, by decide +kernel, by decide +kernel⟩,
   ⟨⟨[], { tReady with pwr := { tReady.pwr with stoA := false } }⟩, false, 7000, 2000, by decide +kernel,
     by decide +kernel, by decide +kernel, by decide +kernel, by decide +kernel⟩,
   ⟨{ pending := [], hw := { tReady with saf := { tReady.saf with stoWatch := some (0, 0) }, time := { clock := 400000000000 } } },
     0, 0, by decide +kernel, by decide +kernel, by decide +kernel⟩,
   ⟨{ tReady with pwr := { tReady.pwr with stoA := false, stoBAt := 40000000000 }, saf := { tReady.saf with bothOpenSeen := true } },
     false, by decide +kernel, by decide +kernel, by decide +kernel⟩⟩

theorem test_meets_DischargeRuns :
    (∃ (s : State) (d : Desc) (h : Hw), s.hw.RunsTo 0x0A03 d h ∧ h.mode.mode = .ready) ∧
    (∃ (s : State), s.hw.dischargeWanted = true ∧ s.hw.saf.dischargeOn = false ∧ s.hw.saf.retryAt = none ∧ s.hw.mode.phase =
      .up ∧ s.hw.hvSafe = false ∧ s.hw.chg.active = false ∧ s.hw.lv.active = false ∧ s.hw.lv.state ≠ .waiting ∧
      s.hw.bothOpen = true ∧ s.hw.anyActive [fltDischargeFail.code] = false) ∧
    (∃ (s : State) (v : Int), s.hw.saf.dischargeOn = true ∧ s.hw.saf.dischargeAt + 200 * msTicks ≤ s.hw.time.clock ∧ 9 *
      s.hw.saf.dischargeFrom ≤ 10 * v) ∧
    (∃ (s : State) (t : Nat), s.hw.saf.retryAt = some t ∧ t ≤ s.hw.time.clock) ∧
    (∃ (s : State) (ma : Int), s.hw.saf.dischargeOn = true ∧ s.hw.saf.dischargeAt + 5 * msTicks ≤ s.hw.time.clock ∧ ma ≤ 0) ∧
    (∃ (s : State) (v : Int), s.hw.mode.phase = .up ∧ s.hw.pwr.onP11 = false ∧ s.hw.saf.dischargeOn = true ∧ v ≤ 60000) ∧
    (∃ (s : State) (ua : Int) (n : Nat), s.hw.mode.phase = .up ∧ 10 * msTicks ≤ n ∧ hvilState (s.hw.par 0x0A0A) ua = 0) ∧
    (∃ (s : State) (ua : Int) (n : Nat), s.hw.mode.phase = .up ∧ 10 * msTicks ≤ n ∧ hvilState (s.hw.par 0x0A0A) ua = 2) ∧
    (∃ (s : State) (ua : Int) (n : Nat), s.hw.mode.phase = .up ∧ 10 * msTicks ≤ n ∧ hvilState (s.hw.par 0x0A0A) ua = 1) :=
  ⟨⟨{ pending := [], hw := tReady }, tSess 4 0 0, tReady.begun (tSess 4 0 0), tRuns (by decide +kernel), by decide +kernel⟩,
   ⟨⟨[], { tReady with saf := { tReady.saf with dischargeReqs := [tCommitReq] } }⟩, by decide +kernel, by decide +kernel,
     by decide +kernel, by decide +kernel, by decide +kernel, by decide +kernel, by decide +kernel, by decide +kernel,
     by decide +kernel, by decide +kernel⟩,
   ⟨{ pending := [], hw := { tReady with saf := { tReady.saf with dischargeOn := true, dischargeFrom := 400000 }, time := { clock := 80000000 } } },
     360000, by decide +kernel, by decide +kernel, by decide +kernel⟩,
   ⟨{ pending := [], hw := { tReady with saf := { tReady.saf with retryAt := some 0 } } }, 0, by decide +kernel,
     by decide +kernel⟩,
   ⟨⟨[], { tReady with saf := { tReady.saf with dischargeOn := true }, time := { clock := 2000000 } }⟩, 0,
     by decide +kernel, by decide +kernel, by decide +kernel⟩,
   ⟨{ pending := [], hw := { tReady with saf := { tReady.saf with dischargeOn := true } } }, 60000, by decide +kernel,
     by decide +kernel, by decide +kernel, by decide +kernel⟩,
   ⟨⟨[], tReady⟩, 8000, 4000000, by decide +kernel, by decide +kernel, by decide +kernel⟩,
   ⟨⟨[], tHvil⟩, 26001, 4000000, by decide +kernel, by decide +kernel, by decide +kernel⟩,
   ⟨⟨[], tHvil⟩, 0, 4000000, by decide +kernel, by decide +kernel, by decide +kernel⟩⟩

theorem test_meets_DebuggerIsServed :
    (∃ (s : State), s.hw.awake = true ∧ s.hw.saf.dbgAttached = false ∧ s.hw.roped = false) ∧
    (∃ (s : State), s.hw.saf.dbgAttached = true ∧ (s.hw.otp.active.find 6).isSome = true) ∧
    (∃ (s : State), s.hw.saf.dbgAttached = true ∧ s.hw.saf.dbgAuth = false) ∧
    (∃ (s : State) (a : DebugAddr) (x : W32), s.hw.saf.dbgAttached = true ∧ s.hw.saf.dbgAuth = true ∧ s.hw.saf.dbgMem.find
      a.toNat = some x) ∧
    (∃ (s : State), s.hw.debugMay = true) ∧
    (∃ (s : State), s.hw.debugMay = true ∧ s.hw.saf.dbgHalted = true) ∧
    (∃ (s : State), s.hw.debugMay = true) ∧
    (∃ (s : State), s.hw.saf.dbgAttached = true ∧ s.hw.saf.dbgHalted = false) :=
  ⟨⟨{ pending := [], hw := tReady }, by decide +kernel, by decide +kernel, by decide +kernel⟩,
   ⟨{ pending := [], hw := tDebug }, by decide +kernel, by decide +kernel⟩,
   ⟨{ pending := [], hw := { tDebug with saf := { tDebug.saf with dbgAuth := false } } }, by decide +kernel,
     by decide +kernel⟩,
   ⟨{ pending := [], hw := { tDebug with saf := { tDebug.saf with dbgMem := [(4, 7)] } } }, 4, 7, by decide +kernel,
     by decide +kernel, by decide +kernel⟩,
   ⟨{ pending := [], hw := tDebug }, by decide +kernel⟩,
   ⟨{ pending := [], hw := { tDebug with saf := { tDebug.saf with dbgHalted := true } } }, by decide +kernel,
     by decide +kernel⟩,
   ⟨{ pending := [], hw := tDebug }, by decide +kernel⟩,
   ⟨{ pending := [], hw := tDebug }, by decide +kernel, by decide +kernel⟩⟩

theorem test_meets_ChargingIsSetUp :
    (∃ (s : State) (d : Desc) (h : Hw) (f : ChgFn), s.hw.RunsTo 0x0801 d h ∧ h.mode.mode = .ready ∧ (h.roped &&
      !h.pair.holder) = false ∧ ChgFn.ofCode (d.num 16 1) = some f ∧ 0 ≤ d.int 20 4 ∧ h.chg.state ≠ .suspended) ∧
    (∃ (s : State) (d : Desc) (h : Hw), s.hw.RunsTo 0x0802 d h ∧ h.mode.mode ≠ .baseCamp ∧ d.num 16 1 ≤ 1 ∧ 1 ≤ d.num 17 1 ∧
      d.num 17 1 ≤ 5 ∧ profOk h.otp.ident.is48 (d.num 16 1) (d.num 17 1) (d.int 20 4) (d.int 24 4) (d.num 28 4) = true) ∧
    (∃ (s : State) (d : Desc) (h : Hw), s.hw.RunsTo 0x0802 d h ∧ (1 < d.num 16 1 ∨ d.num 17 1 = 0 ∨ 5 < d.num 17 1 ∨ profOk
      h.otp.ident.is48 (d.num 16 1) (d.num 17 1) (d.int 20 4) (d.int 24 4) (d.num 28 4) = false)) ∧
    (∃ (s : State) (d : Desc) (h : Hw), s.hw.RunsTo 0x0803 (d.withByte16 4) h ∧ h.mode.mode ≠ .baseCamp ∧ h.chgFn = .ac ∧ 0
      ≤ d.int 20 4 ∧ d.int 20 4 ≤ (h.rating .ac).1 ∧ d.num 20 4 ≠ 0xFFFFFFFF ∧ d.num 24 4 = 0xFFFFFFFF ∧ d.int 28 4 = 0) ∧
    (∃ (s : State) (d : Desc) (h : Hw), s.hw.RunsTo 0x0804 d h ∧ d.num 16 1 = 0) :=
  ⟨⟨{ pending := [], hw := tReady }, tSetup, tReady.begun tSetup, .ac, tRuns (by decide +kernel), by decide +kernel,
     by decide +kernel, by decide +kernel, by decide +kernel, by decide +kernel⟩,
   ⟨{ pending := [], hw := tReady }, tProfile, tReady.begun tProfile, tRuns (by decide +kernel), by decide +kernel,
     by decide +kernel, by decide +kernel, by decide +kernel, by decide +kernel⟩,
   ⟨⟨[], tReady⟩, tSess 4 16 0, tReady.begun (tSess 4 16 0), tRuns (by decide +kernel), by decide +kernel⟩,
   ⟨{ pending := [], hw := tCharge }, tLimits, tCharge.begun (tLimits.withByte16 4), tRuns (by decide +kernel),
     by decide +kernel, by decide +kernel, by decide +kernel, by decide +kernel, by decide +kernel, by decide +kernel,
     by decide +kernel⟩,
   ⟨{ pending := [], hw := tReady }, tSess 4 12 0, tReady.begun (tSess 4 12 0), tRuns (by decide +kernel),
     by decide +kernel⟩⟩

theorem test_meets_ChargingIsCommanded :
    (∃ (s : State) (d : Desc) (h : Hw), s.hw.RunsTo 0x0803 (d.withByte16 1) h ∧ h.mode.mode = .charge ∧ h.chg.state = .armed
      ∧ h.chgPermit = true ∧ h.chg.draining = false ∧ h.chgFn = .ac) ∧
    (∃ (s : State) (d : Desc) (h : Hw), s.hw.RunsTo 0x0803 (d.withByte16 3) h ∧ h.mode.mode = .charge ∧ h.chg.state = .armed
      ∧ h.chg.paused = true ∧ h.chgPermit = true ∧ h.chg.draining = false ∧ h.chgFn = .ac) ∧
    (∃ (s : State) (d : Desc) (h : Hw), s.hw.RunsTo 0x0803 (d.withByte16 0) h ∧ h.mode.mode = .charge ∧ h.chg.active = true) ∧
    (∃ (s : State) (d : Desc) (h : Hw), s.hw.RunsTo 0x0803 (d.withByte16 0) h ∧ h.mode.mode = .charge ∧ h.chg.active =
      false) ∧
    (∃ (s : State) (d : Desc) (h : Hw), s.hw.RunsTo 0x0803 (d.withByte16 2) h ∧ h.mode.mode = .charge ∧ h.chg.state = .flow
      ∧ h.chg.pauseReq = none ∧ h.chg.draining = false ∧ h.chg.current ≠ 0 ∧ h.chgFn ≠ .topup) ∧
    (∃ (s : State) (d : Desc) (h : Hw), s.hw.RunsTo 0x0803 (d.withByte16 5) h ∧ h.mode.mode = .charge ∧ h.chgFn = .boost ∧
      h.chg.state = .armed ∧ h.chg.dcb = .off ∧ h.boostConditions = true ∧ 200000 ≤ d.int 28 4 ∧ d.int 28 4 ≤ 500000) ∧
    (∃ (s : State) (d : Desc) (h : Hw) (x : Hw) (p : ChgPhase), s.hw.RunsTo 0x0803 (d.withByte16 6) h ∧ h.chg.left = some p
      ∧ h.mode.mode ≠ .baseCamp ∧ h.chg.state = .suspended ∧ h.chg.suspendedBy = fltChgTimer.code ∧
      (h.chg.expired.filter (fun k => k == 8 * p.target + p.phase)).length < 2 ∧ x = (h.clearFault fltChgTimer.code
      0xFF).complete d.req .done) :=
  ⟨⟨{ pending := [], hw := tArmed }, tSess 4 16 0, tArmed.begun ((tSess 4 16 0).withByte16 1), tRuns (by decide +kernel),
     by decide +kernel, by decide +kernel, by decide +kernel, by decide +kernel, by decide +kernel⟩,
   ⟨{ pending := [], hw := { tArmed with chg := { tArmed.chg with paused := true } } }, tSess 4 16 0,
     ({ tArmed with chg := { tArmed.chg with paused := true } } : Hw).begun ((tSess 4 16 0).withByte16 3), tRuns
     (by decide +kernel), by decide +kernel, by decide +kernel, by decide +kernel, by decide +kernel, by decide +kernel,
     by decide +kernel⟩,
   ⟨{ pending := [], hw := tCharge }, tSess 4 16 0, tCharge.begun ((tSess 4 16 0).withByte16 0), tRuns (by decide +kernel),
     by decide +kernel, by decide +kernel⟩,
   ⟨{ pending := [], hw := tArmed }, tSess 4 16 0, tArmed.begun ((tSess 4 16 0).withByte16 0), tRuns (by decide +kernel),
     by decide +kernel, by decide +kernel⟩,
   ⟨{ pending := [], hw := tCharge }, tSess 4 16 0, tCharge.begun ((tSess 4 16 0).withByte16 2), tRuns (by decide +kernel),
     by decide +kernel, by decide +kernel, by decide +kernel, by decide +kernel, by decide +kernel, by decide +kernel⟩,
   ⟨{ pending := [], hw := tBoost }, tMatch, tBoost.begun (tMatch.withByte16 5), tRuns (by decide +kernel),
     by decide +kernel, by decide +kernel, by decide +kernel, by decide +kernel, by decide +kernel, by decide +kernel,
     by decide +kernel⟩,
   ⟨⟨[], tExpired⟩, tSess 4 16 0, tExpired.begun ((tSess 4 16 0).withByte16 6), _, tPhase, tRuns (by decide +kernel),
     by decide +kernel, by decide +kernel, by decide +kernel, by decide +kernel, by decide +kernel, rfl⟩⟩

theorem test_meets_PlugAndPilotMoveTheCharge :
    (∃ (s : State) (ohms : Nat) (a : Nat) (n : Nat), s.hw.mode.phase = .up ∧ 10 * msTicks ≤ n ∧ s.hw.chg.pp.plugged = false
      ∧ s.hw.ppClass ohms = .plug a) ∧
    (∃ (s : State) (ohms : Nat) (n : Nat), s.hw.mode.phase = .up ∧ 10 * msTicks ≤ n ∧ s.hw.chg.pp.plugged = true ∧
      (s.hw.ppClass ohms).plugged = false) ∧
    (∃ (h : Hw), h.unset 0x0801 = false ∧ h.par 0x0801 = 0) ∧
    (∃ (s : State) (pos : Int) (neg : Int) (f : Nat) (duty : Nat) (n : Nat) (st : CpState) (a : Int) (dig : Bool),
      s.hw.mode.phase = .up ∧ 30 * sTicks ≤ n * f ∧ pilotState pos = some st ∧ pwmOk neg f = true ∧ dutyOffer duty =
      some (a, dig)) ∧
    (∃ (s : State) (pos : Int) (neg : Int) (f : Nat) (n : Nat) (st : CpState), s.hw.mode.phase = .up ∧ 30 * sTicks ≤ n * f ∧
      10 * msTicks ≤ n ∧ pilotState pos = some st ∧ pwmOk neg f = false) ∧
    (∃ (s : State) (x : Hw), s.hw.chg.state = .handOver ∧ s.hw.chg.handAt + 20 * msTicks ≤ s.hw.time.clock ∧
      s.hw.chg.handUnplugged = false ∧ x = (s.hw.chgEndPhase 3).chgGo .plugWait 1 0) ∧
    (∃ (s : State), s.hw.chg.state = .handOver ∧ s.hw.time.clock < s.hw.chg.handAt + 20 * msTicks) ∧
    (∃ (s : State) (t : Nat), s.hw.chg.mainsAt = some t ∧ s.hw.chgFn = .ac ∧ s.hw.chg.state = .plugWait ∧ s.hw.chg.outage =
      true ∧ max t s.hw.chg.handAt + s.hw.parTicks 0x0807 ≤ s.hw.time.clock ∧ s.hw.chgLive = true ∧ s.hw.chg.confirmed =
      true ∧ s.hw.chgPermit = true ∧ s.hw.armable = true) :=
  ⟨⟨⟨[], tUnplugged⟩, 200, 32000, 4000000, by decide +kernel, by decide +kernel, by decide +kernel, by decide +kernel⟩,
   ⟨⟨[], tCharge⟩, 5000, 4000000, by decide +kernel, by decide +kernel, by decide +kernel, by decide +kernel⟩,
   ⟨tUnplugged, by decide +kernel, by decide +kernel⟩,
   ⟨⟨[], tUnplugged⟩, 9000, -12000, 10000, 500, 1200000, .cpB, 30000, false, by decide +kernel, by decide +kernel,
     by decide +kernel, by decide +kernel, by decide +kernel⟩,
   ⟨⟨[], tUnplugged⟩, 9000, -9000, 10000, 4000000, .cpB, by decide +kernel, by decide +kernel, by decide +kernel,
     by decide +kernel, by decide +kernel⟩,
   ⟨⟨[], tHandOver⟩, _, by decide +kernel, by decide +kernel, by decide +kernel, rfl⟩,
   ⟨{ pending := [], hw := { tHandOver with time := { tHandOver.time with clock := 0 } } }, by decide +kernel,
     by decide +kernel⟩,
   ⟨{ pending := [], hw := tOutage }, 0, by decide +kernel, by decide +kernel, by decide +kernel, by decide +kernel,
     by decide +kernel, by decide +kernel, by decide +kernel, by decide +kernel, by decide +kernel⟩⟩

theorem test_meets_MainsAreMeasured :
    (∃ (s : State) (v1 : Int) (v2 : Int) (v3 : Int) (v : List Int) (sum : List Nat), s.hw.mode.phase = .up ∧ s.hw.chgFn =
      .ac ∧ s.hw.chg.state = .flow ∧ s.hw.chg.vref = [] ∧ s.hw.chg.draining = false ∧ s.hw.chg.pauseReq = none ∧ v =
      s.hw.usedPhases [v1, v2, v3] ∧ v.all s.hw.inputOk = true ∧ s.hw.chg.refCycles = 5 ∧ sum = (v.zip
      s.hw.chg.refSum).map (fun p => (p.1 * p.1).toNat + p.2) ∧ s.hw.pwr.coolant ≤ 8500 ∧ acPresent ≤ v1) ∧
    (∃ (s : State) (v1 : Int) (v2 : Int) (v3 : Int) (v : List Int), s.hw.mode.phase = .up ∧ s.hw.chgFn = .ac ∧
      s.hw.chg.state = .flow ∧ s.hw.chg.vref = [] ∧ s.hw.chg.draining = false ∧ s.hw.chg.pauseReq = none ∧ v =
      s.hw.usedPhases [v1, v2, v3] ∧ v.all s.hw.inputOk = false ∧ s.hw.pwr.coolant ≤ 8500 ∧ acPresent ≤ v1) ∧
    (∃ (s : State) (x : Hw), s.hw.chg.state = .flow ∧ s.hw.chgFn.isAc = true ∧ s.hw.chg.vref = [] ∧ s.hw.chg.refCycles = 0 ∧
      s.hw.chg.current = 0 ∧ s.hw.chg.startAt + 10 * sTicks ≤ s.hw.time.clock ∧ x = s.hw.occurThen fltChgNoSource
      fltChgNoSource.cls 0xFF (fun y => y.chgStopTo 3 .armed 3 fltChgNoSource.code)) ∧
    (∃ (s : State) (ac : Int) (dc : Int) (pe : Int) (h : Hw), s.hw.chgFn.isAc = true ∧ (s.hw.chg.state = .armed ∨
      s.hw.chg.state = .flow) ∧ h =
      { s.hw with chg := { s.hw.chg with dcResAt := heldSince s.hw.chg.dcResAt (decide (6 ≤ dc)) s.hw.time.clock, peAt := heldSince s.hw.chg.peAt (decide (50000 < pe)) s.hw.time.clock } }
      ∧ (30 ≤ ac ∨ heldFor h.chg.dcResAt sTicks s.hw.time.clock = true)) ∧
    (∃ (s : State) (ac : Int) (dc : Int) (pe : Int) (h : Hw), s.hw.chgFn.isAc = true ∧ (s.hw.chg.state = .armed ∨
      s.hw.chg.state = .flow) ∧ h =
      { s.hw with chg := { s.hw.chg with dcResAt := none, peAt := heldSince s.hw.chg.peAt (decide (50000 < pe)) s.hw.time.clock } }
      ∧ ac < 30 ∧ dc < 6 ∧ heldFor h.chg.peAt (100 * msTicks) s.hw.time.clock = true) ∧
    (∃ (s : State), s.hw.chgFn = .grid ∧ s.hw.chg.state = .flow ∧ heldFor s.hw.chg.gridAt (s.hw.parTicks 0x0814)
      s.hw.time.clock = true) ∧
    (∃ (s : State), s.hw.chgFn = .island ∧ s.hw.chg.state = .flow ∧ (heldFor s.hw.chg.overAt (5 * sTicks) s.hw.time.clock =
      true ∨ heldFor s.hw.chg.peakAt (100 * msTicks) s.hw.time.clock = true)) ∧
    (∃ (s : State) (v1 : Int) (v2 : Int) (v3 : Int) (n : Nat), s.hw.chgFn = .island ∧ s.hw.chg.state = .flow ∧ 2 * msTicks ≤
      n ∧ s.hw.chg.current ≤ s.hw.acLimit ∧ (∃ p ∈ (s.hw.usedPhases [v1, v2, v3]).zip s.hw.acVolts, p.2 < 10 * absI (p.1
      - p.2))) ∧
    (∃ (t : Int), 12000 ≤ t) ∧
    (∃ (s : State) (t : Int), 10000 ≤ t ∧ t < 12000 ∧ s.hw.chg.obcWarned = false) ∧
    (∃ (s : State) (t : Int) (since : Nat), t < 10000 ∧ s.hw.chg.obcCoolAt = some since ∧ since + 5 * sTicks ≤
      s.hw.time.clock ∧ s.hw.chg.obcShut = true) :=
  ⟨⟨⟨[], tMains⟩, 230000, 230000, 230000, _, _, by decide +kernel, by decide +kernel, by decide +kernel, by decide +kernel,
     by decide +kernel, by decide +kernel, rfl, by decide +kernel, by decide +kernel, rfl, by decide +kernel,
     by decide +kernel⟩,
   ⟨⟨[], tMains⟩, 50000, 0, 0, _, by decide +kernel, by decide +kernel, by decide +kernel, by decide +kernel,
     by decide +kernel, by decide +kernel, rfl, by decide +kernel, by decide +kernel, by decide +kernel⟩,
   ⟨⟨[], { tMains with chg := { tMains.chg with refCycles := 0 } }⟩, _, by decide +kernel, by decide +kernel,
     by decide +kernel, by decide +kernel, by decide +kernel, by decide +kernel, rfl⟩,
   ⟨⟨[], tCharge⟩, 30, 0, 0, _, by decide +kernel, by decide +kernel, rfl, by decide +kernel⟩,
   ⟨⟨[], { tCharge with chg := { tCharge.chg with peAt := some 39960000000 } }⟩, 29, 5, 50001, _, by decide +kernel,
     by decide +kernel, rfl, by decide +kernel, by decide +kernel, by decide +kernel⟩,
   ⟨⟨[], { tExport .grid with chg := { (tExport .grid).chg with gridAt := some 0 } }⟩, by decide +kernel,
     by decide +kernel, by decide +kernel⟩,
   ⟨⟨[], { tExport .island with chg := { (tExport .island).chg with overAt := some 38000000000 } }⟩, by decide +kernel,
     by decide +kernel, by decide +kernel⟩,
   ⟨⟨[], tExport .island⟩, 0, 0, 0, 800000, by decide +kernel, by decide +kernel, by decide +kernel, by decide +kernel,
     by decide +kernel⟩,
   ⟨12000, by decide +kernel⟩,
   ⟨{ pending := [], hw := tCharge }, 10000, by decide +kernel, by decide +kernel, by decide +kernel⟩,
   ⟨{ pending := [], hw := { tCharge with chg := { tCharge.chg with obcCoolAt := some 0, obcShut := true } } }, 9900, 0,
     by decide +kernel, by decide +kernel, by decide +kernel, by decide +kernel⟩⟩

theorem test_meets_PhasesAndTimersOfTheCharge :
    (∃ (s : State) (p : ChgPhase) (p1 : ChgPhase) (i : Int) (k : Nat), s.hw.chg.phase = some p ∧ p1 = s.hw.exitSeen p i ∧
      s.hw.nextPhase p (s.hw.battVolts p.target) (s.hw.battAmps p.target i).1 = some k ∧ heldFor p1.exitAt (exitHold
      p.phase) s.hw.time.clock = true) ∧
    (∃ (s : State) (p : ChgPhase) (p1 : ChgPhase) (own : Int), s.hw.chg.phase = some p ∧ p1 =
      { s.hw.phaseTime (s.hw.exitSeen p own) ((s.hw.time.clock - p.countedAt) / msTicks) (s.hw.battAmps p.target own).1 (s.hw.battAmps p.target own).2 with countedAt := p.countedAt + (s.hw.time.clock - p.countedAt) / msTicks * msTicks }
      ∧ p1.equiv < p1.prof.timer * 1000000) ∧
    (∃ (s : State) (p : ChgPhase) (p1 : ChgPhase) (own : Int) (x : Hw), s.hw.chg.phase = some p ∧ p1 =
      { s.hw.phaseTime (s.hw.exitSeen p own) ((s.hw.time.clock - p.countedAt) / msTicks) (s.hw.battAmps p.target own).1 (s.hw.battAmps p.target own).2 with countedAt := p.countedAt + (s.hw.time.clock - p.countedAt) / msTicks * msTicks }
      ∧ p1.prof.timer * 1000000 ≤ p1.equiv ∧ s.hw.chg.state = .flow ∧ p.phase ≠ 0 ∧ p.phase ≠ 5 ∧ x =
      (({ s.hw with chg := { s.hw.chg with phase := some p1 } } : Hw).count 0x07F 1).raiseOnce fltChgTimer 0xFF) ∧
    (∃ (s : State) (f : BattFault), s.hw.chg.state = .flow ∧ s.hw.chgFn.exports = false ∧ s.hw.battFaulty f = true ∧
      f.missing = true ∧ s.hw.par 0x0808 = 0) ∧
    (∃ (s : State) (f : BattFault), s.hw.chg.state = .flow ∧ s.hw.chgFn.exports = false ∧ s.hw.battFaulty f = true ∧
      f.missing = false ∧ s.hw.par 0x0809 = 0) ∧
    (∃ (s : State) (t : Option Int) (h : Hw), s.hw.chgFn = .ac ∧ s.hw.chg.state = .flow ∧ s.hw.chg.band < 2 ∧ h =
      s.hw.seeProbe t ∧ tempBand (s.hw.par 0x080B) 0 (h.battTemp 0) = 2 ∧ s.hw.par 0x080A = 0) ∧
    (∃ (s : State) (t : Nat), s.hw.mode.chargeHoldBy = some t ∧ t ≤ s.hw.time.clock) ∧
    (∃ (s : State) (p : ChgPhase) (p1 : ChgPhase) (own : Int), s.hw.chg.phase = some p ∧ p1 =
      { s.hw.phaseTime (s.hw.exitSeen p own) ((s.hw.time.clock - p.countedAt) / msTicks) (s.hw.battAmps p.target own).1 (s.hw.battAmps p.target own).2 with countedAt := p.countedAt + (s.hw.time.clock - p.countedAt) / msTicks * msTicks }
      ∧ p1.prof.timer * 1000000 ≤ p1.equiv ∧ s.hw.chg.state = .flow ∧ p.phase = 5) :=
  ⟨⟨⟨[], tCharge⟩, tPhase, _, 0, 4, by decide +kernel, rfl, by decide +kernel, by decide +kernel⟩,
   ⟨⟨[], tCharge⟩, tPhase, _, 5000, by decide +kernel, rfl, by decide +kernel⟩,
   ⟨⟨[], tCharging (tDue 3)⟩, tDue 3, _, 5000, _, by decide +kernel, rfl, by decide +kernel, by decide +kernel,
     by decide +kernel, by decide +kernel, rfl⟩,
   ⟨⟨[], tCharge⟩, .over 515001, by decide +kernel, by decide +kernel, by decide +kernel, by decide +kernel,
     by decide +kernel⟩,
   ⟨⟨[], tCharge⟩, .drop 500000 449999 1000 1000, by decide +kernel, by decide +kernel, by decide +kernel,
     by decide +kernel, by decide +kernel⟩,
   ⟨⟨[], tCharge⟩, none, _, by decide +kernel, by decide +kernel, by decide +kernel, rfl, by decide +kernel,
     by decide +kernel⟩,
   ⟨{ pending := [], hw := { tCharge with mode := { tCharge.mode with chargeHoldBy := some 0 } } }, 0, by decide +kernel,
     by decide +kernel⟩,
   ⟨⟨[], tCharging (tDue 5)⟩, tDue 5, _, 5000, by decide +kernel, rfl, by decide +kernel, by decide +kernel,
     by decide +kernel⟩⟩

theorem test_meets_BoostRunsAndEnds :
    (∃ (s : State) (v : Int) (a : Int) (x : Hw), s.hw.mode.phase = .up ∧ s.hw.chgFn = .boost ∧ s.hw.chg.state = .armed ∧
      s.hw.chg.dcb = .matching ∧ s.hw.chg.draining = false ∧ s.hw.saf.so2 = false ∧ s.hw.chg.dcbAt + 5 * msTicks ≤
      s.hw.time.clock ∧ absI (v - s.hw.chg.station) ≤ 20000 ∧ x =
      ({ s.hw with chg := { s.hw.chg with inlet := v, current := a } } : Hw).closeSo true) ∧
    (∃ (s : State) (l : List Int) (duty : Nat), s.hw.chg.dcb = .testing ∧ s.hw.chg.dcbAt + 10 * msTicks ≤ s.hw.time.clock ∧
      l.all (inductanceOk s.hw.chg.inlet duty (pwmPeriod (s.hw.par 0x080F)) (s.hw.par 0x0810)) = true) ∧
    (∃ (s : State) (l : List Int) (duty : Nat) (x : Hw), s.hw.chg.dcb = .testing ∧ s.hw.chg.dcbAt + 10 * msTicks ≤
      s.hw.time.clock ∧ l.all (inductanceOk s.hw.chg.inlet duty (pwmPeriod (s.hw.par 0x080F)) (s.hw.par 0x0810)) = false
      ∧ x = s.hw.raiseOnce fltDcbInductance 0xFF) ∧
    (∃ (s : State), s.hw.chg.dcb = .running ∧ heldFor s.hw.chg.halfAt msTicks s.hw.time.clock = true) ∧
    (∃ (s : State), s.hw.chg.dcb = .running ∧ s.hw.pwr.vdc - 50000 < s.hw.chg.inlet) ∧
    (∃ (s : State) (b : Bridge) (stray : Int) (star : Int) (tq : Int) (n : Nat), s.hw.chg.dcb = .running ∧ s.hw.boostTorque
      b stray star tq n = true) ∧
    (∃ (s : State) (v : Int), s.hw.chg.dcb = .checking ∧ s.hw.chg.dcbAt + 100 * msTicks ≤ s.hw.time.clock ∧ 60000 ≤ v) ∧
    (∃ (h : Hw), h.saf.so2 = false ∧ h.matched = false ∧ h.chg.dcbAt + 25 * msTicks ≤ h.time.clock) :=
  ⟨⟨⟨[], tMatching⟩, 420000, 0, _, by decide +kernel, by decide +kernel, by decide +kernel, by decide +kernel,
     by decide +kernel, by decide +kernel, by decide +kernel, by decide +kernel, rfl⟩,
   ⟨{ pending := [], hw := tTesting }, [], 500, by decide +kernel, by decide +kernel, by decide +kernel⟩,
   ⟨⟨[], tTesting⟩, [100000000], 500, _, by decide +kernel, by decide +kernel, by decide +kernel, rfl⟩,
   ⟨⟨[], { tRunning with chg := { tRunning.chg with halfAt := some 39999600000 } }⟩, by decide +kernel, by decide +kernel⟩,
   ⟨⟨[], { tRunning with chg := { tRunning.chg with inlet := 750001 } }⟩, by decide +kernel, by decide +kernel⟩,
   ⟨⟨[], tRunning⟩, .brA, 1000000, 1000000, 1000000, 4000000, by decide +kernel, by decide +kernel⟩,
   ⟨{ pending := [], hw := tChecking }, 60000, by decide +kernel, by decide +kernel, by decide +kernel⟩,
   ⟨tMatching, by decide +kernel, by decide +kernel, by decide +kernel⟩⟩

theorem test_meets_ForwardServiceStarts :
    (∃ (s : State) (d : Desc) (h : Hw), s.hw.RunsTo 0x0701 (d.withByte16 1) h ∧ h.lvFits 0x0701 (d.num 20 4) = true ∧
      h.lvFits 0x0702 (d.num 24 4) = true ∧ -500 ≤ h.lv.vout ∧ h.lvToppingUp = false ∧ h.lv.state = .stopped ∧
      h.lv.draining = false ∧ h.lv.fwdInHold = none ∧ h.lvInhibited = false ∧ h.lv.req = none ∧ 255000 ≤ h.pwr.vdc ∧
      h.lv.shut = 0 ∧ h.lv.closed = false) ∧
    (∃ (s : State) (d : Desc) (h : Hw), s.hw.RunsTo 0x0701 (d.withByte16 1) h ∧ (h.lvFits 0x0701 (d.num 20 4) = false ∨
      h.lvFits 0x0702 (d.num 24 4) = false ∨ h.lv.vout < -500)) ∧
    (∃ (s : State) (d : Desc) (h : Hw), s.hw.RunsTo 0x0701 (d.withByte16 0) h ∧ h.lv.state = .running ∧ h.lv.draining =
      false ∧ h.lv.closed = true ∧ h.lv.ovStop = false) ∧
    (∃ (s : State), s.hw.lv.state = .starting ∧ s.hw.lv.closed = true ∧ s.hw.lv.ovStop = false ∧ s.hw.lv.rampAt +
      s.hw.lv.rampLen ≤ s.hw.time.clock) ∧
    (∃ (s : State), s.hw.lv.state = .starting ∧ s.hw.lv.closed = true ∧ (heldFor s.hw.lv.shortAt msTicks s.hw.time.clock =
      true ∨ heldFor s.hw.lv.foldAt (2 * msTicks) s.hw.time.clock = true)) ∧
    (∃ (h : Hw), (h.lv.state = .starting ∨ h.lv.state = .running) ∧ h.lv.attempts < 4) ∧
    (∃ (h : Hw), (h.lv.state = .starting ∨ h.lv.state = .running) ∧ h.lv.attempts = 4) ∧
    (∃ (s : State), s.hw.lv.state = .waiting ∧ s.hw.lv.waitAt + 200 * msTicks ≤ s.hw.time.clock ∧ s.hw.lv.clamp = false ∧
      s.hw.lv.closed = false ∧ s.hw.lvInhibited = false ∧ s.hw.lv.waitPre = false ∧ s.hw.lv.shut = 0 ∧ 255000 ≤
      s.hw.pwr.vdc) ∧
    (∃ (s : State), s.hw.lv.active = true ∧ heldFor s.hw.lv.busBadAt (50 * usTicks) s.hw.time.clock = true) ∧
    (∃ (s : State) (v : Int), v < 245000 ∧ (s.hw.setVdc v).lv.state = .running) :=
  ⟨⟨⟨[], tReady⟩, tSess 4 12 0, tReady.begun ((tSess 4 12 0).withByte16 1), tRuns (by decide +kernel), by decide +kernel,
     by decide +kernel, by decide +kernel, by decide +kernel, by decide +kernel, by decide +kernel, by decide +kernel,
     by decide +kernel, by decide +kernel, by decide +kernel, by decide +kernel, by decide +kernel⟩,
   ⟨⟨[], tReady⟩, tForward 1, tReady.begun ((tForward 1).withByte16 1), tRuns (by decide +kernel), by decide +kernel⟩,
   ⟨⟨[], tLv⟩, tSess 4 12 0, tLv.begun ((tSess 4 12 0).withByte16 0), tRuns (by decide +kernel), by decide +kernel,
     by decide +kernel, by decide +kernel, by decide +kernel⟩,
   ⟨{ pending := [], hw := { tLv with lv := { tLv.lv with state := .starting } } }, by decide +kernel, by decide +kernel,
     by decide +kernel, by decide +kernel⟩,
   ⟨⟨[], { tLv with lv := { tLv.lv with state := .starting, shortAt := some 39999600000 } }⟩, by decide +kernel,
     by decide +kernel, by decide +kernel⟩,
   ⟨tLv, by decide +kernel, by decide +kernel⟩,
   ⟨{ tLv with lv := { tLv.lv with attempts := 4 } }, by decide +kernel, by decide +kernel⟩,
   ⟨⟨[], { tLv with lv := { tLv.lv with state := .waiting, closed := false } }⟩, by decide +kernel, by decide +kernel,
     by decide +kernel, by decide +kernel, by decide +kernel, by decide +kernel, by decide +kernel, by decide +kernel⟩,
   ⟨⟨[], { tLv with lv := { tLv.lv with busBadAt := some 39999980000 } }⟩, by decide +kernel, by decide +kernel⟩,
   ⟨{ pending := [], hw := tLv }, 244999, by decide +kernel, by decide +kernel⟩⟩

theorem test_meets_ForwardServiceRuns :
    (∃ (s : State) (inner : Int) (vout : Int) (load : Int) (bus : Int) (demand : Int) (x : Hw) (h : Hw), x =
      ({ s.hw with lv := { s.hw.lv with ch13 := inner, vout := vout, load := load, bus := bus, demand := demand, boot := (bootStep s.hw.lv.boot s.hw.time.clock).1, periodAt := s.hw.time.clock } }
      : Hw).count 0x09D (bootStep s.hw.lv.boot s.hw.time.clock).2 ∧ h = ((x.lvMonitors.lvWatch.lvOpen
      load).dropPhases).demandStep s.hw.lv.demand demand ∧ h.lv.ovStop = true) ∧
    (∃ (s : State) (inner : Int) (vout : Int) (load : Int) (bus : Int) (demand : Int) (x : Hw) (h : Hw), x =
      ({ s.hw with lv := { s.hw.lv with ch13 := inner, vout := vout, load := load, bus := bus, demand := demand, boot := (bootStep s.hw.lv.boot s.hw.time.clock).1, periodAt := s.hw.time.clock } }
      : Hw).count 0x09D (bootStep s.hw.lv.boot s.hw.time.clock).2 ∧ h = ((x.lvMonitors.lvWatch.lvOpen
      load).dropPhases).demandStep s.hw.lv.demand demand ∧ h.lv.ovStop = false ∧ h.lv.clamp = false ∧ h.lv.state =
      .starting ∧ h.lv.closed = false) ∧
    (∃ (s : State) (inner : Int) (vout : Int) (load : Int) (bus : Int) (demand : Int) (x : Hw) (h : Hw), x =
      ({ s.hw with lv := { s.hw.lv with ch13 := inner, vout := vout, load := load, bus := bus, demand := demand, boot := (bootStep s.hw.lv.boot s.hw.time.clock).1, periodAt := s.hw.time.clock } }
      : Hw).count 0x09D (bootStep s.hw.lv.boot s.hw.time.clock).2 ∧ h = ((x.lvMonitors.lvWatch.lvOpen
      load).dropPhases).demandStep s.hw.lv.demand demand ∧ h.lv.ovStop = false ∧ h.lv.clamp = false ∧ h.lv.state =
      .running) ∧
    (∃ (h : Hw), busUp h.lv.bus = true ∧ h.lv.check = 2 ∧ h.lv.state = .starting ∧ absI (h.lv.ch13 - h.lv.vout) ≤ 200 ∧
      heldFor h.lv.biasAt (100 * usTicks) h.time.clock = true) ∧
    (∃ (h : Hw), busUp h.lv.bus = false) ∧
    (∃ (h : Hw), 3 ≤ h.lv.shedding) ∧
    (∃ (h : Hw), 0 < h.lv.shedding ∧ h.lv.shedding < 3) ∧
    (∃ (v : Int) (vset : Int), 0 < vset ∧ vset < 5 * v ∧ 5 * v < 4 * vset) ∧
    (∃ (s : State) (load : Int), s.hw.lv.state = .running ∧ s.hw.lv.closed = true ∧ s.hw.lv.shedding = 0 ∧ s.hw.lv.noShedBy
      ≤ s.hw.time.clock ∧ max (s.hw.par 0x0709) 1 < s.hw.lv.phases ∧ heldFor s.hw.lv.lowAt (2 * msTicks) s.hw.time.clock
      = true ∧ 100 * load < 65 * ((s.hw.lv.phases - 1 : Nat) * s.hw.phaseShare)) ∧
    (∃ (s : State) (mv : Int), s.hw.lv.state = .running ∧ 0 < s.hw.lv.shedding ∧ mv < codeVolts s.hw.stepCode) ∧
    (∃ (s : State) (cell : Fin 4), s.hw.lv.active = true ∧ s.hw.lv.cellsFailed.getLsbD cell.val = false ∧ heldFor
      (s.hw.lv.cellBadAt.find cell.val) sTicks s.hw.time.clock = true) ∧
    (∃ (sensor : LvSensor) (t : Int), t < sensor.levels.1 ∧ sensor.levels.1 ≤ sensor.levels.2) ∧
    (∃ (s : State) (mv : Int), codeVolts s.hw.overCode < mv ∧ s.hw.lv.closed = true ∧ s.hw.lv.active = true) ∧
    (∃ (s : State) (mv : Int), codeVolts s.hw.overCode < mv ∧ s.hw.lv.closed = false ∧ s.hw.lv.state = .starting) ∧
    (∃ (s : State), s.hw.lv.clamp = false ∧ s.hw.lv.ovStop = true ∧ s.hw.lv.state = .running ∧ heldFor s.hw.lv.ovLowAt
      msTicks s.hw.time.clock = true) ∧
    (∃ (s : State) (a : Int), s.hw.lv.closed = true ∧ s.hw.lv.state = .running ∧ s.hw.lvRated < 10 * a) :=
  ⟨⟨⟨[], { tLv with lv := { tLv.lv with ovStop := true } }⟩, 13800, 13800, 0, 48000, 0, _, _, rfl, rfl, by decide +kernel⟩,
   ⟨⟨[], tReadyToStart⟩, 13800, 13800, 0, 48000, 0, _, _, rfl, rfl, by decide +kernel, by decide +kernel,
     by decide +kernel, by decide +kernel⟩,
   ⟨⟨[], tLv⟩, 13800, 13800, 0, 48000, 0, _, _, rfl, rfl, by decide +kernel, by decide +kernel, by decide +kernel⟩,
   ⟨tReadyToStart, by decide +kernel, by decide +kernel, by decide +kernel, by decide +kernel, by decide +kernel⟩,
   ⟨tReady, by decide +kernel⟩,
   ⟨{ tReady with lv := { tReady.lv with shedding := 3, phaseSet := 0xF } }, by decide +kernel⟩,
   ⟨{ tReady with lv := { tReady.lv with shedding := 2, phaseSet := 0xF } }, by decide +kernel, by decide +kernel⟩,
   ⟨7000, 14000, by decide +kernel, by decide +kernel, by decide +kernel⟩,
   ⟨⟨[], { tLv with lv := { tLv.lv with lowAt := some 39999200000 } }⟩, 1000, by decide +kernel, by decide +kernel,
     by decide +kernel, by decide +kernel, by decide +kernel, by decide +kernel, by decide +kernel⟩,
   ⟨⟨[], { tLv with prm := { vals := tLv.prm.vals ++ [(0x0701, 13800)] }, lv := { tLv.lv with shedding := 2 } }⟩, 13000,
     by decide +kernel, by decide +kernel, by decide +kernel⟩,
   ⟨⟨[], { tLv with lv := { tLv.lv with cellBadAt := [(3, 39600000000)] } }⟩, 3, by decide +kernel, by decide +kernel,
     by decide +kernel⟩,
   ⟨.phase 0, 5000, by decide +kernel, by decide +kernel⟩,
   ⟨⟨[], tLv⟩, 20000, by decide +kernel, by decide +kernel, by decide +kernel⟩,
   ⟨⟨[], tReadyToStart⟩, 20000, by decide +kernel, by decide +kernel, by decide +kernel⟩,
   ⟨⟨[], { tLv with lv := { tLv.lv with ovStop := true, ovLowAt := some 39999600000 } }⟩, by decide +kernel,
     by decide +kernel, by decide +kernel, by decide +kernel⟩,
   ⟨⟨[], tLv⟩, 1000000, by decide +kernel, by decide +kernel, by decide +kernel⟩⟩

theorem test_meets_PrechargeRuns :
    (∃ (s : State) (d : Desc) (h : Hw), s.hw.RunsTo 0x0701 (d.withByte16 2) h ∧ 250000 ≤ d.int 20 4 ∧ d.int 20 4 ≤ 950000 ∧
      d.num 24 4 = 0 ∧ h.mode.mode = .ready ∧ h.lv.state = .stopped ∧ h.lvInhibited = false ∧ h.lv.req = none ∧
      h.lv.closed = false ∧ h.lv.shut = 0 ∧ 10000 < absI (h.pwr.vdc - d.int 20 4)) ∧
    (∃ (s : State) (d : Desc) (h : Hw), s.hw.RunsTo 0x0701 (d.withByte16 2) h ∧ (d.int 20 4 < 250000 ∨ 950000 < d.int 20 4 ∨
      d.num 24 4 ≠ 0)) ∧
    (∃ (s : State) (v : Int) (x : Hw), s.hw.lv.state = .precharge ∧ s.hw.lv.draining = false ∧ absI (v - s.hw.lv.target) ≤
      10000 ∧ x = s.hw.preVdc v) ∧
    (∃ (s : State) (v : Int), s.hw.lv.state = .precharge ∧ 10000 < absI (v - s.hw.lv.target)) ∧
    (∃ (s : State), s.hw.lv.state = .precharge ∧ s.hw.lv.draining = false ∧ heldFor s.hw.lv.preAt (min (400 * msTicks +
      s.hw.lv.reduced) (2 * sTicks)) s.hw.time.clock = true) ∧
    (∃ (s : State) (v : Int), s.hw.lv.state = .precharge ∧ s.hw.lv.draining = false ∧ heldFor s.hw.lv.preAt (20 * msTicks)
      s.hw.time.clock = true ∧ v < 20000) ∧
    (∃ (s : State), s.hw.lv.state = .hold ∧ s.hw.lv.draining = false ∧ s.hw.lv.holdBy ≤ s.hw.time.clock) :=
  ⟨⟨⟨[], tReady⟩, tForward 400000, tReady.begun ((tForward 400000).withByte16 2), tRuns (by decide +kernel),
     by decide +kernel, by decide +kernel, by decide +kernel, by decide +kernel, by decide +kernel, by decide +kernel,
     by decide +kernel, by decide +kernel, by decide +kernel, by decide +kernel⟩,
   ⟨⟨[], tReady⟩, tForward 249999, tReady.begun ((tForward 249999).withByte16 2), tRuns (by decide +kernel),
     by decide +kernel⟩,
   ⟨⟨[], tPre⟩, 790000, _, by decide +kernel, by decide +kernel, by decide +kernel, rfl⟩,
   ⟨⟨[], tPre⟩, 789999, by decide +kernel, by decide +kernel⟩,
   ⟨⟨[], { tPre with lv := { tPre.lv with preAt := some 39840000000 } }⟩, by decide +kernel, by decide +kernel,
     by decide +kernel⟩,
   ⟨⟨[], { tPre with lv := { tPre.lv with preAt := some 39992000000 } }⟩, 19999, by decide +kernel, by decide +kernel,
     by decide +kernel, by decide +kernel⟩,
   ⟨⟨[], { tPre with lv := { tPre.lv with state := .hold } }⟩, by decide +kernel, by decide +kernel, by decide +kernel⟩⟩

theorem test_meets_FramesAreReceived :
    (∃ (s : State) (ch : Fin 4) (f : CanFrame) (h : Hw), s.hw.canOn ch.val = true ∧ s.hw.canAllows ch.val f.fmt = true ∧ h =
      (s.hw.modCan ch.val (fun c => { c with rec' := recDown c.rec' })).canConfine ch.val ∧ s.hw.ownPair ch.val f =
      false ∧ (s.hw.can ch.val).acceptsQ1 f = true ∧ f.data.length ≤ 64 ∧ (h.can ch.val).q1.length < 64) ∧
    (∃ (s : State) (ch : Fin 4) (f : CanFrame) (h : Hw), s.hw.canOn ch.val = true ∧ s.hw.canAllows ch.val f.fmt = true ∧ h =
      (s.hw.modCan ch.val (fun c => { c with rec' := recDown c.rec' })).canConfine ch.val ∧ s.hw.ownPair ch.val f =
      false ∧ (s.hw.can ch.val).acceptsQ1 f = true ∧ f.data.length ≤ 64 ∧ 64 ≤ (h.can ch.val).q1.length) ∧
    (∃ (s : State) (ch : Fin 4) (e : CanEntry) (h : Hw), s.hw.netUp = true ∧ s.hw.q1Served = true ∧ (s.hw.can ch.val).rxHead
      = some (e, true) ∧ (s.hw.can ch.val).lock1 = none ∧ h = s.hw.modCan ch.val (fun c => { c with q1 := c.q1.drop 1 })
      ∧ e.frame.data.length ≤ 32) ∧
    (∃ (s : State) (ch : Fin 4) (e : CanEntry) (l : List CanEntry), s.hw.netUp = true ∧ (s.hw.can ch.val).q1 = e :: l ∧
      (s.hw.can ch.val).lock1 = none) ∧
    (∃ (s : State), s.hw.netUp = true) ∧
    (∃ (c : CanCh) (t : Nat), c.lock1 = some t) ∧
    (∃ (s : State) (d : Desc) (h : Hw), s.hw.RunsTo 0x0E03 d h ∧ d.num 16 1 ≤ 3 ∧ 4 ≤ d.num 17 1 ∧ d.num 17 1 ≤ 63 ∧ d.num
      18 1 ≤ 2) :=
  ⟨⟨{ pending := [], hw := tCan }, 0, tFrame, (tCan.modCan 0 (fun c => { c with rec' := recDown c.rec' })).canConfine 0,
     by decide +kernel, by decide +kernel, rfl, by decide +kernel, by decide +kernel, by decide +kernel,
     by decide +kernel⟩,
   ⟨{ pending := [], hw := tCanFull }, 0, tFrame, (tCanFull.modCan 0 (fun c =>
     { c with rec' := recDown c.rec' })).canConfine 0, by decide +kernel, by decide +kernel, rfl, by decide +kernel,
     by decide +kernel, by decide +kernel, by decide +kernel⟩,
   ⟨{ pending := [], hw := tCanFull }, 0, tEntry, tCanFull.modCan 0 (fun c => { c with q1 := c.q1.drop 1 }),
     by decide +kernel, by decide +kernel, by decide +kernel, by decide +kernel, rfl, by decide +kernel⟩,
   ⟨{ pending := [], hw := tCanFull }, 0, tEntry, List.replicate 63 tEntry, by decide +kernel, by decide +kernel,
     by decide +kernel⟩,
   ⟨{ pending := [], hw := tCanFull }, by decide +kernel⟩,
   ⟨{ tCanFull.can 0 with lock1 := some 5 }, 5, by decide +kernel⟩,
   ⟨{ pending := [], hw := tReady }, tSess 4 12 0x0400, tReady.begun (tSess 4 12 0x0400), tRuns (by decide +kernel),
     by decide +kernel, by decide +kernel, by decide +kernel, by decide +kernel⟩⟩

theorem test_meets_FramesAreSent :
    (∃ (s : State) (d : Desc) (h : Hw) (f : CanFrame), s.hw.RunsTo 0x0E02 d h ∧ h.canTxFrame d = some f ∧ d.num 18 1 = 0xFF) ∧
    (∃ (s : State) (d : Desc) (h : Hw) (f : CanFrame), s.hw.RunsTo 0x0E02 d h ∧ h.canTxFrame d = some f ∧ d.num 18 1 ≠ 0xFF) ∧
    (∃ (s : State) (d : Desc) (h : Hw), s.hw.RunsTo 0x0E02 d h ∧ h.canTxFrame d = none) ∧
    (∃ (s : State) (ch : Fin 4) (t : CanTx) (rest : List CanTx) (q : Req), (s.hw.can ch.val).tx = t :: rest ∧ t.req = some q
      ∧ s.hw.canOn ch.val = true ∧ (s.hw.can ch.val).mayArbitrate = true) ∧
    (∃ (s : State) (ch : Fin 4) (t : CanTx) (rest : List CanTx), (s.hw.can ch.val).tx = t :: rest ∧ t.since + 100 * msTicks
      ≤ s.hw.time.clock) ∧
    (∃ (s : State) (ch : Fin 4), s.hw.canOn ch.val = true) ∧
    (∃ (h : Hw) (ch : Nat), (h.can ch).err ≠ .busOff ∧ 255 < (h.can ch).tec) ∧
    (∃ (h : Hw) (ch : Nat), (h.can ch).err = .active ∧ (h.can ch).tec ≤ 255 ∧ (127 < (h.can ch).tec ∨ 127 < (h.can
      ch).rec')) ∧
    (∃ (s : State) (ch : Fin 4) (n : Nat), s.hw.netUp = true ∧ 128 ≤ n ∧ (s.hw.can ch.val).mayRejoin s.hw.time.clock = true
      ∧ (s.hw.par 0x0E11 = 0 ∨ (s.hw.can ch.val).restart = true)) ∧
    (∃ (s : State) (d : Desc) (h : Hw), s.hw.RunsTo 0x0E05 d h ∧ d.num 16 1 ≤ 3 ∧ (h.can (d.num 16 1)).mayRejoin
      h.time.clock = true) ∧
    (∃ (s : State), s.hw.netUp = true) ∧
    (∃ (s : State) (ch : Fin 4) (f : CanFrame), s.hw.canOn ch.val = true ∧ s.hw.fbChannel = some ch.val ∧ f.fmt = .xl ∧
      s.hw.canAllows ch.val .xl = true ∧ f.word &&& 0x3FFFFFFF = BitVec.ofNat 32 (s.hw.par 0x0E14 % 2 ^ 11)) :=
  ⟨⟨{ pending := [], hw := tCan }, tTx 0xFF, tCan.begun (tTx 0xFF), tSentFrame, tRuns (by decide +kernel),
     by decide +kernel, by decide +kernel⟩,
   ⟨{ pending := [], hw := tCan }, tTx 3, tCan.begun (tTx 3), tSentFrame, tRuns (by decide +kernel), by decide +kernel,
     by decide +kernel⟩,
   ⟨{ pending := [], hw := tCan }, tSess 4 48 0x0004, tCan.begun (tSess 4 48 0x0004), tRuns (by decide +kernel),
     by decide +kernel⟩,
   ⟨{ pending := [], hw := tCanTx }, 0, tWaiting, [], tCommitReq, by decide +kernel, by decide +kernel, by decide +kernel,
     by decide +kernel⟩,
   ⟨{ pending := [], hw := tCanTx }, 0, tWaiting, [], by decide +kernel, by decide +kernel⟩,
   ⟨{ pending := [], hw := tCan }, 0, by decide +kernel⟩,
   ⟨tCanBad 256, 0, by decide +kernel, by decide +kernel⟩,
   ⟨tCanBad 128, 0, by decide +kernel, by decide +kernel, by decide +kernel⟩,
   ⟨⟨[], tCanOff⟩, 0, 128, by decide +kernel, by decide +kernel, by decide +kernel, by decide +kernel⟩,
   ⟨{ pending := [], hw := tCanOff }, tSess 4 1 0, tCanOff.begun (tSess 4 1 0), tRuns (by decide +kernel),
     by decide +kernel, by decide +kernel⟩,
   ⟨{ pending := [], hw := tCan }, by decide +kernel⟩,
   ⟨{ pending := [], hw := tFallback }, 0, tFbFrame, by decide +kernel, by decide +kernel, by decide +kernel,
     by decide +kernel, by decide +kernel⟩⟩

theorem test_meets_TimeTriggeredChannels :
    (∃ (s : State) (d : Desc) (h : Hw) (ch : Nat) (t : TtSchedule), s.hw.RunsTo 0x0E04 d h ∧ h.mode.mode ≠ .baseCamp ∧ d.num
      24 4 ≠ 0 ∧ d.num 16 8 % 8 = 0 ∧ ttParse (slice d.dma 0 (d.num 24 4)) = some (ch, t)) ∧
    (∃ (s : State) (d : Desc) (h : Hw), s.hw.RunsTo 0x0E04 d h ∧ h.mode.mode ≠ .baseCamp ∧ d.num 24 4 = 0) ∧
    (∃ (s : State) (ch : Fin 4) (cycle : Nat) (own : Bool) (h : Hw), s.hw.canOn ch.val = true ∧ (own = false ∨
      s.hw.ttPotential ch.val = true) ∧ h = (s.hw.ttEnd ch.val cycle).ttBegin ch.val ∧ (h.can ch.val).tt.isSome = true) ∧
    (∃ (s : State) (ch : Fin 4) (t : TtSchedule) (m : Nat), s.hw.canOn ch.val = true ∧ (s.hw.can ch.val).tt = some t ∧ m =
      s.hw.par 0x0E16 / 2 ^ (4 * ch.val) % 16 ∧ 8 ≤ m ∧ s.hw.sinceRef ch.val (t.length + 8 * (m % 8 + 1)) = true) ∧
    (∃ (s : State) (ch : Fin 4) (t : TtSchedule), s.hw.netUp = true ∧ (s.hw.can ch.val).tt = some t ∧ (s.hw.can
      ch.val).refLost = false ∧ s.hw.sinceRef ch.val (2 * t.length) = true) :=
  ⟨⟨⟨[], tCan⟩, tTtLoad, tCan.begun tTtLoad, 0, tSchedule, tRuns (by decide +kernel), by decide +kernel, by decide +kernel,
     by decide +kernel, by decide +kernel⟩,
   ⟨⟨[], tCan⟩, tSess 4 12 0, tCan.begun (tSess 4 12 0), tRuns (by decide +kernel), by decide +kernel, by decide +kernel⟩,
   ⟨⟨[], tTt⟩, 0, 63, false, _, by decide +kernel, by decide +kernel, rfl, by decide +kernel⟩,
   ⟨⟨[], tTtMaster⟩, 0, tSchedule, 8, by decide +kernel, by decide +kernel, rfl, by decide +kernel, by decide +kernel⟩,
   ⟨⟨[], tTt⟩, 0, tSchedule, by decide +kernel, by decide +kernel, by decide +kernel, by decide +kernel⟩⟩

theorem test_meets_CanSessionsAndEthernet :
    (∃ (s : State) (d : Desc) (h : Hw) (x : Hw) (b : List Byte), s.hw.RunsTo 0x0E01 d h ∧ h.canIdentity (BitVec.ofNat 32
      (d.num 16 4)) = true ∧ h.sessionCount (·.viaCan) < 2 ∧ h.sessionCount (fun s => s.auth == .motion) < 8 ∧
      h.openSession .motion true true (BitVec.ofNat 32 (d.num 16 4)) = (x, some b)) ∧
    (∃ (s : State) (d : Desc) (h : Hw), s.hw.RunsTo 0x0E01 d h ∧ h.canIdentity (BitVec.ofNat 32 (d.num 16 4)) = false) ∧
    (∃ (s : State) (e1 : Bool) (n : Nat), s.hw.netUp = true ∧ s.hw.portUsed e1 = true ∧ 100 * msTicks ≤ n) ∧
    (∃ (s : State) (e1 : Bool), s.hw.netUp = true ∧ s.hw.portUsed e1 = true) ∧
    (∃ (s : State) (a : W16), s.hw.netUp = true ∧ s.hw.net.e0Up = true ∧ s.hw.unset 0x0E19 = false ∧ s.hw.par 0x0E19 =
      a.toNat ∧ s.hw.appRuns = true) :=
  ⟨⟨{ pending := [], hw := tCanKeys }, tCanOpen, tCanKeys.begun tCanOpen, ((tCanKeys.begun tCanOpen).openSession .motion
     true true (BitVec.ofNat 32 (tCanOpen.num 16 4))).1, (((tCanKeys.begun tCanOpen).openSession .motion true true
     (BitVec.ofNat 32 (tCanOpen.num 16 4))).2).getD [], tRuns (by decide +kernel), by decide +kernel, by decide +kernel,
     by decide +kernel, tSome _ _ (by decide +kernel)⟩,
   ⟨{ pending := [], hw := tFallback }, tCanOpen, tFallback.begun tCanOpen, tRuns (by decide +kernel), by decide +kernel⟩,
   ⟨⟨[], tCan⟩, true, 40000000, by decide +kernel, by decide +kernel, by decide +kernel⟩,
   ⟨{ pending := [], hw := tCan }, false, by decide +kernel, by decide +kernel⟩,
   ⟨⟨[], { tCan with prm := { vals := tCan.prm.vals ++ [(0x0E19, 0x10)] } }⟩, 0x10, by decide +kernel, by decide +kernel,
     by decide +kernel, by decide +kernel, by decide +kernel⟩⟩

theorem test_meets_TeamSharesItsRoles :
    (∃ (s : State) (theirs : Bool), s.hw.awake = true ∧ s.hw.roped = true ∧ s.hw.par 0x0E17 = 0 ∧ s.hw.pair.exchanged =
      false ∧ (s.hw.par 0x0F02 == 0) ≠ theirs) ∧
    (∃ (s : State), s.hw.pairOn = true ∧ s.hw.net.e1Up = true) ∧
    (∃ (s : State) (f : PairFrame), s.hw.pairOn = true ∧ f.crcOk = false) ∧
    (∃ (s : State) (f : PairFrame), s.hw.pairOn = true ∧ f.crcOk = true) ∧
    (∃ (s : State), s.hw.awake = true ∧ s.hw.roped = true ∧ s.hw.pair.okIn = true) ∧
    (∃ (s : State), s.hw.awake = true ∧ s.hw.roped = true) ∧
    (∃ (s : State), s.hw.pairOn = true ∧ s.hw.pair.partner = true ∧ s.hw.pairStale msTicks = false) ∧
    (∃ (s : State) (x : Hw), s.hw.pairOn = true ∧ s.hw.pair.partner = true ∧ x = s.hw.pairJudge ∧ s.hw.pairStale msTicks =
      true ∧ s.hw.pair.okIn = true) ∧
    (∃ (s : State), s.hw.pairOn = true ∧ s.hw.pairMismatch = true ∧ heldFor s.hw.pair.mismatchAt msTicks s.hw.time.now.toNat
      = true) ∧
    (∃ (h : Hw), h.pair.opened = false ∧ h.pairStale (500 * usTicks) = true) :=
  ⟨⟨{ pending := [], hw := { tPair with pair := { tPair.pair with exchanged := false } } }, false, by decide +kernel,
     by decide +kernel, by decide +kernel, by decide +kernel, by decide +kernel⟩,
   ⟨{ pending := [], hw := tPair }, by decide +kernel, by decide +kernel⟩,
   ⟨{ pending := [], hw := tPair }, { tPairFrame with crcOk := false }, by decide +kernel, by decide +kernel⟩,
   ⟨{ pending := [], hw := tPair }, tPairFrame, by decide +kernel, by decide +kernel⟩,
   ⟨{ pending := [], hw := tPair }, by decide +kernel, by decide +kernel, by decide +kernel⟩,
   ⟨{ pending := [], hw := tPair }, by decide +kernel, by decide +kernel⟩,
   ⟨{ pending := [], hw := { tPair with pair := { tPair.pair with frameAt := tPair.time.clock } } }, by decide +kernel,
     by decide +kernel, by decide +kernel⟩,
   ⟨⟨[], tPair⟩, _, by decide +kernel, by decide +kernel, rfl, by decide +kernel, by decide +kernel⟩,
   ⟨⟨[], tMismatch⟩, by decide +kernel, by decide +kernel, by decide +kernel⟩,
   ⟨tPair, by decide +kernel, by decide +kernel⟩⟩

end Sys2Proof.Machine.Tests
end

section
/-!
PROOF. The statements of 01_architecture.md: supplies (R24, R25, R43, R415), the timers of the modes (R9, R22, R23, R44, R48,
R54, R276), setpoints (R11, R37, R116 to R123), protection (R13, R14, R21, R29, R260 to R268) and discharge (R279, R280, R282).
For each operation of the module one lemma per case says what it answers; the statements are put together from these.
-/
namespace Sys2Proof.Machine

/-! ## Commands as operations on the module -/

/-- A command whose operation leads from the module of `s` to `x` answers `y` where `x = y`. Every command being its
operation by definition, this carries an equation about the operation over to the command. -/
theorem next_put_congr {s : State} {x y : Hw} (e : x = y) :
    (.next (s.put x) : Host.Outcome State Fault Refusal) = .next (s.put y) := by rw [e]

theorem next_put_same {s : State} {x : Hw} (e : x = s.hw) :
    (.next (s.put x) : Host.Outcome State Fault Refusal) = .next s := next_put_congr e

/-- Only what the update makes of the bridge's own control matters. -/
theorem Hw.modCtl_congr {h : Hw} {b : Bridge} {f g : Ctl → Ctl} (e : f (h.ctl b) = g (h.ctl b)) :
    h.modCtl b f = h.modCtl b g := by
  cases b with
  | brA => exact congrArg (fun c => { h with ctlA := c }) e
  | brB => exact congrArg (fun c => { h with ctlB := c }) e

/-! ## Supplies (R24, R25, R43, R415) -/

section
variable {h : Hw} {s : State}

theorem Hw.p11Runs_iff : h.p11Runs = true ↔
    h.awake = true ∧ h.mode.mode ≠ .bivouac ∧ 120000 ≤ h.pwr.vdc ∧ h.pwr.vdc ≤ 1050000 := by
  simp [Hw.p11Runs, and_assoc]

/-- Outside the window of R24 P11 does not run. -/
theorem Hw.p11Runs_outside (hv : h.pwr.vdc < 120000 ∨ 1050000 < h.pwr.vdc) : h.p11Runs = false := by
  rw [Bool.eq_false_iff, ne_eq, Hw.p11Runs_iff]
  omega

theorem Hw.vsupLoss_unpowers (hp : h.mode.phase ≠ .unpowered) (ho : h.pwr.onP11 = false) (hr : h.p11Runs = false) :
    h.vsupLoss = h.unpower := by
  simp [Hw.vsupLoss, hp, ho, hr]

theorem Hw.vsupLoss_onP11 (hp : h.mode.phase ≠ .unpowered) (ho : h.pwr.onP11 = false) (hr : h.p11Runs = true) :
    h.vsupLoss = (h.dropVsupDomains.raiseOnce fltVsupLost 0xFF).refreshBoth := by
  simp [Hw.vsupLoss, hp, ho, hr]

theorem exec_vsupLost_held {below : Nat} (hb : msTicks ≤ below) :
    exec (.vsupLost below) s = .next (s.put s.hw.vsupLoss) := next_put_congr (if_pos hb)

theorem exec_vsupLost_short {below : Nat} (hb : below < msTicks) : exec (.vsupLost below) s = .next s :=
  next_put_same (if_neg (Nat.not_le.mpr hb))

/-- Of what the module held, OTP alone outlasts the loss of every supply (R43). -/
theorem Hw.unpower_keeps_otp_alone (h : Hw) :
    h.unpower.mode = {} ∧ h.unpower.host = {} ∧ h.unpower.flt = {} ∧ h.unpower.cnt = {} ∧
    h.unpower.otp.bytes = h.otp.bytes ∧ h.unpower.time.now = 0 ∧ h.unpower.pwr.vsup = 0 :=
  ⟨rfl, rfl, rfl, rfl, rfl, rfl, rfl⟩

theorem exec_vsupReturn_onP11 {vsup : Int} (ho : s.hw.pwr.onP11 = true) (hv : 3800 < vsup) :
    exec (.vsupReturn vsup) s = .next (s.put (({ s.hw with pwr := { s.hw.pwr with onP11 := false, vsup := vsup } } :
      Hw).clearFault fltVsupLost.code 0xFF)) :=
  next_put_congr (if_pos (by simp [ho, hv]))

/-- The DC link as it is seen now, before P11 follows it. -/
def Hw.linkSeen (h : Hw) (vdc : Int) : Hw :=
  { h with
    pwr := { h.pwr with vdc := vdc }
    lv := { h.lv with autoDue := decide (255000 ≤ vdc) && (h.lv.autoDue || decide (h.pwr.vdc < 255000)) }
    sh := { h.sh with ceilAt := heldSince h.sh.ceilAt (decide (h.parI 0x0513 < vdc)) h.time.clock }
    sen := { h.sen with cal := h.sen.cal.map (fun c => c.follow vdc h.time.clock) } }

theorem Hw.setVdc_eq (h : Hw) (vdc : Int) : h.setVdc vdc = (h.linkSeen vdc).checkP11 := rfl

theorem Hw.checkP11_of_vsup (ho : h.pwr.onP11 = false) :
    h.checkP11 = { h with pwr := { h.pwr with p11 := h.p11Runs } } := by
  simp [Hw.checkP11, ho]

/-- A module on P11 alone ends with it (R25). -/
theorem Hw.checkP11_unpowers (ho : h.pwr.onP11 = true) (hr : h.p11Runs = false) :
    h.checkP11 = ({ h with pwr := { h.pwr with p11 := false } } : Hw).unpower := by
  simp [Hw.checkP11, ho, hr]

end

/-- Settles O14: VSUP_LOST, VSUP_RETURN and P11_SUPPLY_CHANGE case by case. -/
theorem supplyChanges : Obligations.SupplyChanges := by
  unfold Obligations.SupplyChanges
  refine ⟨?lost, ?lostOnP11, fun _ _ => exec_vsupLost_short, Hw.unpower_keeps_otp_alone,
    fun _ _ => exec_vsupReturn_onP11, ?link, ?linkOnP11⟩
  case lost =>
    intro s below hb hp ho hr
    rw [exec_vsupLost_held hb, Hw.vsupLoss_unpowers hp ho hr]
  case lostOnP11 =>
    intro s below hb hp ho hr
    rw [exec_vsupLost_held hb, Hw.vsupLoss_onP11 hp ho hr]
  case link =>
    intro s vdc ho
    have seen : s.hw.setVdc vdc = _ := Hw.checkP11_of_vsup (h := s.hw.linkSeen vdc) ho
    exact ⟨_, _, _, _, next_put_congr seen, Hw.p11Runs_iff⟩
  case linkOnP11 =>
    intro s vdc ho hv
    have unpowered : s.hw.setVdc vdc = _ := Hw.checkP11_unpowers (h := s.hw.linkSeen vdc) ho (Hw.p11Runs_outside hv)
    exact ⟨_, next_put_congr unpowered, rfl, rfl, rfl⟩

/-! ## The timers of the modes (R9, R22, R23, R44, R48, R54, R276) -/

section
variable {h : Hw} {s : State}

theorem Hw.ownRequest_grants {t m : Mode} {cause : Byte} (hb : h.modeBusy = false) (hr : h.route t = some m) :
    h.ownRequest t cause = h.grant m none cause 0 := by
  simp [Hw.ownRequest, hb, hr]

theorem Hw.idleTimeout_grants {m : Mode} (hm : h.mode.mode = .baseCamp) (hpp : h.chg.pp = .noPlug)
    (hb : h.modeBusy = false) (hr : h.route .bivouac = some m)
    (ht : h.mode.lastCommand + h.parTicks 0x0207 ≤ h.time.clock) : h.idleTimeout false = h.grant m none 2 0 := by
  simp [Hw.idleTimeout, hm, hpp, ht, Hw.ownRequest_grants hb hr]

theorem Hw.idleTimeout_runs_anew {w : Bool} (hm : h.mode.mode = .baseCamp) (hw : w = true ∨ h.chg.pp ≠ .noPlug) :
    h.idleTimeout w = h.busyNow := by
  simp [Hw.idleTimeout, hm, hw]

theorem Hw.topupNoPermit_due (hp : h.mode.phase = .up) (hw : h.mode.topupWait = true)
    (ht : h.mode.wakeAt + h.parTicks 0x0206 ≤ h.time.clock) :
    h.topupNoPermit = (({ h with mode := { h.mode with topupWait := false, topupBack := true, wm0Armed := false } } :
      Hw).occur fltTopupNoPermit 0xFF).topupReturn := by
  simp [Hw.topupNoPermit, hp, hw, ht]

theorem Hw.belayExpiry_due (hm : h.mode.mode = .belay) (ht : h.mode.belayAt + h.parTicks 0x0A04 ≤ h.time.clock)
    (hc : h.clearedAndAcked h.mode.belayCode h.mode.belaySource = false) :
    h.belayExpiry = h.occur fltBelayExpired 0xFF := by
  simp [Hw.belayExpiry, hm, ht, hc]

/-- The way to BIVOUAC is given up over a live DC link (R54): the grant and a latched wake go, a discharge that was running
for the grant alone ends, and the request completes ABORTED. -/
def Hw.bivouacAborted (g : Grant) (x : Hw) : Hw :=
  let x1 : Hw := { x with mode := { x.mode with granted := none, latched := none } }
  let x2 : Hw := if x.saf.dischargeAuto || !x.saf.dischargeReqs.isEmpty then x1 else
    ({ x1 with saf := { x1.saf with dischargeOn := false, retryAt := none } } : Hw).clearFault fltDischargeHeld.code 0xFF
  (if g.cinch = 0 then x2.completeOpt g.req .aborted else x2.finishCinch g.cinch .aborted).toReady

theorem Hw.bivouacAborted_ends_discharge {g : Grant} {x : Hw} (hc : g.cinch = 0) (ha : x.saf.dischargeAuto = false)
    (hq : x.saf.dischargeReqs = []) :
    x.bivouacAborted g = ((({ x with
      mode := { x.mode with granted := none, latched := none },
      saf := { x.saf with dischargeOn := false, retryAt := none } } : Hw).clearFault fltDischargeHeld.code 0xFF).completeOpt
      g.req .aborted).toReady := by
  simp [Hw.bivouacAborted, hc, ha, hq]

theorem Hw.bivouacAborted_keeps_discharge {g : Grant} {x : Hw} (hc : g.cinch = 0)
    (hd : (x.saf.dischargeAuto || !x.saf.dischargeReqs.isEmpty) = true) :
    x.bivouacAborted g =
      (({ x with mode := { x.mode with granted := none, latched := none } } : Hw).completeOpt g.req .aborted).toReady := by
  simp only [Hw.bivouacAborted, hc, hd, if_true]

theorem Hw.dcLinkLive_aborts {g : Grant} (hg : h.mode.granted = some g) (ht : g.target = .bivouac)
    (hs : g.at' ≤ h.saf.dischargeAt) (h2 : h.saf.dischargeAt + 2 * sTicks ≤ h.time.clock) (hv : 60000 < h.pwr.vdc) :
    h.dcLinkLive = h.occurThen fltDcLinkLive fltDcLinkLive.cls 0xFF (Hw.bivouacAborted g) := by
  have live : h.hvSafe = false := decide_eq_false (Int.not_le.mpr hv)
  simp only [Hw.dcLinkLive, hg]
  exact if_pos (by simp [ht, hs, h2, live])

theorem exec_appSignal_running (ha : s.hw.appRuns = true) :
    exec .appSignal s = .next (s.put (({ s.hw with mode := { s.hw.mode with appMissed := 0 } } : Hw).clearFault
      fltAppSignalLost.code 0xFF)) := next_put_congr (if_pos ha)

theorem Hw.appMiss_third (ha : h.appRuns = true) (hm : h.mode.appMissed = 2) :
    h.appMiss = ({ h with mode := { h.mode with appMissed := 3 } } : Hw).raiseOnce fltAppSignalLost 0xFF := by
  simp [Hw.appMiss, ha, hm]

theorem exec_thermalAllowance_running {budget electronics lvLoad bridges charging lvAbove : Nat}
    (ha : s.hw.appRuns = true) :
    exec (.thermalAllowance budget electronics lvLoad bridges charging lvAbove) s = .next (s.put (s.hw.thermalAllowance
      (shareLoss (s.hw.mode.mode == .charge) budget electronics lvLoad bridges charging lvAbove))) :=
  next_put_congr (if_pos ha)

theorem Hw.allowanceEnd_due (ho : h.saf.allowOn = true) (ht : h.saf.allowAt + 100 * msTicks ≤ h.time.clock) :
    h.allowanceEnd = ({ h with
      ctlA := { h.ctlA with allowance := none }, ctlB := { h.ctlB with allowance := none },
      lv := { h.lv with allowance := none }, chg := { h.chg with allowance := none, dcbAllowance := none },
      saf := { h.saf with allowOn := false } } : Hw).coolantHot :=
  if_pos (by simp [ho, ht])

theorem Hw.coolantHot_by_default (ho : h.saf.allowOn = false) :
    h.coolantHot = if 8500 < h.pwr.coolant then h.raiseOnce fltTrqCoolantHot 0xFF
      else h.clearFault fltTrqCoolantHot.code 0xFF := by
  simp [Hw.coolantHot, ho]

end

/-- Settles O19: each timer's operation in the case that the statement names. -/
theorem modeTimers : Obligations.ModeTimers := by
  unfold Obligations.ModeTimers
  refine ⟨?idle, ?idleAnew, ?topup, ?belay, ?dcLink, fun _ => exec_appSignal_running, ?appLost, ?allowance,
    ?allowanceOver, fun _ => Hw.coolantHot_by_default⟩
  case idle => exact fun s m hm hpp hb hr ht => next_put_congr (Hw.idleTimeout_grants hm hpp hb hr ht)
  case idleAnew => exact fun s w hm hw => next_put_congr (Hw.idleTimeout_runs_anew hm hw)
  case topup => exact fun s hp hw ht => next_put_congr (Hw.topupNoPermit_due hp hw ht)
  case belay => exact fun s hm ht hc => next_put_congr (Hw.belayExpiry_due hm ht hc)
  case dcLink =>
    intro s g hg ht hc hs h2 hv
    exact ⟨Hw.bivouacAborted g, fun _ => Hw.bivouacAborted_ends_discharge hc,
      fun _ => Hw.bivouacAborted_keeps_discharge hc, next_put_congr (Hw.dcLinkLive_aborts hg ht hs h2 hv)⟩
  case appLost => exact fun s ha hm => next_put_congr (Hw.appMiss_third ha hm)
  case allowance =>
    rintro s budget electronics lvLoad bridges charging lvAbove _ ha rfl
    exact exec_thermalAllowance_running ha
  case allowanceOver => exact fun s ho ht => next_put_congr (Hw.allowanceEnd_due ho ht)

/-! ## Setpoints (R11, R37, R116, R117, R120, R123) -/

section
variable {h k : Hw} {s : State} {d : Desc} {b : Bridge}

theorem Hw.setpoint_refused {speed : Bool} {st : Status} {q : Req} (hc : h.setpointCheck speed d = .inl st) :
    h.setpoint speed d q = h.complete q st := by
  simp [Hw.setpoint, hc]

theorem Hw.setpoint_accepted {speed : Bool} {q : Req} (hc : h.setpointCheck speed d = .inr b) :
    h.setpoint speed d q = (h.noteFallback d).acceptSetpoint b
      { sp := if speed then speedSp d else torqueSp d, req := some q } := by
  simp [Hw.setpoint, hc]

/-- A setpoint for a running bridge waits for the next control boundary (R116). -/
theorem Hw.acceptSetpoint_pends {p : SetReq} (hk : k = h.renew b) (hg : k.mode.granted = none)
    (hs : k.shiftHolds b = false) (hp : (k.ctl b).state.safe = false) (hy : (k.ctl b).state ≠ .sync) :
    h.acceptSetpoint b p = k.pendSetpoint b p := by
  subst hk
  simp [Hw.acceptSetpoint, hg, hs, hp, hy]

/-- A setpoint for a bridge in a safe pattern or in SYNC is stored (R11). -/
theorem Hw.acceptSetpoint_stores {p : SetReq} (hk : k = h.renew b) (hg : k.mode.granted = none)
    (hs : k.shiftHolds b = false) (hp : (k.ctl b).state.safe = true ∨ (k.ctl b).state = .sync) :
    h.acceptSetpoint b p = k.storeSetpoint b p := by
  subst hk
  simp [Hw.acceptSetpoint, hg, hs, hp]

/-- A granted transition or a shift of the bridge holds a setpoint (R37, R140). -/
theorem Hw.acceptSetpoint_holds {p : SetReq} (hk : k = h.renew b)
    (hh : k.mode.granted.isSome = true ∨ k.shiftHolds b = true) : h.acceptSetpoint b p = k.holdSetpoint b p := by
  subst hk
  simp [Hw.acceptSetpoint, hh]

theorem Hw.setpoint_pends {speed : Bool} {q : Req} (hc : h.setpointCheck speed d = .inr b)
    (hk : k = (h.noteFallback d).renew b) (hg : k.mode.granted = none) (hs : k.shiftHolds b = false)
    (hp : (k.ctl b).state.safe = false) (hy : (k.ctl b).state ≠ .sync) :
    h.setpoint speed d q = k.pendSetpoint b { sp := if speed then speedSp d else torqueSp d, req := some q } := by
  rw [Hw.setpoint_accepted hc, Hw.acceptSetpoint_pends hk hg hs hp hy]

theorem Hw.setpoint_stores {speed : Bool} {q : Req} (hc : h.setpointCheck speed d = .inr b)
    (hk : k = (h.noteFallback d).renew b) (hg : k.mode.granted = none) (hs : k.shiftHolds b = false)
    (hp : (k.ctl b).state.safe = true ∨ (k.ctl b).state = .sync) :
    h.setpoint speed d q = k.storeSetpoint b { sp := if speed then speedSp d else torqueSp d, req := some q } := by
  rw [Hw.setpoint_accepted hc, Hw.acceptSetpoint_stores hk hg hs hp]

theorem Hw.setpoint_holds {speed : Bool} {q : Req} (hc : h.setpointCheck speed d = .inr b)
    (hk : k = (h.noteFallback d).renew b) (hh : k.mode.granted.isSome = true ∨ k.shiftHolds b = true) :
    h.setpoint speed d q = k.holdSetpoint b { sp := if speed then speedSp d else torqueSp d, req := some q } := by
  rw [Hw.setpoint_accepted hc, Hw.acceptSetpoint_holds hk hh]

theorem exec_torqueSet_of_setpoint {x : Hw} (r : s.hw.RunsTo 0x0501 d h) (e : h.setpoint false d d.req = x) :
    exec (.torqueSet d) s = .next (s.put x) := next_put_congr ((Hw.descriptor_runs r).trans e)

theorem exec_speedSet_of_setpoint {x : Hw} (r : s.hw.RunsTo 0x0502 d h) (e : h.setpoint true d d.req = x) :
    exec (.speedSet d) s = .next (s.put x) := next_put_congr ((Hw.descriptor_runs r).trans e)

theorem exec_torquePair_of_pairSet {x : Hw} (r : s.hw.RunsTo 0x0503 d h) (e : h.pairSet d d.req = x) :
    exec (.torquePair d) s = .next (s.put x) := next_put_congr ((Hw.descriptor_runs r).trans e)

theorem exec_motorMapLoad_of_mapLoad {x : Hw} (r : s.hw.RunsTo 0x0504 d h) (e : h.mapLoad d d.req = x) :
    exec (.motorMapLoad d) s = .next (s.put x) := next_put_congr ((Hw.descriptor_runs r).trans e)

/-- A pair that nothing holds waits for the CONTROL_AB boundary (R120). -/
theorem Hw.pairSet_pends {q : Req} (hc : h.pairCheck d = none) (hk : k = (h.renew .brA).renew .brB)
    (hg : k.mode.granted = none) (ha : k.shiftHolds .brA = false) (hb : k.shiftHolds .brB = false) :
    h.pairSet d q = k.pendPair ((pairSp d).1, (pairSp d).2, some q) := by
  subst hk
  simp [Hw.pairSet, hc, Hw.acceptPair, hg, ha, hb]

/-- A granted transition or a shift of either bridge holds a pair as a whole (R37, R140). -/
theorem Hw.pairSet_holds {q : Req} (hc : h.pairCheck d = none) (hk : k = (h.renew .brA).renew .brB)
    (hh : k.mode.granted.isSome = true ∨ k.shiftHolds .brA = true ∨ k.shiftHolds .brB = true) :
    h.pairSet d q = k.holdPair ((pairSp d).1, (pairSp d).2, some q) := by
  subst hk
  simp [Hw.pairSet, hc, Hw.acceptPair, or_assoc, hh]

theorem Hw.mapLoad_accepted {t : MotorTable} {q : Req} (hc : h.mapCheck d false = .inr (b, t)) :
    h.mapLoad d q = h.modCtl b (fun c => c.stageMap t q) := by
  simp [Hw.mapLoad, hc]

theorem Hw.mapLoad_refused {st : Status} {q : Req} (hc : h.mapCheck d false = .inl st) :
    h.mapLoad d q = (h.mapReject d st).complete q st := by
  simp [Hw.mapLoad, hc]

/-- A bridge in service with a target ramps to zero torque (R117). -/
theorem Hw.toZero_retargets {sp : Setpoint} (ht : (h.ctl b).target = some sp) (hs : (h.ctl b).state.inService = true) :
    h.toZero b = h.modCtl b (fun c => { c.retarget (zeroSp sp) with stored := none, stale := true }) :=
  Hw.modCtl_congr (by simp [ht, hs])

theorem Hw.setpointTimeout_due {sp : Setpoint} (ht : (h.ctl b).target = some sp) (hs : (h.ctl b).stale = false)
    (hd : (h.ctl b).renewedAt + h.parTicks 0x051E ≤ h.time.clock) :
    h.setpointTimeout b = (h.toZero b).raiseOnce fltTrqSetpointStale (BitVec.ofNat 8 b.code) := by
  simp [Hw.setpointTimeout, ht, hs, hd]

theorem Hw.setpointTimeout_early (hd : h.time.clock < (h.ctl b).renewedAt + h.parTicks 0x051E) :
    h.setpointTimeout b = h := by
  simp [Hw.setpointTimeout, Nat.not_le.mpr hd]

end

/-- Settles O32: each command reaches its own part, which takes the setpoint in one of the three ways of
`Hw.acceptSetpoint` or the two of `Hw.acceptPair`, or completes with the status of its check. -/
theorem setpointsAreTaken : Obligations.SetpointsAreTaken := by
  unfold Obligations.SetpointsAreTaken
  refine ⟨?torquePends, ?torqueStores, ?torqueHolds, ?torqueRefused, ?speedPends, ?speedStores, ?speedHolds,
    ?speedRefused, ?pairPends, ?pairHolds, ?mapStages, ?mapRefused, ?timeout, ?early⟩
  case torquePends =>
    exact fun s d h k b r hc hk hg hs hp hy => exec_torqueSet_of_setpoint r (Hw.setpoint_pends hc hk hg hs hp hy)
  case torqueStores => exact fun s d h k b r hc hk hg hs hp => exec_torqueSet_of_setpoint r (Hw.setpoint_stores hc hk hg hs hp)
  case torqueHolds => exact fun s d h k b r hc hk hh => exec_torqueSet_of_setpoint r (Hw.setpoint_holds hc hk hh)
  case torqueRefused => exact fun s d h st r hc => exec_torqueSet_of_setpoint r (Hw.setpoint_refused hc)
  case speedPends =>
    exact fun s d h k b r hc hk hg hs hp hy => exec_speedSet_of_setpoint r (Hw.setpoint_pends hc hk hg hs hp hy)
  case speedStores => exact fun s d h k b r hc hk hg hs hp => exec_speedSet_of_setpoint r (Hw.setpoint_stores hc hk hg hs hp)
  case speedHolds => exact fun s d h k b r hc hk hh => exec_speedSet_of_setpoint r (Hw.setpoint_holds hc hk hh)
  case speedRefused => exact fun s d h st r hc => exec_speedSet_of_setpoint r (Hw.setpoint_refused hc)
  case pairPends =>
    rintro s d h k _ r hc hk hg ha hb rfl
    exact exec_torquePair_of_pairSet r (Hw.pairSet_pends hc hk hg ha hb)
  case pairHolds =>
    rintro s d h k _ r hc hk hh rfl
    exact exec_torquePair_of_pairSet r (Hw.pairSet_holds hc hk hh)
  case mapStages => exact fun s d h b t r hc => exec_motorMapLoad_of_mapLoad r (Hw.mapLoad_accepted hc)
  case mapRefused => exact fun s d h st r hc => exec_motorMapLoad_of_mapLoad r (Hw.mapLoad_refused hc)
  case timeout =>
    intro s b sp ht hi hs hd
    rw [← Hw.toZero_retargets ht hi]
    exact next_put_congr (Hw.setpointTimeout_due ht hs hd)
  case early => exact fun s b hd => next_put_same (Hw.setpointTimeout_early hd)

/-! ## Checkers, votes, memories, clocks, supplies and safety outputs (R13, R14, R21, R29, R260, R261, R267, R268) -/

section
variable {h : Hw} {s : State} {b : Bridge}

theorem exec_checkerMismatch_awake (ha : s.hw.awake = true) :
    exec (.checkerMismatch b) s = .next (s.put (s.hw.checkerMismatch b)) := next_put_congr (if_pos ha)

/-- A field that is not flagged alone within 10 cycles fails the injection (R261). -/
theorem exec_checkerInject_missed {f n : Nat} {l : List Nat} (ha : s.hw.awake = true) (hl : l ≠ [f] ∨ 10 < n) :
    exec (.checkerInject b f l n) s = .next (s.put
      ((s.hw.raiseOnce fltCheckerInjectFail (BitVec.ofNat 8 b.code)).endTest 0x0A01 0 .hwFault)) := by
  have missed : (l == [f] && decide (n ≤ 10)) = false := by
    rcases hl with hl | hl <;> simp [hl]
  exact next_put_congr (by simp [ha, missed])

theorem exec_checkerInject_flagged {f n : Nat} (ha : s.hw.awake = true) (hn : n ≤ 10) :
    exec (.checkerInject b f [f] n) s = .next (s.put (s.hw.endTest 0x0A01 0 .done)) :=
  next_put_congr (by simp [ha, hn])

theorem exec_memoryError_corrected {o : MemOwner} (ha : s.hw.awake = true) :
    exec (.memoryError o true) s = .next (s.put (s.hw.count (memCounter o) 1)) := next_put_congr (by simp [ha])

theorem exec_memoryError_uncorrected {o : MemOwner} (ha : s.hw.awake = true) :
    exec (.memoryError o false) s = .next (s.put (s.hw.memoryFault o)) := next_put_congr (by simp [ha])

theorem exec_negoacMismatch_noMajority (ha : s.hw.awake = true) (hm : s.hw.saf.noMajority = false) :
    exec (.negoacMismatch .noMajority) s = .next (s.put s.hw.loseMajority) := next_put_congr (by simp [ha, hm])

theorem exec_negoacMismatch_one {c : Fin 3} (ha : s.hw.awake = true) (hm : s.hw.saf.noMajority = false) :
    exec (.negoacMismatch (.one c)) s = .next (s.put (s.hw.oneDiffers c.val)) := next_put_congr (by simp [ha, hm])

/-- The first difference of a core within the hour, with all three voting and no other just resynchronised, ends with its
resynchronisation (R260). -/
theorem Hw.oneDiffers_first {c : Nat} (hout : h.saf.coresOut ||| h.splitCore = 0)
    (hothers : (List.range 3).any (fun k => k != c && (h.saf.resync.get k []).any
      (fun t => h.time.clock < t + 40 * usTicks)) = false)
    (hfirst : h.saf.resync.get c [] = []) :
    h.oneDiffers c = (({ h with
      saf := { h.saf with resync := h.saf.resync.set c [h.time.clock] } } : Hw).count 0x092 1).occur fltNegoacResync
      (BitVec.ofNat 8 c) := by
  simp [Hw.oneDiffers, hout, hothers, hfirst]

/-- With every supply and clock there, the series path closes as the vote comes back (R260). -/
theorem Hw.negoacRestart_closes (hm : h.saf.noMajority = true) (hs : h.pwr.senseLost = false)
    (hc : h.pwr.clocksLost = []) :
    h.negoacRestart = (((({ h with saf := { h.saf with noMajority := false, seriesOpen := false } } : Hw).clearFault
      fltNegoacNoMajority.code 0xFF).safeRestart).refreshBoth) := by
  simp [Hw.negoacRestart, hm, hs, hc]

theorem exec_voterTest_passed :
    exec (.voterTest [true, true, true, true, true, true, true, true]) s = .next (s.put (s.hw.endTest 0x0A04 0 .done)) :=
  next_put_congr rfl

theorem exec_voterTest_failed {l : List Bool} (hl : false ∈ l) :
    exec (.voterTest l) s = .next (s.put (s.hw.endTest 0x0A04 0 .hwFault)) := by
  have failed : l.all id = false := List.all_eq_false.mpr ⟨false, hl, Bool.false_ne_true⟩
  exact next_put_congr (by simp only [failed, Bool.and_false, Bool.false_eq_true, if_false])

theorem exec_clockLoss_lost {c : ClockLoss} (ha : s.hw.awake = true) :
    exec (.clockLoss c true) s = .next (s.put (s.hw.clockLoss c)) := next_put_congr (by simp [ha])

theorem exec_clockLoss_back {c : ClockLoss} (ha : s.hw.awake = true) (hc : s.hw.pwr.clocksLost.contains c = true) :
    exec (.clockLoss c false) s = .next (s.put (s.hw.clockBack c)) :=
  next_put_congr (by simp only [ha, hc, Bool.not_true, Bool.false_eq_true, if_false, if_true])

/-- With the last clock back and nothing else holding it, the series path closes and CLOCK_LOSS ends (R29, R439). -/
theorem Hw.clockBack_last {c : ClockLoss} (hl : h.pwr.clocksLost.filter (fun x => x != c) = [])
    (hs : h.pwr.senseLost = false) (hm : h.saf.noMajority = false) :
    h.clockBack c = (({ h with
      pwr := { h.pwr with clocksLost := [] }, saf := { h.saf with seriesOpen := false } } : Hw).clearFault
      fltClockLoss.code 0xFF) := by
  simp [Hw.clockBack, Hw.seriesHeld, hl, hs, hm]

theorem exec_ck0Fallback_awake (ha : s.hw.awake = true) :
    exec .ck0Fallback s = .next (s.put (({ s.hw with time := { s.hw.time with ck0Rc := true } } : Hw).raiseOnce
      fltCk0Fallback 0xFF)) := next_put_congr (if_pos ha)

theorem exec_senseSupplyLost_lost (ha : s.hw.awake = true) :
    exec (.senseSupplyLost true) s = .next (s.put s.hw.senseSupplyLost) := next_put_congr (by simp [ha])

theorem exec_senseSupplyLost_back (ha : s.hw.awake = true) (hs : s.hw.pwr.senseLost = true) :
    exec (.senseSupplyLost false) s = .next (s.put s.hw.senseSupplyBack) := next_put_congr (by simp [ha, hs])

theorem exec_soTest_up {second : Bool} {f : SoFinding} (hp : s.hw.mode.phase = .up) :
    exec (.soTest second f) s = .next (s.put (s.hw.soTest second f)) := next_put_congr (if_pos (by simp [hp]))

theorem Hw.soTest_off_passes {second : Bool} {before during : Int}
    (ho : (if second then h.saf.so2 else h.saf.so1) = false) (hb : before ≤ 2000) (hl : 200 ≤ during)
    (hu : during ≤ 5000) : h.soTest second (.off before during) = h.soPass (if second then 2 else 1) := by
  simp [Hw.soTest, ho, Int.not_lt.mpr hb, Int.not_lt.mpr hl, Int.not_lt.mpr hu]

theorem Hw.soTest_off_shorted {second : Bool} {before during : Int}
    (ho : (if second then h.saf.so2 else h.saf.so1) = false) (hb : 2000 < before) :
    h.soTest second (.off before during) = h.soShort (if second then 2 else 1) 0 := by
  simp [Hw.soTest, ho, hb]

theorem Hw.soShort_new {out : Byte} {arg : W32} (hn : h.faultActive fltSoShort.code out = false) :
    h.soShort out arg = (h.raiseAs fltSoShort fltSoShort.cls out arg true).endTest 0x0A03 0 .hwFault := by
  simp only [Hw.soShort, hn, Bool.false_eq_true, if_false]

/-- Safety output 1 keeps its current while its high switch is open: that switch has failed (R267). -/
theorem Hw.soTest_gap_holds (ho : h.saf.so1 = true) (hl : h.saf.so1Low = false) :
    h.soTest false (.gap false) = (({ h with saf := { h.saf with so1Low := true } } : Hw).raiseOnce
      fltSoSwitchFail 16).endTest 0x0A03 0 .hwFault := by
  simp [Hw.soTest, Hw.soGap, ho, hl]

theorem watchdogServed_iff {n : Nat} : watchdogServed n = true ↔ 500 * usTicks ≤ n ∧ n ≤ 1500 * usTicks := by
  simp [watchdogServed]

theorem exec_faultOutWatchdogExpiry_missed {n : Nat} (ha : s.hw.awake = true)
    (hn : n < 500 * usTicks ∨ 1500 * usTicks < n) :
    exec (.faultOutWatchdogExpiry n) s = .next (s.put { s.hw with saf := { s.hw.saf with wdExpired := true } }) := by
  have missed : watchdogServed n = false := by
    rw [Bool.eq_false_iff, ne_eq, watchdogServed_iff]
    omega
  exact next_put_congr (if_pos (by simp [ha, missed]))

theorem exec_faultOutWatchdogExpiry_served {n : Nat} (hl : 500 * usTicks ≤ n) (hu : n ≤ 1500 * usTicks) :
    exec (.faultOutWatchdogExpiry n) s = .next s :=
  next_put_same (if_neg (by simp [watchdogServed_iff.mpr ⟨hl, hu⟩]))

end

/-- Settles O43: each watch's command in the case that the statement names. -/
theorem protectionActs : Obligations.ProtectionActs := by
  unfold Obligations.ProtectionActs
  refine ⟨fun _ _ => exec_checkerMismatch_awake, fun _ _ _ _ _ => exec_checkerInject_missed,
    fun _ _ _ _ => exec_checkerInject_flagged, fun _ _ => exec_memoryError_corrected,
    fun _ _ => exec_memoryError_uncorrected, fun _ => exec_negoacMismatch_noMajority, ?oneDiffers, ?restart,
    fun _ => exec_voterTest_passed, fun _ _ => exec_voterTest_failed, fun _ _ => exec_clockLoss_lost, ?clockBack,
    fun _ => exec_ck0Fallback_awake, fun _ => exec_senseSupplyLost_lost, ?senseBack, ?soPasses, ?soShorted, ?soGap,
    fun _ _ => exec_faultOutWatchdogExpiry_missed, fun _ _ => exec_faultOutWatchdogExpiry_served⟩
  case oneDiffers =>
    intro s c ha hm hout hothers hfirst
    rw [exec_negoacMismatch_one ha hm, Hw.oneDiffers_first hout hothers hfirst]
  case restart => exact fun s hm hs hc => next_put_congr (Hw.negoacRestart_closes hm hs hc)
  case clockBack =>
    intro s c ha hc hl hs hm
    rw [exec_clockLoss_back ha hc, Hw.clockBack_last hl hs hm]
  case senseBack => exact fun s ha hs => ⟨_, rfl, exec_senseSupplyLost_back ha hs⟩
  case soPasses =>
    intro s second before during hp ho hb hl hu
    rw [exec_soTest_up hp, Hw.soTest_off_passes ho hb hl hu, Hw.soPass]
  case soShorted =>
    intro s second before during hp ho hb hn
    rw [exec_soTest_up hp, Hw.soTest_off_shorted ho hb, Hw.soShort_new hn]
  case soGap =>
    intro s hp ho hl
    rw [exec_soTest_up hp, Hw.soTest_gap_holds ho hl]

/-! ## Discharge and the interlock loop (R25, R279, R280, R282) -/

section
variable {h : Hw} {s : State}

theorem exec_discharge_runs {d : Desc} (r : s.hw.RunsTo 0x0A03 d h) :
    exec (.discharge d) s = .next (s.put (h.dischargeAsk d.req)) := next_put_congr (Hw.descriptor_runs r)

theorem Hw.dischargeAsk_inReady {q : Req} (hm : h.mode.mode = .ready) :
    h.dischargeAsk q =
      ({ h with saf := { h.saf with dischargeReqs := h.saf.dischargeReqs ++ [q] } } : Hw).dischargeLook := by
  simp [Hw.dischargeAsk, hm]

/-- Discharge that is wanted starts where nothing is in its way: both bridges in OPEN, the OBC and the converter at rest. -/
theorem Hw.dischargeLook_starts (hw : h.dischargeWanted = true) (ho : h.saf.dischargeOn = false)
    (hr : h.saf.retryAt = none) (hp : h.mode.phase = .up) (hv : h.hvSafe = false) (hc : h.chg.active = false)
    (hl : h.lv.active = false) (hlw : h.lv.state ≠ .waiting) (hb : h.bothOpen = true)
    (hf : h.anyActive [fltDischargeFail.code] = false) :
    h.dischargeLook = { h with saf := { h.saf with
      dischargeOn := true, dischargeAt := h.time.clock, dischargeFrom := h.pwr.vdc } } := by
  have due : (!h.dischargeWanted || h.saf.dischargeOn || h.saf.retryAt.isSome || h.mode.phase != .up) = false := by
    simp [hw, ho, hr, hp]
  have lvRests : (h.lv.active || h.lv.state == .waiting) = false := by simp [hl, hlw]
  have free : (!h.bothOpen || h.anyActive [fltDischargeFail.code]) = false := by rw [hb, hf]; rfl
  simp only [Hw.dischargeLook, due, hv, hc, lvRests, free, Bool.false_eq_true, if_false]

/-- A link still at 90 % of its start after 200 ms holds discharge off for 10 s (R280). -/
theorem Hw.dischargeHeld_stands {v : Int} (ho : h.saf.dischargeOn = true)
    (ht : h.saf.dischargeAt + 200 * msTicks ≤ h.time.clock) (hv : 9 * h.saf.dischargeFrom ≤ 10 * v) :
    h.dischargeHeld v = (((({ h with
      saf := { h.saf with dischargeOn := false, retryAt := some (h.time.clock + 10 * sTicks) } } : Hw).addEnergy 0x02B
      (v * v * 400 / 3).toNat).raiseOnce fltDischargeHeld 0xFF).setVdc v) := by
  simp [Hw.dischargeHeld, ho, Nat.not_lt.mpr ht, Int.not_lt.mpr hv]

theorem Hw.dischargeRetry_due {t : Nat} (hr : h.saf.retryAt = some t) (ht : t ≤ h.time.clock) :
    h.dischargeRetry = ({ h with saf := { h.saf with retryAt := none } } : Hw).dischargeLook := by
  simp [Hw.dischargeRetry, hr, ht]

theorem Hw.dischargeFail_raises {ma : Int} (ho : h.saf.dischargeOn = true)
    (ht : h.saf.dischargeAt + 5 * msTicks ≤ h.time.clock) (hm : ma ≤ 0) :
    h.dischargeFail ma = ({ h with saf := { h.saf with dischargeOn := false } } : Hw).raiseOnce fltDischargeFail 0xFF := by
  simp [Hw.dischargeFail, ho, ht, hm]

/-- A module on VSUP keeps its mode as the DC link changes, and sees the link as it is. -/
theorem Hw.setVdc_of_vsup {v : Int} (ho : h.pwr.onP11 = false) :
    (h.setVdc v).mode = h.mode ∧ (h.setVdc v).pwr.vdc = v := by
  rw [Hw.setVdc_eq, Hw.checkP11_of_vsup (h := h.linkSeen v) ho]
  exact ⟨rfl, rfl⟩

theorem Hw.dischargeDone_ends {v : Int} (hp : h.mode.phase = .up) (h11 : h.pwr.onP11 = false)
    (ho : h.saf.dischargeOn = true) (hv : v ≤ 60000) :
    h.dischargeDone v = ((h.dischargeEnergy v).setVdc v).dischargeEnd := by
  obtain ⟨hmode, hvdc⟩ := Hw.setVdc_of_vsup (h := h.dischargeEnergy v) (v := v) h11
  have safe : ((h.dischargeEnergy v).setVdc v).hvSafe = true := decide_eq_true (by rw [hvdc]; exact hv)
  have up : ((h.dischargeEnergy v).setVdc v).mode.phase = .up := (congrArg _ hmode).trans hp
  simp [Hw.dischargeDone, ho, hv, safe, up]

theorem exec_hvilLoopChange_held {ua : Int} {n : Nat} (hn : 10 * msTicks ≤ n) :
    exec (.hvilLoopChange ua n) s = .next (s.put (s.hw.hvilChange ua)) := next_put_congr (if_pos hn)

theorem Hw.hvilChange_closed {ua : Int} (hp : h.mode.phase = .up) (hs : hvilState (h.par 0x0A0A) ua = 0) :
    h.hvilChange ua = ((({ h with saf := { h.saf with hvil := 0, hvilCurrent := ua } } : Hw).clearFault
      fltHvilOpen.code 0xFF).clearFault fltHvilShort.code 0xFF) := by
  simp [Hw.hvilChange, hp, hs]

theorem Hw.hvilChange_shorted {ua : Int} (hp : h.mode.phase = .up) (hs : hvilState (h.par 0x0A0A) ua = 2) :
    h.hvilChange ua = ((({ h with saf := { h.saf with hvil := 2, hvilCurrent := ua } } : Hw).clearFault
      fltHvilOpen.code 0xFF).raiseOnce fltHvilShort 0xFF) := by
  simp [Hw.hvilChange, hp, hs]

theorem Hw.hvilChange_open {ua : Int} (hp : h.mode.phase = .up) (hs : hvilState (h.par 0x0A0A) ua = 1) :
    h.hvilChange ua = ((({ h with saf := { h.saf with hvil := 1, hvilCurrent := ua } } : Hw).clearFault
      fltHvilShort.code 0xFF).hvilOpen) := by
  simp [Hw.hvilChange, hp, hs]

end

/-- Settles O45: the operations of a discharge from its request to its end, and the three states of the interlock loop. -/
theorem dischargeRuns : Obligations.DischargeRuns := by
  unfold Obligations.DischargeRuns
  refine ⟨?asked, ?starts, ?held, ?retry, ?fail, ?done, ?hvilClosed, ?hvilShorted, ?hvilOpen⟩
  case asked =>
    intro s d h r hm
    rw [exec_discharge_runs r, Hw.dischargeAsk_inReady hm]
  case starts =>
    exact fun s hw ho hr hp hv hc hl hlw hb hf => next_put_congr (Hw.dischargeLook_starts hw ho hr hp hv hc hl hlw hb hf)
  case held => exact fun s v ho ht hv => next_put_congr (Hw.dischargeHeld_stands ho ht hv)
  case retry => exact fun s t hr ht => next_put_congr (Hw.dischargeRetry_due hr ht)
  case fail => exact fun s ma ho ht hm => next_put_congr (Hw.dischargeFail_raises ho ht hm)
  case done => exact fun s v hp h11 ho hv => next_put_congr (Hw.dischargeDone_ends hp h11 ho hv)
  case hvilClosed =>
    intro s ua n hp hn hs
    rw [exec_hvilLoopChange_held hn, Hw.hvilChange_closed hp hs]
  case hvilShorted =>
    intro s ua n hp hn hs
    rw [exec_hvilLoopChange_held hn, Hw.hvilChange_shorted hp hs]
  case hvilOpen =>
    intro s ua n hp hn hs
    rw [exec_hvilLoopChange_held hn, Hw.hvilChange_open hp hs]

end Sys2Proof.Machine
end

section
/-!
PROOF. The statements of 02_modes.md: the state after reset (R43, R342, R351), wake and bring-up (R38 to R46, R278), images at
wake (R47, R335, R337, R400), mode requests and mode edges (R36, R38, R50) and requested tests (R51, R136, R167, R265).
-/
namespace Sys2Proof.Machine

/-! ## Reset (R43) -/

/-- The unpowered module keeps every limit: it holds nothing that a limit speaks of. -/
theorem State.reset_sound : State.reset.hw.Sound where
  counters := List.forall_mem_nil _
  history := Nat.zero_le _
  events := Nat.zero_le _
  otp := rfl

/-- Settles O2: what the reset state holds is empty, so every table of it reads its default. -/
theorem resetIsBivouac : Obligations.ResetIsBivouac :=
  ⟨rfl, rfl, rfl, fun _ => rfl, rfl, fun _ => rfl, fun _ => rfl, State.reset_sound⟩

/-! ## What an event leaves alone

`Hw.Quiet` read field by field, and an event as a quiet operation. -/

section
variable {h : Hw} {s : State}

theorem Hw.Quiet.mode_eq {g : Hw} (q : g.Quiet h) : h.mode = g.mode := by
  rw [Hw.Quiet] at q
  rw [q]

theorem Hw.Quiet.otp_eq {g : Hw} (q : g.Quiet h) : h.otp = g.otp := by
  rw [Hw.Quiet] at q
  rw [q]

theorem Hw.Quiet.time_eq {g : Hw} (q : g.Quiet h) : h.time = g.time := by
  rw [Hw.Quiet] at q
  rw [q]

theorem Hw.Quiet.pwr_eq {g : Hw} (q : g.Quiet h) : h.pwr = g.pwr := by
  rw [Hw.Quiet] at q
  rw [q]

theorem Hw.postEvent_quiet (h : Hw) (ty : W16) (time : W64) (body : List Byte) : h.Quiet (h.postEvent ty time body) :=
  (q_iff _ _).1 (Hw.postEvent_q ty time body (q_refl h))

@[simp] theorem Hw.postEvent_mode (h : Hw) (ty : W16) (time : W64) (body : List Byte) :
    (h.postEvent ty time body).mode = h.mode := (h.postEvent_quiet ty time body).mode_eq

@[simp] theorem Hw.postEvent_otp (h : Hw) (ty : W16) (time : W64) (body : List Byte) :
    (h.postEvent ty time body).otp = h.otp := (h.postEvent_quiet ty time body).otp_eq

@[simp] theorem Hw.postEvent_time (h : Hw) (ty : W16) (time : W64) (body : List Byte) :
    (h.postEvent ty time body).time = h.time := (h.postEvent_quiet ty time body).time_eq

@[simp] theorem Hw.postEvent_pwr (h : Hw) (ty : W16) (time : W64) (body : List Byte) :
    (h.postEvent ty time body).pwr = h.pwr := (h.postEvent_quiet ty time body).pwr_eq

/-! ## Wake (R38, R40, R42, R43, R373) -/

theorem Hw.wakeUp_otp (h : Hw) (code : Nat) : (h.wakeUp code).otp = h.otp.resolve := by simp [Hw.wakeUp]

theorem Hw.wakeUp_pwr (h : Hw) (code : Nat) : (h.wakeUp code).pwr = h.pwr := by simp [Hw.wakeUp]

theorem Hw.wakeUp_now (h : Hw) (code : Nat) : (h.wakeUp code).time.now = h.time.now := by simp [Hw.wakeUp]

theorem Hw.wakeUp_phase (h : Hw) (code : Nat) : (h.wakeUp code).mode.phase = .bringUp := by simp [Hw.wakeUp]

theorem Hw.wakeUp_reason (h : Hw) (code : Nat) : (h.wakeUp code).mode.wakeReason = BitVec.ofNat 16 code := by
  simp [Hw.wakeUp]

theorem Hw.wakeUp_latched (h : Hw) (code : Nat) : (h.wakeUp code).mode.latched = none := by simp [Hw.wakeUp]

/-- A wake from a module that differs from that of `s` in anything but OTP is still a wake of `s`. -/
theorem State.woken_wakeUp {code : Nat} (ho : h.otp = s.hw.otp) : s.Woken (s.put (h.wakeUp code)) code :=
  ⟨rfl, h.wakeUp_phase code, h.wakeUp_reason code, (h.wakeUp_otp code).trans (congrArg Otp.resolve ho),
    h.wakeUp_latched code⟩

/-- With VSUP at its least a source wakes the module; the frame of R44 that follows WM0 changes only what has left. -/
theorem State.woken_wakeFrom {src : Nat} (hv : vsupMin ≤ s.hw.pwr.vsup) : s.Woken (s.put (s.hw.wakeFrom src)) src := by
  have woken : s.Woken (s.put (s.hw.wakeUp src)) src := State.woken_wakeUp rfl
  rw [Hw.wakeFrom, if_neg (Int.not_lt.mpr hv)]
  split
  · exact woken
  · exact woken

theorem Hw.wakeBy_asleep {src : Nat} (hp : h.mode.phase = .asleep) (hl : h.mode.latched = none) :
    h.wakeBy src = h.wakeFrom src := by
  simp [Hw.wakeBy, hp, hl]

/-- A command that comes down to a wake source that fires wakes the sleeping module. -/
theorem State.wakes_of_wakeBy {c : Instr} {src : Nat} (e : exec c s = .next (s.put (s.hw.wakeBy src)))
    (hp : s.hw.mode.phase = .asleep) (hl : s.hw.mode.latched = none) (hv : 3800 ≤ s.hw.pwr.vsup) :
    ∃ t, exec c s = .next t ∧ s.Woken t src :=
  ⟨_, e.trans (next_put_congr (Hw.wakeBy_asleep hp hl)), State.woken_wakeFrom hv⟩

theorem exec_wakeEvent_enabled {src : Fin 14} {falling : Bool} {level : Int}
    (he : s.hw.wakeEnabled src.val falling level = true) :
    exec (.wakeEvent src falling level) s = .next (s.put (s.hw.wakeBy src.val)) := next_put_congr (if_pos he)

theorem exec_wakeEvent_disabled {src : Fin 14} {falling : Bool} {level : Int}
    (he : s.hw.wakeEnabled src.val falling level = false) : exec (.wakeEvent src falling level) s = .next s :=
  next_put_same (if_neg (ne_true_of_eq_false he))

theorem exec_wakeTimerExpiry_enabled (he : s.hw.wakeEnabled 9 false 0 = true) :
    exec .wakeTimerExpiry s = .next (s.put (s.hw.wakeBy 9)) := next_put_congr (if_pos he)

theorem exec_canWakeFrame_matches {ch : Fin 4} {f : CanFrame} (hf : s.hw.frameMode ch.val = true)
    (hm : s.hw.wakeMatch ch.val f = true) : exec (.canWakeFrame ch f) s = .next (s.put (s.hw.wakeBy ch.val)) :=
  next_put_congr (if_pos (by simp [hf, hm]))

theorem exec_canWakeErrorCount_exceeds {ch : Fin 4} {n : Nat} (hf : s.hw.frameMode ch.val = true) (hn : 32 < n) :
    exec (.canWakeErrorCount ch n) s = .next (s.put (s.hw.wakeBy ch.val)) :=
  next_put_congr (if_pos (by simp [hf, hn]))

theorem Hw.latchedWake_due {code : W16} (hp : h.mode.phase = .asleep) (hl : h.mode.latched = some code)
    (hv : 3800 ≤ h.pwr.vsup) :
    h.latchedWake = ((h.wakeFrom code.toNat).count 0x017 1).occur fltWakeDuringSleep 0xFF := by
  simp [Hw.latchedWake, hp, hl, hv]

theorem Hw.powerOn_wakes {vsup : Int} (hp : h.mode.phase = .unpowered) (hv : 3800 < vsup) :
    h.powerOn vsup = ({ h with pwr := { h.pwr with vsup := vsup }, time := { h.time with now := 0 } } : Hw).wakeUp 0x10 :=
  if_pos (by simp [hp, hv])

end

/-- Settles O13: the four sources fire by one operation, which wakes the module as the latched event and the power do. -/
theorem wakesBegin : Obligations.WakesBegin := by
  unfold Obligations.WakesBegin
  refine ⟨?event, fun _ _ _ _ => exec_wakeEvent_disabled, ?timer, ?frame, ?errors, ?latched, ?power⟩
  case event => exact fun s src _ _ hp hl he hv => State.wakes_of_wakeBy (exec_wakeEvent_enabled he) hp hl hv
  case timer => exact fun s hp hl he hv => State.wakes_of_wakeBy (exec_wakeTimerExpiry_enabled he) hp hl hv
  case frame => exact fun s ch f hp hl hf hm hv => State.wakes_of_wakeBy (exec_canWakeFrame_matches hf hm) hp hl hv
  case errors => exact fun s ch n hp hl hf hn hv => State.wakes_of_wakeBy (exec_canWakeErrorCount_exceeds hf hn) hp hl hv
  case latched => exact fun s code hp hl hv => ⟨next_put_congr (Hw.latchedWake_due hp hl hv), State.woken_wakeFrom hv⟩
  case power =>
    intro s vsup hp hv
    refine ⟨_, next_put_congr (Hw.powerOn_wakes hp hv), State.woken_wakeUp rfl, Hw.wakeUp_now _ _, ?vsup⟩
    case vsup => exact congrArg Power.vsup (Hw.wakeUp_pwr _ _)

/-! ## The mode edge (R36) and the way into ARREST (R278) -/

section
variable {h : Hw} {s : State}

/-- What an edge does to the mode machine: before and after it sets the mode, the operations of the edge leave it alone. -/
theorem Hw.edge_mode (h : Hw) (m : Mode) (cause : Byte) (code : W16) (src : Byte) :
    (h.edge m cause code src).mode =
      { h.mode with mode := m, since := h.time.clock, granted := none, lastCommand := h.time.clock } := by
  have before : ModeKept h ((h.modeEvent m cause code src).applyStaged.safetyEdge m) :=
    Hw.safetyEdge_k m (Hw.applyStaged_k (Hw.modeEvent_k m cause code src rfl))
  have after (x : Hw) :
      ModeKept x ((((x.count (0x018 + m.code) 1).dischargeEdge m).bridgeEdge .brA m).bridgeEdge .brB m).mailbox0 :=
    Hw.mailbox0_k (Hw.bridgeEdge_k .brB m (Hw.bridgeEdge_k .brA m (Hw.dischargeEdge_k m (Hw.count_k _ _ rfl))))
  exact (after _).trans (by rw [before])

theorem Hw.edge_enters (h : Hw) (m : Mode) (cause : Byte) (code : W16) (src : Byte) :
    (h.edge m cause code src).mode.mode = m ∧ (h.edge m cause code src).mode.granted = none ∧
    (h.edge m cause code src).mode.phase = h.mode.phase := by
  rw [Hw.edge_mode]
  exact ⟨rfl, rfl, rfl⟩

/-- The functions that stop on the way into ARREST leave the mode machine as the edge has set it. -/
theorem Hw.arrestStops_k (h : Hw) (code : W16) : ModeKept h (((h.chgArrest code).lvArrest).actHold.arrestDischarge) :=
  Hw.arrestDischarge_k (Hw.actHold_k (Hw.lvArrest_k (Hw.chgArrest_k code rfl)))

theorem Hw.enterArrest_mode {code : W16} {src : Byte} (hb : h.mode.mode ≠ .bivouac) (hd : h.saf.dbgHalted = false) :
    (h.enterArrest code src).mode.mode = .arrest := by
  by_cases hm : h.mode.mode = .arrest
  · simp [Hw.enterArrest, hm]
  · have goes : (h.mode.mode == .bivouac || h.mode.mode == .arrest || h.saf.dbgHalted) = false := by simp [hb, hm, hd]
    simp only [Hw.enterArrest, goes, Bool.false_eq_true, if_false]
    rw [Hw.arrestStops_k]
    split
    · rw [Hw.edge_mode]
    · rw [Hw.edge_mode]

theorem Hw.stoAtStart_open (ho : h.pwr.stoA = false ∨ h.pwr.stoB = false) :
    h.stoAtStart = h.enterArrest fltStoOpen.code (if h.pwr.stoA then 1 else 0) :=
  if_neg (by rcases ho with ho | ho <;> simp [ho])

theorem Hw.reducedService_reached (hp : h.mode.phase = .bringUp) :
    h.reducedService = (((((({ h with mode := { h.mode with phase := .up } } : Hw).postEvent 0x0203 h.time.now
      (leBytes 4 h.otp.ident.romVersion.toNat)).edge .baseCamp 3 0
      0).trimSkew.tracWindows.checkP11.otpFaults.stoAtStart).requestImage).chgSettle) :=
  if_neg (by simp [hp])

end

/-- Settles O15: reduced service, the mode that an edge enters, and the two ways to ARREST. -/
theorem bringUpReaches : Obligations.BringUpReaches := by
  unfold Obligations.BringUpReaches
  refine ⟨?reached, Hw.edge_enters, fun _ => Hw.stoAtStart_open, fun _ _ _ => Hw.enterArrest_mode⟩
  case reached => exact fun s hp => next_put_congr (Hw.reducedService_reached hp)

/-! ## Images at wake (R46, R47, R335, R337, R400) -/

section
variable {h : Hw} {s : State}

theorem Hw.imageRetry_due {k : Nat} (hr : h.img.requested = some k)
    (ht : h.img.requestAt + 100 * msTicks ≤ h.time.clock) (hn : h.roped = false) :
    h.imageRetry = ({ h with img := { h.img with requestAt := h.time.clock } } : Hw).postEvent 0x0C01 h.time.now
      [BitVec.ofNat 8 k] := by
  simp [Hw.imageRetry, hr, Nat.not_lt.mpr ht, hn]

theorem exec_hostAbsent_due (hr : s.hw.img.requested.isSome = true)
    (ht : s.hw.img.firstRequestAt + sTicks ≤ s.hw.time.clock) :
    exec .hostAbsent s = .next (s.put (s.hw.raiseOnce fltHostAbsent 0xFF)) := next_put_congr (if_pos (by simp [hr, ht]))

theorem exec_partnerImageRequest_served {k : ImageKind} (hr : s.hw.roped = true) (hp : s.hw.mode.phase = .up)
    (hm : s.hw.mode.mode ≠ .baseCamp) (hi : (s.hw.img.running.find k.code).isSome = true) :
    exec (.partnerImageRequest k) s = .next (s.put ((s.hw.count 0x0C7 1).emit (.image k.code false))) :=
  next_put_congr (if_pos (by simp [hr, hp, hm, hi]))

theorem Hw.imageLoaded_starts {k : ImageKind} {i : ImageInfo} (hp : h.mode.phase = .up) (hn : h.nextImage = some k)
    (hl : h.img.listed k = true) (ha : h.authStep k i = none) :
    h.imageLoaded k i = (((({ h with img := h.img.startAll k { version := i.version, format := i.stateFormat } } :
      Hw).imageEvent k .brA 0 i.version).mailbox0.requestImage).toReady) := by
  simp [Hw.imageLoaded, hp, hn, hl, ha]

theorem Hw.imageLoaded_rejected {k : ImageKind} {i : ImageInfo} {n : Nat} (hp : h.mode.phase = .up)
    (hn : h.nextImage = some k) (hl : h.img.listed k = true) (ha : h.authStep k i = some n) :
    h.imageLoaded k i = (h.authFail k n).imageEvent k .brA n i.version := by
  simp [Hw.imageLoaded, hp, hn, hl, ha]

theorem Hw.imageLoaded_outOfOrder {k : ImageKind} {i : ImageInfo} (hn : h.nextImage ≠ some k) : h.imageLoaded k i = h := by
  simp [Hw.imageLoaded, hn]

end

/-- Settles O16: the requests for an image and its arrival, each in the case that the statement names. -/
theorem imagesAreServed : Obligations.ImagesAreServed := by
  unfold Obligations.ImagesAreServed
  refine ⟨?retry, fun _ => exec_hostAbsent_due, ?starts, fun _ _ => exec_partnerImageRequest_served, ?rejected, ?outOfOrder⟩
  case retry => exact fun s k hr ht hn => next_put_congr (Hw.imageRetry_due hr ht hn)
  case starts => exact fun s k b i hp hn hl ha => next_put_congr (Hw.imageLoaded_starts hp hn hl ha)
  case rejected => exact fun s k b i n hp hn hl ha => next_put_congr (Hw.imageLoaded_rejected hp hn hl ha)
  case outOfOrder => exact fun s k b i hn => next_put_same (Hw.imageLoaded_outOfOrder hn)

/-! ## Mode requests (R38) and mode edges (R36) -/

section
variable {h : Hw} {s : State} {g : Grant}

theorem exec_modeRequest_runs {d : Desc} (r : s.hw.RunsTo 0x0201 d h) :
    exec (.modeRequest d) s = .next (s.put (h.modeRequest d d.req)) := next_put_congr (Hw.descriptor_runs r)

theorem Hw.route_drive (hm : h.mode.mode = .ready) (hc : h.driveConditions = true) : h.route .drive = some .drive :=
  if_pos (by simp [hm, hc])

theorem Hw.modeCheck_drive {d : Desc} (hd : d.byte 16 = 3) (hm : h.mode.mode = .ready) (hb : h.modeBusy = false)
    (hc : h.driveConditions = true) : h.modeCheck d = .inr .drive := by
  have target : Mode.ofCode (d.byte 16).toNat = some .drive := by rw [hd]; rfl
  simp [Hw.modeCheck, target, hb, Hw.route_drive hm hc]

theorem Hw.modeRequest_drive {d : Desc} {q : Req} (hc : h.modeCheck d = .inr .drive) :
    h.modeRequest d q = h.grant .drive (some q) 0 0 := by
  simp [Hw.modeRequest, hc]

/-- With charging at rest a transition to DRIVE has nothing to drain (R50). -/
theorem Hw.drainsFor_drive (hc : h.chg.active = false) : h.drainsFor .drive = h := by
  simp [Hw.drainsFor, Mode.torque, Hw.drainCharge, hc]

/-- A granted transition that does not belong to a cinch is made once it has drained, at a boundary of every running tile. -/
theorem Hw.modeEdge_makes (hd : h.saf.dbgHalted = false) (hg : h.mode.granted = some g) (hc : g.cinch = 0)
    (hr : h.drained g.target = true) (he : h.atEdge = true) : h.modeEdge = h.makeEdge g.target g.cause 0 0 g.req := by
  simp [Hw.modeEdge, hd, hg, hc, hr, he]

theorem Hw.modeEdge_drains (hd : h.saf.dbgHalted = false) (hg : h.mode.granted = some g)
    (hr : h.drained g.target = false) : h.modeEdge = h := by
  simp [Hw.modeEdge, hd, hg, hr]

theorem Hw.modeEdge_aligns (hd : h.saf.dbgHalted = false) (hg : h.mode.granted = some g)
    (hr : h.drained g.target = true) (he : h.atEdge = false) : h.modeEdge = h.fixAB 0 := by
  simp [Hw.modeEdge, hd, hg, hr, he]

theorem Hw.modeEdge_halted (hd : h.saf.dbgHalted = true) : h.modeEdge = h := if_pos hd

theorem Hw.makeEdge_awake {m : Mode} {cause : Byte} {code : W16} {src : Byte} {q : Option Req} {x : Hw} (hm : m ≠ .bivouac)
    (hx : x = (h.edge m cause code src).atMode h.mode.mode m) :
    h.makeEdge m cause code src q = ({ x with act := { x.act with drainAt := none } } : Hw).completeOpt q .done := by
  subst hx
  simp [Hw.makeEdge, hm]

/-- BIVOUAC starts nothing at its edge; the module sleeps once the request has its answer. -/
theorem Hw.makeEdge_bivouac {cause : Byte} {code : W16} {src : Byte} {q : Option Req} {x : Hw}
    (hx : x = h.edge .bivouac cause code src) :
    h.makeEdge .bivouac cause code src q =
      (({ x with act := { x.act with drainAt := none } } : Hw).completeOpt q .done).sleep := by
  subst hx
  rfl

end

/-- Settles O12: the request passes its checks, and the grant for DRIVE stands with nothing to drain. -/
theorem modeRequestGranted : Obligations.ModeRequestGranted := by
  unfold Obligations.ModeRequestGranted
  intro s d h r hd hm hb hc hchg
  rw [exec_modeRequest_runs r, Hw.modeRequest_drive (Hw.modeCheck_drive hd hm hb hc)]
  exact next_put_congr (Hw.drainsFor_drive hchg)

/-- Settles O17: MODE_EDGE with a grant that is drained and at the edge, off the edge, or draining, and with the cores
halted. -/
theorem modeEdgeTakesEffect : Obligations.ModeEdgeTakesEffect := by
  unfold Obligations.ModeEdgeTakesEffect
  refine ⟨?made, ?sleeps, ?drains, ?aligns, fun _ hd => next_put_same (Hw.modeEdge_halted hd), Hw.edge_enters⟩
  case made =>
    intro s g hd hg hc ht hr he
    exact ⟨_, next_put_congr ((Hw.modeEdge_makes hd hg hc hr he).trans (Hw.makeEdge_awake ht rfl)), rfl⟩
  case sleeps =>
    intro s g hd hg hc ht hr he
    rw [← ht] at hr
    have made := Hw.modeEdge_makes hd hg hc hr he
    rw [ht] at made
    exact ⟨_, next_put_congr (made.trans (Hw.makeEdge_bivouac rfl)), rfl⟩
  case drains => exact fun s g hd hg hr => next_put_same (Hw.modeEdge_drains hd hg hr)
  case aligns => exact fun s g hd hg hr he => next_put_congr (Hw.modeEdge_aligns hd hg hr he)

/-! ## Drains that are forced (R50) -/

section
variable {h : Hw}

theorem Hw.forceRing_due {n : Nat} (hs : (h.ring n).state = .draining)
    (ht : (h.ring n).drainAt + h.parTicks 0x0209 ≤ h.time.clock) :
    h.forceRing n = ((((h.ring n).outstanding.filter (fun t => !(h.ownWork n).contains t)).foldl (fun x t =>
      x.queueCompletion n t.1 Status.aborted.code h.time.now) h).occurThen fltDrainForced fltDrainForced.cls 0xFF (fun x =>
      (x.setRing n { x.ring n with
        outstanding := (h.ownWork n).filter (h.ring n).outstanding.contains, fenced := false,
        buffer := if h.entersSleep then (x.ring n).buffer else [], missed := none }).settleRing n)) :=
  if_pos (by simp [hs, ht])

theorem Hw.forceBridge_due {b : Bridge} (hd : (h.ctl b).draining = true)
    (ht : (h.ctl b).drainAt + h.parTicks 0x020A ≤ h.time.clock) :
    h.forceBridge b = h.occurThen fltDrainForced fltDrainForced.cls 0xFF (fun x => x.orderSafe b) :=
  if_pos (by simp [hd, ht])

theorem Hw.forceCharge_due (hd : h.chg.draining = true) (ht : h.chg.drainAt + h.parTicks 0x020B ≤ h.time.clock) :
    h.forceCharge = h.occurThen fltDrainForced fltDrainForced.cls 0xFF Hw.chgForced :=
  if_pos (by simp [hd, ht])

theorem Hw.forceLv_due (hd : h.lv.draining = true) (ht : h.lv.drainAt + h.parTicks 0x020C ≤ h.time.clock) :
    h.forceLv = h.occurThen fltDrainForced fltDrainForced.cls 0xFF (fun x =>
      Hw.completeAll x.lv.stopReqs .aborted
        (({ x with lv := { x.lv with stopReqs := [] } } : Hw).lvRest .stopped .aborted)) :=
  if_pos (by simp [hd, ht])

theorem Hw.forceAct_due {t : Nat} (hd : h.act.drainAt = some t) (ht : t + h.parTicks 0x020D ≤ h.time.clock)
    (hs : h.act.still = false) :
    h.forceAct = h.occurThen fltDrainForced fltDrainForced.cls 0xFF (fun x =>
      ({ x with act := { x.act with drainAt := none } } : Hw).actHold) := by
  simp [Hw.forceAct, hd, ht, hs]

end

/-- Settles O18: the drain of each function past its bound. -/
theorem drainsAreForced : Obligations.DrainsAreForced := by
  unfold Obligations.DrainsAreForced
  refine ⟨?ring, ?bridge, ?charge, ?lv, ?act⟩
  case ring => exact fun s n hs ht => next_put_congr (Hw.forceRing_due hs ht)
  case bridge => exact fun s b hd ht => next_put_congr (Hw.forceBridge_due hd ht)
  case charge => exact fun s hd ht => next_put_congr (Hw.forceCharge_due hd ht)
  case lv => exact fun s hd ht => next_put_congr (Hw.forceLv_due hd ht)
  case act => exact fun s t hd ht hs => next_put_congr (Hw.forceAct_due hd ht hs)

/-! ## Requested tests (R51, R136, R167, R265, R438) -/

section
variable {h k : Hw} {s : State} {t : TestRun} {id inst : Nat} {data : IdentData} {w : List (Nat × W32)}

theorem exec_testRequest_accepted {d : Desc} (r : s.hw.RunsTo 0x0202 d h) (hc : h.testCheck d = none) :
    exec (.testRequest d) s = .next (s.put (h.testAccept d d.req)) :=
  next_put_congr ((Hw.descriptor_runs r).trans (by simp only [hc]))

/-- A failure stands, but for the two tests whose outcome the module reads off what it has measured. -/
theorem Hw.outcomeOf_fail (h6 : id ≠ 0x0606) (h7 : id ≠ 0x0703) : h.outcomeOf id inst .fail data w = .fail := by
  simp [Hw.outcomeOf, h6, h7]

theorem Hw.testEnd_fail (h6 : id ≠ 0x0606) (h7 : id ≠ 0x0703) :
    h.testEnd id inst .fail data w =
      ((h.endIdent (instBridge inst)).endTest id (testKey id inst) .hwFault).testFault id inst := by
  simp only [Hw.testEnd, Hw.outcomeOf_fail h6 h7]

theorem Hw.testComplete_fail (hf : h.findTest id (testKey id inst) = some t) (ho : ownEnd.contains id = false)
    (h6 : id ≠ 0x0606) (h7 : id ≠ 0x0703) :
    h.testComplete id inst .fail data =
      ((h.endIdent (instBridge inst)).endTest id (testKey id inst) .hwFault).testFault id inst := by
  have ends : (ownEnd.contains id || !(h.testRipe id inst t || TestOutcome.fail == .fail)) = false := by
    rw [ho]
    simp
  simp only [Hw.testComplete, hf, ends, Bool.false_eq_true, if_false]
  exact Hw.testEnd_fail h6 h7

/-- A run whose request named one place only is over with it. -/
theorem Hw.stepTest_single {last : Nat} (hf : h.findTest id inst = some t) (hi : t.inst ≠ 0xFF) :
    h.stepTest id inst last = h.endTest id inst .done := by
  have single : (t.inst == 0xFF) = false := beq_false_of_ne hi
  simp only [Hw.stepTest, hf, single, Bool.false_and, Bool.false_eq_true, if_false]

theorem Hw.stepTest_absent {last : Nat} (hf : h.findTest id inst = none) : h.stepTest id inst last = h := by
  simp [Hw.stepTest, hf]

/-- UVLO_COMPARATOR (R168) tests the module as a whole: with its pass the run is DONE and nothing else happens. -/
theorem Hw.testEnd_pass_uvlo (hf : h.findTest 0x0603 0 = some t) (hi : t.inst ≠ 0xFF) :
    h.testEnd 0x0603 inst .pass data w = h.endTest 0x0603 0 .done :=
  Hw.stepTest_single (last := 1) hf hi

theorem Hw.testComplete_pass_uvlo (hf : h.findTest 0x0603 0 = some t) (hr : t.running = true) (hi : t.inst ≠ 0xFF) :
    h.testComplete 0x0603 inst .pass data = h.endTest 0x0603 0 .done := by
  have key : h.findTest 0x0603 (testKey 0x0603 inst) = some t := hf
  have ends : (ownEnd.contains 0x0603 || !(h.testRipe 0x0603 inst t || TestOutcome.pass == .fail)) = false := by
    simp [ownEnd, Hw.testRipe, hr]
  simp only [Hw.testComplete, key, ends, Bool.false_eq_true, if_false]
  exact Hw.testEnd_pass_uvlo hf hi

theorem Hw.gapWindow_pass_uvlo {p : Nat} {e : W32} (hf : h.findTest 0x0603 0 = some t) (hr : t.running = false)
    (hi : t.inst ≠ 0xFF) : h.gapWindow 0x0603 inst .pass p e = h.endTest 0x0603 0 .done := by
  have key : h.findTest 0x0603 (testKey 0x0603 inst) = some t := hf
  have runs : (t.running || (decide (0x0603 = 0x0701) && h.lv.closed) || ownEnd.contains 0x0603 ||
      (decide (0x0603 = 0x0502) && TestOutcome.pass == .reject)) = false := by simp [hr, ownEnd]
  rw [Hw.gapWindow, if_neg (by simp)]
  simp only [key, runs, Bool.false_eq_true, if_false]
  exact Hw.testEnd_pass_uvlo hf hi

/-- IDENT_MAGNET gathers one of its eight windows (R136). -/
theorem Hw.magnetGap_gathers {b : Bridge} {p : Nat} {e : W32} (hb : b = instBridge inst) (hw : h.magnetWindow b = true)
    (hf : h.findTest 0x0502 inst = some t) (hn : t.windows.length < 8) :
    h.magnetGap inst p e = (h.modTest 0x0502 inst (fun x =>
      { x with windows := x.windows ++ [(h.psiAtRef b p, e)] })).resumeGap b := by
  subst hb
  simp [Hw.magnetGap, hw, hf, Nat.not_le.mpr hn]

theorem Hw.testDeadline_defers (hf : h.tests.find? (fun t => t.id.toNat == 0x0602 && (t.inst.toNat == 0 ||
    t.covers 0x0602 0)) = some t) (hc : t.cls = 1) (hi : t.inst ≠ 0xFF) (ht : t.deadline ≤ h.time.clock) :
    h.testDeadline 0x0602 inst = h.endTest 0x0602 0 .deferred := by
  have key : testKey 0x0602 inst = 0 := rfl
  have single : (t.inst == 0xFF) = false := beq_false_of_ne hi
  simp only [Hw.testDeadline, key, hf, hc, ht, single, decide_true, Bool.and_self, Bool.false_eq_true, if_true, if_false]

/-- A run of OFFSTATE_DIAG that the module began on its own and that finds nothing passes its bridge (R167). -/
theorem Hw.offstate_passes {b : Bridge} (hd : h.offstateDue b = true)
    (hk : k = h.modGate b (fun g => { g with offRunning := false, offPassed := true }))
    (hn : ∀ x, k.findTest 0x0601 x = none) : h.offstate b [] = k := by
  subst hk
  simp [Hw.offstate, hd, Hw.stepTest_absent (hn _), hn]

theorem Hw.offstate_finds {b : Bridge} {f : OffstateFinding} {fs : List OffstateFinding} (hd : h.offstateDue b = true)
    (hf : (f :: fs).all (fun x => findingOn x b) = true) :
    h.offstate b (f :: fs) = ((f :: fs).foldl (fun x y => x.offstateFound b y)
      (h.modGate b (fun g => { g with offRunning := false }))).endTest 0x0601 b.code .hwFault := by
  have judged : (!h.offstateDue b || !(f :: fs).all (fun x => findingOn x b)) = false := by rw [hd, hf]; rfl
  simp only [Hw.offstate, judged, List.isEmpty_cons, Bool.false_eq_true, if_false]

/-- STO_PATH on the channel whose turn it is, with ASC_ARM clear, is judged by what the rails did (R265). -/
theorem Hw.stoPath_judges {chB : Bool} {l : List (Nat × Nat)} (hf : h.findTest 0x0A02 0 = some t)
    (hc : t.count = if chB then 1 else 0) (ha : h.gateA.ascArm = false) (hb : h.gateB.ascArm = false) :
    h.stoPath chB l =
      if !seriesOpened l then
        ((h.endTest 0x0A02 0 .hwFault).raiseOnce fltStoPathFail (if chB then 1 else 0)).offstateBoth
      else if chB then (h.endTest 0x0A02 0 .done).offstateBoth
      else h.modTest 0x0A02 0 (fun x => { x with count := 1 }) := by
  have turn : (chB != (t.count == 1) || h.gateA.ascArm || h.gateB.ascArm) = false := by
    cases chB <;> simp [hc, ha, hb]
  simp only [Hw.stoPath, hf, turn, Bool.false_eq_true, if_false]

end

/-- Settles O40: a test from its request to its ends, and the tests that end by commands of their own. -/
theorem testsRunAndEnd : Obligations.TestsRunAndEnd := by
  unfold Obligations.TestsRunAndEnd
  refine ⟨fun _ _ _ => exec_testRequest_accepted, ?fails, ?passes, ?gapPasses, ?magnet, ?deadline, ?offPasses, ?offFinds,
    ?stoB, ?stoA, ?stoFails⟩
  case fails => exact fun s id inst t data hf ho h6 h7 => next_put_congr (Hw.testComplete_fail hf ho h6 h7)
  case passes => exact fun s inst t data hf hr hi => next_put_congr (Hw.testComplete_pass_uvlo hf hr hi)
  case gapPasses => exact fun s inst t p e hf hr hi => next_put_congr (Hw.gapWindow_pass_uvlo hf hr hi)
  case magnet => exact fun s inst t p e b hb hw hf hn => next_put_congr (Hw.magnetGap_gathers hb hw hf hn)
  case deadline => exact fun s inst t hf hc hi ht => next_put_congr (Hw.testDeadline_defers hf hc hi ht)
  case offPasses => exact fun s b hd hn => next_put_congr (Hw.offstate_passes hd rfl hn)
  case offFinds => exact fun s b f fs hd hf => next_put_congr (Hw.offstate_finds hd hf)
  case stoB =>
    intro s t l hf hc ha hb ho
    exact next_put_congr ((Hw.stoPath_judges (chB := true) hf hc ha hb).trans (by simp [ho]))
  case stoA =>
    intro s t l hf hc ha hb ho
    exact next_put_congr ((Hw.stoPath_judges (chB := false) hf hc ha hb).trans (by simp [ho]))
  case stoFails =>
    intro s t b l hf hc ha hb ho
    exact next_put_congr ((Hw.stoPath_judges hf hc ha hb).trans (by simp [ho]))

end Sys2Proof.Machine
end

section
/-!
PROOF. The statements of 03_sensing.md: accumulators, urgent requests and the matching of pairs (R58 to R68), and window
monitors (R44, R76 to R80). For each operation of the module one lemma per case says what it answers; the statements are put
together from these.
-/
namespace Sys2Proof.Machine

/-! ## Descriptors outside BASE_CAMP (R45) -/

theorem Hw.unlessCamp_serves {h : Hw} {q : Req} {own : Hw → Hw} (hm : h.mode.mode ≠ .baseCamp) :
    h.unlessCamp q own = own h := if_neg (by simp [hm])

/-- An executed descriptor of sensing or position is served in every mode but BASE_CAMP. -/
theorem Hw.descriptor_serves {g h : Hw} {op : Nat} {d : Desc} {own : Req → Hw → Hw} (r : g.RunsTo op d h)
    (hm : h.mode.mode ≠ .baseCamp) : g.descriptor op d (fun q x => x.unlessCamp q (own q)) = own d.req h :=
  (Hw.descriptor_runs r).trans (Hw.unlessCamp_serves hm)

/-! ## Accumulators (R58, R60 to R62) -/

section
variable {h : Hw} {s : State} {d : Desc}

theorem exec_accSet_serves (r : s.hw.RunsTo 0x0301 d h) (hm : h.mode.mode ≠ .baseCamp) :
    exec (.accSet d) s = .next (s.put (h.accSet d d.req)) :=
  next_put_congr (Hw.descriptor_serves (own := fun q x => x.accSet d q) r hm)

/-- With no window open the configuration takes effect at once (R61). -/
theorem Hw.accSet_configures {q : Req} (hk : accOk d = true) (ho : (h.acc (d.num 16 1)).open' = false) :
    h.accSet d q = (h.setAcc (d.num 16 1) { h.acc (d.num 16 1) with
      cfg := some (accConfig d), next := none, done := false, openAt := h.time.now, burst := false }).complete q .done := by
  simp [Hw.accSet, hk, ho]

/-- With a window open the configuration waits for its close (R61). -/
theorem Hw.accSet_waits {q : Req} (hk : accOk d = true) (ho : (h.acc (d.num 16 1)).open' = true) :
    h.accSet d q =
      (h.setAcc (d.num 16 1) { h.acc (d.num 16 1) with next := some (accConfig d) }).complete q .done := by
  simp [Hw.accSet, hk, ho]

/-- A window with samples, none of them at the end of the range, leaves its record and its reading (R62). -/
theorem Hw.accClose_records {n w : Nat} {l since inside : List Sample} {c : AccCfg} {r : AccRecord}
    (hc : (h.acc n).cfg = some c) (ho : (h.acc n).open' = true) (hs : h.senses = true)
    (hl : since = l.filter (fun x => ((h.acc n).openAt.toNat : Int) ≤ c.delayed x && h.accumulates c x))
    (hw : h.closesAt (h.acc n) c since.length = some w)
    (hi : inside = (if c.closure ≤ 2 then since.filter (fun x => c.delayed x < (w : Int)) else since).take c.full)
    (hr : r = h.accRecord n (h.acc n) c inside (BitVec.ofNat 64 w)) (hn : r.count ≠ 0)
    (hf : r.flags.getLsbD 1 = false) :
    h.accClose n l = (h.setAcc n ((h.acc n).after r)).takeReading c.input r.reading := by
  subst hl hi
  simp only [Hw.accClose, hc, ho, hs, hw, ← hr, hn, hf, Bool.not_true, Bool.or_self, Bool.and_false, Bool.false_eq_true,
    if_false]

theorem Hw.accRecord_count (h : Hw) (n : Nat) (a : Acc) (c : AccCfg) (l : List Sample) (w : W64) :
    (h.accRecord n a c l w).count = l.length := List.length_map ..

theorem clampI_mem {lo hi : Int} (x : Int) (hb : lo ≤ hi) : lo ≤ clampI lo hi x ∧ clampI lo hi x ≤ hi := by
  unfold clampI
  split
  · exact ⟨Int.le_refl lo, hb⟩
  · split <;> omega

theorem saturate_mem (x : Int) : -32768 ≤ saturate x ∧ saturate x ≤ 32767 := clampI_mem x (by decide)

/-- Whatever corrections apply in a mode, the code that leaves them has saturated (R58). -/
theorem Hw.corrected_mem (h : Hw) (input core : Nat) (raw : Int) :
    -32768 ≤ h.corrected input core raw ∧ h.corrected input core raw ≤ 32767 := by
  unfold Hw.corrected
  split
  · exact saturate_mem _
  · exact saturate_mem _

/-! ## Urgent requests (R64 to R66) -/

/-- Where even the best pair is free only after URGENT_SLACK, the request is missed. -/
theorem Hw.urgent_misses {i p : Nat} {u : PairUse} {uses : List PairUse} (hi : 40 ≤ i) (hs : h.senses = true)
    (hp : h.urgentPair uses = (p, u)) (hw : h.par 0x0306 < h.urgentWait p) :
    h.urgent i uses = (h.count 0x081 1).occur fltSenseUrgentMiss 0xFF := by
  simp [Hw.urgent, Nat.not_lt.mpr hi, hs, hp, hw]

/-- A pair that is free and powered serves the request at once and is taken for 250 ns (assumption 115). -/
theorem Hw.urgent_serves {i p : Nat} {u : PairUse} {uses : List PairUse} {k : Hw} (hi : 40 ≤ i) (hs : h.senses = true)
    (hp : h.urgentPair uses = (p, u)) (hw : h.urgentWait p = 0) (hd : h.pairDown p false = false)
    (hk : k = (h.abortConversion u).burstFor i) :
    h.urgent i uses = { k with sen := { k.sen with
      raised := k.sen.raised &&& ~~~ (1#16 <<< p), urgentBy := k.sen.urgentBy.set p (h.time.clock + 100) } } := by
  subst hk
  simp [Hw.urgent, Nat.not_lt.mpr hi, hs, hp, hw, hd]

/-! ## Matching of pairs (R67, R68) -/

theorem Hw.matchPair_trims {p : Nat} {o g : Int} (hs : h.senses = true) (hh : h.sen.halfRate.getLsbD p = false)
    (ho : absI o ≤ 64) (hg : absI g ≤ 500) :
    h.matchPair p o g = { h with
      sen := { h.sen with trimOff := h.sen.trimOff.set p o, trimGain := h.sen.trimGain.set p g } } := by
  simp [Hw.matchPair, hs, hh, Int.not_lt.mpr ho, Int.not_lt.mpr hg]

/-- A trim beyond its limit declares a core failed (R68): the odd one (assumption 16). -/
theorem Hw.matchPair_fails_core {p : Nat} {o g : Int} (hs : h.senses = true) (hh : h.sen.halfRate.getLsbD p = false)
    (hx : 64 < absI o ∨ 500 < absI g) :
    h.matchPair p o g = ({ h with sen := { h.sen with halfRate := h.sen.halfRate ||| (1#16 <<< p) } } : Hw).raiseOnce
      (if p < 8 then fltSenseCoreFail else fltSenseCoreDegraded) (BitVec.ofNat 8 (2 * p + 1)) := by
  simp [Hw.matchPair, hs, hh, hx]

end

/-- Settles O37: ACC_SET, the close of a window, URGENT_REQUEST and INTERLEAVE_MATCH, each in the cases that the statement
names, and the saturation of a corrected code. -/
theorem accumulatorsRun : Obligations.AccumulatorsRun := by
  unfold Obligations.AccumulatorsRun
  refine ⟨?configures, ?waits, ?records, ?record, ?misses, ?serves, ?trims, ?fails, Hw.corrected_mem⟩
  case configures =>
    intro s d h r hk hm ho
    rw [exec_accSet_serves r hm, Hw.accSet_configures hk ho]
  case waits =>
    intro s d h r hk hm ho
    rw [exec_accSet_serves r hm, Hw.accSet_waits hk ho]
  case records =>
    intro s n l since inside c w r hc ho hs hl hw hi hr hn hf
    exact next_put_congr (Hw.accClose_records hc ho hs hl hw hi hr hn hf)
  case record =>
    rintro h n a c l w _ rfl
    exact ⟨rfl, h.accRecord_count n a c l w, rfl, rfl, rfl, rfl⟩
  case misses => exact fun s i u p0 p1 p2 p3 p hi hs hp hw => next_put_congr (Hw.urgent_misses hi hs hp hw)
  case serves =>
    exact fun s i u p0 p1 p2 p3 p h hi hs hp hw hd hk => next_put_congr (Hw.urgent_serves hi hs hp hw hd hk)
  case trims => exact fun s p o g hs hh ho hg => next_put_congr (Hw.matchPair_trims hs hh ho hg)
  case fails => exact fun s p o g hs hh hx => next_put_congr (Hw.matchPair_fails_core hs hh hx)

/-! ## Window monitors (R44, R76 to R80) -/

section
variable {h : Hw} {s : State} {d : Desc} {n pwm : Nat} {x : Int}

theorem exec_monSet_serves (r : s.hw.RunsTo 0x0302 d h) (hm : h.mode.mode ≠ .baseCamp) :
    exec (.monSet d) s = .next (s.put (h.monSet d d.req)) :=
  next_put_congr (Hw.descriptor_serves (own := fun q x => x.monSet d q) r hm)

theorem exec_monClear_serves (r : s.hw.RunsTo 0x0303 d h) (hm : h.mode.mode ≠ .baseCamp) :
    exec (.monClear d) s = .next (s.put (h.monClear d d.req)) :=
  next_put_congr (Hw.descriptor_serves (own := fun q x => x.monClear d q) r hm)

theorem Hw.monSet_writes {q : Req} (hk : monOk d = true) :
    h.monSet d q = (h.setMon (d.num 16 1) (monConfig d (h.mon (d.num 16 1)))).complete q .done := if_pos hk

theorem Hw.monClear_clears {q : Req} (hn : d.num 16 1 ≤ 51) :
    h.monClear d q =
      (h.setMon (d.num 16 1) { h.mon (d.num 16 1) with flag := false, irq := false }).complete q .done :=
  if_neg (Nat.not_lt.mpr hn)

/-- A monitor that watches takes the comparators' state, and fires on a crossing that its flag does not hold yet (R78, R79). -/
theorem Hw.crossing_of_watching (hn : n < 48) (hm : (h.mon n).mode ≠ 0) (hd : (h.mon n).dead = false)
    (hs : h.senses = true) :
    h.crossing n x pwm =
      if (h.mon n).crosses x (h.mon n).present && !(h.mon n).flag then
        (h.setMon n { h.mon n with present := (h.mon n).crosses x (h.mon n).present }).fire n pwm
      else h.setMon n { h.mon n with present := (h.mon n).crosses x (h.mon n).present } := by
  simp [Hw.crossing, Nat.not_le.mpr hn, hm, hd, hs]

theorem Hw.crossing_fires (hn : n < 48) (hm : (h.mon n).mode ≠ 0) (hd : (h.mon n).dead = false) (hs : h.senses = true)
    (hc : (h.mon n).crosses x (h.mon n).present = true) (hf : (h.mon n).flag = false) :
    h.crossing n x pwm = (h.setMon n { h.mon n with present := true }).fire n pwm := by
  rw [Hw.crossing_of_watching hn hm hd hs, hc, hf]
  rfl

theorem Hw.crossing_ends (hn : n < 48) (hm : (h.mon n).mode ≠ 0) (hd : (h.mon n).dead = false) (hs : h.senses = true)
    (hc : (h.mon n).crosses x (h.mon n).present = false) :
    h.crossing n x pwm = h.setMon n { h.mon n with present := false } := by
  rw [Hw.crossing_of_watching hn hm hd hs, hc]
  rfl

/-- WM0 is armed again once its input is back beyond its hysteresis (R44). -/
theorem Hw.crossing_arms_wm0 (hn : n = 48) (hc : h.wakeCrosses 48 x true = false) :
    h.crossing n x pwm = { h with mode := { h.mode with wm0Armed := true } } := by
  simp [Hw.crossing, hn, hc]

/-- The routes CAPTURE and IRQ latch the instant and interrupt the owning tile (R78). -/
theorem Hw.fire_captures_and_interrupts (hr : (h.mon n).routes = 6) :
    h.fire n pwm = h.setMon n { h.mon n with flag := true, irq := true, capTime := h.time.now, capPwm := pwm } := by
  simp [Hw.fire, hr]

theorem Hw.fire_orders_safe (hr : (h.mon n).routes = 1) :
    h.fire n pwm = (h.setMon n { h.mon n with flag := true }).monSafe n (h.mon n).base := by
  simp [Hw.fire, hr]

theorem Hw.comparatorTest_passes (hn : n < 48) : h.comparatorTest n true = h := by
  simp [Hw.comparatorTest, Nat.not_le.mpr hn]

/-- A comparator that fails while its block has a spare is retired, and the spare stays in service (R80). -/
theorem Hw.comparatorTest_retires (hn : n < 48) (hm : (h.mon n).mode ≠ 0) (hd : (h.mon n).dead = false)
    (hs : h.senses = true) (hl : 0 < h.sen.spares.getD (monBlock n) 0) :
    h.comparatorTest n false = ({ h with sen := { h.sen with
      spares := h.sen.spares.set (monBlock n) (h.sen.spares.getD (monBlock n) 0 - 1) } } : Hw).setMon n
      { h.mon n with retired := true } := by
  simp only [Hw.comparatorTest, Nat.not_le.mpr hn, hm, hd, hs, hl, Bool.not_true, Bool.or_self, decide_false,
    Bool.false_eq_true, if_false, if_true]

/-- Without a spare left a failed comparator is a fault (R80), and its monitor is out of service (assumption 23). -/
theorem Hw.comparatorTest_ends_service (hn : n < 48) (hm : (h.mon n).mode ≠ 0) (hd : (h.mon n).dead = false)
    (hs : h.senses = true) (hl : h.sen.spares.getD (monBlock n) 0 = 0) :
    h.comparatorTest n false = (h.setMon n { h.mon n with retired := true, dead := true }).raiseAs fltSenseMonFail
      (if (h.mon n).routes.getLsbD 0 then .belay else .warn) (BitVec.ofNat 8 n) 0 true := by
  simp only [Hw.comparatorTest, Nat.not_le.mpr hn, hm, hd, hs, hl, Nat.lt_irrefl, Bool.not_true, Bool.or_self,
    decide_false, Bool.false_eq_true, if_false]

/-- A comparator passes its test where it agreed and toggled (R80). -/
theorem exec_monitorComparatorTest_of {m : Fin 52} {agreed toggled pass : Bool} {k : Hw}
    (hp : (agreed && toggled) = pass) (e : s.hw.comparatorTest m.val pass = k) :
    exec (.monitorComparatorTest m agreed toggled) s = .next (s.put k) := by
  subst hp
  exact next_put_congr e

end

/-- Settles O39: MON_SET, MON_CLEAR, MONITOR_CROSSING and MONITOR_COMPARATOR_TEST, each in the cases that the statement
names, and what a monitor's routes do. -/
theorem monitorsWatch : Obligations.MonitorsWatch := by
  unfold Obligations.MonitorsWatch
  refine ⟨?set, ?clear, ?fires, ?ends, fun _ _ _ => Hw.fire_captures_and_interrupts, fun _ _ _ => Hw.fire_orders_safe,
    ?armsAgain, ?retires, ?passes, ?endsService⟩
  case set =>
    intro s d h r hk hm
    rw [exec_monSet_serves r hm, Hw.monSet_writes hk]
  case clear =>
    intro s d h r hn hm
    rw [exec_monClear_serves r hm, Hw.monClear_clears hn]
  case fires => exact fun s n x pwm hn hm hd hs hc hf => next_put_congr (Hw.crossing_fires hn hm hd hs hc hf)
  case ends => exact fun s n x pwm hn hm hd hs hc => next_put_congr (Hw.crossing_ends hn hm hd hs hc)
  case armsAgain => exact fun s n x pwm hn hc => next_put_congr (Hw.crossing_arms_wm0 hn hc)
  case retires =>
    intro s n x hn hm hd hs hl
    exact exec_monitorComparatorTest_of (Bool.and_false x) (Hw.comparatorTest_retires hn hm hd hs hl)
  case passes => exact fun s n hn => next_put_same (Hw.comparatorTest_passes hn)
  case endsService =>
    intro s n x hn hm hd hs hl
    exact exec_monitorComparatorTest_of (Bool.false_and x) (Hw.comparatorTest_ends_service hn hm hd hs hl)

end Sys2Proof.Machine
end

section
/-!
PROOF. The statement of 04_position.md: resolvers (R89, R91, R94), encoders (R96, R97, R99), Hall sets (R100) and SENT channels
(R102). For each operation of the module one lemma per case says what it answers; the statement is put together from these.
-/
namespace Sys2Proof.Machine

/-! ## Faults without a reaction leave the position interfaces alone -/

section
variable {g h : Hw} {f : FaultId} {src : Byte}

/-- A class that prescribes no change of mode (R39). -/
def FClass.mild (c : FClass) : Prop := c = .info ∨ c = .warn

theorem Hw.classEffect_mild {c : FClass} {code : W16} (hc : c.mild) : h.classEffect c code src = h := by
  obtain rfl | rfl := hc <;> rfl

theorem Hw.raiseAs_mild_q {c : FClass} {arg : W32} {lasting : Bool} (hc : c.mild) (e : Q g h) :
    Q g (h.raiseAs f c src arg lasting) := by
  have noted (active : Bool) : Q g (h.note f.code c src arg active) := Hw.note_q f.code c src arg active e
  simp only [Hw.raiseAs, Hw.classEffect_mild hc, ite_self]
  exact q_ite (noted _) (Hw.clearFault_q f.code src (noted _))

theorem Q.pos_eq (e : Q g h) : h.pos = g.pos := by
  obtain ⟨-, -, -, -, -, hpos, -⟩ := e
  exact hpos

theorem Hw.occur_mild_pos (hc : f.cls.mild) : (h.occur f src).pos = h.pos :=
  (Hw.raiseAs_mild_q hc (q_refl h)).pos_eq

/-- A fault that follows its condition is raised or cleared: neither touches the interface. -/
theorem Hw.followFault_mild_pos {bad : Bool} (hc : f.cls.mild) : (h.followFault f src bad).pos = h.pos := by
  refine Q.pos_eq (q_ite (q_ite (q_refl h) ?raised) (Hw.clearFault_q f.code src (q_refl h)))
  exact Hw.raiseAs_mild_q hc (q_refl h)

end

/-! ## Resolvers (R89, R91, R94) -/

section
variable {h : Hw} {n : Nat}

theorem Hw.res_eq_of_pos {g : Hw} (e : h.pos = g.pos) : h.res n = g.res n := by rw [Hw.res, Hw.res, e]

@[simp] theorem Hw.modRes_res_self (h : Hw) (n : Nat) (f : Resolver → Resolver) : (h.modRes n f).res n = f (h.res n) := by
  unfold Hw.modRes Hw.res
  split <;> rfl

@[simp] theorem Hw.slotBurst_pos (h : Hw) (acc input p : Nat) (codes : Option (List Int)) (t : W64) :
    (h.slotBurst acc input p codes t).pos = h.pos := by cases codes <;> rfl

@[simp] theorem Hw.slotPeak_pos (h : Hw) (n neg : Nat) (x : PeakSlots) : (h.slotPeak n neg x).pos = h.pos := by
  simp [Hw.slotPeak]

section
variable (r : Resolver) (angle : W32) (t : W64) (poles : Nat)

@[simp] theorem Resolver.turnTo_valid : (r.turnTo angle t poles).valid = true := by
  cases hv : r.valid <;> simp [Resolver.turnTo, hv]

@[simp] theorem Resolver.turnTo_angle : (r.turnTo angle t poles).angle = angle := by
  cases hv : r.valid <;> simp [Resolver.turnTo, hv]

@[simp] theorem Resolver.turnTo_angleAt : (r.turnTo angle t poles).angleAt = t := by
  cases hv : r.valid <;> simp [Resolver.turnTo, hv]

@[simp] theorem Resolver.turnTo_missing : (r.turnTo angle t poles).missing = 0 := by
  cases hv : r.valid <;> simp [Resolver.turnTo, hv]

@[simp] theorem Resolver.turnTo_s : (r.turnTo angle t poles).s = r.s := by
  cases hv : r.valid <;> simp [Resolver.turnTo, hv]

@[simp] theorem Resolver.turnTo_c : (r.turnTo angle t poles).c = r.c := by
  cases hv : r.valid <;> simp [Resolver.turnTo, hv]

end

/-- With both peaks whole, the differences of their sums give the angle at the midpoint (R89). -/
theorem Resolver.build_whole (r : Resolver) (a b c d : Int) (p m : W64) (poles : Nat) :
    r.build (some (a, c)) (some (b, d)) p m poles =
      ({ r with s := a - b, c := c - d } : Resolver).turnTo (Config.atan2 (a - b) (c - d)) (angleInstant true true p m)
        poles := rfl

theorem Resolver.teach_learns (r old : Resolver) (poles : Nat) : ∃ l, r.teach old poles = { r with learn := l } := by
  unfold Resolver.teach
  split
  · exact ⟨_, rfl⟩
  · exact ⟨r.learn, rfl⟩

/-- A period with slots at the peaks changes, beside the built angle, the checks of the resolver, what it learns and its
count of periods. -/
theorem Hw.peakPeriod_res (h : Hw) (n : Nat) (pos neg : Option (Int × Int)) (p m : W64) (exc : Option Int) :
    ∃ learn e excBad amplBad excFault signal overspeed, (h.peakPeriod n pos neg p m exc).res n =
      { (h.res n).build pos neg p m (h.par (0x040B + n)) with
        learn := learn, exc := e, excBad := excBad, amplBad := amplBad, excFault := excFault, signal := signal
        overspeed := overspeed, periods := (h.res n).periods + 1 } := by
  have mild : FClass.mild .warn := .inr rfl
  have frame {k : Hw} {src : Byte} {x y z : Bool} : (((k.followFault fltResExcFault src x).followFault fltResSignal src
      y).followFault fltResOverspeed src z).res n = k.res n :=
    Hw.res_eq_of_pos ((Hw.followFault_mild_pos mild).trans
      ((Hw.followFault_mild_pos mild).trans (Hw.followFault_mild_pos mild)))
  simp only [Hw.peakPeriod, frame, Hw.modRes_res_self]
  obtain ⟨l, hl⟩ := Resolver.teach_learns _ (h.res n) (h.par (0x040B + n))
  exact ⟨l, _, _, _, _, _, _, hl⟩

/-- A period that is not due for the carrier tracking, with SIN and COS whole at both peaks, builds from them; a lost BURST of
the excitation is no more than counted (R91). -/
theorem Hw.resolverPeriod_whole {x y : PeakSlots} {a b c d : Int} {k : Hw} (hr : h.posRuns = true)
    (hp : (h.res n).periods < 63) (hk : k = (h.slotPeak n 0 x).slotPeak n 1 y)
    (ha : k.slotSum (80 + 6 * n) x.sin = some a) (hb : k.slotSum (80 + 6 * n + 1) y.sin = some b)
    (hc : k.slotSum (80 + 6 * n + 2) x.cos = some c) (hd : k.slotSum (80 + 6 * n + 3) y.cos = some d) :
    ∃ (g : Hw) (exc : Option Int), g.pos = h.pos ∧
      h.resolverPeriod n x y = g.peakPeriod n (some (a, c)) (some (b, d)) x.instant y.instant exc := by
  have kept : k.pos = h.pos := by simp [hk]
  simp only [Hw.resolverPeriod, hr, Nat.not_le.mpr hp, ← hk, ha, hb, hc, hd, wholePeak, Bool.not_true,
    Bool.false_eq_true, if_false]
  refine ⟨_, _, ?_, rfl⟩
  split
  · exact (Hw.occur_mild_pos (.inl rfl)).trans kept
  · exact kept

theorem Hw.resolverPeriod_reads {x y : PeakSlots} {a b c d : Int} {k : Hw} (hr : h.posRuns = true)
    (hp : (h.res n).periods < 63) (hk : k = (h.slotPeak n 0 x).slotPeak n 1 y)
    (ha : k.slotSum (80 + 6 * n) x.sin = some a) (hb : k.slotSum (80 + 6 * n + 1) y.sin = some b)
    (hc : k.slotSum (80 + 6 * n + 2) x.cos = some c) (hd : k.slotSum (80 + 6 * n + 3) y.cos = some d) :
    ∀ r, r = (h.resolverPeriod n x y).res n →
      r.valid = true ∧ r.s = a - b ∧ r.c = c - d ∧ r.angle = Config.atan2 (a - b) (c - d) ∧
      r.angleAt = angleInstant true true x.instant y.instant ∧ r.periods = (h.res n).periods + 1 := by
  rintro r rfl
  obtain ⟨g, exc, hg, period⟩ := Hw.resolverPeriod_whole hr hp hk ha hb hc hd
  obtain ⟨_, _, _, _, _, _, _, built⟩ :=
    g.peakPeriod_res n (some (a, c)) (some (b, d)) x.instant y.instant exc
  rw [period, built, Resolver.build_whole, Hw.res_eq_of_pos hg]
  simp

/-- A half of a table waits where the resolver serves a bridge (R94). -/
theorem Hw.harmLoad_waits {d : Desc} {q : Req} (hk : h.harmCheck d false = none)
    (hs : (h.servedBy (0x10 + d.num 16 1)).isSome = true) :
    h.harmLoad d q = h.modRes (d.num 16 1) (fun r =>
      { r.loadHalf (d.num 17 1 == 1) (d.payload.extractLsb' 32 256) with reqs := r.reqs ++ [q] }) := by
  simp only [Hw.harmLoad, hk, hs, if_true]

end

/-! ## Encoders (R96, R97, R99) -/

section
variable {h : Hw} {s : State} {n k : Nat}

/-- POS_INDEX_ARM arms the index of an encoder that the module has (R97). -/
theorem exec_posIndexArm_arms {d : Desc} (r : s.hw.RunsTo 0x0401 d h) (hn : d.num 16 1 ≤ 1)
    (hm : h.mode.mode ≠ .baseCamp) :
    exec (.posIndexArm d) s =
      .next (s.put ((h.modEnc (d.num 16 1) (fun e => { e with armed := true })).complete d.req .done)) :=
  next_put_congr ((Hw.descriptor_serves r hm).trans (if_neg (Nat.not_lt.mpr hn)))

/-- A legal edge counts by one in the direction of the sequence, or against it where it is inverted (R96). -/
theorem Hw.encEdge_counts {x y : Bool} {d : Int} (hr : h.posRuns = true)
    (hs : encStable (h.par (0x0411 + n)) k = true) (ho : h.par (0x0411 + n) % 4 ≠ 0)
    (hq : quadStep (h.enc n).a (h.enc n).b x y = some d) (hd : d ≠ 0) :
    h.encEdge n x y k = (h.modEnc n (fun e => { e.move (if h.par (0x0411 + n) / 8 % 2 = 1 then -d else d) h.time.now
        (h.par (0x0411 + n) / 64 % 2 == 1) with a := x, b := y })).outEncoder n := by
  simp [Hw.encEdge, hr, hs, ho, hq, hd]

/-- With the mode ONCE_ARMED an armed index takes the count to 0, is disarmed and posts its event (R97). -/
theorem Hw.encIndex_takes_armed (hr : h.posRuns = true) (hs : encStable (h.par (0x0411 + n)) k = true)
    (ho : h.par (0x0411 + n) % 4 ≠ 0) (hm : h.par (0x0411 + n) / 16 % 2 = 1) (ha : (h.enc n).armed = true) :
    h.encIndex n true true k = ((h.modEnc n (fun e => { e.zero with armed := false })).postEvent 0x0402 h.time.now
      ([BitVec.ofNat 8 n, 0, 0, 0] ++ leBytes 4 (ofInt 4 (h.enc n).count))).outEncoder n := by
  simp [Hw.encIndex, hr, hs, ho, hm, ha]

theorem exec_encSpeedWindow_closes {e : Fin 2} (hr : s.hw.posRuns = true) (ho : s.hw.par (0x0411 + e.val) % 4 ≠ 0)
    (ht : 400 * s.hw.par (0x0413 + e.val) ≤ (s.hw.time.now - (s.hw.enc e.val).windowAt).toNat) :
    exec (.encSpeedWindow e) s = .next (s.put (s.hw.modEnc e.val (fun x =>
      x.close (max (s.hw.par (0x040F + e.val)) 1) (s.hw.par (0x0413 + e.val)) s.hw.time.now))) :=
  next_put_congr (if_neg (by simp only [hr, ho, Nat.not_lt.mpr ht, decide_false, Bool.not_true, Bool.or_self, Bool.false_eq_true,
    not_false_eq_true]))

end

/-! ## Hall sets (R100) -/

section
variable {h : Hw} {k st stable : Nat}

/-- A Hall set as a state that has persisted leaves it: on the sequence or off it (R100). -/
def Hw.markHall (h : Hw) (k : Nat) (invalid : Bool) : Hw :=
  { h with pos := { h.pos with halls := h.pos.halls.set k { h.pos.halls.get k {} with invalid := invalid } } }

theorem hallPlace_off_sequence (hs : st = 0 ∨ st = 7) : hallPlace st = none := by
  obtain rfl | rfl := hs <;> rfl

theorem Hw.hallChange_off_sequence (hr : h.posRuns = true) (hf : 32 * (h.par (0x0415 + k) % 256) ≤ stable)
    (hs : hallPlace st = none) :
    h.hallChange k st stable = ((h.markHall k true).raiseOnce fltHallInvalid (BitVec.ofNat 8 (0x30 + k))).hallsLost
      (h.par (0x0415 + k) / 512 % 4) := by
  simp [Hw.hallChange, Hw.markHall, hr, Nat.not_lt.mpr hf, hs]

/-- A step to the next state of the sequence is a commutation event, forward unless the sequence is inverted (R100). -/
theorem Hw.hallChange_commutes {old new : Nat} (hr : h.posRuns = true)
    (hf : 32 * (h.par (0x0415 + k) % 256) ≤ stable) (hn : hallPlace st = some new)
    (ho : hallPlace (h.pos.halls.get k {}).st = some old) (hd : (new + 6 - old) % 6 = 1) :
    h.hallChange k st stable = ((h.markHall k false).clearFault fltHallInvalid.code (BitVec.ofNat 8 (0x30 + k))).commute k
      st (h.par (0x0415 + k) / 256 % 2 != 1) := by
  have ahead : (h.par (0x0415 + k) / 256 % 2 != 1) = !decide (h.par (0x0415 + k) / 256 % 2 = 1) := rfl
  simp only [Hw.hallChange, Hw.markHall, hr, Nat.not_lt.mpr hf, hn, ho, hd, ahead, Bool.not_true, decide_false,
    Bool.or_self, Bool.false_eq_true, Nat.one_ne_zero, if_false, if_true]

end

/-! ## SENT channels (R102) -/

section
variable {h : Hw} {ch sync crc : Nat} {l n : List Nat} {p : Option Nat}

/-- The module with a SENT channel replaced. -/
def Hw.setSent (h : Hw) (ch : Nat) (x : SentCh) : Hw := { h with pos := { h.pos with sent := h.pos.sent.set ch x } }

/-- A frame that fails a check is counted, and the channel keeps its value (R102). -/
theorem Hw.sentFrame_rejects (hr : h.posRuns = true) (hlo : 2688 ≤ sync) (hhi : sync ≤ 4480)
    (hk : sentOk (h.par (0x0418 + ch)) sync (h.pos.sent.get ch {}).sync l n crc p.isSome = false) :
    h.sentFrame ch sync l n crc p =
      ((h.setSent ch { h.pos.sent.get ch {} with sync := some sync, serial := [] }).count (0x089 + ch) 1).occur
        fltSentFrameError (BitVec.ofNat 8 (0x40 + ch)) := by
  simp only [Hw.sentFrame, Hw.setSent, hr, Nat.not_lt.mpr hlo, Nat.not_lt.mpr hhi, hk, Bool.not_true, decide_false,
    Bool.or_self, Bool.false_eq_true, if_false]

/-- A frame that passes its checks gives the channel its value, ends its timeout and reaches the owner (R102). -/
theorem Hw.sentFrame_accepts {cfg : Nat} {y : SentCh} (hr : h.posRuns = true) (hlo : 2688 ≤ sync) (hhi : sync ≤ 4480)
    (hc : cfg = h.par (0x0418 + ch))
    (hk : sentOk cfg sync (h.pos.sent.get ch {}).sync l n crc p.isSome = true)
    (hy : y = { h.pos.sent.get ch {} with
      sync := some sync, status := n.headD 0, value := nibbleValue (n.drop 1), valid := true, acceptedAt := h.time.clock
      at' := h.time.now - BitVec.ofNat 64 (sentTicks cfg sync l (p.getD 0)) }) :
    h.sentFrame ch sync l n crc p =
      ((h.setSent ch (y.takeStatus cfg (n.headD 0))).clearFault fltSentTimeout.code (BitVec.ofNat 8 (0x40 + ch))).sentPosition
        ch (nibbleValue (n.drop 1)) (cfg / 1024 % 8) := by
  subst hc hy
  simp only [Hw.sentFrame, Hw.setSent, hr, Nat.not_lt.mpr hlo, Nat.not_lt.mpr hhi, hk, Bool.not_true, decide_false,
    Bool.or_self, Bool.false_eq_true, if_false, if_true]

/-- A channel without an accepted frame for its timeout loses its value, and its drives their position (R102, R238). -/
theorem Hw.sentTimeout_expires (hr : h.posRuns = true)
    (ht : (h.pos.sent.get ch {}).acceptedAt + h.parTicks (0x041C + ch) ≤ h.time.clock) :
    h.sentTimeout ch = (h.drivesOf ch).foldl (fun x i => x.posInvalid i)
      ((h.setSent ch { h.pos.sent.get ch {} with valid := false }).raiseOnce fltSentTimeout (BitVec.ofNat 8 (0x40 + ch))) :=
  if_pos (by simp only [hr, ht, decide_true, Bool.and_self])

end

/-- Settles O41: a resolver period, the load of a table half, the edges, index and window of an encoder, the changes of a Hall
set, and the frames of a SENT channel, each in the cases that the statement names. -/
theorem positionsAreRead : Obligations.PositionsAreRead := by
  unfold Obligations.PositionsAreRead
  refine ⟨?period, ?build, fun _ _ _ => exec_posIndexArm_arms, ?halfTable, ?edge, ?index,
    fun _ _ => exec_encSpeedWindow_closes, ?hallInvalid, ?commutation, ?frameRejected, ?frameAccepted, ?timeout⟩
  case period =>
    intro s r x y a b c d h hr hp hh ha hb hc hd
    exact ⟨_, rfl, rfl, Hw.resolverPeriod_reads hr hp hh ha hb hc hd _ rfl⟩
  case build =>
    rintro r a b c d p n poles _ rfl
    simp [Resolver.build_whole]
  case halfTable =>
    intro s d h r hk hm hs
    exact next_put_congr ((Hw.descriptor_serves (own := fun q x => x.harmLoad d q) r hm).trans (Hw.harmLoad_waits hk hs))
  case edge => exact fun s n x y d k hr hs ho hq hd => next_put_congr (Hw.encEdge_counts hr hs ho hq hd)
  case index => exact fun s n k hr hs ho hm ha => next_put_congr (Hw.encIndex_takes_armed hr hs ho hm ha)
  case hallInvalid =>
    exact fun s k st n hr hf hs => next_put_congr (Hw.hallChange_off_sequence hr hf (hallPlace_off_sequence hs))
  case commutation =>
    exact fun s k st n old new hr hf hn ho hd => next_put_congr (Hw.hallChange_commutes hr hf hn ho hd)
  case frameRejected =>
    exact fun s ch sync l n crc p hr hlo hhi hk => next_put_congr (Hw.sentFrame_rejects hr hlo hhi hk)
  case frameAccepted =>
    exact fun s ch sync l n crc p cfg y hr hlo hhi hc hk hy =>
      next_put_congr (Hw.sentFrame_accepts hr hlo hhi hc hk hy)
  case timeout => exact fun s ch hr ht => next_put_congr (Hw.sentTimeout_expires hr ht)

end Sys2Proof.Machine
end

section
/-!
PROOF. The statements of 05_torque_control.md: the DC link ceiling of rank 3 (R143), synchronised start (R138, R139),
re-acquisition (R145), plausibility (R146), and what a control boundary and the start of a PWM period leave (R113, R147, R152).
-/
namespace Sys2Proof.Machine

/-! ## Intervals of admissible torque (R126) -/

section
variable {p : Span} {lo hi : Int} {bit : Nat}

/-- A limit that meets the interval leaves their common part. -/
theorem Span.cut_meets (hl : lo ≤ p.hi) (hh : p.lo ≤ hi) :
    (p.cut lo hi bit).lo = maxI p.lo lo ∧ (p.cut lo hi bit).hi = minI p.hi hi := by
  simp [Span.cut, Int.not_lt.mpr hl, Int.not_lt.mpr hh]

/-- A lower-ranked limit only narrows the interval, also where it yields to it. -/
theorem Span.cut_within (hp : p.lo ≤ p.hi) : p.lo ≤ (p.cut lo hi bit).lo ∧ (p.cut lo hi bit).hi ≤ p.hi := by
  unfold Span.cut
  split
  · exact ⟨hp, Int.le_refl _⟩
  · split
    · exact ⟨Int.le_refl _, hp⟩
    · dsimp only [maxI, minI]
      omega

theorem Span.motoring_within {n t : Int} (hp : p.lo ≤ p.hi) :
    p.lo ≤ (p.motoring n t bit).lo ∧ (p.motoring n t bit).hi ≤ p.hi := by
  unfold Span.motoring
  split
  · exact Span.cut_within hp
  · split
    · exact Span.cut_within hp
    · exact ⟨Int.le_refl _, Int.le_refl _⟩

end

/-! ## The DC link ceiling (R143) -/

section
variable {h : Hw} {b : Bridge} {p : Span}

/-- No power may be braked while TRQ_DC_CEILING stands, so no torque against the rotation either. -/
theorem Hw.ceilingRank_closed (hc : h.sh.dcCeil = true) (hn : (h.ctl b).speed ≠ 0) :
    h.ceilingRank b p = p.braking (h.ctl b).speed 0 4 := by
  simp [Hw.ceilingRank, Hw.brakingPower, hc, hn, torqueOfPower]

/-- Forward rotation: the closed interval starts at zero. -/
theorem Hw.ceilingRank_forward (hc : h.sh.dcCeil = true) (hn : 0 < (h.ctl b).speed) (hl : p.lo ≤ 0) (hh : 0 ≤ p.hi) :
    (h.ceilingRank b p).lo = 0 ∧ 0 ≤ (h.ceilingRank b p).hi := by
  have cut : h.ceilingRank b p = p.cut (-0) 1000000000000 4 := by
    rw [Hw.ceilingRank_closed hc (by omega), Span.braking, Span.motoring, if_neg (by omega), if_pos (by omega)]
  obtain ⟨elo, ehi⟩ := Span.cut_meets (p := p) (lo := -0) (hi := 1000000000000) (bit := 4) (by omega) (by omega)
  rw [cut, elo, ehi]
  dsimp only [maxI, minI]
  omega

/-- Reverse rotation: the closed interval ends at zero. -/
theorem Hw.ceilingRank_reverse (hc : h.sh.dcCeil = true) (hn : (h.ctl b).speed < 0) (hl : p.lo ≤ 0) (hh : 0 ≤ p.hi) :
    (h.ceilingRank b p).lo ≤ 0 ∧ (h.ceilingRank b p).hi = 0 := by
  have cut : h.ceilingRank b p = p.cut (-1000000000000) 0 4 := by
    rw [Hw.ceilingRank_closed hc (by omega), Span.braking, Span.motoring, if_pos (by omega)]
  obtain ⟨elo, ehi⟩ := Span.cut_meets (p := p) (lo := -1000000000000) (hi := 0) (bit := 4) (by omega) (by omega)
  rw [cut, elo, ehi]
  dsimp only [maxI, minI]
  omega

/-- The DC link floor, the other part of rank 3, only narrows what the ceiling leaves. -/
theorem Hw.floorRank_within (hp : p.lo ≤ p.hi) :
    p.lo ≤ (h.floorRank b p).lo ∧ (h.floorRank b p).hi ≤ p.hi := by
  unfold Hw.floorRank
  dsimp only
  split
  · exact ⟨Int.le_refl _, Int.le_refl _⟩
  · exact Span.motoring_within hp

theorem Hw.rank3_forward (hc : h.sh.dcCeil = true) (hn : 0 < (h.ctl b).speed) (hl : p.lo ≤ 0) (hh : 0 ≤ p.hi) :
    0 ≤ (h.floorRank b (h.ceilingRank b p)).lo := by
  obtain ⟨elo, ehi⟩ := Hw.ceilingRank_forward hc hn hl hh
  exact elo ▸ (Hw.floorRank_within (elo ▸ ehi)).1

theorem Hw.rank3_reverse (hc : h.sh.dcCeil = true) (hn : (h.ctl b).speed < 0) (hl : p.lo ≤ 0) (hh : 0 ≤ p.hi) :
    (h.floorRank b (h.ceilingRank b p)).hi ≤ 0 := by
  obtain ⟨elo, ehi⟩ := Hw.ceilingRank_reverse hc hn hl hh
  exact ehi ▸ (Hw.floorRank_within (ehi ▸ elo)).2

theorem Hw.raiseOnce_mild_sh {f : FaultId} {src : Byte} (hc : f.cls.mild) : (h.raiseOnce f src).sh = h.sh := by
  obtain ⟨-, -, -, -, -, -, -, -, -, -, hsh, -⟩ : Q h (h.raiseOnce f src) :=
    q_ite (q_refl h) (Hw.raiseAs_mild_q hc (q_refl h))
  exact hsh

end

/-- Settles O9: a fault of class WARN leaves the ceiling of rank 3 closed, and the floor only narrows it. -/
theorem dcLinkCeilingLeavesMotoringOnly : Obligations.DcLinkCeilingLeavesMotoringOnly := by
  unfold Obligations.DcLinkCeilingLeavesMotoringOnly
  intro s hv hh
  refine ⟨_, next_put_congr (if_pos (by simp [hv, hh])), rfl, fun b p hlo hhi => ?rank3⟩
  have closed : (({ s.hw with sh := { s.hw.sh with dcCeil := true } } : Hw).raiseOnce fltTrqDcCeiling 0xFF).sh.dcCeil =
      true := by rw [Hw.raiseOnce_mild_sh (.inr rfl)]
  exact ⟨fun hn => Hw.rank3_forward closed hn hlo hhi, fun hn => Hw.rank3_reverse closed hn hlo hhi⟩

/-! ## Synchronised start and re-acquisition (R138, R139, R145) -/

section
variable {h : Hw} {b : Bridge} {a : W32} {n e : Int}

theorem Hw.syncMeasured_agrees (hs : (h.ctl b).state = .sync) (hr : (h.ctl b).syncReady = false)
    (ha : h.syncAgrees b a n = true) (hn : (h.fus b).noSource = false) :
    h.syncMeasured b a n e = h.modCtl b (fun c =>
      { c with syncReady := true, syncEmf := if (h.ctl b).syncAsc then none else some (1000 * e) }) := by
  simp only [Hw.syncMeasured, hs, hr, ha, hn, beq_self_eq_true, Bool.not_false, Bool.and_self, Bool.false_eq_true,
    if_true, if_false]
  exact Hw.modCtl_congr rfl

theorem Hw.syncMeasured_mismatch (hs : (h.ctl b).state = .sync) (hr : (h.ctl b).syncReady = false)
    (ha : h.syncAgrees b a n = false) :
    h.syncMeasured b a n e = h.occurThen fltTrqSyncMismatch fltTrqSyncMismatch.cls (BitVec.ofNat 8 b.code)
      (fun x => (x.modCtl b (fun c => { c with ordered := true })).refreshSafe b) := by
  simp [Hw.syncMeasured, hs, hr, ha]

/-- Two electrical periods of agreement hand the bridge to its observer, which starts it (R145). -/
theorem Hw.reacquired_locks {p : Nat} (hr : (h.ctl b).reacqAt.isSome = true) (hs : (h.ctl b).state.asc = true)
    (hp : h.twoPeriods b = some p) (hh : heldFor (h.ctl b).agreeAt p h.time.clock = true) :
    h.reacquired b = (((h.onObserver b).modFus b (fun f =>
      { f with angle := h.vectorAngle b, speed := (h.ctl b).vecSpeed })).modCtl b (fun c =>
      { c with reacqAt := none, agreeAt := none, reentry := true, speed := c.vecSpeed })).syncStart b := by
  simp [Hw.reacquired, hr, hs, hp, hh]

end

/-! ## Plausibility (R146) -/

section
variable {h : Hw} {b : Bridge}

/-- A bridge in a safe pattern gives no torque, in service or in a shift. -/
theorem BState.idle_of_safe {x : BState} (hs : x.safe = true) : x.inService = false ∧ x ≠ .shiftSync := by
  cases x with
  | openAll | ascLow | ascHigh => exact ⟨rfl, by decide⟩
  | sync | runTorque | runSpeed | shiftSync | ident => exact absurd hs (by decide)

/-- What is at rest is compared with nothing. -/
theorem Hw.plausibility_atRest (hs : (h.ctl b).state.safe = true) :
    h.plausibility b = h.modCtl b (fun c => { c with expected := 0, expectedAt := h.time.clock, implausible := 0 }) := by
  obtain ⟨service, shift⟩ := BState.idle_of_safe hs
  exact if_pos (by simp [service, shift])

theorem Hw.plausibility_plausible (hi : (h.ctl b).state.inService = true)
    (hu : unintended (h.ctl b).est (((h.lagTo b).ctl b).expected / 65536) (h.torqueTolerance b) = false) :
    h.plausibility b = (h.lagTo b).modCtl b (fun c => { c with implausible := 0 }) := by
  simp [Hw.plausibility, hi, hu]

/-- The third excess in a row is TRQ_UNINTENDED, and the bridge takes its safe pattern. -/
theorem Hw.plausibility_third (hi : (h.ctl b).state.inService = true) (hn : (h.ctl b).implausible = 2)
    (hu : unintended (h.ctl b).est (((h.lagTo b).ctl b).expected / 65536) (h.torqueTolerance b) = true) :
    h.plausibility b = ((h.lagTo b).modCtl b (fun c => { c with implausible := 0 })).occurThen fltTrqUnintended
      (h.bridgeClass b) (BitVec.ofNat 8 b.code) (fun x => x.faultSafe b false) := by
  simp [Hw.plausibility, hi, hn, hu]

end

/-! ## The boundary and the period (R113, R147, R152) -/

section
variable {h : Hw} {b : Bridge}

/-- The last act of a boundary is the status record of what the boundary has made of the module. -/
theorem Hw.controlBoundary_records {m : BoundaryInput} (hp : h.mode.phase = .up) :
    ∃ g : Hw, h.controlBoundary b m = g.modCtl b (fun c => { c with status := some (g.statusOf b) }) :=
  ⟨_, if_neg (by simp [hp])⟩

@[simp] theorem Hw.drawn_ctl : h.drawn.ctl b = h.ctl b := by cases b <;> rfl

@[simp] theorem Hw.count_ctl {i n : Nat} : (h.count i n).ctl b = h.ctl b := by cases b <;> rfl

theorem Hw.setPair_ctl {p : Pair} : ({ h with pair := p } : Hw).ctl b = h.ctl b := by cases b <;> rfl

@[simp] theorem Hw.takeCorrections_ctl {x : Bridge} : (h.takeCorrections x).ctl b = h.ctl b := by cases b <;> rfl

@[simp] theorem Hw.periodLatch_ctl {n : Nat} : (h.periodLatch n).ctl b = h.ctl b := by cases b <;> rfl

/-- The corrections, the monitors' period and the interleave, which follow it, leave the start that the period notes (R152). -/
theorem Hw.pwmPeriod_starts {l : List EdgeMeas} (hp : h.mode.phase = .up) (hw : h.powered (5 + b.code) = true) :
    ((h.pwmPeriod b l).ctl b).periodStart = h.time.now := by
  have runs : ¬ (h.mode.phase != .up || !h.powered (5 + b.code)) = true := by simp [hp, hw]
  unfold Hw.pwmPeriod
  rw [if_neg runs]
  dsimp only
  simp only [apply_ite (fun x : Hw => (x.ctl b).periodStart), Hw.drawn_ctl, Hw.count_ctl, Hw.setPair_ctl,
    Hw.periodLatch_ctl, Hw.takeCorrections_ctl, Hw.modCtl_ctl, ite_self]

end

/-- Settles O33: each command in the cases that the statement names. -/
theorem bridgesStartAndAreWatched : Obligations.BridgesStartAndAreWatched := by
  unfold Obligations.BridgesStartAndAreWatched
  refine ⟨fun _ _ => rfl, ?agrees, ?mismatch, ?locks, fun _ _ hh => next_put_congr (if_pos hh), ?plausible, ?third, ?atRest,
    ?boundary, ?period⟩
  case agrees => exact fun s b a n e hs hr ha hn => next_put_congr (Hw.syncMeasured_agrees hs hr ha hn)
  case mismatch => exact fun s b a n e hs hr ha => next_put_congr (Hw.syncMeasured_mismatch hs hr ha)
  case locks => exact fun s b p hr hs hp hh => next_put_congr (Hw.reacquired_locks hr hs hp hh)
  case plausible => exact fun s b hi hu => next_put_congr (Hw.plausibility_plausible hi hu)
  case third => exact fun s b hi hn hu => next_put_congr (Hw.plausibility_third hi hn hu)
  case atRest => exact fun s b hs => next_put_congr (Hw.plausibility_atRest hs)
  case boundary =>
    intro s b m hp
    obtain ⟨g, records⟩ := Hw.controlBoundary_records (b := b) (m := m) hp
    refine ⟨_, g.statusOf b, next_put_congr records, rfl, ?_⟩
    simp [State.put, Hw.statusOf]
  case period => exact fun s b l hp hw => ⟨_, rfl, rfl, Hw.pwmPeriod_starts hp hw⟩

end Sys2Proof.Machine
end

section
/-!
PROOF. The statements of 06_modulation_gate_drive.md: the STO channels (R174, R262, R263, R278), cross-commands (R157),
desaturation (R165), gate rails (R161), die temperatures (R166), bootstraps (R169, R170), ASC_ARM (R175) and the comparator copies
(R168). The die temperatures that a report stores outlast the safe patterns and mode changes of its faults: `GatesKept` is carried
through them.
-/
namespace Sys2Proof.Machine

/-! ## The STO channels (R174, R262, R263, R278) -/

section
variable {h : Hw} {s : State} {chB : Bool}

/-- A channel that opens in service acts at once, where the level lasts or a pulse repeats (R262, R263). -/
theorem Hw.stoInput_opens {mv : Int} {n : Nat} (hc : (if chB then h.pwr.stoB else h.pwr.stoA) = true)
    (hp : h.mode.phase = .up) (hv : mv < 3000) (ha : h.stoActs chB n = true) :
    h.stoInput chB mv n = ({ h with pwr := { h.pwr with
      stoPulse := h.pwr.stoPulse.set (if chB then 1 else 0) h.time.clock } } : Hw).stoOpens chB := by
  simp [Hw.stoInput, hc, hp, Int.not_le.mpr hv, ha]

theorem stoClosed_iff {mv ua : Int} :
    stoClosed mv ua = true ↔ 7000 ≤ mv ∧ mv ≤ 36000 ∧ 2000 ≤ ua ∧ ua ≤ 4000 := by
  simp [stoClosed, and_assoc]

theorem exec_stoClose_closed {mv ua : Int} (ho : (if chB then s.hw.pwr.stoB else s.hw.pwr.stoA) = false)
    (hc : stoClosed mv ua = true) : exec (.stoClose chB mv ua) s = .next (s.put (s.hw.stoCloses chB)) :=
  next_put_congr (by simp only [ho, hc, Bool.not_true, Bool.or_self, Bool.false_eq_true, if_false])

/-- The other channel has stayed closed for longer than the discrepancy time. -/
theorem Hw.stoDiscrepancy_due {c t : Nat} (hw : h.saf.stoWatch = some (c, t)) (hp : h.mode.phase = .up)
    (ht : t + h.parTicks 0x0A01 ≤ h.time.clock) :
    h.stoDiscrepancy = ({ h with saf := { h.saf with stoWatch := none, stoBlock := true, bothOpenSeen := false } } : Hw).occur
      fltStoDiscrepancy (BitVec.ofNat 8 (1 - c)) := by
  simp [Hw.stoDiscrepancy, hw, hp, ht]

theorem Hw.setSto_saf {closed : Bool} : (h.setSto chB closed).saf = h.saf := by cases chB <;> rfl

theorem Hw.setSto_parTicks {closed : Bool} {i : Nat} : (h.setSto chB closed).parTicks i = h.parTicks i := by cases chB <;> rfl

theorem Hw.setSto_both (ho : (if chB then h.pwr.stoA else h.pwr.stoB) = true) :
    (h.setSto chB true).pwr.stoA = true ∧ (h.setSto chB true).pwr.stoB = true := by
  cases chB with
  | false => exact ⟨rfl, ho⟩
  | true => exact ⟨ho, rfl⟩

/-- Both channels, seen open together, close within the discrepancy time: the block is lifted (R263). -/
theorem Hw.stoCloses_lifts (ho : (if chB then h.pwr.stoA else h.pwr.stoB) = true) (hs : h.saf.bothOpenSeen = true)
    (ht : apart (h.setSto chB true).pwr.stoAAt (h.setSto chB true).pwr.stoBAt ≤ h.parTicks 0x0A01) :
    h.stoCloses chB = ({ h.setSto chB true with
      saf := { h.saf with stoBlock := false, bothOpenSeen := false } } : Hw).refreshBoth := by
  obtain ⟨closedA, closedB⟩ := Hw.setSto_both ho
  simp [Hw.stoCloses, closedA, closedB, Hw.setSto_saf, Hw.setSto_parTicks, hs, ht]

end

/-- Settles O44: STO_OPEN on either channel, STO_CLOSE, STO_DISCREPANCY, and the close that lifts the block. -/
theorem safeTorqueOffActs : Obligations.SafeTorqueOffActs := by
  unfold Obligations.SafeTorqueOffActs
  refine ⟨?opensA, ?opensB, ?closes, ?discrepancy, fun _ _ => Hw.stoCloses_lifts⟩
  case opensA => exact fun s mv n hc hp hv ha => next_put_congr (Hw.stoInput_opens (chB := false) hc hp hv ha)
  case opensB => exact fun s mv n hc hp hv ha => next_put_congr (Hw.stoInput_opens (chB := true) hc hp hv ha)
  case closes => exact fun s chB mv ua ho hl hu cl cu => exec_stoClose_closed ho (stoClosed_iff.mpr ⟨hl, hu, cl, cu⟩)
  case discrepancy => exact fun s c t hw hp ht => next_put_congr (Hw.stoDiscrepancy_due hw hp ht)

/-! ## The leg interlock (R157) -/

section
variable {h : Hw} {s : State} {leg : Nat}

theorem isConvLeg_iff : isConvLeg leg = true ↔ 16 ≤ leg ∧ leg < 32 := by simp [isConvLeg]

theorem isActLeg_iff : isActLeg leg = true ↔ 32 ≤ leg ∧ leg < 41 := by simp [isActLeg]

theorem isActLeg_of_conv (hc : isConvLeg leg = true) : isActLeg leg = false := by
  rw [Bool.eq_false_iff, ne_eq, isActLeg_iff]
  have := isConvLeg_iff.mp hc
  omega

theorem exec_legCrossCommand_conv {leg : Fin 64} (hc : isConvLeg leg.val = true) :
    exec (.legCrossCommand leg) s = .next (s.put (s.hw.xcmdConverter leg.val)) := by
  obtain ⟨hl, hu⟩ := isConvLeg_iff.mp hc
  exact next_put_congr ((if_neg (by omega)).trans (if_pos (by simp [hl, hu])))

theorem exec_legCrossCommand_act {leg : Fin 64} (ha : isActLeg leg.val = true) :
    exec (.legCrossCommand leg) s = .next (s.put (s.hw.xcmdActuator leg.val)) := by
  obtain ⟨hl, hu⟩ := isActLeg_iff.mp ha
  exact next_put_congr ((if_neg (by omega)).trans ((if_neg (by simp; omega)).trans (if_pos (by simp [hl, hu]))))

/-- Short of the third within a millisecond (R158), a cross-command forces the leg off for the half-period, and is counted and
reported. -/
theorem Hw.xcmdTraction_reports {b : Bridge} (hb : b = if leg < 3 then .brA else .brB)
    (hn : (xcmdTimes (h.gate b).xcmdAt h.time.clock).length < 3) :
    h.xcmdTraction leg = ((h.modGate b (fun g =>
      { g with forced := g.forced.set (leg % 3) (h.time.clock + h.halfLeftOn b.code), legXcmd := true,
               xcmdAt := xcmdTimes (h.gate b).xcmdAt h.time.clock })).count (0x05C + leg) 1).occur fltModLegXcmd
      (BitVec.ofNat 8 leg) := by
  simp [Hw.xcmdTraction, ← hb, Nat.not_le.mpr hn]

theorem Hw.xcmdConverter_reports (hn : (xcmdTimes h.lv.xcmdAt h.time.clock).length < 3) :
    h.xcmdConverter leg = (({ h with lv := { h.lv with
      xcmdAt := xcmdTimes h.lv.xcmdAt h.time.clock,
      forced := h.lv.forced.set leg (h.time.clock + h.halfLeftOn 2) } } : Hw).count 0x062 1).occur fltModLegXcmd
      (BitVec.ofNat 8 leg) := by
  simp [Hw.xcmdConverter, Nat.not_le.mpr hn]

theorem Hw.xcmdActuator_reports {i : Nat} (hi : i = (leg - 0x20) / 3)
    (hn : (xcmdTimes (h.act.xcmdAt.get i []) h.time.clock).length < 3) :
    h.xcmdActuator leg = (({ h with act := { h.act with
      xcmdAt := h.act.xcmdAt.set i (xcmdTimes (h.act.xcmdAt.get i []) h.time.clock),
      forced := h.act.forced.set leg (h.time.clock + h.halfLeftOn (3 + i)) } } : Hw).count 0x063 1).occur fltModLegXcmd
      (BitVec.ofNat 8 leg) := by
  simp [Hw.xcmdActuator, ← hi, Nat.not_le.mpr hn]

end

/-! ## Desaturation and the gate rails (R161, R165) -/

section
variable {h k : Hw} {p : Nat} {neg was : Bool} {mv : Int}

/-- The first desaturation of a position in a wake (R165). -/
theorem Hw.desatReport_first (hf : (h.gate (posBridge p)).desat.get (p % 6) 0 = 0)
    (hk : k = ((h.modGate (posBridge p) (fun g =>
      { g with suspect := g.suspect ||| posBit (if p % 2 = 0 then p + 1 else p - 1),
               desat := g.desat.set (p % 6) 1,
               soft := g.soft.set (p % 6) (h.parI 0x060C, h.time.clock + h.par 0x060D * 2 / 5) })).count
      (0x050 + p) 1).checkInhibit (posBridge p)) :
    h.desatReport p = k.occurThen fltGateDesat (k.bridgeClass (posBridge p)) (BitVec.ofNat 8 p)
      (fun y => y.faultSafe (posBridge p) false) := by
  simp [Hw.desatReport, hf, hk]

theorem Hw.gateUvlo_ends (hk : k = h.modGate (posBridge p) (fun g => g.seeUvlo (posBit p) neg mv))
    (hz : (k.gate (posBridge p)).uvlo &&& posBit p = 0) :
    h.gateUvlo p neg mv = (k.clearFault fltGateUvlo.code (BitVec.ofNat 8 p)).refreshSafe (posBridge p) := by
  subst hk
  exact if_pos (by simp only [hz, beq_self_eq_true])

/-- A rail under voltage brings the bridge to its safe pattern, and is raised where it is new. -/
theorem Hw.gateUvlo_raises
    (hk : k = (h.modGate (posBridge p) (fun g => g.seeUvlo (posBit p) neg mv)).faultSafe (posBridge p) false)
    (hz : ((h.modGate (posBridge p) (fun g => g.seeUvlo (posBit p) neg mv)).gate (posBridge p)).uvlo &&& posBit p ≠ 0)
    (hn : k.faultActive fltGateUvlo.code (BitVec.ofNat 8 p) = false) :
    h.gateUvlo p neg mv = k.raiseAs fltGateUvlo (k.bridgeClass (posBridge p)) (BitVec.ofNat 8 p) 0 true := by
  subst hk
  exact (if_neg (by simpa only [beq_iff_eq] using hz)).trans (if_neg (by simp only [hn, Bool.false_eq_true, not_false_eq_true]))

theorem railLow_pos_iff : railLow false was mv = true ↔ mv < 15000 ∨ (was = true ∧ mv < 16000) := by
  cases was with
  | false => simp [railLow]
  | true =>
    simp [railLow]
    omega

theorem railLow_neg_iff : railLow true was mv = true ↔ -2500 < mv ∨ (was = true ∧ -3000 < mv) := by
  cases was with
  | false => simp [railLow]
  | true =>
    simp [railLow]
    omega

theorem posBit_ne_zero : posBit p ≠ 0#6 := by
  have single : ∀ k : Fin 6, 1#6 <<< k.val ≠ 0#6 := by decide
  exact single ⟨p % 6, Nat.mod_lt _ (by decide)⟩

theorem Hw.gateOver_pos (hv : 20000 < mv) :
    h.gateOver p false mv = (h.modGate (posBridge p) (fun g => { g with ovPos := g.ovPos ||| posBit p })).raiseOnce
      fltGateRailOv (BitVec.ofNat 8 p) := by
  have seen (x y : BitVec 6) : (x ||| posBit p ||| y) &&& posBit p = posBit p := by
    ext i
    grind
  simp [Hw.gateOver, railHigh, putBit, hv, seen, posBit_ne_zero]

theorem Hw.gateOver_neg (hv : mv < -6000) :
    h.gateOver p true mv = (h.modGate (posBridge p) (fun g => { g with ovNeg := g.ovNeg ||| posBit p })).raiseOnce
      fltGateRailOv (BitVec.ofNat 8 p) := by
  have seen (x y : BitVec 6) : (x ||| (y ||| posBit p)) &&& posBit p = posBit p := by
    ext i
    grind
  simp [Hw.gateOver, railHigh, putBit, hv, seen, posBit_ne_zero]

end

/-! ## Bootstraps, ASC_ARM and the comparator copies (R168 to R170, R175) -/

section
variable {h : Hw} {s : State} {b : Bridge} {n : Nat} {mv : Int}

theorem exec_bootLowReport_conv {leg : Fin 64} (hc : isConvLeg leg.val = true) :
    exec (.bootLowReport leg mv) s = .next (s.put (s.hw.bootLow leg.val mv)) := next_put_congr (if_pos (by simp [hc]))

theorem exec_bootUvloReport_conv {leg : Fin 64} (hc : isConvLeg leg.val = true) :
    exec (.bootUvloReport leg mv) s = .next (s.put (s.hw.bootUvlo leg.val mv)) := next_put_congr (if_pos (by simp [hc]))

/-- A bootstrap newly low whose last refresh lies 16 periods back is refreshed now (R169). -/
theorem Hw.bootLow_refreshes (hc : isConvLeg n = true) (hv : mv ≤ 10500) (hl : (h.lv.boot.get n {}).low = false)
    (hs : 16 ≤ (h.lv.boot.get n {}).since) :
    h.bootLow n mv = (({ h with lv := { h.lv with
      boot := h.lv.boot.set n { low := true, since := 0, refreshAt := some h.time.clock } } } : Hw).count 0x09D 1).occur
      fltBootLow (BitVec.ofNat 8 n) := by
  simp [Hw.bootLow, Boot.report, hc, hv, hl, hs]

theorem bootLocks_low {was : Bool} (hv : mv ≤ 8500) : bootLocks was mv = true := by
  cases was <;> simp [bootLocks] <;> omega

theorem bootLocks_high {was : Bool} (hv : 9500 < mv) : bootLocks was mv = false := by
  cases was <;> simp [bootLocks] <;> omega

theorem Hw.bootUvlo_locks (hc : isConvLeg n = true) (hv : mv ≤ 8500) :
    h.bootUvlo n mv = (h.raiseOnce fltBootUvlo (BitVec.ofNat 8 n)).lockConv n true := by
  simp [Hw.bootUvlo, hc, isActLeg_of_conv hc, bootLocks_low hv]

theorem Hw.bootUvlo_releases (hc : isConvLeg n = true) (hv : 9500 < mv) :
    h.bootUvlo n mv = (h.clearFault fltBootUvlo.code (BitVec.ofNat 8 n)).lockConv n false := by
  simp [Hw.bootUvlo, hc, isActLeg_of_conv hc, bootLocks_high hv]

theorem posBridge_source (p : Fin 12) : posBridge (BitVec.ofNat 8 p.val).toNat = posBridge p.val := by
  rw [BitVec.toNat_ofNat, Nat.mod_eq_of_lt (by omega)]

/-- A comparator without an active fault of its source is noted and raised (R168). -/
theorem Hw.comparatorFail_raises {p : Fin 12} {arg : W32}
    (hn : h.faultActive fltComparatorFail.code (BitVec.ofNat 8 p.val) = false) :
    h.comparatorFail (BitVec.ofNat 8 p.val) arg = (h.modGate (posBridge p.val) (fun g =>
      { g with compFail := (BitVec.ofNat 8 p.val, arg) :: g.compFail.filter (· != (BitVec.ofNat 8 p.val, arg)) })).raiseAs
      fltComparatorFail fltComparatorFail.cls (BitVec.ofNat 8 p.val) arg true := by
  simp only [Hw.comparatorFail, posBridge_source, hn, Bool.and_false, Bool.false_eq_true, if_false]

end

/-! ## What the reaction to a fault leaves of the gate drivers

A safe pattern and a change of mode command bridges, converter and actuators; of the gate drivers' state they end the off-state
diagnosis alone, which the drivers run as an intrusive test (R52, R167). -/

/-- A bridge's gate state but for its off-state diagnosis. -/
def Gate.kept (g : Gate) : Gate := { g with offRunning := false, offWait := false }

/-- The gate drivers of `h` stand as in `g`, but for the off-state diagnosis. -/
def GatesKept (g h : Hw) : Prop := h.gateA.kept = g.gateA.kept ∧ h.gateB.kept = g.gateB.kept

section
variable {g h k : Hw} {b : Bridge} {m : Mode} {st : Status} {code : W16} {src : Byte}

theorem GatesKept.refl (h : Hw) : GatesKept h h := ⟨rfl, rfl⟩

theorem GatesKept.dies (e : GatesKept g h) (b : Bridge) : (h.gate b).dies = (g.gate b).dies := by
  obtain ⟨hA, hB⟩ := e
  cases b with
  | brA => exact (congrArg Gate.dies hA :)
  | brB => exact (congrArg Gate.dies hB :)

theorem GatesKept.quiet (e : GatesKept g h) (q : Q h k) : GatesKept g k := by
  obtain ⟨-, -, -, -, -, -, -, -, hA, hB, -⟩ := q
  unfold GatesKept
  rwa [hA, hB]

theorem GatesKept.ite {c : Prop} [Decidable c] (e : GatesKept g h) (f : GatesKept g k) :
    GatesKept g (if c then h else k) := by
  split
  · exact e
  · exact f

theorem GatesKept.foldl {α : Type} {f : Hw → α → Hw} {l : List α} (e : GatesKept g h)
    (hf : ∀ (x : Hw) (a : α), GatesKept g x → GatesKept g (f x a)) : GatesKept g (l.foldl f h) :=
  List.foldlRecOn l f e fun x ex a _ => hf x a ex

theorem Hw.completeOpt_gates {q : Option Req} (e : GatesKept g h) : GatesKept g (h.completeOpt q st) :=
  e.quiet (Hw.completeOpt_q q st (q_refl h))

theorem Hw.completeAll_gates {l : List Req} (e : GatesKept g h) : GatesKept g (Hw.completeAll l st h) :=
  e.quiet (Hw.completeAll_q l st (q_refl h))

theorem Hw.postEvent_gates {ty : W16} {time : W64} {body : List Byte} (e : GatesKept g h) :
    GatesKept g (h.postEvent ty time body) :=
  e.quiet (Hw.postEvent_q ty time body (q_refl h))

theorem Hw.clearFault_gates (e : GatesKept g h) : GatesKept g (h.clearFault code src) :=
  e.quiet (Hw.clearFault_q code src (q_refl h))

theorem Hw.note_gates {cls : FClass} {arg : W32} {active : Bool} (e : GatesKept g h) :
    GatesKept g (h.note code cls src arg active) :=
  e.quiet (Hw.note_q code cls src arg active (q_refl h))

/-! ### Bridges -/

theorem Hw.modCtl_gates {f : Ctl → Ctl} (e : GatesKept g h) : GatesKept g (h.modCtl b f) := by
  cases b <;> exact e

theorem Hw.setPattern_gates {p : BState} (e : GatesKept g h) : GatesKept g (h.setPattern b p) :=
  e.ite (Hw.modCtl_gates (h := h) e)

theorem Hw.refreshSafe_gates (e : GatesKept g h) : GatesKept g (h.refreshSafe b) := (Hw.setPattern_gates e).ite e

theorem Hw.storePending_gates (e : GatesKept g h) : GatesKept g (h.storePending b) := by
  unfold Hw.storePending
  split
  · exact e
  · exact Hw.completeOpt_gates (Hw.modCtl_gates e)

theorem Hw.orderSafe_gates (e : GatesKept g h) : GatesKept g (h.orderSafe b) :=
  Hw.refreshSafe_gates (Hw.storePending_gates (Hw.modCtl_gates e))

theorem Hw.abortSetpoints_gates (e : GatesKept g h) : GatesKept g (h.abortSetpoints b) :=
  Hw.completeOpt_gates (Hw.completeOpt_gates (Hw.modCtl_gates e))

theorem Hw.endPair_gates (e : GatesKept g h) : GatesKept g (h.endPair st) :=
  Hw.completeOpt_gates (Hw.completeOpt_gates (h := { h with sh := _ }) e)

theorem Hw.bridgeEdge_gates (e : GatesKept g h) : GatesKept g (h.bridgeEdge b m) := e.ite (Hw.orderSafe_gates e)

/-! ### Charging, converter and actuators -/

theorem Hw.chgGo_gates {x : ChgState} {cause : Byte} (e : GatesKept g h) : GatesKept g (h.chgGo x cause code) :=
  e.ite (Hw.postEvent_gates (h := { h with chg := _ }) e)

theorem Hw.chgEndPhase_gates {reason : Byte} (e : GatesKept g h) : GatesKept g (h.chgEndPhase reason) := by
  unfold Hw.chgEndPhase
  split
  · exact e
  · exact Hw.postEvent_gates e

theorem Hw.chgCompleteAll_gates {start stop : Status} (e : GatesKept g h) : GatesKept g (h.chgCompleteAll start stop) :=
  Hw.completeAll_gates (Hw.completeOpt_gates (Hw.completeOpt_gates (Hw.completeOpt_gates (h := { h with chg := _ }) e)))

theorem Hw.chgOpen_gates (e : GatesKept g h) : GatesKept g h.chgOpen := e

theorem Hw.chgArrest_gates (e : GatesKept g h) : GatesKept g (h.chgArrest code) :=
  Hw.chgGo_gates (Hw.chgOpen_gates (Hw.chgCompleteAll_gates (Hw.chgEndPhase_gates e)))

theorem Hw.boostAbort_gates (e : GatesKept g h) : GatesKept g (h.boostAbort code) :=
  (Hw.chgGo_gates (Hw.chgOpen_gates (Hw.chgCompleteAll_gates (Hw.chgEndPhase_gates e)))).ite e

theorem Hw.chgBelay_gates (e : GatesKept g h) : GatesKept g h.chgBelay := by
  unfold Hw.chgBelay
  split
  · exact e
  · split
    · exact e
    · exact e
    · exact GatesKept.ite e e

theorem Hw.lvGo_gates {x : LvState} (e : GatesKept g h) : GatesKept g (h.lvGo x) :=
  GatesKept.ite e (Hw.postEvent_gates (h := { h with lv := _ }) e)

theorem Hw.lvOff_gates (e : GatesKept g h) : GatesKept g h.lvOff := e

theorem Hw.lvRest_gates {x : LvState} (e : GatesKept g h) : GatesKept g (h.lvRest x st) :=
  Hw.completeAll_gates (Hw.completeAll_gates (Hw.completeOpt_gates (Hw.completeOpt_gates (Hw.completeOpt_gates
    (Hw.lvGo_gates (Hw.lvOff_gates (h := { h with lv := _ }) e))))))

theorem Hw.lvArrest_gates (e : GatesKept g h) : GatesKept g h.lvArrest := (Hw.lvRest_gates e).ite e

theorem Hw.modDrive_gates {i : Nat} {f : Drive → Drive} (e : GatesKept g h) : GatesKept g (h.modDrive i f) :=
  GatesKept.ite e (GatesKept.ite e e)

theorem Hw.startDrive_gates {i c : Nat} {limit : Int} {q : Option Req} (e : GatesKept g h) :
    GatesKept g (h.startDrive i c limit q) := Hw.modDrive_gates e

theorem Hw.actStop_gates (e : GatesKept g h) : GatesKept g (h.actStop st) :=
  Hw.completeOpt_gates (Hw.completeOpt_gates (Hw.completeOpt_gates (h := { h with act := _ }) e))

theorem Hw.shiftArrest_gates (e : GatesKept g h) : GatesKept g h.shiftArrest :=
  e.ite (Hw.completeOpt_gates (h := { h with act := _ }) e)

theorem Hw.actHold_gates (e : GatesKept g h) : GatesKept g h.actHold := by
  have stopped : GatesKept g (h.shiftArrest.actStop .aborted) := Hw.actStop_gates (Hw.shiftArrest_gates e)
  exact stopped.ite (GatesKept.ite stopped ((Hw.startDrive_gates stopped).ite stopped))

/-! ### Modes -/

theorem Hw.endIdent_gates (e : GatesKept g h) : GatesKept g (h.endIdent b) := (Hw.orderSafe_gates e).ite e

/-- The one operation of these that reaches the gate drivers: the off-state diagnosis is a test. -/
theorem Hw.abortTests_gates (e : GatesKept g h) : GatesKept g h.abortTests :=
  Hw.completeAll_gates (Hw.endIdent_gates (Hw.endIdent_gates (h := { h with tests := _, gateA := _, gateB := _, sen := _ }) e))

theorem Hw.abortCinches_gates (e : GatesKept g h) : GatesKept g h.abortCinches :=
  Hw.completeAll_gates (h := { h with slots := _ }) e

theorem Hw.abortGrant_gates (e : GatesKept g h) : GatesKept g h.abortGrant := by
  unfold Hw.abortGrant
  split
  · exact e
  · dsimp only
    split
    · exact Hw.completeOpt_gates e
    · exact e

theorem Hw.abortDischarge_gates (e : GatesKept g h) : GatesKept g h.abortDischarge :=
  Hw.completeAll_gates (h := { h with saf := _ }) e

theorem Hw.applyStaged_gates (e : GatesKept g h) : GatesKept g h.applyStaged :=
  GatesKept.foldl (h := { h with prm := _ }) e (fun _ _ ex => ex)

theorem Hw.safetyEdge_gates (e : GatesKept g h) : GatesKept g (h.safetyEdge m) := by
  have copied {x : Hw} (ex : GatesKept g x) : GatesKept g (if m == .workshop then
      { x with saf := { x.saf with pending := some x.activeSet } } else x) := GatesKept.ite ex ex
  refine copied ?_
  split
  · split
    · split
      · exact Hw.clearFault_gates (GatesKept.foldl e (fun _ _ ex => ex))
      · exact e
    · exact e
  · exact e

theorem Hw.dischargeEdge_gates (e : GatesKept g h) : GatesKept g (h.dischargeEdge m) := by
  unfold Hw.dischargeEdge
  dsimp only
  split
  · exact Hw.completeAll_gates e
  · exact e

theorem Hw.mailbox0_gates (e : GatesKept g h) : GatesKept g h.mailbox0 := e.ite (e.quiet (Hw.msix_q 0 (q_refl h)))

theorem Hw.edge_gates {cause : Byte} (e : GatesKept g h) : GatesKept g (h.edge m cause code src) := by
  have staged : GatesKept g ((h.modeEvent m cause code src).applyStaged.safetyEdge m) :=
    Hw.safetyEdge_gates (Hw.applyStaged_gates (Hw.postEvent_gates e))
  exact Hw.mailbox0_gates (Hw.bridgeEdge_gates (Hw.bridgeEdge_gates (Hw.dischargeEdge_gates (h := Hw.count _ _ _) staged)))

/-- What ends on the way into ARREST and into BELAY. -/
theorem Hw.abortOutstanding_gates (e : GatesKept g h) :
    GatesKept g ((((h.abortGrant.abortSetpoints .brA).abortSetpoints .brB).endPair .aborted).abortTests).abortCinches :=
  Hw.abortCinches_gates (Hw.abortTests_gates (Hw.endPair_gates (Hw.abortSetpoints_gates (Hw.abortSetpoints_gates
    (Hw.abortGrant_gates e)))))

theorem Hw.arrestDischarge_gates (e : GatesKept g h) : GatesKept g h.arrestDischarge := e

theorem Hw.enterArrest_gates (e : GatesKept g h) : GatesKept g (h.enterArrest code src) := by
  have ended := Hw.abortDischarge_gates (Hw.abortOutstanding_gates e)
  unfold Hw.enterArrest
  exact e.ite (Hw.arrestDischarge_gates (Hw.actHold_gates (Hw.lvArrest_gates (Hw.chgArrest_gates
    ((Hw.edge_gates ended).ite (Hw.edge_gates ended))))))

theorem Hw.setMode_gates {x : ModeSt} (e : GatesKept g h) : GatesKept g { h with mode := x } := e

theorem Hw.enterBelay_gates (e : GatesKept g h) : GatesKept g (h.enterBelay code src) := by
  have entered := Hw.edge_gates (m := .belay) (cause := 1) (code := code) (src := src)
    (Hw.chgBelay_gates (Hw.abortOutstanding_gates e))
  unfold Hw.enterBelay
  extract_lets mode h1 h2 cap h3
  exact Hw.setMode_gates (h := h3) (Hw.modCtl_gates (Hw.modCtl_gates entered))

/-! ### Faults -/

theorem Hw.faultSafe_gates {ack : Bool} (e : GatesKept g h) : GatesKept g (h.faultSafe b ack) :=
  Hw.boostAbort_gates (Hw.orderSafe_gates (Hw.modCtl_gates e))

theorem Hw.classEffect_gates {cls : FClass} (e : GatesKept g h) : GatesKept g (h.classEffect cls code src) := by
  cases cls with
  | belay => exact e.ite ((Hw.enterBelay_gates e).ite ((Hw.enterArrest_gates e).ite e))
  | arrest => exact Hw.enterArrest_gates e
  | info | warn | latch => exact e

theorem Hw.raiseAs_gates {f : FaultId} {cls : FClass} {arg : W32} {lasting : Bool} (e : GatesKept g h) :
    GatesKept g (h.raiseAs f cls src arg lasting) := by
  have reacted (active : Bool) : GatesKept g (if cls == .belay && h.repeatsBelay f.code src then h.note f.code cls src arg active
      else (h.note f.code cls src arg active).classEffect cls f.code src) :=
    (Hw.note_gates e).ite (Hw.classEffect_gates (Hw.note_gates e))
  exact (reacted _).ite (Hw.clearFault_gates (reacted _))

end

/-! ## Die temperatures (R166) -/

section
variable {g h : Hw} {die p : Nat}

theorem Hw.countSwing_q {x : Int} {n : Nat} (e : Q g h) : Q g (h.countSwing die x n) := by
  unfold Hw.countSwing
  split
  · exact Hw.count_q _ _ e
  · exact e

theorem Hw.closeSwings_q {n : Nat} {l : List Int} (e : Q g h) : Q g (Hw.closeSwings die n l h) := by
  induction n generalizing l h with
  | zero => exact e
  | succ n ih =>
    unfold Hw.closeSwings
    split
    · exact ih (Hw.countSwing_q e)
    · exact e

/-- Rainflow counting reaches the counters alone. -/
theorem Hw.rainflow_q {t : Int} (e : Q g h) : Q g (h.rainflow die t) := Hw.closeSwings_q e

theorem q_foldl {α : Type} {f : Hw → α → Hw} {l : List α} (e : Q g h) (hf : ∀ (x : Hw) (a : α), Q g x → Q g (f x a)) :
    Q g (l.foldl f h) := List.foldlRecOn l f e fun x ex a _ => hf x a ex

/-- A die fault without a reaction reaches the fault history alone. -/
theorem Hw.dieFault_q {f : FaultId} {old bad : List Nat} (hc : f.cls.mild) (e : Q g h) : Q g (h.dieFault f p old bad) :=
  q_ite (Hw.clearFault_q _ _ e) (q_foldl e fun _ _ ex => q_ite ex (Hw.raiseAs_mild_q hc ex))

/-- Temperatures set at consecutive places of a table are read back. -/
theorem Tab.get_foldl_set {α : Type} (t : Tab α) (a : Nat) (v : Nat → α) (x : α) {d n : Nat} (hd : d < n) :
    ((List.range n).foldl (fun u k => Tab.set u (a + k) (v k)) t).get (a + d) x = v d := by
  induction n with
  | zero => exact absurd hd (Nat.not_lt_zero d)
  | succ n ih =>
    rw [List.range_succ, List.foldl_append, List.foldl_cons, List.foldl_nil]
    rcases Nat.lt_succ_iff_lt_or_eq.mp hd with hlt | rfl
    · rw [Tab.get_set_other _ _ _ (by omega), ih hlt]
    · exact Tab.get_set_self _ _ _ _

/-- Where every die reads, nothing is substituted. -/
theorem substituted_map_some (l : List Int) : substituted (l.map some) = l.map some := by
  unfold substituted
  split <;> simp

/-- The table of temperatures after a report: nothing that the report raises touches it. -/
theorem Hw.dieTemps_dies (h : Hw) (p : Nat) (raw : List (Option Int)) :
    ((h.dieTemps p raw).gate (posBridge p)).dies = (List.range 8).foldl
      (fun t d => Tab.set t (8 * (p % 6) + d) ((substituted raw).getD d none)) (h.gate (posBridge p)).dies := by
  unfold Hw.dieTemps
  extract_lets b src dies seen opens far store h1 h2 h3 h4
  have counted : Q (h.modGate b store) h1 := q_foldl (q_refl _) fun x d ex => by
    split
    · exact Hw.rainflow_q ex
    · exact ex
  have faulted : Q (h.modGate b store) h3 := Hw.dieFault_q (.inr rfl) (Hw.dieFault_q (.inr rfl) counted)
  have noted : GatesKept (h.modGate b store) h3 := (GatesKept.refl _).quiet faulted
  have safe : GatesKept (h.modGate b store) h4 := Hw.faultSafe_gates noted
  rw [GatesKept.dies (g := h.modGate b store) (safe.ite (Hw.raiseAs_gates safe) |>.ite (Hw.clearFault_gates noted)),
    Hw.modGate_gate]

/-- A report in which all eight dies read leaves each of them as reported. -/
theorem Hw.dieTemps_reads (h : Hw) (p : Nat) {l : List Int} (hl : l.length = 8) {d : Nat} (hd : d < 8) :
    ((h.dieTemps p (l.map some)).gate (posBridge p)).dies.get (8 * (p % 6) + d) none = some (l.getD d 0) := by
  rw [Hw.dieTemps_dies, substituted_map_some, Tab.get_foldl_set _ _ _ _ hd]
  simp [hl, hd]

end

/-- Settles O34: each report in the case that the statement names. -/
theorem driversReport : Obligations.DriversReport := by
  unfold Obligations.DriversReport
  refine ⟨?traction, ?desat, ?uvloEnds, ?uvloRaises, fun _ _ => ⟨railLow_pos_iff, railLow_neg_iff⟩, ?overPos, ?overNeg,
    ?dies, ?bootLow, ?bootLocks, ?bootReleases, ?ascArm, ?comparator, ?converter, ?actuator⟩
  case traction => exact fun s leg b hl hb hn => next_put_congr ((if_pos hl).trans (Hw.xcmdTraction_reports hb hn))
  case desat => exact fun s p h hf hk => next_put_congr (Hw.desatReport_first hf hk)
  case uvloEnds => exact fun s p neg mv h hk hz => next_put_congr (Hw.gateUvlo_ends hk hz)
  case uvloRaises => exact fun s p neg mv h hk hz hn => next_put_congr (Hw.gateUvlo_raises hk hz hn)
  case overPos => exact fun s p mv hv => next_put_congr (Hw.gateOver_pos hv)
  case overNeg => exact fun s p mv hv => next_put_congr (Hw.gateOver_neg hv)
  case dies =>
    exact fun s p t0 t1 t2 t3 t4 t5 t6 t7 => ⟨_, rfl, rfl, fun d =>
      Hw.dieTemps_reads s.hw p.val (l := [t0, t1, t2, t3, t4, t5, t6, t7]) rfl d.isLt⟩
  case bootLow =>
    intro s leg mv hc hv hl hs
    rw [exec_bootLowReport_conv hc, Hw.bootLow_refreshes hc hv hl hs]
  case bootLocks =>
    intro s leg mv hc hv
    rw [exec_bootUvloReport_conv hc, Hw.bootUvlo_locks hc hv]
  case bootReleases =>
    intro s leg mv hc hv
    rw [exec_bootUvloReport_conv hc, Hw.bootUvlo_releases hc hv]
  case ascArm => exact fun s b ht => next_put_congr (if_pos ht)
  case comparator => exact fun s p neg hn => next_put_congr (Hw.comparatorFail_raises hn)
  case converter =>
    intro s leg hc hn
    rw [exec_legCrossCommand_conv hc, Hw.xcmdConverter_reports hn]
  case actuator =>
    intro s leg i ha hi hn
    rw [exec_legCrossCommand_act ha, Hw.xcmdActuator_reports hi hn]

end Sys2Proof.Machine
end

section
/-!
PROOF. The statement of 07_hv_lv_conversion.md on forward service: FORWARD and STOP (R181), the soft start and its end (R182), the
short (R183), failed attempts, the latch and the restart (R184), and the bus and DC link limits (R180). For each operation of the
converter one lemma per case says what it answers; the statement is put together from these.
-/
namespace Sys2Proof.Machine

section
variable {h : Hw} {s : State} {d : Desc} {q : Req} {short : Bool} {v : Int}

/-! ## LV_CONTROL (R181) -/

theorem exec_lvControlForward_runs (r : s.hw.RunsTo 0x0701 (d.withByte16 1) h) :
    exec (.lvControlForward d) s = .next (s.put (h.lvForward d d.req)) :=
  next_put_congr (Hw.descriptor_runs (own := fun q x => x.lvForward d q) r)

theorem exec_lvControlStop_runs (r : s.hw.RunsTo 0x0701 (d.withByte16 0) h) :
    exec (.lvControlStop d) s = .next (s.put (h.lvStop d.req)) :=
  next_put_congr (Hw.descriptor_runs (own := fun q x => x.lvStop q) r)

/-- A setting that does not fit the variant, or a reversed LV battery (R411). -/
theorem Hw.lvForward_range (hr : h.lvFits 0x0701 (d.num 20 4) = false ∨ h.lvFits 0x0702 (d.num 24 4) = false ∨
    h.lv.vout < -500) : h.lvForward d q = h.complete q .range :=
  if_pos (by simpa [or_assoc] using hr)

/-- A FORWARD that fits, to a stopped converter that nothing else uses and no fault inhibits, with the stage free to start. -/
theorem Hw.lvForward_starts (hv : h.lvFits 0x0701 (d.num 20 4) = true) (hi : h.lvFits 0x0702 (d.num 24 4) = true)
    (hb : -500 ≤ h.lv.vout) (ht : h.lvToppingUp = false) (hs : h.lv.state = .stopped) (hd : h.lv.draining = false)
    (hw : h.lv.fwdInHold = none) (hf : h.lvInhibited = false) (hq : h.lv.req = none) (hl : 255000 ≤ h.pwr.vdc)
    (hk : h.lv.shut = 0) (hc : h.lv.closed = false) :
    h.lvForward d q = ({ h.lvWrite d with lv := { (h.lvWrite d).lv with req := some q } } : Hw).lvStart := by
  have inRange : (!h.lvFits 0x0701 (d.num 20 4) || !h.lvFits 0x0702 (d.num 24 4) || decide (h.lv.vout < -500)) = false := by
    simp [hv, hi, hb]
  have free : (h.lvToppingUp || h.lv.state == .precharge || (h.lv.state == .waiting && h.lv.waitPre) || h.lv.draining ||
      h.lv.fwdInHold.isSome) = false := by
    simp [ht, hs, hd, hw]
  have able : (h.lv.state == .latchedOff || h.lvInhibited) = false := by simp [hs, hf]
  have atOnce : (decide (255000 ≤ h.pwr.vdc) && h.lv.shut == 0 && !h.lv.closed) = true := by simp [hl, hk, hc]
  simp only [Hw.lvForward, inRange, free, able, Bool.false_eq_true, if_false]
  simp only [hs, hq, atOnce, Option.isSome_none, Bool.false_eq_true, if_false, if_true]

/-- STOP of a converter in service with its switch closed drains it. -/
theorem Hw.lvStop_drains (hs : h.lv.state = .running) (hd : h.lv.draining = false) (hc : h.lv.closed = true)
    (ho : h.lv.ovStop = false) :
    h.lvStop q =
      ({ h with lv := { h.lv with resume := false, autoDue := false, stopReqs := h.lv.stopReqs ++ [q] } } : Hw).drainLv := by
  simp [Hw.lvStop, hs, hd, hc, ho]

/-! ## The soft start and the short (R182, R183) -/

theorem Hw.softStartDone_regulates (hs : h.lv.state = .starting) (hc : h.lv.closed = true) (ho : h.lv.ovStop = false)
    (ht : h.lv.rampAt + h.lv.rampLen ≤ h.time.clock) :
    h.softStartDone = (({ h with lv := { h.lv with
      regSince := some h.time.clock, ref := h.lvTarget, isoFails := 0, rampAt := h.time.clock } } : Hw).lvGo
      .running).lvAnswer .done :=
  if_pos (by simp [hs, hc, ho, ht])

theorem Lv.shorted_iff {l : Lv} {clock : Nat} : l.shorted clock = true ↔ l.state = .starting ∧ l.closed = true ∧
    (heldFor l.shortAt msTicks clock = true ∨ heldFor l.foldAt (2 * msTicks) clock = true) := by
  simp [Lv.shorted, and_assoc]

theorem exec_lvShort_shorted (hs : s.hw.lv.shorted s.hw.time.clock = true) :
    exec .lvShort s =
      .next (s.put (({ s.hw with lv := { s.hw.lv with limit := s.hw.lvBase / 5 } } : Hw).lvFailed true)) :=
  next_put_congr (if_pos hs)

/-! ## Failed attempts and the restart (R184) -/

/-- A failed attempt of forward service, after which the wait is not that of a pre-charge. -/
theorem Hw.lvFailed_forward (hs : h.lv.state = .starting ∨ h.lv.state = .running) :
    h.lvFailed short =
      let h1 := ({ h with lv := { h.lv.stageOff with
        attempts := h.lv.attempts + 1, waitAt := h.time.clock, waitPre := false } } : Hw).count 0x099 1
      if h.lv.attempts + 1 < 5 then h1.lvGo .waiting else h1.lvLatch (if short then fltLvoutShort else fltLvStartFailed) := by
  have notPre : (h.lv.state == .precharge || h.lv.state == .hold || (h.lv.state == .waiting && h.lv.waitPre)) = false := by
    rcases hs with hs | hs <;> simp [hs]
  simp only [Hw.lvFailed, notPre]

theorem Hw.lvFailed_waits (hs : h.lv.state = .starting ∨ h.lv.state = .running) (hn : h.lv.attempts < 4) :
    h.lvFailed short = (({ h with lv := { h.lv.stageOff with
      attempts := h.lv.attempts + 1, waitAt := h.time.clock, waitPre := false } } : Hw).count 0x099 1).lvGo .waiting :=
  (Hw.lvFailed_forward hs).trans (if_pos (by omega))

theorem Hw.lvFailed_latches (hs : h.lv.state = .starting ∨ h.lv.state = .running) (hn : h.lv.attempts = 4) :
    h.lvFailed short = (({ h with lv := { h.lv.stageOff with
      attempts := 5, waitAt := h.time.clock, waitPre := false } } : Hw).count 0x099 1).lvLatch
      (if short then fltLvoutShort else fltLvStartFailed) :=
  (Hw.lvFailed_forward hs).trans (by simp [hn])

/-- The wait of forward service is over, and nothing keeps the converter from a new attempt. -/
theorem Hw.lvRestart_starts (hs : h.lv.state = .waiting) (ht : h.lv.waitAt + 200 * msTicks ≤ h.time.clock)
    (hp : h.lv.clamp = false) (hc : h.lv.closed = false) (hf : h.lvInhibited = false) (hw : h.lv.waitPre = false)
    (hk : h.lv.shut = 0) (hl : 255000 ≤ h.pwr.vdc) : h.lvRestart = h.lvStart := by
  simp [Hw.lvRestart, hs, ht, hp, hc, hf, hw, hk, hl]

/-! ## Bus and DC link (R180) -/

theorem Hw.lvBusFault_fails (ha : h.lv.active = true)
    (hb : heldFor h.lv.busBadAt (50 * usTicks) h.time.clock = true) :
    h.lvBusFault = h.occurThen fltLvBusFault fltLvBusFault.cls 0xFF (fun x =>
      ({ x with lv := x.lv.cellsOff } : Hw).lvFailed false) :=
  if_pos (by simp [ha, hb])

theorem Hw.dcLinkChange_stops (hv : v < 245000) (hs : (h.setVdc v).lv.state = .running) :
    h.dcLinkChange v = (h.setVdc v).lvOff.lvGo .stopped :=
  (if_pos hv).trans (if_pos (by simp [hs]))

end

/-- Settles O53: FORWARD, STOP and each event of forward service in the case that the statement names. -/
theorem forwardServiceStarts : Obligations.ForwardServiceStarts := by
  unfold Obligations.ForwardServiceStarts
  refine ⟨?forward, ?range, ?stop, ?regulates, ?short, fun _ _ => Hw.lvFailed_waits, fun _ _ => Hw.lvFailed_latches, ?restart,
    ?bus, ?link⟩
  case forward =>
    intro s d h r hv hi hb ht hs hd hw hf hq hl hk hc
    rw [exec_lvControlForward_runs r, Hw.lvForward_starts hv hi hb ht hs hd hw hf hq hl hk hc]
  case range =>
    intro s d h r hr
    rw [exec_lvControlForward_runs r, Hw.lvForward_range hr]
  case stop =>
    intro s d h r hs hd hc ho
    rw [exec_lvControlStop_runs r, Hw.lvStop_drains hs hd hc ho]
  case regulates => exact fun s hs hc ho ht => next_put_congr (Hw.softStartDone_regulates hs hc ho ht)
  case short => exact fun s hs hc hl => exec_lvShort_shorted (Lv.shorted_iff.mpr ⟨hs, hc, hl⟩)
  case restart =>
    exact fun s hs ht hp hc hf hw hk hl => next_put_congr (Hw.lvRestart_starts hs ht hp hc hf hw hk hl)
  case bus => exact fun s ha hb => next_put_congr (Hw.lvBusFault_fails ha hb)
  case link => exact fun s v hv hs => next_put_congr (Hw.dcLinkChange_stops hv hs)

end Sys2Proof.Machine
end

section
/-!
PROOF. The statements of 08_charging.md: the commands of a session (R207, R220, R230), plug, pilot, hand-over and outage (R209 to
R213, R216, R231, R232), the measurement of the mains and the protection of the AC side (R207, R214, R216 to R219), phases,
timers and the battery (R226 to R230, R234), and DC boost (R220, R222, R224, R225). For each operation of the charger one lemma
per case says what it answers; the statements are put together from these.
-/
namespace Sys2Proof.Machine

/-! ## The commands of a session (R207, R220, R230) -/

section
variable {h : Hw} {s : State} {d : Desc} {q : Req}

theorem exec_chargeControlStart_runs (r : s.hw.RunsTo 0x0803 (d.withByte16 1) h) :
    exec (.chargeControlStart d) s = .next (s.put (h.chargeStart d d.req false)) :=
  next_put_congr (Hw.descriptor_runs (own := fun q x => x.chargeStart d q false) r)

theorem exec_chargeControlResume_runs (r : s.hw.RunsTo 0x0803 (d.withByte16 3) h) :
    exec (.chargeControlResume d) s = .next (s.put (h.chargeStart d d.req true)) :=
  next_put_congr (Hw.descriptor_runs (own := fun q x => x.chargeStart d q true) r)

theorem exec_chargeControlStop_runs (r : s.hw.RunsTo 0x0803 (d.withByte16 0) h) :
    exec (.chargeControlStop d) s = .next (s.put (h.chargeStop d d.req)) :=
  next_put_congr (Hw.descriptor_runs (own := fun q x => x.chargeStop d q) r)

theorem exec_chargeControlPause_runs (r : s.hw.RunsTo 0x0803 (d.withByte16 2) h) :
    exec (.chargeControlPause d) s = .next (s.put (h.chargePause d d.req)) :=
  next_put_congr (Hw.descriptor_runs (own := fun q x => x.chargePause d q) r)

theorem exec_chargeControlInletMatch_runs (r : s.hw.RunsTo 0x0803 (d.withByte16 5) h) :
    exec (.chargeControlInletMatch d) s = .next (s.put (h.inletMatch d d.req)) :=
  next_put_congr (Hw.descriptor_runs (own := fun q x => x.inletMatch d q) r)

theorem exec_chargeControlRestartPhase_runs (r : s.hw.RunsTo 0x0803 (d.withByte16 6) h) :
    exec (.chargeControlRestartPhase d) s = .next (s.put (h.restartPhase d.req)) :=
  next_put_congr (Hw.descriptor_runs (own := fun q x => x.restartPhase q) r)

theorem Hw.chgCommanded_inCharge (hm : h.mode.mode = .charge) : h.chgCommanded d = true := by
  simp [Hw.chgCommanded, hm]

/-- START and RESUME are one operation; RESUME asks for the PAUSE that led to ARMED besides. -/
theorem Hw.chargeStart_flows {resume : Bool} (hm : h.mode.mode = .charge) (hs : h.chg.state = .armed)
    (hp : resume = true → h.chg.paused = true) (ht : h.chgPermit = true) (hd : h.chg.draining = false) (hf : h.chgFn = .ac) :
    h.chargeStart d q resume = h.startFlow (some q) 0 := by
  have resumable : (!resume || h.chg.paused) = true := by
    cases resume with
    | false => rfl
    | true => exact hp rfl
  simp [Hw.chargeStart, Hw.chgCommanded_inCharge hm, hm, hs, resumable, ht, hd, hf]

theorem Hw.chargeStop_drains (hm : h.mode.mode = .charge) (ha : h.chg.active = true) :
    h.chargeStop d q = ({ h with chg := { h.chg with stopReqs := h.chg.stopReqs ++ [q] } } : Hw).drainCharge := by
  simp [Hw.chargeStop, Hw.chgCommanded_inCharge hm, ha]

theorem Hw.chargeStop_atRest (hm : h.mode.mode = .charge) (ha : h.chg.active = false) :
    h.chargeStop d q = h.complete q .done := by
  simp [Hw.chargeStop, Hw.chgCommanded_inCharge hm, ha]

theorem Hw.chargePause_waits (hm : h.mode.mode = .charge) (hs : h.chg.state = .flow) (hq : h.chg.pauseReq = none)
    (hd : h.chg.draining = false) (hi : h.chg.current ≠ 0) (hf : h.chgFn ≠ .topup) :
    h.chargePause d q = { h with chg := { h.chg with pauseReq := some q } } := by
  simp [Hw.chargePause, Hw.chgCommanded_inCharge hm, hs, hq, hd, hi, hf]

theorem Hw.inletMatch_begins (hm : h.mode.mode = .charge) (hf : h.chgFn = .boost) (hs : h.chg.state = .armed)
    (ho : h.chg.dcb = .off) (hc : h.boostConditions = true) (hl : 200000 ≤ d.int 28 4) (hu : d.int 28 4 ≤ 500000) :
    h.inletMatch d q = ({ h with chg := { h.chg with
      station := d.int 28 4, dcb := .matching, spA := true, spB := true, matchReq := some q, dcbAt := h.time.clock } } :
      Hw).fixAB 0 := by
  have named : d.int 28 4 ≠ 0 := by omega
  have inRange : ¬(d.int 28 4 < 200000 ∨ 500000 < d.int 28 4) := by omega
  simp [Hw.inletMatch, hm, hf, hs, ho, hc, named, inRange]

/-- A phase suspended by its timer that has not had its second expiry in this plug cycle. -/
theorem Hw.restartPhase_again {p : ChgPhase} (hp : h.chg.left = some p) (hm : h.mode.mode ≠ .baseCamp)
    (hs : h.chg.state = .suspended) (hb : h.chg.suspendedBy = fltChgTimer.code)
    (hn : (h.chg.expired.filter (fun k => k == 8 * p.target + p.phase)).length < 2) :
    h.restartPhase q =
      let x := (h.clearFault fltChgTimer.code 0xFF).complete q .done
      ({ x with chg := { x.chg with left := some { p with equiv := 0, restarted := true } } } : Hw).chgUnsuspend := by
  simp only [Hw.restartPhase, hp]
  exact if_neg (by simpa [hm, hs, hb] using hn)

end

/-- Settles O48: each command in the case that the statement names. -/
theorem chargingIsCommanded : Obligations.ChargingIsCommanded := by
  unfold Obligations.ChargingIsCommanded
  refine ⟨?start, ?resume, ?stop, ?stopAtRest, ?pause, ?inletMatch, ?restart⟩
  case start =>
    intro s d h r hm hs ht hd hf
    rw [exec_chargeControlStart_runs r, Hw.chargeStart_flows (resume := false) hm hs nofun ht hd hf]
  case resume =>
    intro s d h r hm hs hp ht hd hf
    rw [exec_chargeControlResume_runs r, Hw.chargeStart_flows hm hs (fun _ => hp) ht hd hf]
  case stop =>
    intro s d h r hm ha
    rw [exec_chargeControlStop_runs r, Hw.chargeStop_drains hm ha]
  case stopAtRest =>
    intro s d h r hm ha
    rw [exec_chargeControlStop_runs r, Hw.chargeStop_atRest hm ha]
  case pause =>
    intro s d h r hm hs hq hd hi hf
    rw [exec_chargeControlPause_runs r, Hw.chargePause_waits hm hs hq hd hi hf]
  case inletMatch =>
    intro s d h r hm hf hs ho hc hl hu
    rw [exec_chargeControlInletMatch_runs r, Hw.inletMatch_begins hm hf hs ho hc hl hu]
  case restart =>
    rintro s d h _ p r hp hm hs hb hn rfl
    rw [exec_chargeControlRestartPhase_runs r, Hw.restartPhase_again hp hm hs hb hn]

/-! ## Plug and pilot (R209 to R211, R213, R216) -/

section
variable {h : Hw} {s : State} {ohms n f duty : Nat} {pos neg : Int} {st : CpState}

theorem exec_ppClassChange_held (hu : s.hw.mode.phase = .up) (hn : 10 * msTicks ≤ n) :
    exec (.ppClassChange ohms n) s = .next (s.put (s.hw.ppChange ohms)) :=
  next_put_congr (if_pos (by simp [hu, hn]))

@[simp] theorem PpClass.plugged_plug (a : Nat) : (PpClass.plug a).plugged = true := rfl

theorem Hw.ppChange_plugs {a : Nat} (hp : h.chg.pp.plugged = false) (hc : h.ppClass ohms = .plug a) :
    h.ppChange ohms = ({ h.busyNow with chg := { h.chg with pp := .plug a } } : Hw).plugBack := by
  have new : h.chg.pp ≠ .plug a := fun e => by simp [e] at hp
  simp [Hw.ppChange, hc, hp, new]

theorem Hw.ppChange_unplugs (hp : h.chg.pp.plugged = true) (hc : (h.ppClass ohms).plugged = false) :
    h.ppChange ohms = ({ h.busyNow with chg := { h.chg with pp := h.ppClass ohms } } : Hw).plugLeft := by
  have new : h.chg.pp ≠ h.ppClass ohms := fun e => by simp [← e, hp] at hc
  simp [Hw.ppChange, hp, hc, new]

/-- The classes of PP_MODE 0 (IEC 61851-1). -/
theorem Hw.ppClass_coded (hs : h.unset 0x0801 = false) (hm : h.par 0x0801 = 0) :
    h.ppClass ohms = (if 4500 < ohms then .noPlug else if 1100 ≤ ohms ∧ ohms ≤ 2000 then .plug 13000
      else if 400 ≤ ohms ∧ ohms ≤ 936 then .plug 20000 else if 164 ≤ ohms ∧ ohms ≤ 300 then .plug 32000
      else if 75 ≤ ohms ∧ ohms ≤ 136 then .plug 63000 else .invalid) := by
  simp [Hw.ppClass, hs, hm]

theorem exec_cpStateChange_held (hu : s.hw.mode.phase = .up) (hn : 30 * sTicks ≤ n * f) :
    exec (.cpStateChange pos neg (some f) duty n) s = .next (s.put (s.hw.cpChange pos neg (some f) duty n)) :=
  next_put_congr (if_pos (by simp [hu, pilotHeld, hn]))

theorem Hw.cpChange_offers {a : Int} {dig : Bool} (hp : pilotState pos = some st) (hw : pwmOk neg f = true)
    (ho : dutyOffer duty = some (a, dig)) :
    h.cpChange pos neg (some f) duty n = (({ h with
      chg := { h.chg with cp := st, pwm := true, offer := a, digital := dig } } : Hw).clearFault fltChgPilotInvalid.code
      0xFF).cpActs h.chg.cp := by
  simp [Hw.cpChange, hp, hw, ho]

theorem Hw.cpChange_invalid (hp : pilotState pos = some st) (hw : pwmOk neg f = false) (hn : 10 * msTicks ≤ n) :
    h.cpChange pos neg (some f) duty n = (({ h with
      chg := { h.chg with cp := st, pwm := true, offer := 0, digital := false } } : Hw).raiseOnce fltChgPilotInvalid
      0xFF).cpActs h.chg.cp := by
  simp [Hw.cpChange, hp, hw, Nat.not_lt.mpr hn]

/-! ## Hand-over and outage (R231, R232) -/

theorem Hw.handOverEnd_waits (hs : h.chg.state = .handOver) (ht : h.chg.handAt + 20 * msTicks ≤ h.time.clock)
    (hp : h.chg.handUnplugged = false) :
    h.handOverEnd =
      let x := (h.chgEndPhase 3).chgGo .plugWait 1 0
      { x with chg := { x.chg with outage := true, mainsAt := none, handAt := h.time.clock } } := by
  simp [Hw.handOverEnd, hs, Nat.not_lt.mpr ht, hp]

theorem Hw.handOverEnd_early (ht : h.time.clock < h.chg.handAt + 20 * msTicks) : h.handOverEnd = h := by
  simp [Hw.handOverEnd, ht]

theorem Hw.outageEnd_resumes {t : Nat} (hm : h.chg.mainsAt = some t) (hf : h.chgFn = .ac) (hs : h.chg.state = .plugWait)
    (ho : h.chg.outage = true) (ht : max t h.chg.handAt + h.parTicks 0x0807 ≤ h.time.clock) (hl : h.chgLive = true)
    (hc : h.chg.confirmed = true) (hp : h.chgPermit = true) (ha : h.armable = true) :
    h.outageEnd = h.startFlow none 0 := by
  simp only [Hw.outageEnd, hm]
  exact if_pos (by simp [hf, hs, ho, ht, hl, hc, hp, ha])

end

/-- Settles O49: the plug, the pilot, the end of a hand-over and of an outage, each in the cases that the statement names. -/
theorem plugAndPilotMoveTheCharge : Obligations.PlugAndPilotMoveTheCharge := by
  unfold Obligations.PlugAndPilotMoveTheCharge
  refine ⟨?plugs, ?unplugs, fun _ _ => Hw.ppClass_coded, ?offers, ?invalid, ?handOver, ?early, ?outage⟩
  case plugs =>
    intro s ohms a n hu hn hp hc
    rw [exec_ppClassChange_held hu hn, Hw.ppChange_plugs hp hc]
  case unplugs =>
    intro s ohms n hu hn hp hc
    rw [exec_ppClassChange_held hu hn, Hw.ppChange_unplugs hp hc]
  case offers =>
    intro s pos neg f duty n st a dig hu hn hp hw ho
    rw [exec_cpStateChange_held hu hn, Hw.cpChange_offers hp hw ho]
  case invalid =>
    intro s pos neg f duty n st hu hn ht hp hw
    rw [exec_cpStateChange_held hu hn, Hw.cpChange_invalid hp hw ht]
  case handOver =>
    rintro s _ hs ht hp rfl
    exact next_put_congr (Hw.handOverEnd_waits hs ht hp)
  case early => exact fun s _ ht => next_put_same (Hw.handOverEnd_early ht)
  case outage =>
    exact fun s t hm hf hs ho ht hl hc hp ha => next_put_congr (Hw.outageEnd_resumes hm hf hs ho ht hl hc hp ha)

/-! ## Mains half-cycles (R214) -/

section
variable {h : Hw} {s : State} {v1 v2 v3 amps : Int} {v : List Int} {freq : Nat}

/-- The half-cycle is noted: when AC was last present (R205) and since when the source is in range (R232). -/
def Hw.mainsSeen (h : Hw) (volts : List Int) : Hw :=
  { h with chg := { h.chg with
    acHighAt := if volts.any (fun x => decide (acPresent ≤ x)) then some h.time.clock else h.chg.acHighAt
    mainsAt := heldSince h.chg.mainsAt ((h.usedPhases volts).all h.inputOk) h.time.clock } }

theorem exec_mainsHalfCycle_ac (hu : s.hw.mode.phase = .up) (hf : s.hw.chgFn = .ac) :
    exec (.mainsHalfCycle v1 v2 v3 freq amps) s = .next (s.put (s.hw.acCycle [v1, v2, v3] freq amps)) :=
  next_put_congr (by simp [hu, hf])

theorem Hw.coolantStop_cool (hs : h.chg.state = .flow) (hc : h.pwr.coolant ≤ 8500) : h.coolantStop = h := by
  simp [Hw.coolantStop, hs, Int.not_lt.mpr hc]

/-- The reference measurement leaves the charge state and the supplies as they are. -/
theorem Hw.measureRef_keeps (h : Hw) (v : List Int) :
    (h.measureRef v).chg.state = h.chg.state ∧ (h.measureRef v).pwr = h.pwr := by
  unfold Hw.measureRef
  extract_lets c n before sum
  split
  · split <;> exact ⟨rfl, rfl⟩
  · exact ⟨rfl, rfl⟩

/-- Until V_ref stands, a half-cycle of a cool AC session that goes on serves its measurement. -/
theorem Hw.acCycle_measures {volts : List Int} (hf : h.chgFn = .ac) (hs : h.chg.state = .flow) (hv : h.chg.vref = [])
    (hd : h.chg.draining = false) (hp : h.chg.pauseReq = none) (hc : h.pwr.coolant ≤ 8500) :
    h.acCycle volts freq amps = (h.mainsSeen volts).measureRef (h.usedPhases volts) := by
  have measures : h.acCycle volts freq amps = ((h.mainsSeen volts).measureRef (h.usedPhases volts)).coolantStop := by
    simp [Hw.acCycle, Hw.mainsSeen, hf, hs, hv, hd, hp, ChgFn.isAc]
  obtain ⟨state, supplies⟩ := (h.mainsSeen volts).measureRef_keeps (h.usedPhases volts)
  rw [measures, Hw.coolantStop_cool (state.trans hs) (supplies ▸ hc)]

theorem Hw.measureRef_sixth (hv : v.all h.inputOk = true) (hn : h.chg.refCycles = 5) :
    h.measureRef v =
      let sum := (v.zip h.chg.refSum).map (fun p => (p.1 * p.1).toNat + p.2)
      { h with chg := { h.chg with
        refCycles := 6, refSum := sum, vref := sum.map (fun x => ((isqrt (x / 6) : Nat) : Int)), limitAt := h.time.clock } } := by
  simp only [Hw.measureRef, hv, hn]
  rfl

theorem Hw.measureRef_restarts (hv : v.all h.inputOk = false) :
    h.measureRef v = { h with chg := { h.chg with refCycles := 0, refSum := [] } } := by
  simp only [Hw.measureRef, hv, Bool.false_eq_true, if_false]

/-- What a half-cycle whose first phase is present leaves noted. -/
theorem Hw.mainsSeen_present (hp : acPresent ≤ v1) :
    h.mainsSeen [v1, v2, v3] = { h with chg := { h.chg with
      acHighAt := some h.time.clock
      mainsAt := heldSince h.chg.mainsAt ((h.usedPhases [v1, v2, v3]).all h.inputOk) h.time.clock } } := by
  simp [Hw.mainsSeen, hp]

/-! ## Protection of the AC side (R207, R216 to R219) -/

theorem Hw.noSource_ends (hs : h.chg.state = .flow) (ha : h.chgFn.isAc = true) (hv : h.chg.vref = [])
    (hn : h.chg.refCycles = 0) (hi : h.chg.current = 0) (ht : h.chg.startAt + 10 * sTicks ≤ h.time.clock) :
    h.noSource =
      let x := h.occurThen fltChgNoSource fltChgNoSource.cls 0xFF (fun y => y.chgStopTo 3 .armed 3 fltChgNoSource.code)
      { x with chg := { x.chg with left := none } } :=
  if_pos (by simp [hs, ha, hv, hn, hi, ht])

/-- The residual and PE readings of a session that is watched, each with the time since it is beyond its limit. -/
def Hw.residualSeen (h : Hw) (dc pe : Int) : Hw :=
  { h with chg := { h.chg with
    dcResAt := heldSince h.chg.dcResAt (decide (6 ≤ dc)) h.time.clock
    peAt := heldSince h.chg.peAt (decide (50000 < pe)) h.time.clock } }

theorem Hw.residual_watched {ac dc pe : Int} (ha : h.chgFn.isAc = true) (hs : h.chg.state = .armed ∨ h.chg.state = .flow) :
    h.residual ac dc pe =
      let x := h.residualSeen dc pe
      if 30 ≤ ac || heldFor x.chg.dcResAt sTicks h.time.clock then
        (x.raiseOnce fltChgResidual 0xFF).chgSuspend fltChgResidual.code 5
      else if heldFor x.chg.peAt (100 * msTicks) h.time.clock then
        (x.raiseOnce fltChgPeFault 0xFF).chgSuspend fltChgPeFault.code 5
      else x := by
  have watched : (h.chgFn.isAc && (h.chg.state == .armed || h.chg.state == .flow)) = true := by simpa [ha] using hs
  simp only [Hw.residual, watched, Bool.true_and]
  rfl

theorem exec_chgGridTrip_due (hf : s.hw.chgFn = .grid) (hs : s.hw.chg.state = .flow)
    (ht : heldFor s.hw.chg.gridAt (s.hw.parTicks 0x0814) s.hw.time.clock = true) :
    exec .chgGridTrip s = .next (s.put ((s.hw.occur fltChgGridTrip 0xFF).chgOutage 3)) :=
  next_put_congr (if_pos (by simp [hf, hs, ht]))

theorem Hw.islandOverload_due (hf : h.chgFn = .island) (hs : h.chg.state = .flow)
    (ht : heldFor h.chg.overAt (5 * sTicks) h.time.clock = true ∨ heldFor h.chg.peakAt (100 * msTicks) h.time.clock = true) :
    h.islandOverload = h.occurThen fltChgIslandOverload fltChgIslandOverload.cls 0xFF (fun x =>
      x.chgStopTo 4 .armed 3 fltChgIslandOverload.code) :=
  if_pos (by simpa [hf, hs] using ht)

theorem Hw.backfeed_stops {volts : List Int} {n : Nat} (hf : h.chgFn = .island) (hs : h.chg.state = .flow)
    (hn : 2 * msTicks ≤ n) (hi : h.chg.current ≤ h.acLimit)
    (ho : ∃ p ∈ (h.usedPhases volts).zip h.acVolts, p.2 < 10 * absI (p.1 - p.2)) :
    h.backfeed volts n = (h.raiseOnce fltChgBackfeed 0xFF).chgSuspend fltChgBackfeed.code 5 := by
  have off : ((h.usedPhases volts).zip h.acVolts).any (fun p => decide (p.2 < 10 * absI (p.1 - p.2))) = true :=
    List.any_eq_true.mpr (by simpa using ho)
  exact if_pos (by simp only [hf, hs, off, hn, hi]; rfl)

section
variable {t : Int}

theorem Hw.obcHeat_shuts (ht : 12000 ≤ t) :
    h.obcHeat t = ({ h with chg := { h.chg with
      obcLimit := (fall 1000 300 10000 11500 t).toNat, obcShut := true, obcCoolAt := none, limit := 0 } } : Hw).raiseOnce
      fltObcOvertemp 0xFF :=
  if_pos ht

theorem Hw.obcHeat_warns (hl : 10000 ≤ t) (hu : t < 12000) (hw : h.chg.obcWarned = false) :
    h.obcHeat t = ({ h with chg := { h.chg with
      obcLimit := (fall 1000 300 10000 11500 t).toNat, obcCoolAt := none, obcWarned := true } } : Hw).occur
      fltObcOvertempWarn 0xFF := by
  simp [Hw.obcHeat, Int.not_le.mpr hu, hl, hw]

theorem Hw.obcHeat_resumes {since : Nat} (ht : t < 10000) (hc : h.chg.obcCoolAt = some since)
    (hs : since + 5 * sTicks ≤ h.time.clock) (ho : h.chg.obcShut = true) :
    h.obcHeat t = ({ h with chg := { h.chg with
      obcLimit := (fall 1000 300 10000 11500 t).toNat, obcCoolAt := some since, obcWarned := false, obcShut := false } } :
      Hw).clearFault fltObcOvertemp.code 0xFF := by
  have cool : ¬12000 ≤ t := by omega
  simp [Hw.obcHeat, cool, Int.not_le.mpr ht, hc, hs, ho]

end

end

/-- Settles O50: the half-cycles that measure V_ref, and each watch of the AC side in the case that the statement names. That a
missing source forgets its phase and that an island overload is carried for 5 s are the model's choice (log 53). -/
theorem mainsAreMeasured : Obligations.MainsAreMeasured := by
  unfold Obligations.MainsAreMeasured
  refine ⟨?sixth, ?restarts, ?noSource, ?residual, ?pe, fun _ => exec_chgGridTrip_due, ?overload, ?backfeed, ?shuts, ?warns,
    ?resumes⟩
  case sixth =>
    rintro s v1 v2 v3 a f _ _ hu hf hs hv hd hp rfl hok hn rfl hc h1
    rw [exec_mainsHalfCycle_ac hu hf, Hw.acCycle_measures hf hs hv hd hp hc,
      Hw.measureRef_sixth (h := s.hw.mainsSeen [v1, v2, v3]) hok hn, Hw.mainsSeen_present h1, hok]
  case restarts =>
    rintro s v1 v2 v3 a f _ hu hf hs hv hd hp rfl hok hc h1
    rw [exec_mainsHalfCycle_ac hu hf, Hw.acCycle_measures hf hs hv hd hp hc,
      Hw.measureRef_restarts (h := s.hw.mainsSeen [v1, v2, v3]) hok, Hw.mainsSeen_present h1, hok]
    rfl
  case noSource =>
    rintro s _ hs ha hv hn hi ht rfl
    exact next_put_congr (Hw.noSource_ends hs ha hv hn hi ht)
  case residual =>
    rintro s ac dc pe _ ha hs rfl hr
    exact next_put_congr ((Hw.residual_watched ha hs).trans (if_pos (by rwa [Bool.or_eq_true, decide_eq_true_eq])))
  case pe =>
    rintro s ac dc pe _ ha hs rfl hac hdc hpe
    have seen : s.hw.residualSeen dc pe = { s.hw with chg := { s.hw.chg with
        dcResAt := none, peAt := heldSince s.hw.chg.peAt (decide (50000 < pe)) s.hw.time.clock } } := by
      simp [Hw.residualSeen, Int.not_le.mpr hdc, heldSince]
    have quiet : ¬(30 ≤ ac) := by omega
    refine next_put_congr ((Hw.residual_watched ha hs).trans ?_)
    rw [seen]
    exact (if_neg (by simp [quiet, heldFor])).trans (if_pos hpe)
  case overload => exact fun s hf hs ht => next_put_congr (Hw.islandOverload_due hf hs ht)
  case backfeed => exact fun s v1 v2 v3 n hf hs hn hi ho => next_put_congr (Hw.backfeed_stops hf hs hn hi ho)
  case shuts => exact fun s t ht => next_put_congr (Hw.obcHeat_shuts ht)
  case warns => exact fun s t hl hu hw => next_put_congr (Hw.obcHeat_warns hl hu hw)
  case resumes => exact fun s t since ht hc hs ho => next_put_congr (Hw.obcHeat_resumes ht hc hs ho)

/-! ## Phases and their timers (R226, R229, R230) -/

section
variable {h : Hw} {s : State} {p : ChgPhase} {own : Int}

theorem Hw.phaseChange_hands_over {k : Nat} (hp : h.chg.phase = some p)
    (hk : h.nextPhase p (h.battVolts p.target) (h.battAmps p.target own).1 = some k)
    (ht : heldFor (h.exitSeen p own).exitAt (exitHold p.phase) h.time.clock = true) :
    h.phaseChange own =
      (({ h with chg := { h.chg with phase := some (h.exitSeen p own) } } : Hw).chgEndPhase 0).enterPhase p.target k 0 false := by
  simp only [Hw.phaseChange, hp, hk, ht, if_true]

/-- The exit condition of each phase (R226). -/
theorem Hw.nextPhase_eq (h : Hw) (p : ChgPhase) (v i : Int) :
    h.nextPhase p v i = (match p.phase with
      | 1 => if p.prof.volts ≤ v then some 2 else none
      | 2 => if p.prof.volts ≤ v then some 3 else none
      | 3 => if (h.phaseValues p.target 4).volts ≤ v then some 4 else none
      | 4 => if i < p.prof.amps then some 5 else none
      | 5 => if p.prof.volts ≠ 0 ∧ v < p.prof.volts then some 3 else none
      | _ => none) := by
  match hk : p.phase with
  | 0 | 1 | 2 | 3 | 4 | 5 | _ + 6 => simp [Hw.nextPhase, hk]

/-- The phase in progress, its time counted up to the present millisecond. -/
def Hw.timedPhase (h : Hw) (p : ChgPhase) (own : Int) : ChgPhase :=
  { h.phaseTime (h.exitSeen p own) ((h.time.clock - p.countedAt) / msTicks) (h.battAmps p.target own).1
      (h.battAmps p.target own).2 with
    countedAt := p.countedAt + (h.time.clock - p.countedAt) / msTicks * msTicks }

theorem Hw.chgTime_eq (hp : h.chg.phase = some p) :
    h.chgTime own =
      let x : Hw := { h with chg := { h.chg with phase := some (h.timedPhase p own) } }
      if p.phase = 0 || (h.timedPhase p own).equiv < (h.timedPhase p own).prof.timer * 1000000 || h.chg.state != .flow then x
      else if p.phase = 5 then x.sessionComplete
      else
        let y := (x.count 0x07F 1).raiseOnce fltChgTimer 0xFF
        ({ y with chg := { y.chg with expired := (8 * p.target + p.phase) :: y.chg.expired } } : Hw).chgSuspend
          fltChgTimer.code 1 := by
  simp only [Hw.chgTime, hp]
  rfl

theorem Hw.chgTime_counts (hp : h.chg.phase = some p)
    (ht : (h.timedPhase p own).equiv < (h.timedPhase p own).prof.timer * 1000000) :
    h.chgTime own = { h with chg := { h.chg with phase := some (h.timedPhase p own) } } :=
  (Hw.chgTime_eq hp).trans (if_pos (by simp [ht]))

theorem Hw.chgTime_expires (hp : h.chg.phase = some p)
    (ht : (h.timedPhase p own).prof.timer * 1000000 ≤ (h.timedPhase p own).equiv) (hs : h.chg.state = .flow)
    (h0 : p.phase ≠ 0) (h5 : p.phase ≠ 5) :
    h.chgTime own =
      let x := (({ h with chg := { h.chg with phase := some (h.timedPhase p own) } } : Hw).count 0x07F 1).raiseOnce
        fltChgTimer 0xFF
      ({ x with chg := { x.chg with expired := (8 * p.target + p.phase) :: x.chg.expired } } : Hw).chgSuspend
        fltChgTimer.code 1 :=
  (Hw.chgTime_eq hp).trans ((if_neg (by simp [h0, Nat.not_lt.mpr ht, hs])).trans (if_neg h5))

theorem Hw.chgTime_completes (hp : h.chg.phase = some p)
    (ht : (h.timedPhase p own).prof.timer * 1000000 ≤ (h.timedPhase p own).equiv) (hs : h.chg.state = .flow)
    (h5 : p.phase = 5) :
    h.chgTime own = ({ h with chg := { h.chg with phase := some (h.timedPhase p own) } } : Hw).sessionComplete :=
  (Hw.chgTime_eq hp).trans ((if_neg (by simp [h5, Nat.not_lt.mpr ht, hs])).trans (if_pos h5))

/-! ## Battery faults, the temperature window and the BASE_CAMP hold (R227, R228, R234) -/

theorem Hw.battFault_missing {f : BattFault} (hs : h.chg.state = .flow) (hx : h.chgFn.exports = false)
    (hf : h.battFaulty f = true) (hm : f.missing = true) (hr : h.par 0x0808 = 0) :
    h.battFault f = (h.raiseOnce fltChgBattMissing 0xFF).chgSuspend fltChgBattMissing.code 4 := by
  simp [Hw.battFault, hs, hx, hf, hm, hr]

theorem Hw.battFault_shorted {f : BattFault} (hs : h.chg.state = .flow) (hx : h.chgFn.exports = false)
    (hf : h.battFaulty f = true) (hm : f.missing = false) (hr : h.par 0x0809 = 0) :
    h.battFault f = (h.raiseOnce fltChgBattShorted 0xFF).chgSuspend fltChgBattShorted.code 4 := by
  simp [Hw.battFault, hs, hx, hf, hm, hr]

/-- A battery that leaves its window suspends an AC session at once. -/
theorem Hw.tempWindow_suspends {t : Option Int} (hf : h.chgFn = .ac) (hs : h.chg.state = .flow) (hb : h.chg.band < 2)
    (ho : tempBand (h.par 0x080B) 0 t = 2) (hr : h.par 0x080A = 0) :
    h.tempWindow t = (({ h with chg := { h.chg with band := 2, bandAt := none } } : Hw).occur fltChgTempWindow
      0xFF).chgSuspend fltChgTempWindow.code 5 := by
  simp [Hw.tempWindow, hf, hs, hb, ho, hr, ChgFn.exports]

/-! A reading of the LV battery's temperature is kept with its time and touches nothing else. -/

@[simp] theorem Hw.seeProbe_chgFn (h : Hw) (t : Option Int) : (h.seeProbe t).chgFn = h.chgFn := by cases t <;> rfl
@[simp] theorem Hw.seeProbe_state (h : Hw) (t : Option Int) : (h.seeProbe t).chg.state = h.chg.state := by cases t <;> rfl
@[simp] theorem Hw.seeProbe_band (h : Hw) (t : Option Int) : (h.seeProbe t).chg.band = h.chg.band := by cases t <;> rfl
@[simp] theorem Hw.seeProbe_par (h : Hw) (t : Option Int) (i : Nat) : (h.seeProbe t).par i = h.par i := by cases t <;> rfl

theorem exec_chgTempWindow_hv {t : Option Int} (hf : s.hw.chgFn = .ac) :
    exec (.chgTempWindow t) s = .next (s.put ((s.hw.seeProbe t).tempWindow ((s.hw.seeProbe t).battTemp 0))) :=
  next_put_congr (by simp only [hf]; rfl)

theorem Hw.chargeHoldEnd_due {t : Nat} (hb : h.mode.chargeHoldBy = some t) (ht : t ≤ h.time.clock) :
    h.chargeHoldEnd = ({ h with mode := { h.mode with chargeHoldBy := none } } : Hw).drainCharge := by
  simp only [Hw.chargeHoldEnd, hb]
  exact if_neg (Nat.not_lt.mpr ht)

end

/-- Settles O51: the hand-over between phases, the look at a timer, and each fault of the battery in the case that the statement
names. -/
theorem phasesAndTimersOfTheCharge : Obligations.PhasesAndTimersOfTheCharge := by
  unfold Obligations.PhasesAndTimersOfTheCharge
  refine ⟨?handsOver, Hw.nextPhase_eq, ?counts, ?expires, ?missing, ?shorted, ?window, ?hold, ?completes⟩
  case handsOver =>
    rintro s p _ i k hp rfl hk ht
    exact next_put_congr (Hw.phaseChange_hands_over hp hk ht)
  case counts =>
    rintro s p _ own hp rfl ht
    exact next_put_congr (Hw.chgTime_counts hp ht)
  case expires =>
    rintro s p _ own _ hp rfl ht hs h0 h5 rfl
    exact next_put_congr (Hw.chgTime_expires hp ht hs h0 h5)
  case missing => exact fun s f hs hx hf hm hr => next_put_congr (Hw.battFault_missing hs hx hf hm hr)
  case shorted => exact fun s f hs hx hf hm hr => next_put_congr (Hw.battFault_shorted hs hx hf hm hr)
  case window =>
    rintro s t _ hf hs hb rfl ho hr
    rw [exec_chgTempWindow_hv hf, Hw.tempWindow_suspends (h := s.hw.seeProbe t) (by simpa using hf) (by simpa using hs)
      (by simpa using hb) (by simpa using ho) (by simpa using hr)]
  case hold => exact fun s t hb ht => next_put_congr (Hw.chargeHoldEnd_due hb ht)
  case completes =>
    rintro s p _ own hp rfl ht hs h5
    exact next_put_congr (Hw.chgTime_completes hp ht hs h5)

/-! ## Matching and the inductance test (R220, R222) -/

section
variable {h : Hw} {s : State}

theorem exec_mainsHalfCycle_boost {v1 v2 v3 amps : Int} {freq : Nat} (hu : s.hw.mode.phase = .up) (hf : s.hw.chgFn = .boost) :
    exec (.mainsHalfCycle v1 v2 v3 freq amps) s = .next (s.put (s.hw.boostCycle v1 amps)) :=
  next_put_congr (by simp [hu, hf])

/-- The second contactor closes once the filter matches the station after 5 ms. -/
theorem Hw.matchStep_closes (h2 : h.saf.so2 = false) (ht : h.chg.dcbAt + 5 * msTicks ≤ h.time.clock) (hm : h.matched = true) :
    h.matchStep =
      let x := h.closeSo true
      { x with chg := { x.chg with dcbAt := h.time.clock } } := by
  have late : 5 * msTicks ≤ h.time.clock - h.chg.dcbAt := Nat.le_sub_of_add_le' ht
  simp [Hw.matchStep, h2, late, hm]

theorem Hw.matchStep_fails (h2 : h.saf.so2 = false) (hm : h.matched = false)
    (ht : h.chg.dcbAt + 25 * msTicks ≤ h.time.clock) : h.matchStep = h.matchFail := by
  have late : 25 * msTicks ≤ h.time.clock - h.chg.dcbAt := Nat.le_sub_of_add_le' ht
  simp [Hw.matchStep, h2, hm, late]

/-- In ARMED a measurement of the inlet is a step of the boost alone: no limit of R215 is watched. -/
theorem Hw.boostCycle_armed {v amps : Int} (hs : h.chg.state = .armed) :
    h.boostCycle v amps =
      let x := h.boostStep v amps
      { x with chg := { x.chg with lowAt := none, goodAt := none, halfAt := none } } := by
  simp [Hw.boostCycle, hs, heldSince]

/-- A millisecond of matching in which the filter is found at the station's voltage (R220). -/
theorem Hw.boostStep_closes {v amps : Int} (hd : h.chg.dcb = .matching) (hg : h.chg.draining = false)
    (h2 : h.saf.so2 = false) (ht : h.chg.dcbAt + 5 * msTicks ≤ h.time.clock) (hm : absI (v - h.chg.station) ≤ 20000) :
    h.boostStep v amps =
      let x := ({ h with chg := { h.chg with inlet := v, current := amps } } : Hw).closeSo true
      { x with chg := { x.chg with dcbAt := h.time.clock } } := by
  have step : h.boostStep v amps = ({ h with chg := { h.chg with inlet := v, current := amps } } : Hw).matchStep := by
    simp [Hw.boostStep, hd, hg]
  exact step.trans (Hw.matchStep_closes h2 ht (decide_eq_true hm))

section
variable {spans : List Int} {duty : Nat}

theorem Hw.inductance_passes (hd : h.chg.dcb = .testing) (ht : h.chg.dcbAt + 10 * msTicks ≤ h.time.clock)
    (hl : spans.all (inductanceOk h.chg.inlet duty (Machine.pwmPeriod (h.par 0x080F)) (h.par 0x0810)) = true) :
    h.inductance spans duty = ({ h with chg := { h.chg with
      dcb := .running, startReq := none, limitAt := h.time.clock } } : Hw).completeOpt h.chg.startReq .done :=
  (if_neg (by simp [hd, ht])).trans (if_pos hl)

theorem Hw.inductance_fails (hd : h.chg.dcb = .testing) (ht : h.chg.dcbAt + 10 * msTicks ≤ h.time.clock)
    (hl : spans.all (inductanceOk h.chg.inlet duty (Machine.pwmPeriod (h.par 0x080F)) (h.par 0x0810)) = false) :
    h.inductance spans duty =
      let x := h.raiseOnce fltDcbInductance 0xFF
      ({ x with chg := { x.chg with startReq := none, limit := 0 } } : Hw).boostEnding.completeOpt h.chg.startReq .aborted :=
  (if_neg (by simp [hd, ht])).trans (if_neg (Bool.eq_false_iff.mp hl))

end

/-! ## The end of DC boost (R224, R225) -/

/-- A boost that runs is live: an event acts as its own row states. -/
theorem Hw.dcbEnd_running (hd : h.chg.dcb = .running) (e : DcbEvent) :
    h.dcbEnd e = match e with
      | .sourceLow => if heldFor h.chg.halfAt msTicks h.time.clock then
          h.occurThen fltDcbSourceLost fltDcbSourceLost.cls 0xFF Hw.boostLost else h
      | .ratio => if h.pwr.vdc - 50000 < h.chg.inlet then h.occurThen fltDcbRatio fltDcbRatio.cls 0xFF Hw.boostLost else h
      | .pilotOrPlug => if h.chg.cp.asks && h.chg.pp.plugged then h else h.boostLost
      | .torque b stray star torque held => if h.boostTorque b stray star torque held then
          h.occurThen fltDcbTorque .arrest 0xFF (fun x => x.boostAbort fltDcbTorque.code) else h
      | .bridgeArrest b => h.faultSafe b false
      | .partnerLeftOpen => h.boostAbort 0 := by
  simp only [Hw.dcbEnd, hd]
  cases e <;> rfl

theorem Hw.contactorWeld_welded {v : Int} (hd : h.chg.dcb = .checking) (ht : h.chg.dcbAt + 100 * msTicks ≤ h.time.clock)
    (hv : 60000 ≤ v) :
    h.contactorWeld v =
      (({ h with chg := { h.chg with inlet := v } } : Hw).raiseOnce fltDcbContactorWeld 0xFF).boostDone := by
  simp [Hw.contactorWeld, hd, Nat.not_lt.mpr ht, Int.not_lt.mpr hv]

end

/-- Settles O52: the match and its failure, the inductance test both ways, the events that end a running boost, and the weld
check. -/
theorem boostRunsAndEnds : Obligations.BoostRunsAndEnds := by
  unfold Obligations.BoostRunsAndEnds
  refine ⟨?closes, ?passes, ?fails, ?sourceLow, ?ratio, ?torque, ?weld, fun _ => Hw.matchStep_fails⟩
  case closes =>
    rintro s v v2 v3 a f _ hu hf hs hd hg h2 ht hm rfl
    rw [exec_mainsHalfCycle_boost hu hf, Hw.boostCycle_armed hs, Hw.boostStep_closes hd hg h2 ht hm]
  case passes => exact fun s l duty hd ht hl => next_put_congr (Hw.inductance_passes hd ht hl)
  case fails =>
    rintro s l duty _ hd ht hl rfl
    exact next_put_congr (Hw.inductance_fails hd ht hl)
  case sourceLow => exact fun s hd hh => next_put_congr ((Hw.dcbEnd_running hd .sourceLow).trans (if_pos hh))
  case ratio => exact fun s hd hv => next_put_congr ((Hw.dcbEnd_running hd .ratio).trans (if_pos hv))
  case torque =>
    exact fun s b stray star tq n hd ht =>
      next_put_congr ((Hw.dcbEnd_running hd (.torque b stray star tq n)).trans (if_pos ht))
  case weld => exact fun s v hd ht hv => next_put_congr (Hw.contactorWeld_welded hd ht hv)

end Sys2Proof.Machine
end

section
/-!
PROOF. The statements of 09_gearbox_actuators.md: motions, positions, stalls and shifts (R238, R245, R248 to R252), and the supply,
currents and commutation of the drives (R237, R239 to R243). For each operation of the module one lemma per case says what it
answers; the statements are put together from these.
-/
namespace Sys2Proof.Machine

/-! ## A drive and its update -/

section
variable {h : Hw} {i : Nat}

@[simp] theorem Hw.modDrive_drive (h : Hw) (i : Nat) (f : Drive → Drive) : (h.modDrive i f).act.drive i = f (h.act.drive i) := by
  unfold Hw.modDrive Act.drive
  split
  · rfl
  · split <;> rfl

/-- Only what the update makes of the drive itself matters. -/
theorem Hw.modDrive_congr {f g : Drive → Drive} (e : f (h.act.drive i) = g (h.act.drive i)) :
    h.modDrive i f = h.modDrive i g := by
  unfold Hw.modDrive
  by_cases shift : i = 0
  · subst shift
    exact congrArg (fun d => { h with act := { h.act with shift := d } }) e
  · by_cases park : i = 1
    · subst park
      exact congrArg (fun d => { h with act := { h.act with park := d } }) e
    · rw [Act.drive, if_neg shift, if_neg park] at e
      rw [if_neg shift, if_neg park, if_neg shift, if_neg park, e]

theorem Act.drive_one (a : Act) : a.drive 1 = a.park := rfl

/-! ## Requests (R248, R251) -/

section
variable {d : Desc} {q : Req}

/-- An ACT_MOVE of SHIFT past the checks of R248 starts its drive. -/
theorem Hw.actMove_starts_shift (hok : actFieldsOk d = true) (hd : h.actDenied (d.num 16 1) (d.num 17 1) = false)
    (hi : d.num 16 1 = 0) (hb : (h.act.drive 0).busy = false) (hg : h.act.gear.step = .none) (hv : h.vsBad = false)
    (hh : (h.act.drive 0).hallBad = false) (ht : (h.act.drive 0).at (d.num 17 1) = false) :
    h.actMove d q = (h.startWaiting .actu).startDrive 0 (d.num 17 1) (h.driveLimit 0 (d.num 20 4)) (some q) := by
  rw [hi] at hd
  simp [Hw.actMove, hok, hi, hd, hb, hg, hv, hh, ht]

theorem Hw.gearShift_begins {us : Nat} (h0 : d.num 16 1 ≠ 0) (h4 : d.num 16 1 ≤ 4) (hg : h.act.gear.step = .none)
    (ha : h.shiftAllowed (d.num 16 1) = some us) (hs : h.act.shift.busy = false) (hd : h.act.disc.busy = false)
    (hv : h.vsBad = false) (hsh : h.act.shift.hallBad = false) (hdh : h.act.disc.hallBad = false) :
    h.gearShift d q = h.shiftBegin (d.num 16 1) us q := by
  simp [Hw.gearShift, h0, Nat.not_lt.mpr h4, hg, ha, hs, hd, hv, hsh, hdh]

end

/-! ## Positions (R238, R250) -/

/-- A position that has stood in a window for 20 ms is confirmed there. -/
theorem Hw.posConfirmed_stands {x code : Nat} (hb : h.posBad i = false) (hx : x ≤ 65535)
    (hp : ((h.seePosition i x).act.drive i).place = some code)
    (ht : ((h.seePosition i x).act.drive i).placeAt + 20 * msTicks ≤ h.time.clock) :
    h.posConfirmed i x = (h.seePosition i x).confirmAt i code := by
  simp only [Hw.posConfirmed, hb, Bool.false_or, decide_eq_true_eq, Nat.not_lt.mpr hx, if_false, hp, ht,
    if_true]

/-- A motion whose target is confirmed is over, DONE. -/
theorem Hw.confirmAt_ends_motion {code : Nat} (hb : (h.act.drive i).busy = true) :
    h.confirmAt i code =
      let h1 := (h.modDrive i (fun d => { d with confirmed := true, code := code })).endDrive i .hold .done
      ((if i = 1 then h1.parkNow else h1).countMotion i code).shiftConfirmed i := by
  have keepsTarget : h.modDrive i (fun d =>
      { d with confirmed := true, code := code, target := if d.busy then d.target else h.drivePos i code }) =
      h.modDrive i (fun d => { d with confirmed := true, code := code }) :=
    Hw.modDrive_congr (by simp [hb])
  simp only [Hw.confirmAt, hb, if_true, keepsTarget]

theorem Hw.parkOut_lost (hon : h.act.parkOn = true)
    (ho : h.posBad 1 = true ∨ (h.act.park.place = none ∧ h.act.park.placeAt + 20 * msTicks ≤ h.time.clock)) :
    h.parkOut = (h.modDrive 1 (fun d => { d with confirmed := false })).parkLost :=
  if_pos (by simpa [hon] using ho)

/-! ## Stalls and the PARK inhibit (R245, R249) -/

theorem Hw.actLocked_atTarget (hs : h.stalled i = true) (ht : h.atTarget i = true) :
    h.actLocked i = (h.count 0x077 1).confirmAt i (h.act.drive i).code := by
  simp [Hw.actLocked, hs, ht]

/-- PARK that stalls on its way in, outside its window, stands on a tooth. -/
theorem Hw.actLocked_onTooth (hs : h.stalled 1 = true) (ht : h.atTarget 1 = false) (hc : h.act.park.code = 1)
    (hm : h.act.park.state = .moving) :
    h.actLocked 1 = (h.count 0x077 1).modDrive 1 (fun d => { d with state := .tooth, toothAt := h.time.clock }) := by
  simp [Hw.actLocked, Act.drive_one, hs, ht, hc, hm]

theorem Hw.toothEnd_due (hs : h.act.park.state = .tooth) (ht : h.act.park.toothAt + 2 * sTicks ≤ h.time.clock) :
    h.toothEnd = h.occurThen fltActLocked fltActLocked.cls 1 (fun x => x.endDrive 1 .off .hwFault) :=
  if_pos (by simpa [hs] using ht)

/-- Too fast before PARK is confirmed: the enable is withdrawn, the request ends ABORTED, and the drive returns. -/
theorem Hw.parkSpeed_inhibits (hb : h.act.park.busy = true) (hc : h.act.park.code = 1) (hn : h.act.park.confirmed = false)
    (hf : h.slowEnough = false) :
    h.parkSpeed = (((({ h with act := { h.act with parkEnable := false } } : Hw).endDrive 1 .hold .aborted).startDrive 1 0
      h.act.park.limit none).modDrive 1 (fun d =>
      { d with state := if d.state == .moving then .returning else d.state })).parkInhibited :=
  if_pos (by simp [hb, hc, hn, hf])

/-! ## Failures of a shift (R252) -/

theorem Hw.shiftTimeout_ramp (hs : h.act.gear.step = .ramp) : h.shiftTimeout = h := by
  simp [Hw.shiftTimeout, hs]

/-- The window is not reached in time: the old gear is sought again. -/
theorem Hw.shiftTimeout_sync (hs : h.act.gear.step = .sync) (hr : h.act.gear.reverting = false)
    (ht : h.act.gear.at' + (h.act.gear.syncTime + h.par 0x091D) * usTicks ≤ h.time.clock) :
    h.shiftTimeout = h.revertShift.occur fltActShiftAborted 0xFF := by
  simp [Hw.shiftTimeout, hs, hr, ht]

end

/-- Settles O35: each request and each event of the tile in the case that the statement names. -/
theorem actuatorsMove : Obligations.ActuatorsMove := by
  unfold Obligations.ActuatorsMove
  refine ⟨?move, ?shift, ?confirmed, ?parkLost, ?endStop, ?tooth, ?inhibit, ?ramp, ?sync, ?onTooth⟩
  case move =>
    intro s d h r hok hd hi hb hg hv hh ht
    exact next_put_congr ((Hw.descriptor_runs (own := fun q x => x.actMove d q) r).trans
      (Hw.actMove_starts_shift hok hd hi hb hg hv hh ht))
  case shift =>
    intro s d h us r h0 h4 hg ha hs hd hv hsh hdh
    exact next_put_congr ((Hw.descriptor_runs (own := fun q x => x.gearShift d q) r).trans
      (Hw.gearShift_begins h0 h4 hg ha hs hd hv hsh hdh))
  case confirmed =>
    rintro s x code _ hb hx rfl hp ht hm
    exact next_put_congr ((Hw.posConfirmed_stands hb hx hp ht).trans (Hw.confirmAt_ends_motion hm))
  case parkLost => exact fun s hon ho => next_put_congr (Hw.parkOut_lost hon ho)
  case endStop => exact fun s i hs ht => next_put_congr (Hw.actLocked_atTarget hs ht)
  case tooth => exact fun s hs ht => next_put_congr (Hw.toothEnd_due hs ht)
  case inhibit => exact fun s hb hc hn hf => ⟨_, next_put_congr (Hw.parkSpeed_inhibits hb hc hn hf), rfl⟩
  case ramp => exact fun s hs => next_put_same (Hw.shiftTimeout_ramp hs)
  case sync => exact fun s hs hr ht => next_put_congr (Hw.shiftTimeout_sync hs hr ht)
  case onTooth => exact fun s hs ht hc hm => next_put_congr (Hw.actLocked_onTooth hs ht hc hm)

/-! ## The supply of the drives (R237) -/

section
variable {h : Hw} {i : Nat}

theorem Hw.raiseOnce_mild_act {f : FaultId} {src : Byte} (hc : f.cls.mild) : (h.raiseOnce f src).act = h.act := by
  obtain ⟨-, -, -, -, -, -, -, -, -, -, -, -, -, hact, -⟩ : Q h (h.raiseOnce f src) :=
    q_ite (q_refl h) (Hw.raiseAs_mild_q hc (q_refl h))
  exact hact

@[simp] theorem Hw.clearFault_act {code : W16} {src : Byte} : (h.clearFault code src).act = h.act := by
  obtain ⟨-, -, -, -, -, -, -, -, -, -, -, -, -, hact, -⟩ : Q h (h.clearFault code src) := Hw.clearFault_q code src (q_refl h)
  exact hact

theorem Hw.vsBad_iff : h.vsBad = true ↔ h.act.vs < 9000 ∨ 58000 < h.act.vs := by
  simp [Hw.vsBad]

/-- Below 9.0 V every drive brakes: what ACT_VS_LOW raises leaves the voltage as it was read. -/
theorem Hw.actVs_low {mv : Int} (hv : mv < 9000) :
    h.actVs mv =
      let x := (({ h with act := { h.act with vs := mv, vsLow := true, vsHigh := false } } : Hw).raiseOnce fltActVsLow
        0xFF).clearFault fltActVsHigh.code 0xFF
      ((((((x.brakeDrive 0).brakeDrive 1).brakeDrive 2).rappelHold 0).rappelHold 1).rappelHold 2).drawn := by
  have notHigh : ¬ 58000 < mv := by omega
  have bad : ((({ h with act := { h.act with vs := mv, vsLow := true, vsHigh := false } } : Hw).raiseOnce fltActVsLow
      0xFF).clearFault fltActVsHigh.code 0xFF).vsBad = true := by
    rw [Hw.vsBad_iff, Hw.clearFault_act, Hw.raiseOnce_mild_act (.inr rfl)]
    exact .inl hv
  simp only [Hw.actVs, decide_eq_true hv, decide_eq_false notHigh, if_pos hv, if_neg notHigh, bad, if_true]

/-- Within its range ACT_VS brakes no drive. -/
theorem Hw.actVs_inRange {mv : Int} (hl : 9000 ≤ mv) (hh : mv ≤ 58000) :
    h.actVs mv =
      let x := (({ h with act := { h.act with vs := mv, vsLow := false, vsHigh := false } } : Hw).clearFault
        fltActVsLow.code 0xFF).clearFault fltActVsHigh.code 0xFF
      (((x.rappelHold 0).rappelHold 1).rappelHold 2).drawn := by
  have notLow : ¬ mv < 9000 := Int.not_lt.mpr hl
  have notHigh : ¬ 58000 < mv := Int.not_lt.mpr hh
  have good : ((({ h with act := { h.act with vs := mv, vsLow := false, vsHigh := false } } : Hw).clearFault
      fltActVsLow.code 0xFF).clearFault fltActVsHigh.code 0xFF).vsBad = false := by
    rw [Bool.eq_false_iff, ne_eq, Hw.vsBad_iff, Hw.clearFault_act, Hw.clearFault_act]
    exact not_or.mpr ⟨notLow, notHigh⟩
  simp only [Hw.actVs, decide_eq_false notLow, decide_eq_false notHigh, if_neg notLow, if_neg notHigh, good,
    Bool.false_eq_true, if_false]

/-! ## Missed vectors, Halls and braking (R241 to R243) -/

theorem Hw.senseLost_fourth (hm : 4 ≤ (h.act.drive i).missed) :
    h.senseLost i = h.occurThen fltActSenseLost fltActSenseLost.cls (BitVec.ofNat 8 i)
      (fun x => (x.brakeDrive i).modDrive i (fun d => { d with missed := 0 })) :=
  if_neg (Nat.not_lt.mpr hm)

section
variable {obs : List W32} {n : Int}

/-- Halls and observer are compared above 1000 rpm only. -/
theorem Hw.hallCompare_slow (hn : absI n ≤ 100000) : h.hallCompare i obs n = h := by
  unfold Hw.hallCompare
  split
  · rfl
  · exact if_neg (by simp [Int.not_lt.mpr hn])

theorem Hw.hallObserver_fast (hn : 100000 < absI n) :
    h.hallObserver i n = ((h.modDrive i (fun d => { d with hallBad := true, hallOkAt := none })).raiseOnce fltActHallObserver
      (BitVec.ofNat 8 i)).modDrive i (fun d => { d with onObserver := d.busy }) := if_pos hn

theorem Hw.hallCompare_apart {k : Nat} (hk : h.hallOf i = some k) (hn : 100000 < absI n)
    (hl : (h.pos.halls.get k {}).angles.length = 3)
    (hf : ∀ p ∈ (h.pos.halls.get k {}).angles.zip obs, 357913941 < absI (p.1 - p.2).toInt) :
    h.hallCompare i obs n = h.hallObserver i n := by
  have apart : ((h.pos.halls.get k {}).angles.zip obs).all (fun p => farApart p.1 p.2) = true :=
    List.all_eq_true.mpr fun p hp => decide_eq_true (hf p hp)
  simp only [Hw.hallCompare, hk]
  exact if_pos (by simp only [hn, hl, apart, decide_true, beq_self_eq_true, Bool.and_self])

end

/-- A drive whose braking is over ends its motion where it is failing; where it was braked for its direction alone it starts that
motion (R244), which for R243 is the choice of the model. -/
theorem Hw.rappelEnd_standing (hs : (h.act.drive i).state = .braking) (ht : h.turning i = false) :
    h.rappelEnd i = if (h.act.drive i).failing then h.endDrive i .hold .hwFault
      else h.modDrive i (fun d => { d with state := .moving, lowOn := false, startAt := h.time.clock }) :=
  if_neg (by simp [hs, ht])

/-! ## The currents of a period (R239) -/

@[simp] theorem Hw.periodLatch_act {n : Nat} : (h.periodLatch n).act = h.act := rfl

@[simp] theorem Hw.actRefresh_drive {j : Nat} : (h.actRefresh j).act.drive i = h.act.drive i := rfl

/-- Holding ACT_VS in a braking leaves the vectors of the period. -/
@[simp] theorem Hw.rappelHold_vectors : ((h.rappelHold i).act.drive i).vectors = (h.act.drive i).vectors := by
  unfold Hw.rappelHold
  dsimp only
  rw [Hw.modDrive_drive]
  split <;> rfl

/-- Vectors 100 and 110, both measured, give all three currents. -/
theorem Drive.measured_both {d : Drive} {x y : Int} (hv : d.vectors.map (fun a => a.code) = [4, 6]) :
    d.measured (some x) (some y) =
      { d with iU := x, iV := y - x, iW := -y, missed := 0, means := (d.means.set 4 x).set 6 y } := by
  obtain ⟨a, l, hl, ha, hm⟩ := List.map_eq_cons_iff.mp hv
  obtain ⟨b, m, rfl, hb, -⟩ := List.map_eq_cons_iff.mp hm
  have third : -(x + -y) = y - x := by omega
  simp [Drive.measured, Drive.vectorCurrent, reconstruct, shuntPhase, hl, ha, hb, third]

/-- A drive that switches takes the currents of the period that ended and the edges and vectors of the one that begins; what the
period does besides reaches no drive. -/
theorem Hw.actPeriod_drive {m1 m2 : Option Int} {on : List Nat} {obs : W32} (hp : h.mode.phase = .up)
    (hw : h.powered 10 = true) (hs : (h.rappelHold i).switching ((h.rappelHold i).act.drive i) = true) :
    (h.actPeriod i m1 m2 on obs).act.drive i =
      let asked := on.map (fun t => min t (h.actPeriodTicks i))
      let edges := shiftedEdges (h.actPeriodTicks i) asked
      { ((h.rappelHold i).act.drive i).measured m1 m2 with
        edges := edges, vectors := activeVectors asked edges, angle := h.driveAngle i obs, ref := (h.rappelHold i).driveRef i } := by
  have runs : ¬ (h.mode.phase != .up || !h.powered 10 || !(h.rappelHold i).switching ((h.rappelHold i).act.drive i)) = true := by
    simp [hp, hw, hs]
  unfold Hw.actPeriod
  dsimp only
  rw [if_neg runs, Hw.drawn_act, Hw.periodLatch_act, Hw.addEnergy_act, Hw.actRefresh_drive, Hw.modDrive_drive]

end

/-! ## Phase-shift insertion (R240) -/

section
variable {n u v w : Nat} {on : List Nat}

/-- The leg that is neither the longest nor the shortest. -/
def middle (on : List Nat) : Nat := 3 - longest on - shortest on

/-- The rising edge of leg `k` before insertion: on-times are centred in the period. -/
def centredRise (n : Nat) (on : List Nat) (k : Nat) : Int := ((n - on.getD k 0) / 2 : Nat)

/-- By how much insertion moves the edges of leg `k`. -/
def edgeShift (n : Nat) (on : List Nat) (k : Nat) : Int :=
  if k = longest on then 0 - insertion (centredRise n on (middle on) - centredRise n on (longest on))
  else if k = shortest on then insertion (centredRise n on (shortest on) - centredRise n on (middle on))
  else 0

/-- The edges of leg `k` after insertion. -/
def shiftedEdge (n : Nat) (on : List Nat) (k : Nat) : Int × Int :=
  (centredRise n on k + edgeShift n on k, centredRise n on k + edgeShift n on k + on.getD k 0)

theorem shiftedEdges_eq : shiftedEdges n on = (List.range 3).map (shiftedEdge n on) := rfl

theorem shiftedEdges_getD {k : Nat} (hk : k < 3) : (shiftedEdges n on).getD k (0, 0) = shiftedEdge n on k := by
  simp [shiftedEdges_eq, List.getD, hk]

/-- Insertion moves a leg's edges together: its on-time stays. -/
theorem shiftedEdges_widths : (shiftedEdges n [u, v, w]).map (fun e => e.2 - e.1) = [(u : Int), v, w] := by
  have width (k : Nat) : (shiftedEdge n [u, v, w] k).2 - (shiftedEdge n [u, v, w] k).1 = ([u, v, w].getD k 0 : Nat) := by
    simp only [shiftedEdge]
    omega
  rw [shiftedEdges_eq, List.map_map]
  exact List.map_congr_left fun k _ => width k

theorem insertion_reaches (x : Int) : 480 ≤ x + insertion x := by
  unfold insertion maxI
  split <;> omega

theorem longest_three : longest [u, v, w] = if v ≤ u ∧ w ≤ u then 0 else if w ≤ v then 1 else 2 := by
  simp only [longest, List.foldl_cons, List.foldl_nil, List.findIdx_cons, List.findIdx_nil]
  grind

theorem shortest_three : shortest [u, v, w] = if w ≤ u ∧ w ≤ v then 2 else if v ≤ u then 1 else 0 := by
  simp only [shortest, List.headD_cons, List.reverse_cons, List.reverse_nil, List.nil_append, List.cons_append,
    List.foldl_cons, List.foldl_nil, List.findIdx_cons, List.findIdx_nil]
  grind

/-- The longest, the middle and the shortest leg are the three legs, also where on-times are equal. -/
theorem legs_distinct (u v w : Nat) :
    longest [u, v, w] < 3 ∧ middle [u, v, w] < 3 ∧ shortest [u, v, w] < 3 ∧ longest [u, v, w] ≠ shortest [u, v, w] ∧
    middle [u, v, w] ≠ longest [u, v, w] ∧ middle [u, v, w] ≠ shortest [u, v, w] := by
  rw [middle, longest_three, shortest_three]
  grind

/-- The two active vectors lie between the edges of the longest, the middle and the shortest leg. -/
theorem activeVectors_shifted (n u v w : Nat) :
    ∃ c1 c2, activeVectors [u, v, w] (shiftedEdges n [u, v, w]) =
      [vectorBetween c1 (shiftedEdge n [u, v, w] (longest [u, v, w])) (shiftedEdge n [u, v, w] (middle [u, v, w])),
       vectorBetween c2 (shiftedEdge n [u, v, w] (middle [u, v, w])) (shiftedEdge n [u, v, w] (shortest [u, v, w]))] := by
  obtain ⟨hl, hm, hs, -⟩ := legs_distinct u v w
  rw [← shiftedEdges_getD hl, ← shiftedEdges_getD hm, ← shiftedEdges_getD hs]
  exact ⟨_, _, rfl⟩

/-- Both active vectors last 1.2 us in the first half-period. -/
theorem activeVectors_first_ge : ∀ x ∈ activeVectors [u, v, w] (shiftedEdges n [u, v, w]), 480 ≤ x.first := by
  obtain ⟨c1, c2, e⟩ := activeVectors_shifted n u v w
  obtain ⟨-, -, -, hls, hml, hms⟩ := legs_distinct u v w
  have first := insertion_reaches (centredRise n [u, v, w] (middle [u, v, w]) - centredRise n [u, v, w] (longest [u, v, w]))
  have second := insertion_reaches (centredRise n [u, v, w] (shortest [u, v, w]) - centredRise n [u, v, w] (middle [u, v, w]))
  simp only [e, List.forall_mem_cons, vectorBetween, shiftedEdge, edgeShift, if_true, if_neg hml, if_neg hms, if_neg hls.symm]
  refine ⟨?_, ?_, List.forall_mem_nil _⟩ <;> omega

/-- A vector's two half-periods together last what the on-times of its legs differ by. -/
theorem vectorBetween_total {c : Nat} {j k : Nat} :
    let x := vectorBetween c (shiftedEdge n on j) (shiftedEdge n on k)
    x.first + x.second = (on.getD j 0 : Int) - on.getD k 0 := by
  simp only [vectorBetween, shiftedEdge]
  omega

theorem activeVectors_total (hv : v < u) (hw : w < v) :
    (activeVectors [u, v, w] (shiftedEdges n [u, v, w])).map (fun x => x.first + x.second) = [(u : Int) - v, (v : Int) - w] := by
  have hl : longest [u, v, w] = 0 := longest_three.trans (if_pos (by omega))
  have hs : shortest [u, v, w] = 2 := shortest_three.trans (if_pos (by omega))
  have hm : middle [u, v, w] = 1 := by rw [middle, hl, hs]
  obtain ⟨c1, c2, e⟩ := activeVectors_shifted n u v w
  rw [e, List.map_cons, List.map_cons, List.map_nil, vectorBetween_total, vectorBetween_total, hl, hm, hs]
  rfl

end

/-- Settles O36: the reading of ACT_VS on either side of its lower bound, each event of the drives in the case that the statement
names, and the period by what it makes of its drive. -/
theorem drivesAreSensed : Obligations.DrivesAreSensed := by
  unfold Obligations.DrivesAreSensed
  refine ⟨?low, ?inRange, fun _ _ hm => next_put_congr (Hw.senseLost_fourth hm), ?apart, ?slow, ?fails, ?goesOn, ?period,
    fun _ _ _ _ => ⟨shiftedEdges_widths, activeVectors_first_ge⟩, fun _ _ _ _ => activeVectors_total⟩
  case low =>
    rintro s mv _ hv rfl
    exact next_put_congr (Hw.actVs_low hv)
  case inRange =>
    rintro s mv _ hl hh rfl
    exact next_put_congr (Hw.actVs_inRange hl hh)
  case apart =>
    exact fun s i k a b c n hk hn hl hf =>
      next_put_congr ((Hw.hallCompare_apart hk hn hl hf).trans (Hw.hallObserver_fast hn))
  case slow => exact fun s i a b c n hn => next_put_same (Hw.hallCompare_slow hn)
  case fails => exact fun s i hs ht hf => next_put_congr ((Hw.rappelEnd_standing hs ht).trans (if_pos hf))
  case goesOn =>
    exact fun s i hs ht hf => next_put_congr ((Hw.rappelEnd_standing hs ht).trans (if_neg (Bool.eq_false_iff.mp hf)))
  case period =>
    intro s i x y u v w o hp hw hs hc hu hv hl
    have asked : [u, v, w].map (fun t => min t (s.hw.actPeriodTicks i)) = [u, v, w] := by simp [hu, hv, hl]
    have drive := Hw.actPeriod_drive (m1 := some x) (m2 := some y) (on := [u, v, w]) (obs := o) hp hw hs
    rw [asked, Drive.measured_both (by rw [Hw.rappelHold_vectors, hc])] at drive
    exact ⟨_, rfl, rfl, congrArg Drive.iU drive, congrArg Drive.iW drive, congrArg Drive.iV drive,
      congrArg Drive.missed drive, congrArg Drive.edges drive⟩

end Sys2Proof.Machine
end

section
/-!
PROOF. The statements of 10_safety.md: the debugger (R283, R284). For each operation of the module one lemma per case says what it
answers; the statement is put together from these.
-/
namespace Sys2Proof.Machine

/-! ## The debugger (R283, R284) -/

section
variable {h : Hw} {s : State}

/-- A debugger that is not attached may do nothing. -/
theorem Hw.debugMay_attached (hm : h.debugMay = true) : h.saf.dbgAttached = true := by
  simp only [Hw.debugMay, Bool.and_eq_true] at hm
  obtain ⟨⟨attached, -⟩, -⟩ := hm
  exact attached

/-- A command of an attached debugger is not ignored. -/
theorem Hw.debug_served {x : Hw} (ha : h.saf.dbgAttached = true) : (if !h.saf.dbgAttached then h else x) = x :=
  if_neg (by simp [ha])

/-- A single module's debugger attaches unauthenticated, with the cores running; no fault is raised and no limit set. -/
theorem Hw.debugAttach_single (hw : h.awake = true) (ha : h.saf.dbgAttached = false) (hr : h.roped = false) :
    h.debugAttach = ({ h with
      saf := { h.saf with dbgAttached := true, dbgAuth := false, dbgHalted := false } } : Hw).newChallenge := by
  simp [Hw.debugAttach, hw, ha, hr]

/-- With the debug key active the verdict on the signature alone decides. -/
theorem exec_debugAuthenticate_keyed {ok : Bool} (ha : s.hw.saf.dbgAttached = true)
    (hk : (s.hw.otp.active.find 6).isSome = true) :
    exec (.debugAuthenticate ok) s = .next (s.put ((({ s.hw with saf := { s.hw.saf with dbgAuth := ok } } :
      Hw).newChallenge).emit (.debug ok 0))) :=
  next_put_congr ((Hw.debug_served ha).trans (by rw [hk, Bool.and_true]))

theorem exec_debugRead_unanswered {a : DebugAddr} (ha : s.hw.saf.dbgAttached = true) (hn : s.hw.saf.dbgAuth = false) :
    exec (.debugRead a) s = .next (s.put (s.hw.emit (.debug true Config.idcode))) :=
  next_put_congr ((Hw.debug_served ha).trans (if_pos (by rw [hn]; rfl)))

theorem exec_debugRead_known {a : DebugAddr} {x : W32} (ha : s.hw.saf.dbgAttached = true) (hy : s.hw.saf.dbgAuth = true)
    (hx : s.hw.saf.dbgMem.find a.toNat = some x) :
    exec (.debugRead a) s = .next (s.put (s.hw.emit (.debug true x))) :=
  next_put_congr ((Hw.debug_served ha).trans ((if_neg (by simp [hy])).trans (by rw [hx])))

theorem exec_debugHalt_may (hm : s.hw.debugMay = true) :
    exec .debugHalt s = .next (s.put (((({ s.hw with saf := { s.hw.saf with dbgHalted := true } } : Hw).orderBoth).occur
      fltDebugAttached 0xFF).emit (.debug true 0))) :=
  next_put_congr ((Hw.debug_served (Hw.debugMay_attached hm)).trans (if_pos hm))

/-- Stepping is for halted cores. -/
theorem exec_debugStep_halted (hm : s.hw.debugMay = true) (hh : s.hw.saf.dbgHalted = true) :
    exec .debugStep s = .next (s.put ((s.hw.occur fltDebugAttached 0xFF).emit (.debug true 0))) :=
  next_put_congr ((Hw.debug_served (Hw.debugMay_attached hm)).trans (if_pos (Bool.and_eq_true_iff.mpr ⟨hm, hh⟩)))

theorem exec_debugWrite_may {a : DebugAddr} {v : W32} (hm : s.hw.debugMay = true) :
    exec (.debugWrite a v) s = .next (s.put
      ((({ s.hw with saf := { s.hw.saf with dbgMem := s.hw.saf.dbgMem.set a.toNat v } } : Hw).occur fltDebugAttached
      0xFF).emit (.debug true 0))) :=
  next_put_congr ((Hw.debug_served (Hw.debugMay_attached hm)).trans (if_pos hm))

/-- With the cores running no ARREST can be overdue at the detach. -/
theorem Hw.debugDetach_running (ha : h.saf.dbgAttached = true) (hh : h.saf.dbgHalted = false) :
    h.debugDetach = (({ h with
      saf := { h.saf with dbgAttached := false, dbgAuth := false, dbgHalted := false } } : Hw).clearFault
      fltDebugSplit.code 0xFF).splitEnd := by
  simp [Hw.debugDetach, ha, hh]

end

/-- Settles O46: each request of the debugger in the case that the statement names. -/
theorem debuggerIsServed : Obligations.DebuggerIsServed := by
  unfold Obligations.DebuggerIsServed
  refine ⟨?attaches, fun _ _ => exec_debugAuthenticate_keyed, fun _ _ => exec_debugRead_unanswered,
    fun _ _ _ => exec_debugRead_known, fun _ => exec_debugHalt_may, fun _ => exec_debugStep_halted,
    fun _ _ _ => exec_debugWrite_may, ?detaches⟩
  case attaches => exact fun s hw ha hr => next_put_congr (Hw.debugAttach_single hw ha hr)
  case detaches => exact fun s ha hh => next_put_congr (Hw.debugDetach_running ha hh)

end Sys2Proof.Machine
end

section
/-!
PROOF. The statements of 11_host_rings.md: refused descriptors (R296, R302), sessions and their table (R308 to R313, R430), doorbells,
posting, interrupts and register writes (R299 to R305, R423, R431, R436), mailboxes (R316, R317, R433, R446), and the loss of the
host and of its memory (R312, R314, R315, R435). For each operation of the module one lemma per case says what it answers; the
statements are put together from these.
-/
namespace Sys2Proof.Machine

/-! ## Refused descriptors (R296, R302) -/

section
variable {g : Hw} {s : State} {d : Desc} {st : Status}

/-- What starts a descriptor is a note on its ring, and none on the CAN path. -/
theorem Hw.started_q (g : Hw) (d : Desc) : Q g (g.started d) := by
  unfold Hw.started
  cases d.path with
  | ring n => exact Hw.setRing_q n.val _ (q_refl g)
  | can => exact q_refl g

/-- A descriptor that starts and completes at once leaves all but the host interface and what is reported as it was. -/
theorem Hw.started_complete_quiet (g : Hw) (d : Desc) (st : Status) : g.Quiet ((g.started d).complete d.req st) :=
  (q_iff _ _).1 (Hw.complete_q d.req st (g.started_q d))

theorem exec_torqueSet_refused (hm : d.member = false) (hc : s.hw.canStart d = true)
    (hs : s.hw.heldBySwap 0x0501 d = false) (hf : (s.hw.started d).firstFailure 0x0501 d = some st)
    (hp : st ≠ .safetyPdu) : exec (.torqueSet d) s = .next (s.put ((s.hw.started d).complete d.req st)) :=
  next_put_congr (Hw.descriptor_refused hm hc hs hf hp)

end

/-- Settles O8: a failed check completes the descriptor that has started, which is quiet; one not taken is the module left alone. -/
theorem refusedDescriptorsActNoFurther : Obligations.RefusedDescriptorsActNoFurther := by
  unfold Obligations.RefusedDescriptorsActNoFurther
  refine ⟨?torqueSet, ?anyOpcode, fun g op d own => Hw.descriptor_waits⟩
  case torqueSet =>
    exact fun s d st hm hc hs hf hp => ⟨exec_torqueSet_refused hm hc hs hf hp, s.hw.started_complete_quiet d st⟩
  case anyOpcode =>
    intro g op d own st hm hc hs hf hp
    have refused : g.descriptor op d own = (g.started d).complete d.req st := Hw.descriptor_refused hm hc hs hf hp
    exact ⟨refused, refused ▸ g.started_complete_quiet d st⟩

/-! ## Sessions (R308 to R311, R313) -/

section
variable {h : Hw} {s : State} {d : Desc} {q : Req} {n : Nat}

theorem exec_sessionOpen_runs (r : s.hw.RunsTo 0x0B04 d h) :
    exec (.sessionOpen d) s = .next (s.put (h.sessionOpen d d.req)) :=
  next_put_congr (Hw.descriptor_runs (own := fun q x => x.sessionOpen d q) r)

theorem exec_sessionChallenge_runs (r : s.hw.RunsTo 0x0B06 d h) :
    exec (.sessionChallenge d) s = .next (s.put (h.sessionChallenge d d.req)) :=
  next_put_congr (Hw.descriptor_runs (own := fun q x => x.sessionChallenge d q) r)

theorem exec_sessionClose_runs (r : s.hw.RunsTo 0x0B05 d h) :
    exec (.sessionClose d) s = .next (s.put (h.sessionClose (d.num 16 2) d.req)) :=
  next_put_congr (Hw.descriptor_runs (own := fun q x => x.sessionClose (d.num 16 2) q) r)

/-- The context of a session that opens now (R308, R310). -/
def Hw.newSession (h : Hw) (a : Auth) (pinned viaCan : Bool) (src : W32) : Session :=
  { auth := a, pinned := pinned, resident := true, usedAt := h.time.clock, source := src, binding := Config.binding h.free
    openedAt := h.time.now, lastSeq := none, fails := [], blocked := false, viaCan := viaCan, closing := none }

/-- The result block of a session that opens now as number `n` (R308). -/
def Hw.sessionBlock (h : Hw) (n : Nat) : List Byte :=
  leBytes 2 n ++ [0, 0] ++ leBytes 4 (Config.binding h.free).toNat ++ leBytes 8 h.time.now.toNat

/-- A pinned session takes the lowest free number and needs no room made for it (R308, R310). -/
theorem Hw.openSession_pinned {a : Auth} {viaCan : Bool} {src : W32} (hn : h.freeSession = some n) :
    h.openSession a true viaCan src =
      (h.drawn.setSession n (h.newSession a true viaCan src), some (h.sessionBlock n)) := by
  unfold Hw.openSession
  rw [hn]
  rfl

/-- A MOTION session is pinned and presents no challenge (R308, R309). -/
theorem Hw.sessionOpen_motion (hc : h.openSessionCheck d = none) (ha : d.num 16 1 = 2) (hn : h.freeSession = some n) :
    h.sessionOpen d q =
      ((h.drawn.setSession n (h.newSession .motion true false (BitVec.ofNat 32 (d.num 20 4)))).emit
        (.dma (BitVec.ofNat 64 (d.num 24 8)) (h.sessionBlock n))).complete q .done := by
  have pinned : (Auth.motion == .motion || decide (d.num 17 1 = 1)) = true := rfl
  simp only [Hw.sessionOpen, ha, Nat.reduceEqDiff, if_false, hc, Auth.ofCode, pinned, Hw.openSession_pinned hn]

/-- The close of an open session has its effects at once; its context goes when its other work is out (R313). -/
theorem Hw.sessionClose_open {x y : Session} (hx : h.session n = some x) (hc : x.closing = none)
    (hy : (h.closeEffects n x).session n = some y) :
    h.sessionClose n q = ((h.closeEffects n x).setSession n { y with closing := some q }).settleSession n := by
  simp [Hw.sessionClose, hx, hc, hy]

/-- A context that passes its CMAC is resident, and the descriptor that waited for it runs (R311). -/
theorem Hw.pageIn_resumes {n : Fin 64} {raw : BitVec 512} {dma : List Byte} {ok : Bool} {x : Session}
    (hw : (h.ring n.val).missed = some (raw, dma, ok)) (ha : h.appRuns = true) (hl : h.host.linkUp = true)
    (hp : h.pwr.onP11 = false) (hm : h.contextMiss (Desc.ofRaw (.ring n) raw dma ok).2 = true)
    (hx : h.makeRoom.session (Desc.ofRaw (.ring n) raw dma ok).2.session.toNat = some x) :
    h.pageIn n true = (h.makeRoom.setSession (Desc.ofRaw (.ring n) raw dma ok).2.session.toNat
      { x with resident := true, usedAt := h.time.clock }).resume n raw dma ok := by
  simp [Hw.pageIn, hw, ha, hl, hp, hm, hx]

/-! ## The session table (R430) -/

theorem exec_sessionTableEnable_answers {v : W32} (hb : s.hw.barUp = true) :
    exec (.sessionTableEnable v) s = .next (s.put (s.hw.tableWrite (v ||| 1))) := next_put_congr (if_pos hb)

theorem exec_sessionTableDisable_answers {v : W32} (hb : s.hw.barUp = true) :
    exec (.sessionTableDisable v) s = .next (s.put (s.hw.tableWrite (v &&& 0xFFFFFFFE))) := next_put_congr (if_pos hb)

/-- A disabled table takes whatever is written. -/
theorem Hw.tableWrite_off {v : W32} (ho : h.host.tableLo.getLsbD 0 = false) :
    h.tableWrite v = { h with host := { h.host with tableLo := v &&& 0xFFFFF001 } } := by
  simp only [Hw.tableWrite, ho, Bool.false_and, Bool.false_eq_true, if_false]

/-- What a mask covers is not changed by a wider mask put on first. -/
theorem and_xor_and_of_covered {v x a b : W32} (e : a &&& b = b) : ((v &&& a) ^^^ x) &&& b = (v ^^^ x) &&& b := by
  refine BitVec.eq_of_getLsbD_eq fun i _ => ?_
  have covered : (a.getLsbD i && b.getLsbD i) = b.getLsbD i := by rw [← BitVec.getLsbD_and, e]
  simp only [BitVec.getLsbD_and, BitVec.getLsbD_xor, Bool.and_xor_distrib_right, Bool.and_assoc, covered]

/-- An enabled table takes a write that leaves its base, with no unpinned session open. -/
theorem Hw.tableWrite_baseKept {v : W32} (hv : (v ^^^ h.host.tableLo) &&& 0xFFFFF000 = 0)
    (hn : h.sessionCount (fun x => !x.pinned) = 0) :
    h.tableWrite v = { h with host := { h.host with tableLo := v &&& 0xFFFFF001 } } := by
  have stays : (((v &&& 0xFFFFF001) ^^^ h.host.tableLo) &&& 0xFFFFF000 != 0) = false := by
    rw [and_xor_and_of_covered rfl, hv]
    rfl
  have allPinned : decide (1 ≤ h.sessionCount (fun x => !x.pinned)) = false := by
    rw [hn]
    rfl
  simp only [Hw.tableWrite, stays, allPinned, Bool.and_false, Bool.or_false, Bool.false_eq_true, if_false]

/-- Clearing a bit that is clear changes nothing. -/
theorem and_clearBit0_of_clear {v : W32} (hv : v.getLsbD 0 = false) : v &&& 0xFFFFFFFE = v := by
  refine BitVec.eq_of_getLsbD_eq fun i hi => ?_
  rw [BitVec.getLsbD_and]
  cases i with
  | zero => rw [hv, Bool.false_and]
  | succ k =>
    have kept : ∀ j : Fin 31, (0xFFFFFFFE : W32).getLsbD (j.val + 1) = true := by decide
    rw [kept ⟨k, by omega⟩, Bool.and_true]

end

/-- Settles O25: each command of a session, the paging in of a context, and the two writes to the table's register. -/
theorem sessionsOpenAndClose : Obligations.SessionsOpenAndClose := by
  unfold Obligations.SessionsOpenAndClose
  refine ⟨?opens, fun _ _ _ => exec_sessionChallenge_runs, ?closes, ?pagedIn, ?enabled, ?disabled⟩
  case opens =>
    intro s d h n r hc ha hn
    rw [exec_sessionOpen_runs r, Hw.sessionOpen_motion hc ha hn, Hw.newSession, Hw.sessionBlock]
  case closes =>
    intro s d h x y r hx hc hy
    rw [exec_sessionClose_runs r, Hw.sessionClose_open hx hc hy]
  case pagedIn => exact fun s n raw dma ok x hw ha hl hp hm hx => next_put_congr (Hw.pageIn_resumes hw ha hl hp hm hx)
  case enabled =>
    intro s v hb ho
    rw [exec_sessionTableEnable_answers hb, Hw.tableWrite_off ho]
  case disabled =>
    intro s v hb _ hv h0 hn
    rw [exec_sessionTableDisable_answers hb, and_clearBit0_of_clear h0, Hw.tableWrite_baseKept hv hn]

/-! ## Doorbells, posting and interrupts (R299 to R305, R431, R436) -/

section
variable {h : Hw} {s : State} {n : Nat} {v : W32}

theorem exec_doorbellWrite_served {off : BitVec 14} (hb : s.hw.barUp = true) (ho : off.toNat % 256 = 0) :
    exec (.doorbellWrite off 32 v) s = .next (s.put (s.hw.doorbell (off.toNat / 256) v)) :=
  next_put_congr (if_pos (by simp [hb, ho]))

/-- Both fields within the queue, and no entry freed that is not posted: the doorbell takes effect (R299). -/
theorem Hw.doorbell_valid {tail head freed : Nat} (hp : (h.ring n).posts = true) (et : tail = v.toNat % 2 ^ 16)
    (eh : head = v.toNat / 2 ^ 16)
    (ef : freed = (head + 2 ^ (h.ring n).size - (h.ring n).cqHead) % 2 ^ (h.ring n).size)
    (hh : head < 2 ^ (h.ring n).size) (ht : tail < 2 ^ (h.ring n).size) (hf : freed ≤ (h.ring n).posted) :
    h.doorbell n v = h.setRing n ((h.ring n).doorbell tail head freed h.time.clock) := by
  subst et eh ef
  simp only [Hw.doorbell, hp, Bool.not_true, Bool.false_eq_true, if_false, Nat.not_le.mpr hh, Nat.not_le.mpr ht,
    Nat.not_lt.mpr hf, decide_false, Bool.and_false, Bool.or_false]

/-- A head beyond the queue stops the ring (R299). -/
theorem Hw.doorbell_headBeyond (hp : (h.ring n).posts = true) (hh : 2 ^ (h.ring n).size ≤ v.toNat / 2 ^ 16) :
    h.doorbell n v = (h.ringError n 1).occurActed fltHostDoorbellInvalid (BitVec.ofNat 8 n) := by
  simp only [Hw.doorbell, hp, Bool.not_true, Bool.false_eq_true, if_false, hh, decide_true, Bool.true_or, if_true]

theorem exec_bufferedEntryPost_posts {n : Fin 64} (hp : (s.hw.ring n.val).posts = true) :
    exec (.bufferedEntryPost n) s =
      .next (s.put ((Hw.postWaiting 64 n.val s.hw).settleRing n.val).postSnap.settleSnap) :=
  next_put_congr (if_pos hp)

/-- A CMD ring whose queue has been full for CQ_STALL_LIMIT stops (R300). -/
theorem Hw.cqStall_due {t : Nat} (hp : (h.ring n).posts = true) (hy : (h.ring n).type = 0)
    (hr : (h.ring n).hasRoom = false) (hf : (h.ring n).fullAt = some t) (ht : t + h.parTicks 0x0B02 ≤ h.time.clock) :
    h.cqStall n = (h.ringError n 2).occurActed fltHostCqStall (BitVec.ofNat 8 n) := by
  simp [Hw.cqStall, hp, hy, hr, hf, ht]

theorem exec_coalesceTimeout_due {n : Fin 64} (hu : 0 < (s.hw.ring n.val).unsignalled)
    (ht : (s.hw.ring n.val).oldestAt + (s.hw.ring n.val).time * usTicks ≤ s.hw.time.clock) :
    exec (.coalesceTimeout n) s = .next (s.put (s.hw.signalRing n.val)) :=
  next_put_congr (if_pos (by simp [hu, ht]))

/-- A vector's mask bit cleared (R431). -/
def Hw.unmasked (h : Hw) (v : Nat) : Hw :=
  { h with host := { h.host with
    msix := h.host.msix.set v { h.host.msix.get v {} with ctrl := (h.host.msix.get v {}).ctrl &&& 0xFFFFFFFE } } }

theorem exec_msixUnmask_answers {v : Fin 65} (hb : s.hw.barUp = true) :
    exec (.msixUnmask v) s = .next (s.put ((s.hw.unmasked v.val).sendPending v.val)) :=
  next_put_congr (if_neg (by simp [hb]))

/-! ## Registers (R423, R426, R430) -/

theorem exec_moduleTimeLoRead_answers (hb : s.hw.barUp = true) :
    exec .moduleTimeLoRead s = .next (s.put (({ s.hw with
      time := { s.hw.time with hiLatch := s.hw.time.now.extractLsb' 32 32 } } : Hw).emit (.read 0x0208
      (s.hw.time.now.extractLsb' 0 32)))) := next_put_congr (if_pos hb)

/-- An aligned 64-bit access (R423). -/
theorem exec_registerWrite_wide {o : W16} {x : W64} (hb : s.hw.barUp = true) (ho : o.toNat % 8 = 0) :
    exec (.registerWrite o 64 x) s = .next (s.put (s.hw.regWrite64 o.toNat x)) :=
  next_put_congr (by simp [hb, ho])

/-- The low half comes first, but for the session table (R423, R430). -/
theorem Hw.regWrite64_lowFirst {o : Nat} {x : W64} (ho : o ≠ 0x0818) :
    h.regWrite64 o x = (h.regWrite o (x.extractLsb' 0 32)).regWrite (o + 4) (x.extractLsb' 32 32) := if_neg ho

/-- The session table's high half comes first: its ENABLE stands in the low half (R430). -/
theorem Hw.regWrite64_sessionTable {o : Nat} {x : W64} (ho : o = 0x0818) :
    h.regWrite64 o x = (h.regWrite (o + 4) (x.extractLsb' 32 32)).regWrite o (x.extractLsb' 0 32) := if_pos ho

end

/-- Settles O26: each command in the cases that the statement names. -/
theorem queuesMove : Obligations.QueuesMove := by
  unfold Obligations.QueuesMove
  refine ⟨?doorbell, ?invalid, fun _ _ => exec_bufferedEntryPost_posts, ?stall, fun _ _ => exec_coalesceTimeout_due,
    fun _ _ => exec_msixUnmask_answers, fun _ => exec_moduleTimeLoRead_answers, ?wide, ?table⟩
  case doorbell =>
    intro s off v hb ho hp hh ht hf
    rw [exec_doorbellWrite_served hb ho, Hw.doorbell_valid hp rfl rfl rfl hh ht hf]
  case invalid =>
    intro s off v hb ho hp hh
    rw [exec_doorbellWrite_served hb ho, Hw.doorbell_headBeyond hp hh]
  case stall => exact fun s n t hp hy hr hf ht => next_put_congr (Hw.cqStall_due hp hy hr hf ht)
  case wide =>
    intro s o v hb ho hn
    rw [exec_registerWrite_wide hb ho, Hw.regWrite64_lowFirst hn]
  case table => exact fun s v hb => (exec_registerWrite_wide hb rfl).trans (next_put_congr (Hw.regWrite64_sessionTable rfl))

/-! ## Mailboxes (R316, R317, R433, R446) -/

section
variable {h : Hw} {s : State} {m a : Nat} {code : Byte}

/-- A free mailbox goes to the agent that reads its lock (R316). -/
theorem Hw.mbLockRead_free (hr : h.mbReach m a = true) (hm : m ≠ 0) (hl : (h.mb m).lock = 0) :
    h.mbLockRead m a =
      (h.setMb m { h.mb m with lock := a, lockAt := h.time.clock }).emit (.read (0x100C + 0x40 * m) 0) := by
  simp [Hw.mbLockRead, hr, hm, hl]

theorem Hw.mbRelease_owner (hr : h.mbReach m a = true) (hm : m ≠ 0) (hl : (h.mb m).lock = a) :
    h.mbRelease m a = h.setMb m { h.mb m with lock := 0 } := if_pos (by simp [hr, hm, hl])

/-- The owner of an empty mailbox writes its word (R316). -/
theorem Hw.mbWrite_owner {word : W32} (hr : h.mbReach m a = true) (hm : m ≠ 0) (hl : (h.mb m).lock = a)
    (hf : (h.mb m).full = false) :
    h.mbWrite m a word = h.setMb m { h.mb m with
      data := word, full := true, sender := a, valid := false, writtenAt := h.time.clock, lockAt := h.time.clock } :=
  if_pos (by simp [hr, hm, hl, hf])

/-- The answer to a word that waits (R316). -/
theorem Hw.mbAck_full (hf : (h.mb m).full = true) :
    h.mbAck m code = h.setMb m { h.mb m with full := false, ack := code, valid := true } := if_pos hf

/-- The receiver of R317 answers a mailbox that has one. -/
theorem exec_mbAcknowledge_receiver {m : Fin 16} {a : Fin 12} (hw : s.hw.awake = true) (hm : m.val ≠ 0) (ha : a.val ≠ 0)
    (hr : mbReceiver m.val = a.val) : exec (.mbAcknowledge m a code) s = .next (s.put (s.hw.mbAck m.val code)) := by
  have receives : (if mbReceiver m.val = 0 then (s.hw.mb m.val).lock != a.val else mbReceiver m.val == a.val) = true := by
    rw [hr, if_neg ha, beq_self_eq_true]
  exact next_put_congr (if_pos (by simp [hw, hm, ha, receives]))

theorem Hw.mbTimeoutClear_reached (hr : h.mbReach m 1 = true) :
    h.mbTimeoutClear m = h.setMb m { h.mb m with timeout := false } := if_pos hr

/-- A word not taken within 10 ms is given up, and its lock with it (R316). -/
theorem exec_mbTimeout_due {m : Fin 16} (hf : (s.hw.mb m.val).full = true)
    (ht : (s.hw.mb m.val).writtenAt + 10 * msTicks ≤ s.hw.time.clock) :
    exec (.mbTimeout m) s = .next (s.put (s.hw.setMb m.val
      { s.hw.mb m.val with timeout := true, full := false, lock := 0 })) := next_put_congr (if_pos (by simp [hf, ht]))

/-- A lock held for 1 s without a word written is given up (R316). -/
theorem exec_mbLockExpiry_idle {m : Fin 16} (hl : (s.hw.mb m.val).lock ≠ 0) (hf : (s.hw.mb m.val).full = false)
    (ht : (s.hw.mb m.val).lockAt + sTicks ≤ s.hw.time.clock) :
    exec (.mbLockExpiry m false) s = .next (s.put (s.hw.setMb m.val { s.hw.mb m.val with lock := 0 })) :=
  next_put_congr (if_pos (by simp [hl, hf, ht]))

theorem exec_ping_held (hh : s.hw.mb1Holds 1 = true) : exec .ping s = .next (s.put (s.hw.busyNow.mbAck 1 0)) :=
  next_put_congr (if_pos hh)

theorem exec_sleep_held (hh : s.hw.mb1Holds 2 = true) : exec .sleep s = .next (s.put s.hw.mbSleep) :=
  next_put_congr (if_pos hh)

theorem Hw.mbSleep_grants {t : Mode} (hb : h.modeBusy = false) (hr : h.route .bivouac = some t) :
    h.mbSleep = (h.busyNow.mbAck 1 0).grant t none 0 0 := by
  simp only [Hw.mbSleep, hb, hr, Bool.false_eq_true, if_false]
  rfl

theorem Hw.mbSleep_busy (hb : h.modeBusy = true) : h.mbSleep = h.mbAck 1 10 := if_pos hb

theorem exec_ring0Reset_held (hh : s.hw.mb1Holds 3 = true) :
    exec .ring0Reset s = .next (s.put (s.hw.busyNow.ring0Reset.mbAck 1 0)) := next_put_congr (if_pos hh)

theorem exec_appMailboxWord_awake {third : Bool} (hw : s.hw.awake = true) :
    exec (.appMailboxWord third code) s = .next (s.put (s.hw.appWord (if third then 3 else 2) code)) :=
  next_put_congr (if_pos hw)

/-- A word other than PING is answered as the APP image assigns it (R446). -/
theorem Hw.appWord_assigned (hf : (h.mb m).full = true) (ha : h.appRuns = true) (hd : (h.mb m).data ≠ 1)
    (hc : code.toNat ≤ 14) : h.appWord m code = h.mbAck m code := by
  simp only [Hw.appWord, hf, ha, hd, hc, Bool.not_true, Bool.false_eq_true, if_false, if_true]

end

/-- Settles O27: the acts on a mailbox, the words of the safety controller, and those of the APP image. -/
theorem mailboxesPassWords : Obligations.MailboxesPassWords := by
  unfold Obligations.MailboxesPassWords
  refine ⟨?locked, ?released, ?written, ?answered, ?timeoutCleared, fun _ _ => exec_mbTimeout_due,
    fun _ _ => exec_mbLockExpiry_idle, fun _ => exec_ping_held, ?sleeps, fun _ => exec_ring0Reset_held, ?appAnswers,
    ?sleepBusy, fun _ _ _ => Hw.mbAck_full⟩
  case locked => exact fun s m a hr hm hl => next_put_congr (Hw.mbLockRead_free hr hm hl)
  case released => exact fun s m a hr hm hl => next_put_congr (Hw.mbRelease_owner hr hm hl)
  case written => exact fun s m a word hr hm hl hf => next_put_congr (Hw.mbWrite_owner hr hm hl hf)
  case answered =>
    intro s m a code hw hm ha hr hf
    rw [exec_mbAcknowledge_receiver hw hm ha hr, Hw.mbAck_full hf]
  case timeoutCleared => exact fun s m hr => next_put_congr (Hw.mbTimeoutClear_reached hr)
  case sleeps =>
    intro s hh hb hr
    rw [exec_sleep_held hh, Hw.mbSleep_grants hb hr]
  case appAnswers =>
    intro s code hw hf ha hd hc
    rw [exec_appMailboxWord_awake hw]
    exact next_put_congr (Hw.appWord_assigned hf ha hd hc)
  case sleepBusy =>
    intro s hh hb
    rw [exec_sleep_held hh, Hw.mbSleep_busy hb]

/-! ## The loss of the host and of its memory (R312, R314, R315, R435) -/

section
variable {h : Hw} {s : State} {down : Nat}

theorem exec_hostLinkLost_grace (hw : s.hw.awake = true) (hl : s.hw.host.lost = false)
    (hd : s.hw.parTicks 0x0B01 ≤ down) : exec (.hostLinkLost down) s = .next (s.put s.hw.loseHost) :=
  next_put_congr (if_pos (by simp [hw, hl, hd]))

theorem exec_hostLinkLost_short (hd : down < s.hw.parTicks 0x0B01) : exec (.hostLinkLost down) s = .next s :=
  next_put_same (if_neg (by simp [Nat.not_le.mpr hd]))

theorem exec_hotReset_awake (hw : s.hw.awake = true) : exec .hotReset s = .next (s.put s.hw.loseHost) :=
  next_put_congr (if_pos hw)

/-- The registers of ring 0, the session table and the vectors start anew with the host lost (R435). -/
theorem Hw.loseHost_registers (h : Hw) :
    h.loseHost.host.tableLo = 0 ∧ h.loseHost.host.ring0Ctrl = 0 ∧ h.loseHost.host.msix = [] ∧
    h.loseHost.host.msixPending = 0 := ⟨rfl, rfl, rfl, rfl⟩

theorem exec_hostLinkUp_awake (hw : s.hw.awake = true) (hp : s.hw.pwr.onP11 = false) :
    exec .hostLinkUp s = .next (s.put (({ s.hw with host := { s.hw.host with linkUp := true, lost := false } } :
      Hw).clearFault fltHostLinkLost.code 0xFF)) := next_put_congr (if_pos (by simp [hw, hp]))

/-- The ring whose transfer failed, or whose descriptor waits for the table's transfer, stops (R315). -/
theorem Hw.dmaError_stops {n : Nat} {table : Bool} (hp : (h.ring n).posts = true)
    (ht : table = false ∨ (h.ring n).missed.isSome = true) :
    h.dmaError n table = (h.ringError n 3).occurActed fltHostDmaError (BitVec.ofNat 8 n) := by
  have caused : (!table || (h.ring n).missed.isSome) = true := by simpa using ht
  exact if_pos (by rw [hp, caused]; rfl)

end

/-- Settles O28: the loss of the link with and without its grace, the hot reset, the link's return, and an error of a ring's
memory. -/
theorem hostIsLostAndFound : Obligations.HostIsLostAndFound := by
  unfold Obligations.HostIsLostAndFound
  refine ⟨fun _ _ => exec_hostLinkLost_grace, fun _ _ => exec_hostLinkLost_short, fun _ => exec_hotReset_awake,
    Hw.loseHost_registers, fun _ => exec_hostLinkUp_awake, ?dmaError⟩
  case dmaError => exact fun s n table hp ht => next_put_congr (Hw.dmaError_stops hp ht)

end Sys2Proof.Machine
end

section
/-!
PROOF. The statements of 95_what_each_step_holds.md about every step: the queue and its front, the limits of what the module keeps
(R305, R351, R361), what is never taken back and the OTP array (R342, R345, R346). Every command keeps `Ev`, by the lemma of its
operation; the statements follow from that, and for the queue by induction on the commands that wait.
-/
namespace Sys2Proof.Machine

/-! ## Every command keeps the limits and takes nothing back -/

/-- A command keeps what `Ev` says of the module it is held against; OTP_PROGRAM_DONE alone writes OTP. -/
theorem exec_ev {g : Since} (c : Instr) (hc : ∀ ok, c = .otpProgramDone ok → g.still = false) {s : State} (ev : Ev g s.hw) :
    OutEv g (exec c s) := by
  cases c with
  | modeRequest d => exact execModeRequest_ev d ev
  | testRequest d => exact execTestRequest_ev d ev
  | accSet d => exact execAccSet_ev d ev
  | monSet d => exact execMonSet_ev d ev
  | monClear d => exact execMonClear_ev d ev
  | calReference d => exact execCalReference_ev d ev
  | posIndexArm d => exact execPosIndexArm_ev d ev
  | posHarmLoad d => exact execPosHarmLoad_ev d ev
  | torqueSet d => exact execTorqueSet_ev d ev
  | speedSet d => exact execSpeedSet_ev d ev
  | torquePair d => exact execTorquePair_ev d ev
  | motorMapLoad d => exact execMotorMapLoad_ev d ev
  | lvControlForward d => exact execLvControlForward_ev d ev
  | lvControlPrecharge d => exact execLvControlPrecharge_ev d ev
  | lvControlStop d => exact execLvControlStop_ev d ev
  | chargeSetup d => exact execChargeSetup_ev d ev
  | chargeProfile d => exact execChargeProfile_ev d ev
  | chargeControlStart d => exact execChargeControlStart_ev d ev
  | chargeControlStop d => exact execChargeControlStop_ev d ev
  | chargeControlPause d => exact execChargeControlPause_ev d ev
  | chargeControlResume d => exact execChargeControlResume_ev d ev
  | chargeControlSetLimits d => exact execChargeControlSetLimits_ev d ev
  | chargeControlInletMatch d => exact execChargeControlInletMatch_ev d ev
  | chargeControlRestartPhase d => exact execChargeControlRestartPhase_ev d ev
  | chgBattStatus d => exact execChgBattStatus_ev d ev
  | actMove d => exact execActMove_ev d ev
  | gearShift d => exact execGearShift_ev d ev
  | safetyCheckRead d => exact execSafetyCheckRead_ev d ev
  | safetyConfirm d => exact execSafetyConfirm_ev d ev
  | discharge d => exact execDischarge_ev d ev
  | ringCreate d => exact execRingCreate_ev d ev
  | ringDisable d => exact execRingDisable_ev d ev
  | ringReset d => exact execRingReset_ev d ev
  | sessionOpen d => exact execSessionOpen_ev d ev
  | sessionClose d => exact execSessionClose_ev d ev
  | sessionChallenge d => exact execSessionChallenge_ev d ev
  | cinchOpen d => exact execCinchOpen_ev d ev
  | cinchMemberStage op d => exact execCinchMemberStage_ev op d ev
  | cinchCommit d => exact execCinchCommit_ev d ev
  | cinchAbort d => exact execCinchAbort_ev d ev
  | paramWrite d => exact execParamWrite_ev d ev
  | paramRead d => exact execParamRead_ev d ev
  | imageDirectory d => exact execImageDirectory_ev d ev
  | imageSwap d img => exact execImageSwap_ev d img ev
  | otpProgram d => exact execOtpProgram_ev d ev
  | otpRevoke d => exact execOtpRevoke_ev d ev
  | overlayLoad d => exact execOverlayLoad_ev d ev
  | tlmSubscribe d => exact execTlmSubscribe_ev d ev
  | tlmUnsubscribe d => exact execTlmUnsubscribe_ev d ev
  | snapshot d => exact execSnapshot_ev d ev
  | faultAck d => exact execFaultAck_ev d ev
  | faultClear d => exact execFaultClear_ev d ev
  | faultHistoryRead d => exact execFaultHistoryRead_ev d ev
  | canSessionOpen d => exact execCanSessionOpen_ev d ev
  | canTx d => exact execCanTx_ev d ev
  | canFilterSet d => exact execCanFilterSet_ev d ev
  | canTtLoad d => exact execCanTtLoad_ev d ev
  | canBusoffRestart d => exact execCanBusoffRestart_ev d ev
  | canFallbackRequest ch f => exact execCanFallbackRequest_ev ch f ev
  | doorbellWrite offset width value => exact execDoorbellWrite_ev offset width value ev
  | descriptorFetch ring raw dma sigOk => exact execDescriptorFetch_ev ring raw dma sigOk ev
  | bufferedEntryPost ring => exact execBufferedEntryPost_ev ring ev
  | cqStall ring => exact execCqStall_ev ring ev
  | coalesceTimeout ring => exact execCoalesceTimeout_ev ring ev
  | msixUnmask vector => exact execMsixUnmask_ev vector ev
  | contextPageIn ring macOk => exact execContextPageIn_ev ring macOk ev
  | ring0CtrlEnable value => exact execRing0CtrlEnable_ev value ev
  | ring0CtrlDisable value => exact execRing0CtrlDisable_ev value ev
  | ring0CtrlReset value => exact execRing0CtrlReset_ev value ev
  | sessionTableEnable value => exact execSessionTableEnable_ev value ev
  | sessionTableDisable value => exact execSessionTableDisable_ev value ev
  | moduleTimeLoRead => exact execModuleTimeLoRead_ev ev
  | registerWrite offset width value => exact execRegisterWrite_ev offset width value ev
  | mbLockRead mb agent => exact execMbLockRead_ev mb agent ev
  | mbLockRelease mb agent => exact execMbLockRelease_ev mb agent ev
  | mbDataWrite mb agent word => exact execMbDataWrite_ev mb agent word ev
  | mbAcknowledge mb agent code => exact execMbAcknowledge_ev mb agent code ev
  | mbTimeoutClear mb => exact execMbTimeoutClear_ev mb ev
  | mbTimeout mb => exact execMbTimeout_ev mb ev
  | mbLockExpiry mb ownerReset => exact execMbLockExpiry_ev mb ownerReset ev
  | ping => exact execPing_ev ev
  | sleep => exact execSleep_ev ev
  | ring0Reset => exact execRing0Reset_ev ev
  | appMailboxWord third code => exact execAppMailboxWord_ev third code ev
  | wakeEvent source falling level => exact execWakeEvent_ev source falling level ev
  | wakeTimerExpiry => exact execWakeTimerExpiry_ev ev
  | canWakeFrame ch f => exact execCanWakeFrame_ev ch f ev
  | canWakeErrorCount ch errors => exact execCanWakeErrorCount_ev ch errors ev
  | latchedWake => exact execLatchedWake_ev ev
  | powerOn vsup => exact execPowerOn_ev vsup ev
  | vsupLost below => exact execVsupLost_ev below ev
  | p11SupplyChange vdc => exact execP11SupplyChange_ev vdc ev
  | reducedService => exact execReducedService_ev ev
  | imageRequestRetry => exact execImageRequestRetry_ev ev
  | hostAbsent => exact execHostAbsent_ev ev
  | imageLoaded kind target img => exact execImageLoaded_ev kind target img ev
  | partnerImageRequest kind => exact execPartnerImageRequest_ev kind ev
  | modeEdge => exact execModeEdge_ev ev
  | drainForced fn => exact execDrainForced_ev fn ev
  | baseCampIdleTimeout wakeActive => exact execBaseCampIdleTimeout_ev wakeActive ev
  | topupNoPermit => exact execTopupNoPermit_ev ev
  | belayTimeExpiry => exact execBelayTimeExpiry_ev ev
  | appSignal => exact execAppSignal_ev ev
  | appSignalLost => exact execAppSignalLost_ev ev
  | thermalAllowance budget electronics lvLoad bridges charging lvAbove =>
    exact execThermalAllowance_ev budget electronics lvLoad bridges charging lvAbove ev
  | allowanceTimeout => exact execAllowanceTimeout_ev ev
  | controlBoundary b m => exact execControlBoundary_ev b m ev
  | pwmPeriodStart b edges => exact execPwmPeriodStart_ev b edges ev
  | legCrossCommand leg => exact execLegCrossCommand_ev leg ev
  | monitorCrossing mon level pwmCount => exact execMonitorCrossing_ev mon level pwmCount ev
  | accWindowClose acc samples => exact execAccWindowClose_ev acc samples ev
  | urgentRequest input p12 p13 p14 p15 => exact execUrgentRequest_ev input p12 p13 p14 p15 ev
  | interleaveMatch pair offsetTrim gainTrim => exact execInterleaveMatch_ev pair offsetTrim gainTrim ev
  | offsetTrackStart b => exact execOffsetTrackStart_ev b ev
  | offsetTrackDone b u v w idc => exact execOffsetTrackDone_ev b u v w idc ev
  | gainTrackFit windows => exact execGainTrackFit_ev windows ev
  | monitorComparatorTest mon agreed toggled => exact execMonitorComparatorTest_ev mon agreed toggled ev
  | referenceCheck pass => exact execReferenceCheck_ev pass ev
  | calAccumulationDone means gatedPhase gatedShunt => exact execCalAccumulationDone_ev means gatedPhase gatedShunt ev
  | calReferenceTimeout => exact execCalReferenceTimeout_ev ev
  | resolverPeriod r pos neg => exact execResolverPeriod_ev r pos neg ev
  | encEdge e a b stable => exact execEncEdge_ev e a b stable ev
  | encIndex e a b stable => exact execEncIndex_ev e a b stable ev
  | encSpeedWindow e => exact execEncSpeedWindow_ev e ev
  | hallChange h st stable => exact execHallChange_ev h st stable ev
  | sentFrame ch sync lengths nibbles crc pause => exact execSentFrame_ev ch sync lengths nibbles crc pause ev
  | sentTimeout ch => exact execSentTimeout_ev ch ev
  | setpointTimeout b => exact execSetpointTimeout_ev b ev
  | syncStart b => exact execSyncStart_ev b ev
  | syncMeasureDone b angle speed emf => exact execSyncMeasureDone_ev b angle speed emf ev
  | torquePlausibility b => exact execTorquePlausibility_ev b ev
  | trqDcCeiling => exact execTrqDcCeiling_ev ev
  | reacquireLock b => exact execReacquireLock_ev b ev
  | trqReacquireFail b => exact execTrqReacquireFail_ev b ev
  | desatReport pos => exact execDesatReport_ev pos ev
  | gateUvloReport pos neg mv => exact execGateUvloReport_ev pos neg mv ev
  | gateRailOvReport pos neg mv => exact execGateRailOvReport_ev pos neg mv ev
  | dieTempReport pos t0 t1 t2 t3 t4 t5 t6 t7 => exact execDieTempReport_ev pos t0 t1 t2 t3 t4 t5 t6 t7 ev
  | bootLowReport leg mv => exact execBootLowReport_ev leg mv ev
  | bootUvloReport leg mv => exact execBootUvloReport_ev leg mv ev
  | offstateDiag b findings => exact execOffstateDiag_ev b findings ev
  | stoPath chB rails => exact execStoPath_ev chB rails ev
  | gapWindow testId inst outcome psiM elecOffset => exact execGapWindow_ev testId inst outcome psiM elecOffset ev
  | testDeadline testId inst => exact execTestDeadline_ev testId inst ev
  | testComplete testId inst outcome data => exact execTestComplete_ev testId inst outcome data ev
  | ascArmTimeout b => exact execAscArmTimeout_ev b ev
  | stoOpen chB mv held => exact execStoOpen_ev chB mv held ev
  | stoClose chB mv ua => exact execStoClose_ev chB mv ua ev
  | stoDiscrepancy => exact execStoDiscrepancy_ev ev
  | checkerMismatch b => exact execCheckerMismatch_ev b ev
  | checkerInject b field flagged cycles => exact execCheckerInject_ev b field flagged cycles ev
  | memoryError owner correctable => exact execMemoryError_ev owner correctable ev
  | negoacMismatch f => exact execNegoacMismatch_ev f ev
  | negoacRestart => exact execNegoacRestart_ev ev
  | voterTest masked => exact execVoterTest_ev masked ev
  | faultOutWatchdogExpiry since => exact execFaultOutWatchdogExpiry_ev since ev
  | clockLoss c lost => exact execClockLoss_ev c lost ev
  | ck0Fallback => exact execCk0Fallback_ev ev
  | senseSupplyLost lost => exact execSenseSupplyLost_ev lost ev
  | soTest second finding => exact execSoTest_ev second finding ev
  | dischargeStart => exact execDischargeStart_ev ev
  | dischargeHeld vdc => exact execDischargeHeld_ev vdc ev
  | dischargeRetry => exact execDischargeRetry_ev ev
  | dischargeFail ma => exact execDischargeFail_ev ma ev
  | dischargeDone vdc => exact execDischargeDone_ev vdc ev
  | hvilLoopChange microamps held => exact execHvilLoopChange_ev microamps held ev
  | debugAuthenticate sigOk => exact execDebugAuthenticate_ev sigOk ev
  | debugRead addr => exact execDebugRead_ev addr ev
  | debugHalt => exact execDebugHalt_ev ev
  | debugStep => exact execDebugStep_ev ev
  | debugWrite addr value => exact execDebugWrite_ev addr value ev
  | debugAttach => exact execDebugAttach_ev ev
  | debugDetach => exact execDebugDetach_ev ev
  | hostLinkLost down => exact execHostLinkLost_ev down ev
  | hotReset => exact execHotReset_ev ev
  | hostLinkUp => exact execHostLinkUp_ev ev
  | hostDmaError ring sessionTable => exact execHostDmaError_ev ring sessionTable ev
  | cinchAccept slot => exact execCinchAccept_ev slot ev
  | cinchInstant slot => exact execCinchInstant_ev slot ev
  | cinchExpired slot => exact execCinchExpired_ev slot ev
  | safeSwapRelease => exact execSafeSwapRelease_ev ev
  | safeSwapFail => exact execSafeSwapFail_ev ev
  | appCoreSwap core ok => exact execAppCoreSwap_ev core ok ev
  | otpProgramDone ok => exact execOtpProgramDone_ev ok (hc _ rfl) ev
  | timeStep => exact execTimeStep_ev ev
  | ptpSync offset => exact execPtpSync_ev offset ev
  | ptpSyncLost why => exact execPtpSyncLost_ev why ev
  | snapshotInstant => exact execSnapshotInstant_ev ev
  | tlmPosting sub => exact execTlmPosting_ev sub ev
  | canFrameReceived ch f => exact execCanFrameReceived_ev ch f ev
  | canRxRecordPost ch => exact execCanRxRecordPost_ev ch ev
  | canQueueLock ch q1 => exact execCanQueueLock_ev ch q1 ev
  | canQueueRelease ch q1 => exact execCanQueueRelease_ev ch q1 ev
  | canQueueLockTimeout ch q1 => exact execCanQueueLockTimeout_ev ch q1 ev
  | canTxSent ch sof => exact execCanTxSent_ev ch sof ev
  | canTxTimeout ch => exact execCanTxTimeout_ev ch ev
  | canBusoffRecovery ch sequences => exact execCanBusoffRecovery_ev ch sequences ev
  | canTtReference ch cycle global ownMaster => exact execCanTtReference_ev ch cycle global ownMaster ev
  | canTtWindow ch column seen => exact execCanTtWindow_ev ch column seen ev
  | canTtMasterChange ch => exact execCanTtMasterChange_ev ch ev
  | canTtRefLost ch => exact execCanTtRefLost_ev ch ev
  | doipDiagnosticMessage target length => exact execDoipDiagnosticMessage_ev target length ev
  | ethLinkDown e1 held => exact execEthLinkDown_ev e1 held ev
  | pairRoleExchange partner joinedLater => exact execPairRoleExchange_ev partner joinedLater ev
  | pairFrameSend => exact execPairFrameSend_ev ev
  | pairFrameReceived f => exact execPairFrameReceived_ev f ev
  | partnerOkOpen => exact execPartnerOkOpen_ev ev
  | pairFrameTimeout => exact execPairFrameTimeout_ev ev
  | pairOkMismatch => exact execPairOkMismatch_ev ev
  | ppClassChange ohms held => exact execPpClassChange_ev ohms held ev
  | cpStateChange posMv negMv freq duty held => exact execCpStateChange_ev posMv negMv freq duty held ev
  | handOverEnd => exact execHandOverEnd_ev ev
  | outageHoldoffExpiry => exact execOutageHoldoffExpiry_ev ev
  | mainsHalfCycle v1 v2 v3 freq amps => exact execMainsHalfCycle_ev v1 v2 v3 freq amps ev
  | chgNoSource => exact execChgNoSource_ev ev
  | chgResidual acMa dcMa peMv => exact execChgResidual_ev acMa dcMa peMv ev
  | chgGridTrip => exact execChgGridTrip_ev ev
  | chgIslandOverload => exact execChgIslandOverload_ev ev
  | chgBackfeed v1 v2 v3 held => exact execChgBackfeed_ev v1 v2 v3 held ev
  | chargePhaseChange amps => exact execChargePhaseChange_ev amps ev
  | chgTimer amps => exact execChgTimer_ev amps ev
  | chgBattFault f => exact execChgBattFault_ev f ev
  | chgTempWindow probe => exact execChgTempWindow_ev probe ev
  | obcOvertemp temp => exact execObcOvertemp_ev temp ev
  | dcbInductanceCheck spans duty => exact execDcbInductanceCheck_ev spans duty ev
  | dcbEndEvent e => exact execDcbEndEvent_ev e ev
  | dcbContactorWeld ch33 => exact execDcbContactorWeld_ev ch33 ev
  | lvSoftStartDone => exact execLvSoftStartDone_ev ev
  | lvShort => exact execLvShort_ev ev
  | lvRestartTimer => exact execLvRestartTimer_ev ev
  | lvBusFault => exact execLvBusFault_ev ev
  | lvCellFail cell => exact execLvCellFail_ev cell ev
  | lvPhaseShed load => exact execLvPhaseShed_ev load ev
  | lvLoadStep mv => exact execLvLoadStep_ev mv ev
  | lvOvervoltage onCh14 mv => exact execLvOvervoltage_ev onCh14 mv ev
  | lvOvResume => exact execLvOvResume_ev ev
  | lvoutReverse amps => exact execLvoutReverse_ev amps ev
  | lvOvertemp sensor temp => exact execLvOvertemp_ev sensor temp ev
  | prechargeDone vdc => exact execPrechargeDone_ev vdc ev
  | prechargeTimeout => exact execPrechargeTimeout_ev ev
  | lvPrechargeFault vdc => exact execLvPrechargeFault_ev vdc ev
  | prechargeHoldExpiry => exact execPrechargeHoldExpiry_ev ev
  | actPositionConfirmed drive position => exact execActPositionConfirmed_ev drive position ev
  | actLocked drive => exact execActLocked_ev drive ev
  | actVsOutOfRange mv => exact execActVsOutOfRange_ev mv ev
  | actSenseLost drive => exact execActSenseLost_ev drive ev
  | actHallObserver drive a1 a2 a3 speed => exact execActHallObserver_ev drive a1 a2 a3 speed ev
  | actRappelEnd drive => exact execActRappelEnd_ev drive ev
  | parkSpeedCheck => exact execParkSpeedCheck_ev ev
  | parkToothTimeout => exact execParkToothTimeout_ev ev
  | parkConfirmLost => exact execParkConfirmLost_ev ev
  | shiftTimeout => exact execShiftTimeout_ev ev
  | lvSwitchingPeriod inner vout load bus demand fell => exact execLvSwitchingPeriod_ev inner vout load bus demand fell ev
  | actPwmPeriod drive m1 m2 onU onV onW obs => exact execActPwmPeriod_ev drive m1 m2 onU onV onW obs ev
  | dcLinkLow vdc => exact execDcLinkLow_ev vdc ev
  | vsupReturn vsup => exact execVsupReturn_ev vsup ev
  | dcLinkLive => exact execDcLinkLive_ev ev
  | baseCampChargeHoldExpiry => exact execBaseCampChargeHoldExpiry_ev ev
  | uvloComparator pos neg pass => exact execUvloComparator_ev pos neg pass ev
  | canTxvrFault ch active => exact execCanTxvrFault_ev ch active ev
  | canBusError ch e => exact execCanBusError_ev ch e ev
  | ethLinkUp e1 => exact execEthLinkUp_ev e1 ev
  | partnerOkClose => exact execPartnerOkClose_ev ev

theorem Hw.Follows.refl (h : Hw) : h.Follows h := ⟨fun _ _ x => x, Nat.le_refl _, Nat.le_refl _, List.suffix_rfl⟩

/-- A sound module is sound beside itself and follows itself. -/
theorem ev_refl {h : Hw} (sound : h.Sound) (still : Bool) : Ev ⟨h, still⟩ h :=
  (ev_iff _ _).2 ⟨sound, .refl h, fun _ => rfl⟩

/-- Held against a module whose OTP bytes are to stand, they stand. -/
theorem Ev.otp_still {g h : Hw} (ev : Ev ⟨g, true⟩ h) : h.otp.bytes = g.otp.bytes := by
  obtain ⟨-, -, still⟩ := (ev_iff _ _).1 ev
  exact still rfl

theorem Hw.Follows.trans {g h k : Hw} (gh : g.Follows h) (hk : h.Follows k) : g.Follows k where
  otp a n x := hk.otp a n (gh.otp a n x)
  clock := gh.clock.trans hk.clock
  draws := gh.draws.trans hk.draws
  out := gh.out.trans hk.out

theorem step_front (c : Instr) (rest : List Instr) (h : Hw) :
    step { pending := c :: rest, hw := h } = exec c { pending := rest, hw := h } := rfl

theorem step_idle (h : Hw) : step { pending := [], hw := h } = .next { pending := [], hw := h.tick } := rfl

/-- From a sound module a step leads to a sound module that follows it: a tick on an empty queue, else the front command. -/
theorem step_sound_follows {s t : State} (sound : s.hw.Sound) (h : step s = .next t) : t.hw.Sound ∧ s.hw.Follows t.hw := by
  have kept : Ev ⟨s.hw, false⟩ t.hw := by
    obtain ⟨_ | ⟨c, rest⟩, g⟩ := s
    · rw [step_idle] at h
      cases h
      exact Hw.tick_ev (ev_refl sound false)
    · rw [step_front] at h
      exact exec_ev c (fun _ _ => rfl) (s := { pending := rest, hw := g }) (ev_refl sound false) t h
  obtain ⟨sound', follows, -⟩ := (ev_iff _ _).1 kept
  exact ⟨sound', follows⟩

/-! ## Every command answers -/

/-- Every command is its operation on the module, with the queue as it was. -/
theorem exec_next (c : Instr) (s : State) : ∃ h : Hw, exec c s = .next (s.put h) := by
  cases c <;> exact ⟨_, rfl⟩

theorem run_succ_of_step {n : Nat} {s t : State} (h : step s = .next t) :
    Host.Core.run Sys2Proof.core (n + 1) s = Host.Core.run Sys2Proof.core n t := by
  have taken : Sys2Proof.core.step s = .next t := h
  simp only [Host.Core.run, taken]

/-- The commands that wait, run one after another from a sound module, reach the end of the queue. -/
theorem run_to_end (l : List Instr) (h : Hw) (sound : h.Sound) :
    ∃ x : Hw, Host.Core.run Sys2Proof.core l.length { pending := l, hw := h } = .next { pending := [], hw := x } ∧
      x.Sound ∧ h.Follows x := by
  induction l generalizing h with
  | nil => exact ⟨h, rfl, sound, .refl h⟩
  | cons c rest ih =>
    obtain ⟨y, hy⟩ := exec_next c { pending := rest, hw := h }
    have first : step { pending := c :: rest, hw := h } = .next { pending := rest, hw := y } := hy
    obtain ⟨soundY, followsY⟩ := step_sound_follows (s := { pending := c :: rest, hw := h }) sound first
    obtain ⟨x, hx, soundX, followsX⟩ := ih y soundY
    exact ⟨x, (run_succ_of_step first).trans hx, soundX, followsY.trans followsX⟩

/-! ## The OTP array (R345, R346) -/

/-- Programming touches the bytes from its start on, as many as it is given. -/
theorem memRead_burn_outside {m : List Host.Cell} {l : List Byte} {a b : Nat} (wf : Memory.wf m = true)
    (hb : b < a ∨ a + l.length ≤ b) : memRead (memBurn m a l) b = memRead m b := by
  fun_induction memBurn m a l with
  | case1 => rfl
  | case2 m a x t ih =>
    rw [List.length_cons] at hb
    have hne : b ≠ a := by omega
    rw [ih (memSorted_write wf (Nat.zero_le a)) (by omega), memRead_write wf, if_neg hne]

theorem slice_length (l : List Byte) (i n : Nat) : (slice l i n).length = n := by
  simp [slice]

/-- Programming keeps a sound module sound. -/
theorem Hw.Sound.burn {h x : Hw} {l : List Byte} {a : Nat} (sound : h.Sound) (cnt : x.cnt = h.cnt) (flt : x.flt = h.flt)
    (host : x.host = h.host) (otp : x.otp.bytes = memBurn h.otp.bytes a l) : x.Sound where
  counters := cnt ▸ sound.counters
  history := flt ▸ sound.history
  events := host ▸ sound.events
  otp := otp ▸ memBurn_wf l a sound.otp

/-- The end of a programming run burns as many bytes as its job holds, at the job's place, and nothing else. -/
theorem Hw.otpDone_burns {h : Hw} {j : OtpJob} (sound : h.Sound) (job : h.otp.job = some j) (ok : Bool) :
    ∃ l : List Byte, l.length = j.bytes.length ∧ (h.otpDone ok).otp.bytes = memBurn h.otp.bytes j.offset l := by
  simp only [Hw.otpDone, job]
  split
  · have burnt : Hw.Sound { h with otp := { h.otp with job := none, bytes := memBurn h.otp.bytes j.offset j.bytes } } :=
      sound.burn rfl rfl rfl rfl
    have kept := Hw.complete_ev j.req .done (Hw.confirmProgrammed_ev j (ev_refl burnt true))
    exact ⟨j.bytes, rfl, kept.otp_still⟩
  · have burnt : Hw.Sound { h.drawn with otp := { h.otp with
        job := none, bytes := memBurn h.otp.bytes j.offset (slice (Config.otpPartial h.free) 0 j.bytes.length)
        consumed := if j.revoke then h.otp.consumed else (j.type, j.gen) :: h.otp.consumed } } :=
      sound.burn rfl rfl rfl rfl
    have kept := Hw.complete_ev j.req .hwFault (Hw.occur_ev fltOtpProgramFail 0xFF (ev_refl burnt true))
    exact ⟨_, slice_length _ _ _, kept.otp_still⟩

theorem Hw.otpDone_idle {h : Hw} (job : h.otp.job = none) (ok : Bool) : h.otpDone ok = h := by
  simp only [Hw.otpDone, job]

/-- Settles O3: a step keeps soundness, by the operation of its command or the tick. -/
theorem everyStepStaysSound : Obligations.EveryStepStaysSound :=
  fun _ _ sound h => (step_sound_follows sound h).1

/-- Settles O4: what a step leads to follows where it began, by the same invariant. -/
theorem everyStepFollows : Obligations.EveryStepFollows :=
  fun _ _ sound h => (step_sound_follows sound h).2

/-- Settles O5: `Ev` holds every other command to the OTP bytes it found, and a programming run burns the slot of its job. -/
theorem onlyProgrammingChangesOtp : Obligations.OnlyProgrammingChangesOtp := by
  unfold Obligations.OnlyProgrammingChangesOtp
  refine ⟨?others, ?outside, ?idle⟩
  case others =>
    intro c s t sound hc h a
    have kept : Ev ⟨s.hw, true⟩ t.hw := exec_ev c (fun ok e => absurd e (hc ok)) (ev_refl sound true) t h
    rw [kept.otp_still]
  case outside =>
    intro s t ok j sound job h a ha
    obtain ⟨l, hl, burns⟩ := Hw.otpDone_burns sound job ok
    cases h
    exact (congrArg (memRead · a) burns).trans (memRead_burn_outside sound.otp (hl ▸ ha))
  case idle =>
    intro s t ok job h
    cases h
    exact congrArg s.put (Hw.otpDone_idle job ok)

/-- Settles O7: by induction on the commands that wait, each of which answers and keeps the module sound. -/
theorem theQueueRunsToItsEnd : Obligations.TheQueueRunsToItsEnd := by
  unfold Obligations.TheQueueRunsToItsEnd
  rintro ⟨l, h⟩ sound
  obtain ⟨x, run, sound', follows⟩ := run_to_end l h sound
  exact ⟨{ pending := [], hw := x }, run, rfl, sound', follows⟩

/-- Settles O6: a command is its operation on the module, which leaves the queue alone. -/
theorem everyCommandAnswers : Obligations.EveryCommandAnswers := by
  unfold Obligations.EveryCommandAnswers
  intro c s
  obtain ⟨h, hh⟩ := exec_next c s
  exact ⟨h, hh, rfl⟩

/-- Settles O1: the two cases of a step. -/
theorem stepRunsTheFront : Obligations.StepRunsTheFront := ⟨step_front, step_idle⟩

end Sys2Proof.Machine
end

section
/-!
PROOF. The statements of 12_cinch_and_persistence.md about cinches: opening and staging (R324 to R327, R338), commit, acceptance,
instant, abort and expiry (R328 to R331). For each operation on a slot one lemma per case says what it answers; the statements are
put together from these.
-/
namespace Sys2Proof.Machine

/-! ## Opening (R324) -/

section
variable {g h : Hw} {s : State} {d : Desc} {q : Req} {n : Nat}

/-- The slot as CINCH_OPEN leaves it (R324). -/
def Hw.openedSlot (h : Hw) (d : Desc) : Slot :=
  { state := .opened, cls := (d.byte 17).toNat, time := BitVec.ofNat 64 (d.num 20 8), session := d.session.toNat,
    path := d.path, openedAt := h.time.clock }

theorem Hw.cinchOpen_passed (hc : h.openCheck d = none) :
    h.cinchOpen d q = (h.setSlot (d.byte 16).toNat (h.openedSlot d)).complete q .done := by
  simp only [Hw.cinchOpen, hc, Hw.openedSlot]

/-- An open without an instant of its own passes its checks on a FREE slot of 1 to 32. -/
theorem Hw.openCheck_untimed (lo : 1 ≤ (d.byte 16).toNat) (hi : (d.byte 16).toNat ≤ 32) (cls : (d.byte 17).toNat ≤ 6)
    (time : d.num 20 8 = 0) (free : (h.slot (d.byte 16).toNat).state = .free) : h.openCheck d = none := by
  have nonzero : (d.byte 16).toNat ≠ 0 := by omega
  have inRange : ¬ 32 < (d.byte 16).toNat := by omega
  have known : ¬ 7 < (d.byte 17).toNat := by omega
  have untimed : (d.byte 17).toNat ≠ 7 := by omega
  simp [Hw.openCheck, nonzero, inRange, known, untimed, time, free]

/-! ## Staging (R326, R338) -/

/-- A member descriptor that starts and passes the checks of R296 reaches the checks of its slot. -/
theorem Hw.stageMember_admitted {op : Nat} {i : Option ImageInfo} (starts : g.canStart d = true)
    (unheld : g.heldBySwap op d = false) (passes : (g.started d).firstFailure op d = none) :
    g.stageMember op d i = (g.begun d).stage op d i := by
  simp only [Hw.stageMember, starts, unheld, passes, Hw.begun, Bool.not_true, Bool.or_false, Bool.false_eq_true, if_false]

theorem Hw.stage_passed {op : Nat} {i : Option ImageInfo} (hc : h.stageCheck op d i = none) :
    h.stage op d i = ((h.reportImage op d i).setSlot d.cinch.toNat { h.slot d.cinch.toNat with
      members := (h.slot d.cinch.toNat).members ++ [{
        op := BitVec.ofNat 16 op, desc := d, versions := (memberItems op d).map (fun x => (x, h.version x)), image := i,
        trailer := d.trailer }] }).complete d.req .done := by
  simp only [Hw.stage, hc]

/-- Only IMAGE_SWAP has an image to report. -/
theorem Hw.reportImage_other {op : Nat} {i : Option ImageInfo} (hop : op ≠ 0x0C07) : h.reportImage op d i = h := if_neg hop

theorem memberImage_other {op : Nat} (hop : op ≠ 0x0C07) : memberImage op d = none := if_neg hop

/-- A descriptor that is a member already is what marking it as one gives. -/
theorem Desc.asMember_of_member (hm : d.member = true) : d.asMember = d := by
  have kept : ∀ flags : Byte, flags.getLsbD 1 = true → flags ||| 2 = flags := by decide
  rw [Desc.asMember, kept d.flags hm]

/-! ## Commit, abort and expiry (R328, R331) -/

/-- The time at which a descriptor on a path was published (R328): its ring's doorbell, or now. -/
def Hw.publishedOn (h : Hw) : Path → Nat
  | .ring r => (h.ring r).doorbellAt
  | .can => h.time.clock

theorem Hw.cinchCommit_opened (hc : h.slotCheck d = none) (opened : (h.slot (d.byte 16).toNat).state = .opened)
    (unasked : (h.slot (d.byte 16).toNat).commit = none) :
    h.cinchCommit d q = h.setSlot (d.byte 16).toNat { h.slot (d.byte 16).toNat with
      commit := some q, publishedAt := h.publishedOn d.path, age := d.age } := by
  have free : ((h.slot (d.byte 16).toNat).state == .committed || (h.slot (d.byte 16).toNat).commit.isSome) = false := by
    rw [opened, unasked]; rfl
  have clean : ((h.slot (d.byte 16).toNat).state == .poisoned) = false := by rw [opened]; rfl
  simp only [Hw.cinchCommit, hc, free, clean, Bool.false_eq_true, if_false]
  rfl

theorem Hw.cinchAbort_opened (hc : h.slotCheck d = none) (opened : (h.slot (d.byte 16).toNat).state = .opened) :
    h.cinchAbort d q = (h.dropCinch (d.byte 16).toNat).complete q .done := by
  simp [Hw.cinchAbort, hc, opened]

/-- A cinch whose commit has not come is freed without a completion (R330). -/
theorem Hw.dropCinch_unasked (unasked : (h.slot n).commit = none) : h.dropCinch n = h.setSlot n {} := by
  simp only [Hw.dropCinch, unasked, Hw.completeOpt]

theorem Hw.cinchExpired_due (opened : (h.slot n).state = .opened) (unasked : (h.slot n).commit = none)
    (due : (h.slot n).openedAt + h.parTicks 0x0C01 ≤ h.time.clock) :
    h.cinchExpired n = (h.setSlot n {}).occur fltCinchExpired 0xFF := by
  rw [Hw.cinchExpired, if_pos (by simp [opened, unasked, due]), Hw.dropCinch_unasked unasked]

/-! ## Acceptance and the instant (R327 to R330) -/

/-- A slot accepted: COMMITTED, with its lead of 10 us (R328). -/
def Hw.acceptedSlot (h : Hw) (x : Slot) : Slot :=
  { x with state := .committed, acceptedAt := some h.time.clock, leadEnd := h.time.now + BitVec.ofNat 64 (10 * usTicks) }

/-- An IMMEDIATE cinch is too late for nothing, as it names no time. -/
theorem Hw.tooLate_immediate {x : Slot} (immediate : x.cls = 0) : h.tooLate x = false := by
  simp [Hw.tooLate, immediate]

theorem Hw.cinchAccept_immediate (opened : (h.slot n).state = .opened) (asked : (h.slot n).commit = some q)
    (members : (h.slot n).members ≠ []) (untrailed : (h.slot n).members.any (·.trailer) = false)
    (immediate : (h.slot n).cls = 0) (unchanged : h.conflicts (h.slot n) = false) :
    h.cinchAccept n = h.setSlot n (h.acceptedSlot (h.slot n)) := by
  simp [Hw.cinchAccept, asked, opened, members, untrailed, Hw.tooLate_immediate immediate, immediate, unchanged,
    Hw.acceptedSlot]

/-- A committed cinch at its instant, with no APP swap under way, is applied (R329). -/
theorem Hw.cinchInstant_due (committed : (h.slot n).state = .committed) (noSwap : h.img.appSwap = none)
    (due : h.cinchDue (h.slot n) = true) : h.cinchInstant n = h.applyCinch n := by
  simp [Hw.cinchInstant, committed, noSwap, due]

theorem Hw.applyCinch_passed (passes : h.instantCheck (h.slot n) = none)
    (noApp : (h.slot n).members.any (fun m => m.op == 0x0C07 && m.desc.byte 16 == 6) = false) :
    h.applyCinch n = (h.applyMembers n (h.slot n)).finishCinch n .done := by
  simp only [Hw.applyCinch, passes, noApp, Bool.false_eq_true, if_false]

/-- A version that has changed comes before every other check of the instant. -/
theorem Hw.applyCinch_conflict (changed : h.conflicts (h.slot n) = true) : h.applyCinch n = h.finishCinch n .conflict := by
  simp only [Hw.applyCinch, Hw.instantCheck, changed, if_true]

/-! ## The commands -/

theorem exec_cinchOpen_passed (r : s.hw.RunsTo 0x0C01 d h) (hc : h.openCheck d = none) :
    exec (.cinchOpen d) s = .next (s.put ((h.setSlot (d.byte 16).toNat (h.openedSlot d)).complete d.req .done)) :=
  next_put_congr ((Hw.descriptor_runs (own := fun q x => x.cinchOpen d q) r).trans (Hw.cinchOpen_passed hc))

theorem exec_cinchMemberStage (op : W16) (hm : d.member = true) (starts : s.hw.canStart d = true)
    (unheld : s.hw.heldBySwap op.toNat d = false) (passes : (s.hw.started d).firstFailure op.toNat d = none)
    (hop : op ≠ 0x0C07) :
    exec (.cinchMemberStage op d) s = .next (s.put ((s.hw.begun d).stage op.toNat d none)) := by
  have other : op.toNat ≠ 0x0C07 := fun e => hop (BitVec.eq_of_toNat_eq e)
  have staged := Hw.stageMember_admitted (i := none) starts unheld passes
  rw [← memberImage_other (d := d) other] at staged ⊢
  refine next_put_congr (Eq.trans ?_ staged)
  rw [Desc.asMember_of_member hm]

theorem exec_imageSwap_member (i : ImageInfo) (hm : d.member = true) (starts : s.hw.canStart d = true)
    (unheld : s.hw.heldBySwap 0x0C07 d = false) (passes : (s.hw.started d).firstFailure 0x0C07 d = none) :
    exec (.imageSwap d i) s = .next (s.put ((s.hw.begun d).stage 0x0C07 d (some i))) :=
  next_put_congr ((if_pos hm).trans (Hw.stageMember_admitted starts unheld passes))

theorem exec_cinchCommit (r : s.hw.RunsTo 0x0C02 d h) :
    exec (.cinchCommit d) s = .next (s.put (h.cinchCommit d d.req)) := next_put_congr (Hw.descriptor_runs r)

theorem exec_cinchAbort (r : s.hw.RunsTo 0x0C03 d h) :
    exec (.cinchAbort d) s = .next (s.put (h.cinchAbort d d.req)) := next_put_congr (Hw.descriptor_runs r)

end

/-- Settles O20: an open that passes its checks, when one does, and the staging of a member and of an IMAGE_SWAP. -/
theorem cinchIsOpenedAndStaged : Obligations.CinchIsOpenedAndStaged := by
  unfold Obligations.CinchIsOpenedAndStaged
  refine ⟨fun _ _ _ => exec_cinchOpen_passed, fun _ _ => Hw.openCheck_untimed, ?member, ?swap⟩
  case member =>
    intro s op d hm starts unheld passes hop hc
    have other : op.toNat ≠ 0x0C07 := fun e => hop (BitVec.eq_of_toNat_eq e)
    rw [exec_cinchMemberStage op hm starts unheld passes hop, Hw.stage_passed hc, Hw.reportImage_other other,
      BitVec.ofNat_toNat, BitVec.setWidth_eq]
  case swap =>
    intro s d i hm starts unheld passes hc
    exact (exec_imageSwap_member i hm starts unheld passes).trans (next_put_congr (Hw.stage_passed hc))

/-- Settles O21: each stage of a cinch, from its commit to its instant, and the two ways it ends without one. -/
theorem cinchRunsItsCourse : Obligations.CinchRunsItsCourse := by
  unfold Obligations.CinchRunsItsCourse
  refine ⟨?commit, ?accept, ?applied, ?conflict, ?abort, ?expired⟩
  case commit =>
    intro s d h r hc opened unasked
    exact (exec_cinchCommit r).trans (next_put_congr (Hw.cinchCommit_opened hc opened unasked))
  case accept =>
    intro s n q opened asked members untrailed immediate unchanged
    exact next_put_congr (Hw.cinchAccept_immediate opened asked members untrailed immediate unchanged)
  case applied =>
    intro s n committed noSwap due passes noApp
    exact next_put_congr ((Hw.cinchInstant_due committed noSwap due).trans (Hw.applyCinch_passed passes noApp))
  case conflict =>
    intro s n committed noSwap due changed
    exact next_put_congr ((Hw.cinchInstant_due committed noSwap due).trans (Hw.applyCinch_conflict changed))
  case abort =>
    intro s d h r hc opened
    rw [exec_cinchAbort r, Hw.cinchAbort_opened hc opened]
  case expired => exact fun s n opened unasked due => next_put_congr (Hw.cinchExpired_due opened unasked due)

end Sys2Proof.Machine
end

section
/-!
PROOF. The statements of 13_counters_and_faults.md on the fault history (R360 to R362, R440) and of 16_connectors_electrical.md on a
reversed LV battery (R411).
-/
namespace Sys2Proof.Machine

section
variable {h : Hw} {s : State} {d : Desc} {q : Req} {code : W16} {src : Byte}

/-! ## Acknowledging, clearing and reading (R360, R362) -/

/-- Acknowledging entries by their code leaves the lost entries' flag and the raises kept in no entry alone (R360, R440). -/
theorem Hw.faultAck_named (named : h.flt.hist.any (ackMatches code src) = true) (hc : code ≠ 0xFFFF) :
    h.faultAck code src q = (h.changeFaults (fun e => ackMatches code src e && !e.acked) (fun e => { e with acked := true })
      3 false).splitEnd.complete q .done := by
  have notAll : (code == 0xFFFF) = false := beq_eq_false_iff_ne.mpr hc
  simp only [Hw.faultAck, named, notAll, Bool.not_true, Bool.false_and, Bool.false_eq_true, if_false]

/-- What a clearing of the history leaves: nothing kept in no entry that is active no longer. -/
def Hw.clearHistory (h : Hw) (code : W16) (src : Byte) : Hw :=
  let g := h.changeFaults (clearable code src) (fun e => { e with active := false, cleared := true }) 4 true
  { g with flt := { g.flt with extra := g.flt.extra.filter (·.active) } }

theorem Hw.faultClear_workshop (hm : h.mode.mode = .workshop)
    (hit : (h.flt.hist ++ h.flt.extra).filter (clearable code src) ≠ []) :
    h.faultClear code src q = (((h.flt.hist ++ h.flt.extra).filter (clearable code src)).foldl Hw.uninhibit
      (h.clearHistory code src)).complete q .done := by
  have found : ((h.flt.hist ++ h.flt.extra).filter (clearable code src)).isEmpty = false := List.isEmpty_eq_false_iff.mpr hit
  simp only [Hw.faultClear, hm, found, bne_self_eq_false, Bool.false_eq_true, if_false, Hw.clearHistory]

theorem Hw.faultHistoryRead_aligned (ha : d.num 16 8 % 8 = 0) :
    h.faultHistoryRead d q = (h.emit (.dma (BitVec.ofNat 64 (d.num 16 8)) h.flt.bytes)).completeAt q .done
      (BitVec.ofNat 64 (usTick h.time.now.toNat)) :=
  if_neg (by simp [ha])

theorem Faults.bytes_length (f : Faults) : f.bytes.length = 8192 := slice_length _ _ _

theorem exec_faultAck (r : s.hw.RunsTo 0x0D04 d h) :
    exec (.faultAck d) s = .next (s.put (h.faultAck (BitVec.ofNat 16 (d.num 16 2)) (d.byte 18) d.req)) :=
  next_put_congr (Hw.descriptor_runs (own := fun q x => x.faultAck (BitVec.ofNat 16 (d.num 16 2)) (d.byte 18) q) r)

theorem exec_faultClear (r : s.hw.RunsTo 0x0D05 d h) :
    exec (.faultClear d) s = .next (s.put (h.faultClear (BitVec.ofNat 16 (d.num 16 2)) (d.byte 18) d.req)) :=
  next_put_congr (Hw.descriptor_runs (own := fun q x => x.faultClear (BitVec.ofNat 16 (d.num 16 2)) (d.byte 18) q) r)

theorem exec_faultHistoryRead (r : s.hw.RunsTo 0x0D06 d h) :
    exec (.faultHistoryRead d) s = .next (s.put (h.faultHistoryRead d d.req)) := next_put_congr (Hw.descriptor_runs r)

/-! ## A reversed LV battery (R411) -/

/-- A completion leaves the converter alone. -/
theorem Hw.complete_lv (q : Req) (st : Status) : (h.complete q st).lv = h.lv := by
  obtain kept : h.complete q st = _ := (q_iff _ _).1 (Hw.complete_q q st (q_refl h))
  rw [kept]

end

/-- Settles O31: the three commands on the fault history, each where it answers DONE. -/
theorem faultsAreAnswered : Obligations.FaultsAreAnswered := by
  unfold Obligations.FaultsAreAnswered
  refine ⟨?ack, ?clear, ?read, fun h => h.flt.bytes_length⟩
  case ack =>
    intro s d h r named hc
    rw [exec_faultAck r, Hw.faultAck_named named hc]
  case clear =>
    intro s d h r hm hit
    exact ⟨_, rfl, (exec_faultClear r).trans (next_put_congr (Hw.faultClear_workshop hm hit))⟩
  case read =>
    intro s d h r ha
    rw [exec_faultHistoryRead r, Hw.faultHistoryRead_aligned ha]

/-- Settles O10: the voltage is among the checks that come before anything of the converter is touched. -/
theorem reversedBatteryKeepsTheStageOff : Obligations.ReversedBatteryKeepsTheStageOff := by
  unfold Obligations.ReversedBatteryKeepsTheStageOff
  intro s d h r reversed
  rw [exec_lvControlForward_runs r, Hw.lvForward_range (.inr (.inr reversed))]
  exact ⟨rfl, Hw.complete_lv _ _⟩

end Sys2Proof.Machine
end

section
/-!
PROOF. The statements of 14_vehicle_networks.md on CAN: reception (R365, R367 to R370), transmission and error confinement (R371,
R372, R377, R387), and time-triggered operation (R374 to R376). For each operation on a channel one lemma per case says what it
answers; the statements are put together from these.
-/
namespace Sys2Proof.Machine

section
variable {h : Hw} {s : State} {d : Desc} {q : Req} {ch : Nat} {f : CanFrame}

/-! ## Reception (R367, R368) -/

/-- The channel once a frame has been received without error (R372). -/
def Hw.canHeard (h : Hw) (ch : Nat) : Hw := (h.modCan ch (fun c => { c with rec' := recDown c.rec' })).canConfine ch

/-- A frame that none of the module's own pairs takes and a pair of the host accepts goes to Q1 (R367). -/
theorem Hw.canReceived_accepted (on : h.canOn ch = true) (allowed : h.canAllows ch f.fmt = true)
    (foreign : h.ownPair ch f = false) (accepts : (h.can ch).acceptsQ1 f = true) :
    h.canReceived ch f = (h.canHeard ch).intoQ1 ch f := by
  simp only [Hw.canReceived, on, allowed, foreign, accepts, Bool.not_true, Bool.or_false, Bool.false_eq_true, if_false,
    if_true, Hw.canHeard]

theorem Hw.intoQ1_room (short : f.data.length ≤ 64) (room : (h.can ch).q1.length < 64) :
    h.intoQ1 ch f = (h.modCan ch (fun c => { c with q1 := c.q1 ++ [{ frame := f, time := h.time.now }], drop1 := false })).count
      (0x0A0 + 5 * ch) 1 := by
  simp [Hw.intoQ1, Nat.not_lt.mpr short, room]

theorem Hw.intoQ1_full (short : f.data.length ≤ 64) (full : 64 ≤ (h.can ch).q1.length) :
    h.intoQ1 ch f = h.canDrop ch (h.can ch).drop1 (fun c => { c with drop1 := true }) := by
  simp [Hw.intoQ1, Nat.not_lt.mpr short, Nat.not_lt.mpr full]

/-- A drop is counted, and reported where it begins a run of drops (R368). -/
theorem Hw.canDrop_eq (mark : CanCh → CanCh) :
    h.canDrop ch true mark = (h.modCan ch mark).count (0x0A2 + 5 * ch) 1 ∧
    h.canDrop ch false mark =
      ((h.modCan ch mark).count (0x0A2 + 5 * ch) 1).occur fltCanQueueOverflow (BitVec.ofNat 8 ch) := ⟨rfl, rfl⟩

/-! ## Records and the window lock (R369, R370) -/

/-- A frame of at most 32 bytes has its first record alone (R369). -/
theorem canRxMore_short (short : f.data.length ≤ 32) : canRxMore f = [] := by
  have noMore : (f.data.length - 32 + 47) / 48 = 0 := by omega
  simp [canRxMore, noMore]

theorem Hw.canPost_head {e : CanEntry} (up : h.netUp = true) (served : h.q1Served = true)
    (head : (h.can ch).rxHead = some (e, true)) (unlocked : (h.can ch).lock1 = none) (short : e.frame.data.length ≤ 32) :
    h.canPost ch = (h.modCan ch (fun c => { c with q1 := c.q1.drop 1 })).postTlm (h.par 0x0E12) 0x0E01 e.time
      (canRxBody e.frame ch) := by
  simp [Hw.canPost, up, served, head, unlocked, canRxMore_short short]

theorem Hw.canLock_head {e : CanEntry} {l : List CanEntry} (up : h.netUp = true) (head : (h.can ch).q1 = e :: l)
    (unlocked : (h.can ch).lock1 = none) :
    h.canLock ch true =
      (h.modCan ch (fun c => { c with lock1 := some h.time.clock })).emit (.canWindow ch true e.words) := by
  simp [Hw.canLock, up, head, unlocked]

theorem CanCh.release_locked {c : CanCh} {t : Nat} (locked : c.lock1 = some t) :
    c.release true = { c with lock1 := none, q1 := c.q1.drop 1 } := by
  simp [CanCh.release, locked]

theorem Hw.canFilterSet_inRange (onChannel : d.num 16 1 ≤ 3) (lo : 4 ≤ d.num 17 1) (hi : d.num 17 1 ≤ 63)
    (action : d.num 18 1 ≤ 2) :
    h.canFilterSet d q = (h.modCan (d.num 16 1) (fun c => { c with
      filters := c.filters.set (d.num 17 1) {
        action := d.num 18 1, formats := BitVec.ofNat 3 (d.num 19 1), match' := BitVec.ofNat 32 (d.num 20 4),
        mask := BitVec.ofNat 32 (d.num 24 4) } })).complete q .done :=
  if_neg (by simp [onChannel, lo, hi, action])

/-! ## Transmission (R371) -/

theorem Hw.canTx_queue (inRange : h.canTxFrame d = some f) (queue : d.num 18 1 = 0xFF) :
    h.canTx d q = h.modCan (d.num 16 1)
      (fun c => { c with tx := c.tx ++ [{ frame := f, req := some q, since := h.time.clock }] }) := by
  simp only [Hw.canTx, inRange, queue, if_true]

/-- A transmit buffer's older request ends SUPERSEDED (log 91: the model's choice). -/
theorem Hw.canTx_buffer (inRange : h.canTxFrame d = some f) (buffer : d.num 18 1 ≠ 0xFF) :
    h.canTx d q = (h.modCan (d.num 16 1) (fun c => { c with
      buffers := c.buffers.set (d.num 18 1) { frame := f, req := some q, since := h.time.clock } })).completeOpt
        (((h.can (d.num 16 1)).buffers.find (d.num 18 1)).bind (·.req)) .superseded := by
  simp only [Hw.canTx, inRange, buffer, if_false]

theorem Hw.canTx_outOfRange (bad : h.canTxFrame d = none) : h.canTx d q = h.complete q .range := by
  simp only [Hw.canTx, bad]

theorem Hw.canTxSent_first {t : CanTx} {rest : List CanTx} {sof : W64} (waits : (h.can ch).tx = t :: rest)
    (asked : t.req = some q) (on : h.canOn ch = true) (window : (h.can ch).mayArbitrate = true) :
    h.canTxSent ch sof = ((h.modCan ch (fun c => { c with tx := rest })).canSent ch t.frame).completeAt q .done sof := by
  simp only [Hw.canTxSent, waits, asked, on, window, Bool.not_true, Bool.or_false, Bool.false_eq_true, if_false]

theorem Hw.canTxTimeout_due {t : CanTx} {rest : List CanTx} (waits : (h.can ch).tx = t :: rest)
    (due : t.since + 100 * msTicks ≤ h.time.clock) :
    h.canTxTimeout ch = (h.modCan ch (fun c => { c with tx := rest })).completeOpt t.req .aborted := by
  simp only [Hw.canTxTimeout, waits, Nat.not_lt.mpr due, if_false]

/-! ## Error confinement and recovery (R372, R387) -/

/-- Each error moves one counter (log 87: the counts are the model's reading of ISO 11898-1). -/
theorem CanCh.struck_counts (c : CanCh) :
    c.struck .arbitration = c ∧ c.struck .transmit = { c with tec := c.tec + 8 } ∧
    c.struck .receive = { c with rec' := c.rec' + 1 } ∧ c.struck .receiveDominant = { c with rec' := c.rec' + 8 } :=
  ⟨rfl, rfl, rfl, rfl⟩

theorem Hw.canConfine_busOff (on : (h.can ch).err ≠ .busOff) (errors : 255 < (h.can ch).tec) :
    h.canConfine ch = h.canBusOff ch := by
  simp [Hw.canConfine, on, errors]

theorem Hw.canConfine_passive (active : (h.can ch).err = .active) (few : (h.can ch).tec ≤ 255)
    (errors : 127 < (h.can ch).tec ∨ 127 < (h.can ch).rec') :
    h.canConfine ch = ((h.modCan ch (fun c => { c with err := .passive })).count (0x0A3 + 5 * ch) 1).occur
      fltCanErrorPassive (BitVec.ofNat 8 ch) := by
  simp [Hw.canConfine, active, Nat.not_lt.mpr few, errors]

theorem Hw.canRestart_rejoins (onChannel : ch ≤ 3) (may : (h.can ch).mayRejoin h.time.clock = true) :
    h.canRestart ch q = (h.canRejoin ch).complete q .done := by
  simp only [Hw.canRestart, Nat.not_lt.mpr onChannel, may, if_false, if_true]

/-- A frame of the request identifier on the fallback channel runs as a descriptor where it has its 64 bytes (R377). -/
theorem Hw.fallbackRequest_addressed (on : h.canOn ch = true) (channel : h.fbChannel = some ch) (xl : f.fmt = .xl)
    (allowed : h.canAllows ch .xl = true) (addressed : f.word &&& 0x3FFFFFFF = BitVec.ofNat 32 (h.par 0x0E14 % 2 ^ 11)) :
    h.fallbackRequest ch f =
      if f.data.length = 64 then h.runRaw .can (rawOfBytes f.data) [] false else h.count 0x0BE 1 := by
  have taken : (!h.canOn ch || h.fbChannel != some ch || f.fmt != .xl || !h.canAllows ch .xl ||
      f.word &&& 0x3FFFFFFF != BitVec.ofNat 32 (h.par 0x0E14 % 2 ^ 11)) = false := by
    simp only [on, channel, xl, allowed, addressed, bne_self_eq_false, Bool.not_true, Bool.or_self]
  rw [Hw.fallbackRequest, taken, if_neg Bool.false_ne_true]
  by_cases whole : f.data.length = 64 <;> simp [whole]

/-! ## Time-triggered operation (R374 to R376) -/

section
variable {col : Nat} {seen : Option CanFrame} {buf word : Nat}

/-- The module once a window's column is open. -/
def Hw.openColumn (h : Hw) (ch col : Nat) : Hw := h.modCan ch (fun c => { c with column := some col })

theorem Hw.ttWindow_sends {t : CanTx} (cell : ((h.openColumn ch col).can ch).cell = some (1, buf, word))
    (found : ((h.openColumn ch col).can ch).refLost = false)
    (full : ((h.openColumn ch col).can ch).buffers.find buf = some t) :
    h.ttWindow ch col seen = ((((h.openColumn ch col).modCan ch (fun c => { c with
      buffers := c.buffers.set buf { t with req := none } })).canSent ch t.frame).completeOpt t.req .done) := by
  simp only [Hw.openColumn] at cell found full
  simp only [Hw.ttWindow, Hw.openColumn, cell, found, full, Bool.not_false, decide_true, Bool.and_self, if_true]

theorem Hw.ttWindow_silent (cell : ((h.openColumn ch col).can ch).cell = some (1, buf, word))
    (found : ((h.openColumn ch col).can ch).refLost = false)
    (empty : ((h.openColumn ch col).can ch).buffers.find buf = none) :
    h.ttWindow ch col seen = h.openColumn ch col := by
  simp only [Hw.openColumn] at cell found empty
  simp only [Hw.ttWindow, Hw.openColumn, cell, found, empty, Bool.not_false, decide_true, Bool.and_self, if_true]

theorem Hw.ttWindow_missed (cell : ((h.openColumn ch col).can ch).cell = some (2, buf, word))
    (unseen : seen.any (fun f => (f.word ^^^ BitVec.ofNat 32 word) &&& 0x3FFFFFFF == 0) = false) :
    h.ttWindow ch col seen = (h.openColumn ch col).modCan ch (fun c =>
      { c with missed := c.missed + 1, missedCycle := c.cycle, missedColumn := col }) := by
  simp only [Hw.openColumn] at cell
  simp only [Hw.ttWindow, Hw.openColumn, cell, unseen, OfNat.ofNat_ne_one, decide_false, decide_true, Bool.false_and,
    Bool.not_false, Bool.and_self, Bool.false_eq_true, if_false, if_true]

end

theorem Hw.canTtLoad_inRange {t : TtSchedule} (mode : h.mode.mode ≠ .baseCamp) (loads : d.num 24 4 ≠ 0)
    (aligned : d.num 16 8 % 8 = 0) (parsed : ttParse (slice d.dma 0 (d.num 24 4)) = some (ch, t)) :
    h.canTtLoad d q = (h.modCan ch (fun c => { c with ttNext := some (t, q) })).completeOpt ((h.can ch).ttNext.map (·.2))
      .superseded := by
  simp [Hw.canTtLoad, mode, loads, aligned, parsed]

theorem Hw.canTtLoad_leave (mode : h.mode.mode ≠ .baseCamp) (empty : d.num 24 4 = 0) : h.canTtLoad d q = h.ttLeave q := by
  simp [Hw.canTtLoad, mode, empty]

/-- A reference message on a channel with a schedule in force marks the beginning of a basic cycle (R374). -/
theorem Hw.ttReference_marks {cycle global : Nat} {own : Bool}
    (running : (((h.ttEnd ch cycle).ttBegin ch).can ch).tt.isSome = true) :
    h.ttReference ch cycle global own = ((h.ttEnd ch cycle).ttBegin ch).ttMark ch cycle (global % 2 ^ 16) own :=
  if_neg (by simp only [Option.isNone_iff_eq_none]; exact Option.isSome_iff_ne_none.mp running)

theorem Hw.ttMasterChange_due {t : TtSchedule} (running : (h.can ch).tt = some t)
    (potential : 8 ≤ h.par 0x0E16 / 2 ^ (4 * ch) % 16)
    (due : h.sinceRef ch (t.length + 8 * (h.par 0x0E16 / 2 ^ (4 * ch) % 16 % 8 + 1)) = true) :
    h.ttMasterChange ch = (h.ttMark ch (((h.can ch).cycle + 1) % 2 ^ t.cycles) 0 true).occur fltCanTtMasterChange
      (BitVec.ofNat 8 ch) := by
  simp only [Hw.ttMasterChange, running, Nat.not_lt.mpr potential, due, decide_false, Bool.not_true, Bool.or_self,
    Bool.false_eq_true, if_false]

theorem Hw.ttRefLost_due {t : TtSchedule} (running : (h.can ch).tt = some t) (found : (h.can ch).refLost = false)
    (due : h.sinceRef ch (2 * t.length) = true) :
    h.ttRefLost ch =
      (h.modCan ch (fun c => { c with refLost := true })).raiseOnce fltCanTtRefLost (BitVec.ofNat 8 ch) := by
  simp only [Hw.ttRefLost, running, found, due, Bool.not_true, Bool.or_self, Bool.false_eq_true, if_false]

end

/-! ## The commands -/

section
variable {h : Hw} {s : State} {d : Desc} {ch : Fin 4}

theorem exec_canFilterSet (r : s.hw.RunsTo 0x0E03 d h) :
    exec (.canFilterSet d) s = .next (s.put (h.canFilterSet d d.req)) := next_put_congr (Hw.descriptor_runs r)

theorem exec_canTx (r : s.hw.RunsTo 0x0E02 d h) : exec (.canTx d) s = .next (s.put (h.canTx d d.req)) :=
  next_put_congr (Hw.descriptor_runs r)

theorem exec_canTtLoad (r : s.hw.RunsTo 0x0E04 d h) : exec (.canTtLoad d) s = .next (s.put (h.canTtLoad d d.req)) :=
  next_put_congr (Hw.descriptor_runs r)

theorem exec_canBusoffRestart (r : s.hw.RunsTo 0x0E05 d h) :
    exec (.canBusoffRestart d) s = .next (s.put (h.canRestart (d.num 16 1) d.req)) :=
  next_put_congr (Hw.descriptor_runs (own := fun q x => x.canRestart (d.num 16 1) q) r)

theorem exec_canQueueRelease_up {q1 : Bool} (up : s.hw.netUp = true) :
    exec (.canQueueRelease ch q1) s = .next (s.put (s.hw.modCan ch.val (fun c => c.release q1))) := next_put_congr (if_pos up)

theorem exec_canBusError_on {e : CanError} (on : s.hw.canOn ch.val = true) :
    exec (.canBusError ch e) s = .next (s.put ((s.hw.modCan ch.val (fun c => c.struck e)).canConfine ch.val)) :=
  next_put_congr (if_pos on)

/-- Recovery is automatic, or waits for a CAN_BUSOFF_RESTART (R372). -/
theorem exec_canBusoffRecovery_rejoins {n : Nat} (up : s.hw.netUp = true) (enough : 128 ≤ n)
    (may : (s.hw.can ch.val).mayRejoin s.hw.time.clock = true)
    (asked : s.hw.par 0x0E11 = 0 ∨ (s.hw.can ch.val).restart = true) :
    exec (.canBusoffRecovery ch n) s = .next (s.put (s.hw.canRejoin ch.val)) :=
  next_put_congr (if_pos (by simp [up, enough, may, asked]))

theorem exec_canTxvrFault_reported (up : s.hw.netUp = true) :
    exec (.canTxvrFault ch true) s = .next (s.put ((s.hw.modCan ch.val (fun c => { c with txvrFault := true })).raiseOnce
      fltCanTxvrFault (BitVec.ofNat 8 ch.val))) :=
  next_put_congr ((if_neg (by simp [up])).trans (if_pos rfl))

theorem exec_canTtWindow_on {col : Fin 64} {seen : Option CanFrame} (on : s.hw.canOn ch.val = true) :
    exec (.canTtWindow ch col seen) s = .next (s.put (s.hw.ttWindow ch.val col.val seen)) := next_put_congr (if_pos on)

/-- A reference message of the module's own is that of a potential master (R376). -/
theorem exec_canTtReference_on {cycle global : Nat} {own : Bool} (on : s.hw.canOn ch.val = true)
    (who : own = false ∨ s.hw.ttPotential ch.val = true) :
    exec (.canTtReference ch cycle global own) s = .next (s.put (s.hw.ttReference ch.val cycle global own)) :=
  next_put_congr (if_pos (by simpa [on] using who))

theorem exec_canTtMasterChange_on (on : s.hw.canOn ch.val = true) :
    exec (.canTtMasterChange ch) s = .next (s.put (s.hw.ttMasterChange ch.val)) := next_put_congr (if_pos on)

theorem exec_canTtRefLost_up (up : s.hw.netUp = true) :
    exec (.canTtRefLost ch) s = .next (s.put (s.hw.ttRefLost ch.val)) := next_put_congr (if_pos up)

end

/-- Settles O11: what the window does for each kind of exclusive cell. -/
theorem exclusiveCellsSendOrCount : Obligations.ExclusiveCellsSendOrCount := by
  unfold Obligations.ExclusiveCellsSendOrCount
  refine ⟨?sends, ?silent, ?missed⟩
  case sends =>
    rintro s ch col seen h buf word t on rfl cell found full
    exact (exec_canTtWindow_on on).trans (next_put_congr (Hw.ttWindow_sends cell found full))
  case silent =>
    rintro s ch col seen h buf word on rfl cell found empty
    exact ⟨(exec_canTtWindow_on on).trans (next_put_congr (Hw.ttWindow_silent cell found empty)), rfl⟩
  case missed =>
    rintro s ch col seen h buf word on rfl cell unseen
    exact (exec_canTtWindow_on on).trans (next_put_congr (Hw.ttWindow_missed cell unseen))

/-- Settles O56: a frame on its way from the bus to the host, and the filters that let it in. -/
theorem framesAreReceived : Obligations.FramesAreReceived := by
  unfold Obligations.FramesAreReceived
  refine ⟨?taken, ?dropped, fun _ _ => Hw.canDrop_eq, ?posted, ?locked, fun _ _ _ => exec_canQueueRelease_up,
    fun _ _ => CanCh.release_locked, fun _ _ => rfl, ?filter⟩
  case taken =>
    rintro s ch f h on allowed rfl foreign accepts short room
    exact next_put_congr ((Hw.canReceived_accepted on allowed foreign accepts).trans (Hw.intoQ1_room short room))
  case dropped =>
    rintro s ch f h on allowed rfl foreign accepts short full
    exact next_put_congr ((Hw.canReceived_accepted on allowed foreign accepts).trans (Hw.intoQ1_full short full))
  case posted =>
    rintro s ch e h up served head unlocked rfl short
    exact next_put_congr (Hw.canPost_head up served head unlocked short)
  case locked => exact fun s ch e l up head unlocked => next_put_congr (Hw.canLock_head up head unlocked)
  case filter =>
    intro s d h r onChannel lo hi action
    rw [exec_canFilterSet r, Hw.canFilterSet_inRange onChannel lo hi action]

/-- Settles O57: a request on its way to the bus, and the channel's states after errors. -/
theorem framesAreSent : Obligations.FramesAreSent := by
  unfold Obligations.FramesAreSent
  refine ⟨?queued, ?buffered, ?refused, ?sent, ?timeout, fun _ _ _ => exec_canBusError_on, CanCh.struck_counts,
    fun _ _ => Hw.canConfine_busOff, fun _ _ => Hw.canConfine_passive, fun _ _ _ => exec_canBusoffRecovery_rejoins, ?restart,
    fun _ _ => exec_canTxvrFault_reported, ?fallback⟩
  case queued =>
    intro s d h f r inRange queue
    rw [exec_canTx r, Hw.canTx_queue inRange queue]
  case buffered =>
    intro s d h f r inRange buffer
    rw [exec_canTx r, Hw.canTx_buffer inRange buffer]
  case refused =>
    intro s d h r bad
    rw [exec_canTx r, Hw.canTx_outOfRange bad]
  case sent =>
    exact fun s ch sof t rest q waits asked on may => next_put_congr (Hw.canTxSent_first waits asked on may)
  case timeout => exact fun s ch t rest waits due => next_put_congr (Hw.canTxTimeout_due waits due)
  case restart =>
    intro s d h r onChannel may
    rw [exec_canBusoffRestart r, Hw.canRestart_rejoins onChannel may]
  case fallback =>
    exact fun s ch f on channel xl allowed addressed =>
      next_put_congr (Hw.fallbackRequest_addressed on channel xl allowed addressed)

/-- Settles O58: a schedule from its load to its reference mark, the change of master, and the loss of the reference. -/
theorem timeTriggeredChannels : Obligations.TimeTriggeredChannels := by
  unfold Obligations.TimeTriggeredChannels
  refine ⟨?load, ?leave, ?reference, ?master, ?lost⟩
  case load =>
    intro s d h ch t r mode length aligned parsed
    rw [exec_canTtLoad r, Hw.canTtLoad_inRange mode length aligned parsed]
  case leave =>
    intro s d h r mode length
    rw [exec_canTtLoad r, Hw.canTtLoad_leave mode length]
  case reference =>
    rintro s ch cycle global own h on who rfl running
    rw [exec_canTtReference_on on who, Hw.ttReference_marks running]
  case master =>
    rintro s ch t m on running rfl potential due
    rw [exec_canTtMasterChange_on on, Hw.ttMasterChange_due running potential due]
  case lost =>
    intro s ch t up running found due
    rw [exec_canTtRefLost_up up, Hw.ttRefLost_due running found due]

end Sys2Proof.Machine
end

section
/-!
PROOF. The statement of 15_rope_team.md: roles (R389), pair frames (R390), the partner's PARTNER_OK (R391, R394, R395) and the
frames that stay away (R393 to R395). For each operation on the team one lemma per case says what it answers; the statement is put
together from these.
-/
namespace Sys2Proof.Machine

section
variable {h : Hw} {s : State}

/-! ## Roles (R389) -/

/-- Preferences that agree leave the roles to the serial numbers, and conflict. -/
theorem pairRoles_agree (own other : Nat) (lead : Bool) :
    pairRoles lead lead own other = (decide (own < other), decide (own < other), true) := if_pos (beq_self_eq_true lead)

theorem pairRoles_differ {mine theirs : Bool} (differ : mine ≠ theirs) (own other : Nat) :
    pairRoles mine theirs own other = (mine, mine, false) := if_neg (by simpa using differ)

/-- Modules of different preference take the roles they prefer; one that joined later is no LEAD. -/
theorem Hw.pairExchange_differ {theirs late : Bool} {serial : Nat} (fresh : h.pair.exchanged = false)
    (differ : (h.par 0x0F02 == 0) ≠ theirs) :
    h.pairExchange (some (theirs, serial)) late = ({ h with pair := { h.pair with
      partner := true, frameAt := h.time.now.toNat, lead := (h.par 0x0F02 == 0) && !late, holder := h.par 0x0F02 == 0,
      exchanged := true } } : Hw).holderDrives := by
  simp only [Hw.pairExchange, fresh, pairRoles_differ differ, Bool.false_eq_true, if_false]

theorem exec_pairRoleExchange_roped {partner : Option (Bool × Nat)} {late : Bool} (awake : s.hw.awake = true)
    (roped : s.hw.roped = true) (link : s.hw.par 0x0E17 = 0) :
    exec (.pairRoleExchange partner late) s = .next (s.put (s.hw.pairExchange partner late)) :=
  next_put_congr (if_pos (by simp [awake, roped, link]))

/-! ## Pair frames (R390) -/

/-- The frame carries the number before it moves on (log 97: the model's choice). -/
theorem Hw.pairSend_linked (on : h.pairOn = true) (up : h.net.e1Up = true) :
    h.pairSend = ((({ h with pair := { h.pair with seq := h.pair.seq + 1 } } : Hw).emit (.pair h.pairFrame)).count 0x0C0
      1).count 0x0BB 1 :=
  if_neg (by simp [on, up])

theorem Hw.pairFrame_fields (h : Hw) :
    h.pairFrame.seq = h.pair.seq ∧ h.pairFrame.second = !h.pair.lead ∧ h.pairFrame.okDriven = h.partnerOk ∧
    h.pairFrame.periodStart = h.ctlA.periodStart := ⟨rfl, rfl, rfl, rfl⟩

theorem exec_pairFrameReceived_bad {f : PairFrame} (on : s.hw.pairOn = true) (bad : f.crcOk = false) :
    exec (.pairFrameReceived f) s = .next (s.put ((s.hw.count 0x0BA 1).count 0x0C2 1)) :=
  next_put_congr ((if_neg (by simp [on])).trans (if_neg (by simp [bad])))

theorem exec_pairFrameReceived_good {f : PairFrame} (on : s.hw.pairOn = true) (good : f.crcOk = true) :
    exec (.pairFrameReceived f) s = .next (s.put (s.hw.pairTake f)) :=
  next_put_congr ((if_neg (by simp [on])).trans (if_pos good))

/-! ## PARTNER_OK (R391, R394, R395) -/

theorem Hw.partnerOpen_closed (closed : h.pair.okIn = true) :
    h.partnerOpen =
      (({ h with pair := { h.pair with okIn := false, opened := true } } : Hw).count 0x0C5 1).pairJudge :=
  if_neg (by simp [closed])

theorem exec_partnerOkOpen_roped (awake : s.hw.awake = true) (roped : s.hw.roped = true) :
    exec .partnerOkOpen s = .next (s.put s.hw.partnerOpen) := next_put_congr (if_pos (by simp [awake, roped]))

theorem exec_partnerOkClose_roped (awake : s.hw.awake = true) (roped : s.hw.roped = true) :
    exec .partnerOkClose s = .next (s.put ({ s.hw with pair := { s.hw.pair with okIn := true, opened := false } } :
      Hw).pairJudge) :=
  next_put_congr (if_pos (by simp [awake, roped]))

theorem exec_pairOkMismatch_held (on : s.hw.pairOn = true) (mismatch : s.hw.pairMismatch = true)
    (held : heldFor s.hw.pair.mismatchAt msTicks s.hw.time.now.toNat = true) :
    exec .pairOkMismatch s = .next (s.put (s.hw.raiseOnce fltPairOkMismatch 0xFF)) :=
  next_put_congr (if_pos (by simp [on, mismatch, held]))

/-! ## Frames that stay away (R393 to R395) -/

theorem exec_pairFrameTimeout_partnered (on : s.hw.pairOn = true) (partner : s.hw.pair.partner = true) :
    exec .pairFrameTimeout s = .next (s.put s.hw.pairTimeout) := next_put_congr (if_pos (by simp [on, partner]))

theorem Hw.pairTimeout_fresh (fresh : h.pairStale msTicks = false) : h.pairTimeout = h.pairJudge := by
  simp only [Hw.pairTimeout, fresh, Bool.not_false, if_true]

theorem Hw.pairTimeout_linkLost (stale : h.pairStale msTicks = true) (closed : h.pair.okIn = true) :
    h.pairTimeout = ((({ h.pairJudge with pair := { h.pairJudge.pair with linkLost := true } } : Hw).loopGone .brA).loopGone
      .brB).raiseOnce fltPairLinkLost 0xFF := by
  simp only [Hw.pairTimeout, stale, closed, Bool.not_true, Bool.false_eq_true, if_false, if_true]

/-- With PARTNER_OK closed, frames that stay away change nothing of what is taken over (R395). -/
theorem Hw.takeOver_stale {b : Bridge} (closed : h.pair.opened = false) (stale : h.pairStale (500 * usTicks) = true) :
    h.takeOver b = h.taken b := by
  simp only [Hw.takeOver, closed, stale, Bool.false_eq_true, if_false, if_true]

end

/-- Settles O60: the roles of a wake, each frame sent and received, PARTNER_OK, and the frames that stay away. -/
theorem teamSharesItsRoles : Obligations.TeamSharesItsRoles := by
  unfold Obligations.TeamSharesItsRoles
  refine ⟨?roles, pairRoles_agree, fun _ on up => next_put_congr (Hw.pairSend_linked on up), Hw.pairFrame_fields,
    fun _ _ => exec_pairFrameReceived_bad, fun _ _ => exec_pairFrameReceived_good, ?opens,
    fun _ => exec_partnerOkClose_roped, ?judged, ?linkLost, fun _ => exec_pairOkMismatch_held, fun _ _ => Hw.takeOver_stale⟩
  case roles =>
    intro s theirs serial late awake roped link fresh differ
    rw [exec_pairRoleExchange_roped awake roped link, Hw.pairExchange_differ fresh differ]
  case opens =>
    intro s awake roped closed
    rw [exec_partnerOkOpen_roped awake roped, Hw.partnerOpen_closed closed]
  case judged =>
    intro s on partner fresh
    rw [exec_pairFrameTimeout_partnered on partner, Hw.pairTimeout_fresh fresh]
  case linkLost =>
    rintro s x on partner rfl stale closed
    rw [exec_pairFrameTimeout_partnered on partner, Hw.pairTimeout_linkLost stale closed]

end Sys2Proof.Machine
end
